-- ==== Sys2Proof/Word.lean ====
section
/-! DEFINITION. The word types of the Darore: the 16-bit host word, the 32-bit Cantle and debug word,
bytes, the 48-bit timestamp, and tables indexed by a unit number. -/

namespace Sys2Proof

/-- A byte (R7: bit 0 is the least significant). -/
abbrev Byte := BitVec 8
/-- A host word (R13, Table RM-1: 512 words of 16 bits). -/
abbrev W16 := BitVec 16
/-- A Cantle, debug or CRC word. -/
abbrev W32 := BitVec 32
/-- A TSTAMP value in microseconds (R92). -/
abbrev TStamp := BitVec 48

/-- The table whose entry `i` is `f i`. -/
def vec {α : Type} {n : Nat} (f : Fin n → α) : Vector α n := ⟨⟨List.ofFn f⟩, by simp⟩

@[simp] theorem get_vec {α : Type} {n : Nat} (f : Fin n → α) (i : Nat) (h : i < n) :
    (vec f)[i] = f ⟨i, h⟩ := by
  simp [vec]

/-- The table `v` with entry `i` replaced by `f` of it. -/
def upd {α : Type} {n : Nat} (v : Vector α n) (i : Fin n) (f : α → α) : Vector α n :=
  v.set i.1 (f v[i.1])

@[simp] theorem get_upd {α : Type} {n : Nat} (v : Vector α n) (i : Fin n) (f : α → α) (j : Nat)
    (h : j < n) : (upd v i f)[j] = if i.1 = j then f v[j] else v[j] := by
  unfold upd
  rw [Vector.getElem_set]
  split
  · next e => subst e; rfl
  · rfl

/-- Every entry of `v` changed by `f`, which sees the entry's index. -/
def mapv {α β : Type} {n : Nat} (f : Fin n → α → β) (v : Vector α n) : Vector β n :=
  vec fun i => f i v[i.1]

@[simp] theorem get_mapv {α β : Type} {n : Nat} (f : Fin n → α → β) (v : Vector α n) (j : Nat)
    (h : j < n) : (mapv f v)[j] = f ⟨j, h⟩ v[j] := by
  simp [mapv]

end Sys2Proof
end

