-- ==== Sys2Proof/Config.lean ====
section
/-! DEFINITION. What a committed configuration image fixes (Table LV-3), the free values the spec leaves open,
and the operand types of the commands. -/

namespace Sys2Proof

/-- What a read cycle of the host bus meets: it starts less than 120 ns after the access before (R668); an update of the word falls
due in its sample window and is held (R671). -/
structure ReadCycle where
  soon : Bool := false
  held : Bool := false
  deriving DecidableEq, Repr

namespace Config

/-- Free value: a word the spec leaves open. No body, so no proof can see its value. It is applied to the
state's `free` counter, which the meaning that uses it advances. -/
opaque freeWord : Nat → BitVec 64

/-- Free value: a choice between two behaviours the spec leaves open (R61, R329 and the like). -/
opaque freeBit : Nat → Bool

/-- Free value: the password salt drawn from the internal random source (R477), 16 bytes. -/
opaque freeSalt : Nat → List Byte

/-- The 64-bit number fused into this device (SY_UID, R478). A device constant the spec does not number. -/
opaque uid : BitVec 64

/-- Device constants of the descriptors that Table UM-2 does not give: iConfiguration (0) and bInterval (1). -/
opaque usbByte : Nat → Byte

end Config

/-! ### The committed image: each RI word exactly as the record holds it (R475) -/

/-- INPUT record: WF_ICFG, WF_ITH, WF_IHY, WF_INOM. -/
structure InputCfg where
  icfg : W16 := 0
  ith : W16 := 0
  ihy : W16 := 0
  inom : W16 := 0
  deriving DecidableEq, Repr

/-- HEAD record: HD_CFG, HD_PFILT, HD_TSTAND, HD_DSYS, HD_VMAX and the two copies of the section mask. -/
structure HeadCfg where
  cfg : W16 := 0
  pfilt : W16 := 0x000F
  tstand : W16 := 0
  dsys : W16 := 0
  vmax : W16 := 0
  mask1 : W32 := 0
  mask2 : W32 := 0xFFFFFFFF
  deriving DecidableEq, Repr

/-- BERTH record: BR_CFG to BR_DOORS. -/
structure BerthCfg where
  cfg : W16 := 0
  amin : W16 := 0
  amax : W16 := 0
  stop : W16 := 0
  tstill : W16 := 0
  doors : W16 := 0
  deriving DecidableEq, Repr

/-- CHANNEL record: DC_CFG to DC_DEGTIME. -/
structure ChanCfg where
  cfg : W16 := 0
  time : W16 := 0
  disc : W16 := 0
  ramp : W16 := 0
  rdly : W16 := 0
  vmax : W16 := 0
  vtol : W16 := 0
  vcreep : W16 := 0
  tscale : W16 := 0
  degcyc : W16 := 0
  degtime : W16 := 0
  deriving DecidableEq, Repr

/-- TELEGRAM record: TG_NODE to TG_CSLIM. -/
structure TgCfg where
  node : W16 := 0
  cpeer0 : W16 := 0
  cpeer1 : W16 := 0
  cmask : Vector W16 4 := Vector.replicate 4 0
  skew : W16 := 0
  win : W16 := 0
  efresh : W16 := 0
  cfresh : W16 := 0
  eslim : W16 := 0
  cslim : W16 := 0
  deriving DecidableEq, Repr

/-- ETHERNET record: EN_PHY to EN_CYCLE. -/
structure EnCfg where
  phy : W16 := 0x0020
  etype : W16 := 0x88B5
  mac : Vector W16 3 := Vector.replicate 3 0
  dmac : Vector W16 3 := Vector.replicate 3 0
  vlan : W16 := 0
  cycle : W16 := 0
  deriving DecidableEq, Repr

/-- CAN record: CN_CTL to CN_TDC. -/
structure CnCfg where
  ctl : W16 := 0
  cycle : W16 := 0
  nbt : W16 := 0
  dbt : W16 := 0
  sjw : W16 := 0
  tdc : W16 := 0
  deriving DecidableEq, Repr

/-- CHECK record: CKn_CFG, CKn_PAR, CKn_EXP0, CKn_EXP1. -/
structure CkCfg where
  cfg : W16 := 0
  par : W16 := 0
  exp : W32 := 0
  deriving DecidableEq, Repr

/-- EVENT record: ring depth codes, the class words and the class of every event code. -/
structure EventCfg where
  depth0 : W16
  depth1 : W16
  cls : List W16
  codes : List Byte
  deriving DecidableEq, Repr

/-- SEQUENCER record (CS_CFG, CS_ENTRY, CS_VBASE and the program lengths of R546). -/
structure SeqCfg where
  ilen : W32 := 0
  dlen : W32 := 0
  cfg : W16 := 0
  entry : W16 := 0
  vbase : W16 := 0
  deriving DecidableEq, Repr

/-- A whole committed image (Table LV-3). Its default is "no image": every RI field at its reset value (R19). -/
structure Image where
  imageId : W32 := 0
  site : List Byte := []
  input : Vector InputCfg 64 := Vector.replicate 64 {}
  head : Vector HeadCfg 32 := Vector.replicate 32 {}
  tack : List Byte := []
  section_ : Vector W16 32 := Vector.replicate 32 0
  berth : Vector BerthCfg 8 := Vector.replicate 8 {}
  chan : Vector ChanCfg 16 := Vector.replicate 16 {}
  estop : W16 := 0
  tg : TgCfg := {}
  en : EnCfg := {}
  cn : CnCfg := {}
  ck : Vector CkCfg 4 := Vector.replicate 4 {}
  event : Option EventCfg := none
  ledger : W16 := 0x0048
  progBank : W16 := 0
  progLen : W32 := 0
  progCrc : W32 := 0
  seqr : SeqCfg := {}
  deriving DecidableEq, Repr

/-! ### Operands of the commands: what the pins, the media and the self-tests show at the command -/

/-- The port an access comes from (Table RM-20, R42). -/
inductive Port where
  | bus | usb
  deriving DecidableEq, Repr

/-- The index of a port: 0 host bus, 1 USB. -/
def Port.ix : Port → Fin 2
  | .bus => 0
  | .usb => 1

/-- What the ECC finds in a word that is read (R198, R526, R543). -/
inductive Ecc where
  | good | corrected | uncorrectable
  deriving DecidableEq, Repr

/-- One lane's signal at a sample instant (Table WF-2): in mode LOOP the two 100 kS/s values that the chain averages, in mode AMPLITUDE
the output of the envelope filter as `val`; the DC current in 10 µA and the carrier frequency in 100 Hz (0 when not measured). The
filters before these points are analogue or have no coefficients in the spec (log entry 104). -/
structure LaneReading where
  val : BitVec 12 := 0
  second : BitVec 12 := val
  idc : BitVec 12 := 0
  freq : BitVec 10 := 0
  deriving DecidableEq, Repr

/-- What the test points of Table WF-6 give for a lane: offset in 0.01% of full scale, errors at points 2 and 3 in 0.01%
of the reading, and whether both fault comparators answered. -/
structure ProveMeas where
  off : W16 := 0
  low : W16 := 0
  high : W16 := 0
  cmp : Bool := true
  deriving DecidableEq, Repr

/-- The inputs of a sample instant: every lane's result and, for each group, the measurement of the lane a proving
completes on. -/
structure LaneInputs where
  lane : Vector LaneReading 72
  meas : Vector ProveMeas 8
  deriving DecidableEq, Repr

/-- What a safety tick takes from the pins and from its own diagnostics: SRBA and SRBB of every channel, the block code of a
failed diagnostic (Table SY-15, 0 none) and whether the two berth evaluations of R247 differ. -/
structure TickInputs where
  srba : W16
  srbb : W16
  diag : W16
  mismatch : Bool
  deriving DecidableEq, Repr

/-- What PROVE reads of the two field copies of the stitch map (R513, Table ST-3): both as they were written, one invalid, or no
map. -/
inductive MapFind where
  | valid | oneInvalid (copy : Fin 2) | noMap
  deriving DecidableEq, Repr

/-- A row that failed the march test, and how many spares fail before one passes (R521). Areas 0 to 7 are the SRAM banks, 8
and 9 Cantle instruction and data memory. -/
structure RowFind where
  area : Fin 10
  row : Byte
  badSpares : Nat
  deriving DecidableEq, Repr

/-- The findings of PROVE steps 1 to 9 (Table SY-7). -/
structure ProveFindings where
  /-- Step 1: 0 good, else the SY_SAFEINFO of Table SY-12: 1 REFCLK, 2 system clock, 3 lock, 4 injected window not detected. -/
  clock : BitVec 3 := 0
  maps : MapFind := .valid
  bist : Bool := true
  rows : List RowFind := []
  /-- Step 5: current configuration and program banks readable; a sector of the ledger or change log fails; the append
  engines answer. -/
  banks : Bool := true
  ledgerBad : Bool := false
  clogBad : Bool := false
  ledgerEngine : Bool := true
  clogEngine : Bool := true
  lanes : Vector ProveMeas 72 := Vector.replicate 72 {}
  /-- Step 7: outputs whose stage test fails (bit 2c STOA, bit 2c + 1 STOB) with the level commanded at the failure, sources
  that fail, inputs that read closed with every source low. -/
  stages : BitVec 32 := 0
  stageCmd : BitVec 32 := 0
  sources : BitVec 4 := 0
  closed : BitVec 66 := 0
  /-- Step 8: failing check units. -/
  ck : Byte := 0
  /-- TSTAMP at the end of each of steps 1 to 9, in microseconds. -/
  ends : List Nat := [2000, 7000, 257000, 457000, 857000, 1457000, 1757000, 1767000, 1769000]
  deriving DecidableEq, Repr

/-- A structure that load step 3 loads and step 4 reads back (Table SY-8): the RI fields, the section masks, the tack table, the Cantle
memories. -/
inductive LoadStruct where
  | fields | masks | tack | cantle
  deriving DecidableEq, Repr

/-- The findings of the configuration load (Table SY-8): the media read of the bank and of the program image, readback
mismatches of a structure at the first and the second try, the vault write of the load number, the writes of the sequence marks, and
the times of steps 1 to 6 after the end of PROVE step 9, in microseconds. -/
structure LoadFindings where
  bankReads : Bool := true
  progReads : Bool := true
  mismatch1 : Bool := false
  mismatch2 : Bool := false
  mismatchOf : LoadStruct := .fields
  vaultOk : Bool := true
  marksOk : Bool := true
  ends : List Nat := [20000, 60000, 140000, 180000, 200000, 220000]
  deriving DecidableEq, Repr

/-- A commit: whether its change-log entry and its vault record can be written (Table LV-4 steps 5 and 6), and the ends of steps 2
to 7, in µs from the command. -/
structure CommitFindings where
  entryOk : Bool := true
  vaultOk : Bool := true
  ends : List Nat := [250000, 400000, 550000, 560000, 570000, 580000]
  deriving DecidableEq, Repr

/-- A CAN frame as received: identifier, extended, remote and classic formats, data. -/
structure CanFrame where
  ident : BitVec 11
  ext : Bool := false
  remote : Bool := false
  classic : Bool := false
  data : List Byte
  deriving DecidableEq, Repr

/-- An Ethernet frame as received: the octets from the destination address up to but without the FCS, whether the FCS is
right and whether ETHx_RXER was asserted. -/
structure EthFrame where
  octets : List Byte
  fcsOk : Bool := true
  rxer : Bool := false
  deriving DecidableEq, Repr

/-- A CAN bus error (ISO 11898-1): the error code of CN_STAT.LEC and whether the controller was transmitting. `eight`: a receiver's
error that counts 8, a dominant bit first after its error flag or a bit error while it sends an active error or overload flag.
`arb`: a transmitter's stuff error during arbitration on a recessive stuff bit monitored dominant, which counts nothing.
`dominant`: a dominant bit is seen while the passive error flag is sent. -/
structure CanErr where
  lec : BitVec 3
  tx : Bool
  eight : Bool := false
  arb : Bool := false
  dominant : Bool := false
  deriving DecidableEq, Repr

/-- What a check unit finds in itself at a block end or a returned value: nothing, a shadow difference (R420), or a FIFO parity error
(R426). -/
inductive CkFinding where
  | good | shadow | parity
  deriving DecidableEq, Repr

/-- Result of the tightened read of one sector (R530). -/
inductive Margin where
  | good | weak | failed
  deriving DecidableEq, Repr

/-- The wire a debug frame comes on ("Debug and run control"). -/
inductive Wire where
  | dio | rstd
  deriving DecidableEq, Repr

/-- A debug frame as the probe sends it (R618, Table DB-1): the header with W, REG and P, and the DATA and CHK of a write
(not looked at in a read). -/
structure DbFrame where
  wire : Wire
  hdr : Byte
  data : W32 := 0
  chk : Byte := 0
  deriving DecidableEq, Repr

/-- What the NVM finds for the writes of a WRITE_REGS request: the change-log entry, the vault record and the chunk are written,
and a fetched item has its CRC right, or its three copies agreeing for a fault cell. -/
structure WriteFindings where
  entryOk : Bool := true
  vaultOk : Bool := true
  ends : List Nat := [250000, 400000, 550000, 560000, 570000, 580000]
  nvmOk : Bool := true
  crcOk : Bool := true
  deriving DecidableEq, Repr

/-- A USB control request: bmRequestType, wValue, wIndex, wLength and the OUT data. -/
structure UsbReq where
  rtype : Byte
  value : W16 := 0
  index : W16 := 0
  length : W16 := 0
  data : List Byte := []
  deriving DecidableEq, Repr

end Sys2Proof
end

