-- ==== Sys2Proof/Syntax.lean ====
section
/-! DEFINITION. The commands of the Darore: one constructor for each row of the table of operations and events. -/

namespace Sys2Proof

/-- A command: an access from a port, a frame, an event on a pin, an instant of the device's own time, or one Cantle
instruction. The operands are what the command brings from outside the block (the table gives a row no bits). -/
inductive Instr where
  /-- POWER_ON_RESET (R56): A supply rising from below its off level puts the Darore into RESET and records POR. -/
  | powerOnReset
  /-- BROWN_OUT (R750): A good supply falling below its falling threshold for 2 µs or more removes STO at once and enters RESET. -/
  | brownOut (supply : BitVec 4) (durNs : Nat) (belowOff : Bool)
  /-- RSTD_LOW_PULSE (R60): A low pulse on RSTD# is classed by width as filtered, debug symbol, ignored (SY_RSTDIGN counted) or reset. -/
  | rstdLowPulse (widthNs : Nat)
  /-- RESET_EXIT (R65): When the last reset source goes inactive, the PLL locks, the fuses are read, BOOTSEL is sampled and TSTAMP starts. -/
  | resetExit (bootsel : BitVec 2) (sources : BitVec 2)
  /-- PLL_LOCK_TIMEOUT (R66): If the PLL has not locked 5 ms after RESET exit began, the Darore goes to SAFE with cause CLOCK without running PROVE. -/
  | pllLockTimeout (bootsel : BitVec 2)
  /-- PROVE (R69): The self-test steps 1 to 9 run in order, and failures are handled by Table SY-12. The command runs the steps not yet run up to step `upTo`; 9 runs PROVE to its end. -/
  | prove (upTo : Fin 10) (f : ProveFindings)
  /-- CONFIGURATION_LOAD (R72): After PROVE with BOOTSEL 0b00, the current bank is verified and loaded, the load number rises, heads and ports start, and the mode changes at the next tick. The command runs the load steps not yet run up to step `upTo`; 6 runs the load to its end. -/
  | configurationLoad (upTo : Fin 7) (f : LoadFindings)
  /-- SAFETY_TICK (R22): Every 100 µs the Darore latches its inputs and evaluates DRP, release, the door channels, the outputs and the reports in order. -/
  | safetyTick (inputs : TickInputs)
  /-- LANE_SAMPLE (R108): Every 20 µs each input yields a detection sample, with the detection bit and the fault bands evaluated. -/
  | laneSample (i : LaneInputs)
  /-- HEAD_BUSY (R161): A head whose phase has been non-IDLE for the presence filter time becomes BUSY, and its sections go OCCUPIED. -/
  | headBusy (h : Fin 32)
  /-- STANDING_TIMEOUT (R172): A head with no change of DA or DB for T_stand raises STANDING and its standing event. -/
  | standingTimeout (h : Fin 32)
  /-- WALK (R194): The walker takes the next FIFO entry, checks the directory and link words and applies all count updates or none. -/
  | walk (ecc : Vector Ecc 33)
  /-- TACK_REFRESH_DONE (R220): A completed tack refresh verifies the header CRC and resumes the walker. -/
  | tackRefreshDone (imageReads crcOk : Bool)
  /-- SECTION_MASK_MISMATCH (R182): A mismatch between a head's two mask copies disturbs sections and starts a reload from the image. -/
  | sectionMaskMismatch (h : Fin 32) (copy1 copy2 : BitVec 32)
  /-- MASK_RELOAD_DONE (R183): A mask reload completes, and a failed readback enters SAFE with cause UNCORR. -/
  | maskReloadDone (h : Fin 32) (ok : Bool)
  /-- COUNT_COPY_MISMATCH (R209): A mismatch between a section count and its complement disturbs the section with cause STORE. -/
  | countCopyMismatch (s : Fin 32) (count compl : BitVec 16)
  /-- SECTION_RESET_APPLY (R211): A newly accepted reset instance is applied at the first tick instant after its acceptance. -/
  | sectionResetApply
  /-- PROVING_START (R123): Each group starts one lane proving every 6 s in rising lane order. -/
  | provingStart (g : Fin 8)
  /-- AGREEMENT_WINDOW_EXPIRY (R128): An agreement window with no 100 agreeing samples within 20 ms ends in a disagreement. -/
  | agreementWindowExpiry (g : Fin 8)
  /-- BURST_START (R136): A lane in a group without a spare is disconnected for a 200 µs proving burst when R135 allows. -/
  | burstStart (n : Fin 64)
  /-- BURST_END (R136): A burst ends after 200 µs and the lane delivers valid samples again. -/
  | burstEnd (n : Fin 64) (m : ProveMeas)
  /-- PROVING_OVERDUE (R145): A lane unproved for 600 s raises OVERDUE, and one unproved for 24 h faults its input. -/
  | provingOverdue (n : Fin 64)
  /-- FAULT_CHECK_EXPIRY (R118): Two ms after a spare was connected for a fault check, the fault is placed inside or outside the lane. -/
  | faultCheckExpiry (g : Fin 8)
  /-- INPUT_FAULT_CLEAR (R117): An input fault clears after 500 ms within every band without a break. -/
  | inputFaultClear (n : Fin 64)
  /-- GROUP_REFERENCE_FAULT (R118): The group reference monitor raises cause GROUP for every bound input of the group. -/
  | groupReferenceFault (g : Fin 8)
  /-- PROVE_REQUEST (R125): A keyed write to WF_PROVEREQ moves the named input's serving lane to the front of the proving order. -/
  | proveRequest (p : Port) (value : BitVec 16)
  /-- CONTACT_SAMPLE (R253): Every 10 µs each contact input is sampled, with samples in blind windows excluded. -/
  | contactSample (levels : BitVec 66)
  /-- CONTACT_FILTER_EXPIRY (R257): An input's filtered value changes once raw samples have held the new value for the filter time. -/
  | contactFilterExpiry (i : Fin 66)
  /-- PAIR_DISCREPANCY_TIMEOUT (R258): A CL, OB or ESTOP pair differing beyond its discrepancy time becomes FAULT. -/
  | pairDiscrepancyTimeout (i : Fin 33)
  /-- OB_PAIR_RECOVERY (R259): An OB pair fault ends after 1 s of antivalent values with 10 dark checks passed on each input. -/
  | obPairRecovery (c : Fin 16)
  /-- TPS_PULSE (R252): Each running test-pulse source drops low for 200 µs at its slot every 100 ms. -/
  | tpsPulse (n : Fin 4)
  /-- DARK_CHECK (R254): At 150 µs into a pulse, inputs of that source must read open, and cross-circuits are checked. -/
  | darkCheck (n : Fin 4) (levels : BitVec 66)
  /-- SOURCE_FAULT (R256): A source readback differing from the driven level for over 50 µs latches a source fault. -/
  | sourceFault (n : Fin 4)
  /-- TACH_EDGE (R261): A qualified TACH rising edge updates the edge time and period used for door speed. -/
  | tachEdge (c : Fin 16) (highNs lowNs : Nat)
  /-- TACH_TIMEOUT (R262): A grant with no edge for the tachometer timeout, or an excess edge rate, raises a tachometer fault. -/
  | tachTimeout (c : Fin 16)
  /-- STO_DARK_PULSE (R281): An energised STO output receives a 300 µs off-pulse at its slot, checked against R282. -/
  | stoDarkPulse (c : Fin 16) (outB : Bool) (offUs onUs : Nat)
  /-- DC_UNLOCK (R290): A keyed logged-in write to DC_UNLOCK requests the unlock of a locked channel. -/
  | dcUnlock (p : Port) (value : BitVec 16)
  /-- UNLOCK_STAGE_TEST_DONE (R290): The stage test run for an unlock completes, and the unlock is accepted or refused. -/
  | unlockStageTestDone (pass : Bool)
  /-- DEGRADED_MINUTE (R289): Each whole minute of channel degraded time is counted and written to the status record. -/
  | degradedMinute (c : Fin 16)
  /-- DEGRADED_TIMER_EXPIRY (R81): A degraded item's timer expires, so its escalation is applied, 0x1FE is logged and a record is appended. -/
  | degradedTimerExpiry (item : Fin 10)
  /-- STOP_SEQUENCE_COMPLETE (R76): At the first tick with every STO output off, the stop sequence ends and the requested mode or reset follows. -/
  | stopSequenceComplete
  /-- CONFIGURE_REQUEST (R75): A write of 0x00C2 to SY_MODEREQ requests CONFIGURE and starts the stop sequence. -/
  | configureRequest (p : Port)
  /-- RESTART_REQUEST (R78): A write of 0x00A3 to SY_MODEREQ in CONFIGURE enters RESET with cause HOST. -/
  | restartRequest (p : Port)
  /-- HOST_RESET_REQUEST (R57): The key sequence 0x52A7 then 0x0C9E in SY_RESETREQ requests a reset. -/
  | hostResetRequest (p : Port) (value : BitVec 16)
  /-- CLOCK_WINDOW (R90): At each 1 ms window end, the REFCLK, system clock and lock are checked, SY_CLKDEV is updated and SAFE is entered on a fault. -/
  | clockWindow (refCount sysCount : Nat) (lock : Bool)
  /-- PIN_READBACK_SAMPLE (R83): SAFE# and LIFE are read back every 10 µs, and 3 differing samples enter SAFE with cause PINRB. -/
  | pinReadbackSample (safeHigh lifeHigh : Bool)
  /-- TEMPERATURE_SAFE (R83): A junction above 115 °C for 10 ms enters SAFE with cause TEMP. -/
  | temperatureSafe (degC : BitVec 16)
  /-- COPY_RECEIVE (R327): An arriving Scaos copy is checked, paired or held, and on acceptance checked for sequence, alive, time and echo before its content is used. -/
  | copyReceive (port : Fin 4) (bytes : List Byte)
  /-- SLOT_EXPIRY (R329): A held copy unpaired for W is freed and counted as a missing copy of the other network. -/
  | slotExpiry (pair : Fin 2) (slot : Fin 8)
  /-- LAPSE (R340): Held content whose echo goes stale lapses, raising event LAPSE and counting in TG_STALE. -/
  | lapse (peer : Fin 5)
  /-- ETHERNET_CYCLE (R357): At each Ethernet cycle tick, a STATUS is built once and queued on both Ethernet ports. -/
  | ethernetCycle
  /-- CAN_CYCLE (R357): At each CAN cycle tick, DOOR_STAT telegrams are built and queued on both CAN controllers. -/
  | canCycle
  /-- ETH_FRAME_RECEIVE (R362): An arriving Ethernet frame is filtered, dropped or passed to the telegram layer as one copy. -/
  | ethFrameReceive (port : Fin 2) (frame : EthFrame)
  /-- ETH_TRANSMIT_DONE (R365): An Ethernet copy completes transmission and the port becomes idle. -/
  | ethTransmitDone (port : Fin 2)
  /-- MDIO_POLL (R367): Every 10 ms, PHY registers 1 and 5 are read and the port is declared up or down. -/
  | mdioPoll (port : Fin 2) (reg1 reg5 : BitVec 16) (answered : Bool)
  /-- PORT_START (R367): When a port starts, PHY registers 4 and 0 are written to restart autonegotiation. -/
  | portStart
  /-- MDIO_READ_REQUEST (R370): A keyed write to EN_MDIOCMD requests a host read of a PHY register. -/
  | mdioReadRequest (p : Port) (value : BitVec 16)
  /-- MDIO_READ_DONE (R370): The requested PHY register value is placed in EN_MDIODATA. -/
  | mdioReadDone (answered : Bool) (data : BitVec 16)
  /-- CAN_FRAME_RECEIVE (R376): An arriving CAN frame is ignored, dropped or passed to the telegram layer. -/
  | canFrameReceive (ctl : Fin 2) (frame : CanFrame)
  /-- CAN_TRANSMIT_DONE (R278): A CAN copy completes transmission, and a stop demand counts as sent. -/
  | canTransmitDone (ctl : Fin 2)
  /-- CAN_ERROR (R379): A CAN bus error updates the error counters and may change the error state. -/
  | canError (ctl : Fin 2) (e : CanErr)
  /-- BUS_OFF_RECOVERY_DONE (R381): Bus-off recovery completes and the controller returns to error active. -/
  | busOffRecoveryDone (ctl : Fin 2)
  /-- CAN_RECOVER (R382): A keyed write to CN_RECOVER starts recovery of a bus-off controller and clears HOLDOFF. -/
  | canRecover (p : Port) (value : BitVec 16)
  /-- STANDBY_EXIT (R768): Fifty µs after CANx_STB falls, the controller may take part in the bus. -/
  | standbyExit
  /-- SNOOP_BLOCK (R400): A snoop unit seeds, folds, feeds, finishes and compares one tap block. -/
  | snoopBlock (n : Fin 8) (f : CkFinding)
  /-- CKBLK_DONE (R406): A CKBLK feed completes at the unit and, in mode CMP, its compare is made. -/
  | ckblkDone (n : Fin 8) (ecc : Ecc) (f : CkFinding)
  /-- CK_SELF_TEST (R422): An idle check unit runs its self-test against the check value within 12 µs. -/
  | ckSelfTest (n : Fin 8) (ok : Bool)
  /-- CK_SELF_TEST_OVERDUE (R425): A unit without a completed self-test for its limit raises OVERDUE or a unit fault. -/
  | ckSelfTestOverdue (n : Fin 8)
  /-- EVENT_FABRIC_WRITE (R437): The fabric writes a raised entry into its routed ring and any Q0 copy, with markers as needed. -/
  | eventFabricWrite
  /-- RING_POP (R447): A read of EV_QnPOP removes the oldest entry and latches its words 1 to 3. -/
  | ringPop (p : Port) (n : Fin 8) (ecc : Ecc) (cycle : ReadCycle := {})
  /-- RING_AGE_EXPIRY (R450): The oldest entry reaching EV_ITIME gives the ring its interrupt condition. -/
  | ringAgeExpiry (n : Fin 8)
  /-- ROUTE_TABLE_MISMATCH (R465): A route-table copy mismatch holds entries and reloads the table from the image. -/
  | routeTableMismatch
  /-- RING_CONTROL_MISMATCH (R465): A ring control copy mismatch empties the ring and raises a RECOVERY marker. -/
  | ringControlMismatch (n : Fin 8)
  /-- LEDGER_APPEND (R499): A queued ledger record is written and read back. -/
  | ledgerAppend (ok : Bool)
  /-- RETIREMENT_DONE (R501): A retirement completes, a RETIRE record is queued and 0x1F6 is raised. -/
  | retirementDone
  /-- APPEND_ENGINE_TIMEOUT (R502): An append engine silent for 10 ms makes the ledger lost, with fault cell 0 written. -/
  | appendEngineTimeout (clog : Bool)
  /-- FAULT_CELL_MINUTE (R504): Each whole minute the fault-cell header records the elapsed time of ledger-loss items. -/
  | faultCellMinute (ok : Bool)
  /-- VAULT_WRITE (R471): A change to a vault item writes a new vault record and reads it back. -/
  | vaultWrite (ok : Bool)
  /-- VAULT_WEAR_MOVE (R472): After 20,000 erases the vault pair moves to the next two pool sectors. -/
  | vaultWearMove
  /-- PASSWORD_BUFFER_WRITE (R482): A write to CV_PWD adds two characters to the port's password buffer. -/
  | passwordBufferWrite (p : Port) (value : BitVec 16)
  /-- LOGIN (R479): CV_CMD LOGIN compares the hashed password buffer with the stored hash and logs the port in, or counts a wrong attempt. -/
  | login (p : Port) (key : Byte)
  /-- LOGOUT (R479): CV_CMD LOGOUT ends the port's login with an ACCESS record. -/
  | logout (p : Port) (key : Byte)
  /-- SETPWD (R481): CV_CMD SETPWD sets a new password from the buffer and writes a change-log entry. -/
  | setpwd (p : Port) (key : Byte) (entryOk vaultOk : Bool)
  /-- CLEARSTAGE (R484): CV_CMD CLEARSTAGE erases both staging banks and empties the directory. -/
  | clearstage (p : Port) (key : Byte)
  /-- CLEARSTAGE_DONE (R484): The staging erase completes and the banks are prepared. -/
  | clearstageDone
  /-- COMMIT_IMAGE (R489): CV_CMD COMMIT checks the staged image, writes the change-log entry and the vault record and reports the result. -/
  | commitImage (p : Port) (key : Byte) (f : CommitFindings)
  /-- LOGIN_TIMEOUT (R479): Fifteen minutes without a CV or LG write ends a port's login. -/
  | loginTimeout (p : Port)
  /-- LOGIN_LOCK_EXPIRY (R480): A login lock ends when its minutes have run out. -/
  | loginLockExpiry
  /-- CHUNK_OPEN (R485): A write to CV_SSEL opens a staging chunk and sets its word count to 0. -/
  | chunkOpen (p : Port) (value : BitVec 16)
  /-- CHUNK_DATA (R485): A write to CV_SDATA adds one word to the open chunk. -/
  | chunkData (p : Port) (value : BitVec 16)
  /-- CHUNK_COMPLETE (R486): A write to CV_SCRC1 completes the chunk, which is checked and stored or refused. -/
  | chunkComplete (p : Port) (value : BitVec 16) (nvmOk : Bool)
  /-- FETCH_LEDGER_RECORD (R496): LG_RCMD kind 0 fetches the ledger record named by LG_RSEL. -/
  | fetchLedgerRecord (p : Port) (crcOk : Bool)
  /-- FETCH_FAULT_CELL (R468): LG_RCMD kind 1 fetches the fault cell named by LG_RSEL. -/
  | fetchFaultCell (p : Port) (agree : Bool)
  /-- FETCH_CHANGE_LOG_ENTRY (R493): LG_RCMD kind 2 fetches the change-log entry named by LG_RSEL. -/
  | fetchChangeLogEntry (p : Port) (crcOk : Bool)
  /-- LG_RDATA_READ (R678): A read of LG_RDATA returns the next word of the fetched item and advances. -/
  | lgRdataRead (p : Port) (cycle : ReadCycle := {})
  /-- FAULT_CELL_CLEAR (R505): A keyed LG_FCCLR write from a logged-in port clears the fault cells. -/
  | faultCellClear (p : Port) (value : BitVec 16)
  /-- READ_VERIFY (R530): Every 2 min one NVM sector is read at tightened margin and classed good, weak or failed. -/
  | readVerify (r : Margin)
  /-- BURNISH_READ (R526): At each burnish slot, one SRAM or Cantle word is ECC-checked and a corrected word is rewritten. -/
  | burnishRead (cantle : Bool) (ecc : Ecc) (rewriteOk : Bool)
  /-- ROW_STITCH_DONE (R520): The spare replaces the row after its copy completes. -/
  | rowStitchDone
  /-- STITCH_MAP_APPEND (R515): A new stitch is appended to copy 1 and then to copy 2 of the stitch map, each read back. -/
  | stitchMapAppend (copy : Fin 2) (ok rewriteOk : Bool)
  /-- BURNISH_OVERRUN (R528): A burnish pass not complete 4 s after its start sets OVERRUN and raises 0x1F4. -/
  | burnishOverrun (area : Fin 3)
  /-- TELEMETRY_SAMPLE (R531): Every 10 ms the telemetry items are sampled into a shadow set, and warnings are raised. -/
  | telemetrySample (temp : BitVec 16) (mv : Vector (BitVec 16) 4)
  /-- TELEMETRY_SELECT (R532): A write to ST_TSEL latches the current telemetry set and selects an item. -/
  | telemetrySelect (p : Port) (value : BitVec 16)
  /-- TELEMETRY_READ (R532): A read of ST_TDATA returns the selected item and advances the selection. -/
  | telemetryRead (p : Port) (cycle : ReadCycle := {})
  /-- SCAN_START (R551): At a scan start, the scan image is latched and SCANW ends, or an overrun is counted and the watchdog is evaluated. -/
  | scanStart
  /-- INTERRUPT_ENTRY (R559): A takeable interrupt enters a trap at its vector, with RETPC and TKIND set. -/
  | interruptEntry
  /-- CANTLE_TIMER_EXPIRY (R558): The interval timer counts down to 0, sets its IPEND bit and reloads. -/
  | cantleTimerExpiry
  /-- INSTRUCTION_REWRITE_DONE (R543): An uncorrectable instruction word is rewritten from the program bank and fetched again, or SAFE follows. -/
  | instructionRewriteDone (readsGood : Bool)
  /-- ADD (R584): Gd := Ga + Gb. -/
  | addR (d a b : BitVec 4) (rsv : Bool)
  /-- SUB (R584): Gd := Ga − Gb. -/
  | subR (d a b : BitVec 4) (rsv : Bool)
  /-- AND (R584): Bitwise AND of Ga and Gb into Gd. -/
  | andR (d a b : BitVec 4) (rsv : Bool)
  /-- OR (R584): Bitwise OR of Ga and Gb into Gd. -/
  | orR (d a b : BitVec 4) (rsv : Bool)
  /-- XOR (R584): Bitwise XOR of Ga and Gb into Gd. -/
  | xorR (d a b : BitVec 4) (rsv : Bool)
  /-- SLL (R584): Logical left shift of Ga by Gb[4:0]. -/
  | sll (d a b : BitVec 4) (rsv : Bool)
  /-- SRL (R584): Logical right shift of Ga by Gb[4:0]. -/
  | srl (d a b : BitVec 4) (rsv : Bool)
  /-- SRA (R584): Arithmetic right shift of Ga by Gb[4:0]. -/
  | sra (d a b : BitVec 4) (rsv : Bool)
  /-- SLT (R584): Gd := 1 if Ga < Gb signed, else 0. -/
  | slt (d a b : BitVec 4) (rsv : Bool)
  /-- SLTU (R584): Gd := 1 if Ga < Gb unsigned, else 0. -/
  | sltu (d a b : BitVec 4) (rsv : Bool)
  /-- MUL (R584): Gd := low 32 bits of Ga × Gb. -/
  | mul (d a b : BitVec 4) (rsv : Bool)
  /-- ADDI (R584): Gd := Ga + sext(IMM18). -/
  | addi (d a : BitVec 4) (imm : BitVec 18)
  /-- ANDI (R584): Bitwise AND of Ga with zext(IMM18). -/
  | andi (d a : BitVec 4) (imm : BitVec 18)
  /-- ORI (R584): Bitwise OR of Ga with zext(IMM18). -/
  | ori (d a : BitVec 4) (imm : BitVec 18)
  /-- XORI (R584): Bitwise XOR of Ga with zext(IMM18). -/
  | xori (d a : BitVec 4) (imm : BitVec 18)
  /-- SLTI (R584): Gd := 1 if Ga < sext(IMM18) signed, else 0. -/
  | slti (d a : BitVec 4) (imm : BitVec 18)
  /-- SLTIU (R584): Gd := 1 if Ga < sext(IMM18) unsigned, else 0. -/
  | sltiu (d a : BitVec 4) (imm : BitVec 18)
  /-- SLLI (R584): Logical left shift of Ga by an immediate distance. -/
  | slli (d a : BitVec 4) (sh : BitVec 5) (rsv : Bool)
  /-- SRLI (R584): Logical right shift of Ga by an immediate distance. -/
  | srli (d a : BitVec 4) (sh : BitVec 5) (rsv : Bool)
  /-- SRAI (R584): Arithmetic right shift of Ga by an immediate distance. -/
  | srai (d a : BitVec 4) (sh : BitVec 5) (rsv : Bool)
  /-- LUI (R584): Gd := IMM16 << 16. -/
  | lui (d : BitVec 4) (imm : BitVec 16) (rsv : Bool)
  /-- LW (R585): Loads a word from the effective address into Gd. -/
  | lw (d a : BitVec 4) (imm : BitVec 18) (ecc : Ecc)
  /-- LH (R585): Loads a sign-extended halfword into Gd. -/
  | lh (d a : BitVec 4) (imm : BitVec 18) (ecc : Ecc)
  /-- LHU (R585): Loads a zero-extended halfword into Gd. -/
  | lhu (d a : BitVec 4) (imm : BitVec 18) (ecc : Ecc)
  /-- LB (R585): Loads a sign-extended byte into Gd. -/
  | lb (d a : BitVec 4) (imm : BitVec 18) (ecc : Ecc)
  /-- LBU (R585): Loads a zero-extended byte into Gd. -/
  | lbu (d a : BitVec 4) (imm : BitVec 18) (ecc : Ecc)
  /-- SW (R585): Stores Gs as a word at the effective address. -/
  | sw (s a : BitVec 4) (imm : BitVec 18) (ecc : Ecc)
  /-- SH (R585): Stores Gs[15:0] as a halfword at the effective address. -/
  | sh (s a : BitVec 4) (imm : BitVec 18) (ecc : Ecc)
  /-- SB (R585): Stores Gs[7:0] as a byte at the effective address. -/
  | sb (s a : BitVec 4) (imm : BitVec 18) (ecc : Ecc)
  /-- BEQ (R591): Branches when Ga = Gb. -/
  | beq (a b : BitVec 4) (off : BitVec 18)
  /-- BNE (R591): Branches when Ga ≠ Gb. -/
  | bne (a b : BitVec 4) (off : BitVec 18)
  /-- BLT (R591): Branches when Ga < Gb, signed. -/
  | blt (a b : BitVec 4) (off : BitVec 18)
  /-- BGE (R591): Branches when Ga ≥ Gb, signed. -/
  | bge (a b : BitVec 4) (off : BitVec 18)
  /-- BLTU (R591): Branches when Ga < Gb, unsigned. -/
  | bltu (a b : BitVec 4) (off : BitVec 18)
  /-- BGEU (R591): Branches when Ga ≥ Gb, unsigned. -/
  | bgeu (a b : BitVec 4) (off : BitVec 18)
  /-- JAL (R591): Jumps to PC-relative target and writes PC + 4 to Gd. -/
  | jal (d : BitVec 4) (off : BitVec 22)
  /-- JALR (R591): Jumps to Ga + sext(IMM18) and writes PC + 4 to Gd. -/
  | jalr (d a : BitVec 4) (imm : BitVec 18)
  /-- LOOP (R595): Sets up a hardware loop of count Gc, or skips the body when Gc is 0. -/
  | loopH (c : BitVec 4) (len : BitVec 16) (rsv : Bool)
  /-- CKINIT (R601): Issues an initialise of the unit's raw value to its preset. -/
  | ckinit (u : BitVec 3) (rsv : Bool)
  /-- CKSET (R601): Issues a set of the unit's raw value to Ga. -/
  | ckset (u : BitVec 3) (a : BitVec 4) (rsv : Bool)
  /-- CKEXP (R601): Issues a set of the unit's expected value to Ga. -/
  | ckexp (u : BitVec 3) (a : BitVec 4) (rsv : Bool)
  /-- CKFEED (R601): Issues a feed of 1, 2 or 4 bytes of Ga to the unit. -/
  | ckfeed (u : BitVec 3) (a : BitVec 4) (size : BitVec 2) (rsv : Bool)
  /-- CKBLK (R601): Issues a feed of a data-memory block to the unit, optionally with a compare. -/
  | ckblk (u : BitVec 3) (a b : BitVec 4) (cmp : Bool) (rsv : Bool)
  /-- CKGET (R601): Returns the unit's raw value into Gd after earlier operations complete. -/
  | ckget (d : BitVec 4) (u : BitVec 3) (rsv : Bool) (f : CkFinding := .good)
  /-- CKFIN (R601): Returns the unit's result into Gd after earlier operations complete. -/
  | ckfin (d : BitVec 4) (u : BitVec 3) (rsv : Bool) (f : CkFinding := .good)
  /-- CKCMP (R601): Compares the unit's result with Ga and writes 1 or 0 to Gd. -/
  | ckcmp (d : BitVec 4) (u : BitVec 3) (a : BitVec 4) (rsv : Bool) (f : CkFinding := .good)
  /-- MFS (R604): Reads a system register into Gd. -/
  | mfs (d : BitVec 4) (sreg : BitVec 4) (rsv : Bool)
  /-- MTS (R604): Writes Ga to a writable system register. -/
  | mts (sreg a : BitVec 4) (rsv : Bool)
  /-- RTH (R561): Ends a trap by loading PC from RETPC and clearing HL. -/
  | rth (rsv : Bool)
  /-- SCANW (R552): Ends the scan and waits for the next scan start, or ends at once after overruns. -/
  | scanw (rsv : Bool)
  /-- WAITD (R606): Enters WAITD in a debug session, or completes at once without one. -/
  | waitd (rsv : Bool)
  /-- BRK (R607): Stops into monitor mode, or raises the BRK exception when monitor mode is off. -/
  | brk (code : Byte) (rsv : Bool)
  /-- VT_PUT (R644): Terminal BRK PUT appends Gr[7:0] to the output FIFO. -/
  | vtPut (r : BitVec 4)
  /-- VT_GET (R644): Terminal BRK GET takes the oldest input character into Gr. -/
  | vtGet (r : BitVec 4)
  /-- MAILBOX_SEND (R570): A write to CS_MBSEND fills the inbox, sets MBIN pending and delivers TAP9, or is refused. -/
  | mailboxSend (p : Port) (value : BitVec 16)
  /-- MAILBOX_ACK (R570): A write to CS_MBACK empties the outbox and sets MBOUT pending. -/
  | mailboxAck (p : Port) (value : BitVec 16)
  /-- CANTLE_HALT (R572): A keyed CS_CTL HALT puts Cantle in HALTED. -/
  | cantleHalt (p : Port) (value : BitVec 16)
  /-- CANTLE_RESTART (R572): A keyed CS_CTL RESTART holds Cantle and reloads both memories from the program bank. -/
  | cantleRestart (p : Port) (value : BitVec 16)
  /-- CANTLE_RELOAD_DONE (R572): The restart reload completes and Cantle starts at ENTRY with the first scan at the next scan start. -/
  | cantleReloadDone
  /-- DEBUG_FRAME (R618): A complete debug frame reads or writes a debug register without a row of its own and is answered by Table DB-2. -/
  | debugFrame (f : DbFrame)
  /-- DEBUG_FRAME_RESET (R622): A long idle period on the debug wire ends any partial frame. -/
  | debugFrameReset (wire : Wire)
  /-- SESSION_OPEN (R614): A keyed DB_CTL write with OPEN = 1 opens a debug session on that wire. -/
  | sessionOpen (wire : Wire) (value : BitVec 32)
  /-- SESSION_CLOSE (R615): A keyed DB_CTL write with OPEN = 0 ends the session and disarms the debug functions. -/
  | sessionClose (wire : Wire) (value : BitVec 32)
  /-- SESSION_TIMEOUT (R615): Ten s without a valid frame ends the debug session. -/
  | sessionTimeout
  /-- DEBUG_STOP (R627): A DB_CTL STOP stops the thread at the next boundary with HL = 0. -/
  | debugStop (wire : Wire) (value : BitVec 32)
  /-- DEBUG_RESUME (R631): A DB_CTL RESUME leaves monitor mode and continues at DB_PC. -/
  | debugResume (wire : Wire) (value : BitVec 32)
  /-- DEBUG_STEP (R631): A DB_CTL STEP runs one instruction and stops again with REASON 5. -/
  | debugStep (wire : Wire) (value : BitVec 32)
  /-- DEBUG_REGISTER_ACCESS (R639): A read or write of DB_GDATA in WAITD reaches the selected general register. -/
  | debugRegisterAccess (wire : Wire) (write : Bool) (value : BitVec 32)
  /-- DEBUG_MEMORY_ACCESS (R641): A read or write of DB_MDATA in WAITD reaches the Cantle memory word at DB_MADDR. -/
  | debugMemoryAccess (wire : Wire) (write : Bool) (value : BitVec 32) (ecc : Ecc)
  /-- DEBUG_WITHDRAW (R649): A write to DB_WDRAW sets the forced withdrawals of berths and raises WITHDRAW. -/
  | debugWithdraw (wire : Wire) (value : BitVec 32)
  /-- WITHDRAW_COPY_MISMATCH (R652): A DB_WDRAW copy mismatch withdraws every berth until reset. -/
  | withdrawCopyMismatch
  /-- VT_OUTPUT_READ (R646): A read of DB_VTOUT pops one output character. -/
  | vtOutputRead (wire : Wire)
  /-- VT_INPUT_WRITE (R646): A write of DB_VTIN appends one input character, or is rejected when full. -/
  | vtInputWrite (wire : Wire) (value : BitVec 32)
  /-- REGISTER_WRITE (R13): A host-bus or USB write to a register without a row of its own acts by its access code. -/
  | registerWrite (p : Port) (addr : BitVec 9) (value : BitVec 16) (soon : Bool := false)
  /-- STROBE_CONFLICT (R660): An access with both strobes low is ignored and counted in HB_PROTERR. -/
  | strobeConflict
  /-- SNAPSHOT_READ (R674): A read of the lowest word of an RS group latches the upper words into the port's snapshot. -/
  | snapshotRead (p : Port) (addr : BitVec 9) (cycle : ReadCycle := {})
  /-- OWNER_CLAIM (R688): HB_OWNREQ CLAIM takes the semaphore when free, else sets DENIED. -/
  | ownerClaim (p : Port) (arg : Byte)
  /-- OWNER_RELEASE (R688): HB_OWNREQ RELEASE from the owner frees the semaphore. -/
  | ownerRelease (p : Port) (arg : Byte)
  /-- OWNER_FORCE (R688): HB_OWNREQ FORCE with key 0x9D frees the semaphore from either port. -/
  | ownerForce (p : Port) (arg : Byte)
  /-- GET_STATUS (R707): Standard request returning device, interface or endpoint status. -/
  | getStatus (r : UsbReq)
  /-- CLEAR_FEATURE (R707): Standard request clearing ENDPOINT_HALT on EP1 IN. -/
  | clearFeature (r : UsbReq)
  /-- SET_FEATURE (R707): Standard request setting ENDPOINT_HALT on EP1 IN. -/
  | setFeature (r : UsbReq)
  /-- SET_ADDRESS (R707): Standard request setting the device address. -/
  | setAddress (r : UsbReq)
  /-- GET_DESCRIPTOR (R707): Standard request returning a device, configuration or string descriptor. -/
  | getDescriptor (r : UsbReq)
  /-- GET_CONFIGURATION (R707): Standard request returning the configuration value. -/
  | getConfiguration (r : UsbReq)
  /-- SET_CONFIGURATION (R707): Standard request setting configuration 0 or 1. -/
  | setConfiguration (r : UsbReq)
  /-- GET_INTERFACE (R707): Standard request returning alternate setting 0. -/
  | getInterface (r : UsbReq)
  /-- SET_INTERFACE (R707): Standard request selecting alternate setting 0. -/
  | setInterface (r : UsbReq)
  /-- GET_INFO (R710): Vendor request returning the 32-byte identity and status block. -/
  | getInfo (r : UsbReq)
  /-- READ_REGS (R715): Vendor request reading host words in rising order with the USB port's view. -/
  | readRegs (r : UsbReq)
  /-- WRITE_REGS (R714): Vendor request writing host words in rising order, skipping the protected words. -/
  | writeRegs (r : UsbReq) (f : WriteFindings)
  /-- GET_LAST (R710): Vendor request returning the last request, its outcome and UM_REQCNT. -/
  | getLast (r : UsbReq)
  /-- USB_LOGIN (R710): Vendor request writing the password buffer and issuing LOGIN from USB. -/
  | usbLogin (r : UsbReq)
  /-- USB_LOGOUT (R710): Vendor request issuing LOGOUT from USB. -/
  | usbLogout (r : UsbReq)
  /-- USB_SETPWD (R710): Vendor request writing the buffer and issuing SETPWD from USB. -/
  | usbSetpwd (r : UsbReq) (entryOk vaultOk : Bool)
  /-- USB_CLEARSTAGE (R710): Vendor request issuing CLEARSTAGE from USB. -/
  | usbClearstage (r : UsbReq)
  /-- STAGE (R710): Vendor request staging one chunk through CV_SSEL, CV_SDATA and the CRC words. -/
  | stage (r : UsbReq) (nvmOk : Bool)
  /-- USB_COMMIT (R717): Vendor request writing the check code and issuing COMMIT at its trigger point. -/
  | usbCommit (r : UsbReq) (f : CommitFindings)
  /-- COMMIT_STATUS (R710): Vendor request returning the last commit result, CSEQ and code. -/
  | commitStatus (r : UsbReq)
  /-- LOG_START (R720): Vendor request starting a ledger, fault-cell or change-log download on EP1 IN. -/
  | logStart (r : UsbReq)
  /-- LOG_STOP (R722): Vendor request ending any download. -/
  | logStop (r : UsbReq)
  /-- DOWNLOAD_IN_TOKEN (R720): An IN token on EP1 is answered with the next packet of the download stream. -/
  | downloadInToken (ack reads : Bool)
  /-- USB_UNLOCK (R710): Vendor request making the unlock request of R290 for a channel. -/
  | usbUnlock (r : UsbReq)
  /-- RESET_DEVICE (R719): Vendor request with keys requesting a reset with cause USB 1 ms after its status stage. -/
  | resetDevice (r : UsbReq)
  /-- USB_BUS_RESET (R723): A USB bus reset aborts untriggered transfers, ends downloads and the USB login, and resets the address. -/
  | usbBusReset
  /-- VBUS_CHANGE (R770): VBUS held valid or invalid for 5 ms connects or disconnects the DP pull-up. -/
  | vbusChange (valid : Bool)
  /-- USB_SUSPEND (R706): On suspend the port stops answering until resume and keeps its state. -/
  | usbSuspend
  /-- ERASE_AHEAD (R500): The erase of the oldest ledger or change-log sector, kept one sector ahead of the next record, completes or fails, and a failure retires the sector or loses the partition. -/
  | eraseAhead (clog ok : Bool)
  /-- USB_RESUME (R706): Resume signalling on the USB bus ends suspend, and the port answers again with its state kept. -/
  | usbResume
  deriving DecidableEq, Repr

end Sys2Proof
end

