-- ==== Sys2Proof/Decode.lean ====
section
/-! DEFINITION. Reading a command from a word of the table: the table gives its rows no bits. -/

namespace Sys2Proof

/-- The command a table word spells. The rows of spec/opcode_table.json have no fields, so no word spells one. -/
def decodeTableWord (_nbits _w : Nat) : Option Instr := none

end Sys2Proof
end

