-- ==== Sys2Proof/Machine/Bits.lean ====
section
/-! DEFINITION. Bit fields, saturating counters, byte order and the time grid: the helpers every chapter
shares. -/

namespace Sys2Proof.Machine

open Sys2Proof

/-- Bits `hi` down to `lo` of a host word as a number (R7). -/
def fld (w : W16) (hi lo : Nat) : Nat := (w.toNat / 2 ^ lo) % 2 ^ (hi + 1 - lo)

/-- Bit `i` of a word (R7). -/
def bitOf {n : Nat} (w : BitVec n) (i : Nat) : Bool := w.getLsbD i

/-- 1 for true, 0 for false. -/
def b2n (b : Bool) : Nat := if b then 1 else 0

/-- A host word from (lowest bit, value) pairs. -/
def pack (l : List (Nat × Nat)) : W16 :=
  BitVec.ofNat 16 (l.foldl (fun a p => a + p.2 * 2 ^ p.1) 0)

/-- A word whose bit `i` is `f i`. -/
def bitsOf (n : Nat) (f : Nat → Bool) : BitVec n :=
  BitVec.ofNat n ((List.range n).foldl (fun a i => a + b2n (f i) * 2 ^ i) 0)

/-- Bit `i` of `w` set to `b`. -/
def putBit {n : Nat} (w : BitVec n) (i : Nat) (b : Bool) : BitVec n :=
  if b then w ||| (BitVec.ofNat n (2 ^ i)) else w &&& ~~~(BitVec.ofNat n (2 ^ i))

/-- A counter that saturates at its largest value. -/
def satInc {n : Nat} (w : BitVec n) : BitVec n := if w = BitVec.allOnes n then w else w + 1

/-- A counter that saturates, raised by `k`. -/
def satAdd {n : Nat} (w : BitVec n) (k : Nat) : BitVec n :=
  BitVec.ofNat n (min (2 ^ n - 1) (w.toNat + k))

/-- A host word holding a number, saturated at 0xFFFF. -/
def sat16 (k : Nat) : W16 := BitVec.ofNat 16 (min 0xFFFF k)

/-- Writing ones clears, and only in the bits of `mask` (R13, W1C). -/
def w1c (w mask v : W16) : W16 := w &&& ~~~(mask &&& v)

/-- Low 16 bits of a wider value (R8: lowest word first). -/
def word0 {n : Nat} (w : BitVec n) : W16 := w.setWidth 16
/-- Bits 31..16 of a wider value. -/
def word1 {n : Nat} (w : BitVec n) : W16 := (w >>> 16).setWidth 16
/-- Bits 47..32 of a wider value. -/
def word2 {n : Nat} (w : BitVec n) : W16 := (w >>> 32).setWidth 16
/-- Bits 63..48 of a wider value. -/
def word3 {n : Nat} (w : BitVec n) : W16 := (w >>> 48).setWidth 16

/-- A 32-bit value from its low and high host words. -/
def join32 (lo hi : W16) : W32 := (hi.setWidth 32 <<< 16) ||| lo.setWidth 32

/-- `n` bytes of a number, least significant first (R469). -/
def bytesLE : Nat → Nat → List Byte
  | 0, _ => []
  | n + 1, v => BitVec.ofNat 8 v :: bytesLE n (v / 256)

/-- `n` bytes of a number, most significant first (R9). -/
def bytesBE (n v : Nat) : List Byte := (bytesLE n v).reverse

/-- The number whose bytes stand least significant first. -/
def natLE : List Byte → Nat
  | [] => 0
  | b :: bs => b.toNat + 256 * natLE bs

/-- The number whose bytes stand most significant first. -/
def natBE (l : List Byte) : Nat := natLE l.reverse

/-- `n` bytes of `l` from offset `o`; a missing byte reads 0. -/
def slice (l : List Byte) (o n : Nat) : List Byte :=
  (List.range n).map fun i => l.getD (o + i) 0

/-- The little-endian number of `n` bytes at offset `o`. -/
def leAt (l : List Byte) (o n : Nat) : Nat := natLE (slice l o n)

/-- The big-endian number of `n` bytes at offset `o`. -/
def beAt (l : List Byte) (o n : Nat) : Nat := natBE (slice l o n)

/-- `l` padded with zero bytes to a length of at least `n`. -/
def padTo (n : Nat) (l : List Byte) : List Byte := l ++ List.replicate (n - l.length) 0

/-- How long until the next instant of a grid of period `p`, counted from TSTAMP `t`; an instant at which the
grid's work was already done does not count again. -/
def gridDelay (p t : Nat) (last : Option Nat) : Nat :=
  if t % p = 0 ∧ last ≠ some t then 0 else p - t % p

/-- Signed value of a host word. -/
def sgn16 (w : W16) : Int := w.toInt

/-- Truncated division towards zero of a signed difference, as a host word. -/
def tdivW16 (a : Int) (b : Nat) : W16 := BitVec.ofInt 16 (Int.tdiv a (b : Int))

end Sys2Proof.Machine
end

