-- ==== Sys2Proof/Machine/Crc.lean ====
section
/-! DEFINITION. The CRC presets of Table CK-1 and SHA-256 (R470), computed bit by bit. -/

namespace Sys2Proof.Machine

open Sys2Proof

/-- The three presets of Table CK-1. -/
inductive Preset where
  | crc32c | crc32 | crc16
  deriving DecidableEq, Repr

/-- The preset of CKn_CFG.PRESET; code 3 is reserved and reads as preset 0. -/
def presetOf (k : Nat) : Preset := if k = 1 then .crc32 else if k = 2 then .crc16 else .crc32c

/-- Initial raw value of a preset. -/
def crcInit : Preset → W32
  | .crc32c => 0xFFFFFFFF
  | .crc32 => 0xFFFFFFFF
  | .crc16 => 0xFFFF

/-- Final XOR of a preset. -/
def crcXor : Preset → W32
  | .crc32c => 0xFFFFFFFF
  | .crc32 => 0xFFFFFFFF
  | .crc16 => 0

/-- `n` steps of a reflected CRC with reversed polynomial `p`. -/
def crcStepsR (p : W32) : Nat → W32 → W32
  | 0, c => c
  | n + 1, c => crcStepsR p n (if c.getLsbD 0 then (c >>> 1) ^^^ p else c >>> 1)

/-- `n` steps of the 16-bit CRC with polynomial 0x1021, most significant bit first. -/
def crcSteps16 : Nat → W32 → W32
  | 0, c => c
  | n + 1, c => crcSteps16 n ((if c.getLsbD 15 then (c <<< 1) ^^^ 0x1021 else c <<< 1) &&& 0xFFFF)

/-- One byte fed into the raw value (R389). -/
def crcByte (p : Preset) (c : W32) (b : Byte) : W32 :=
  match p with
  | .crc32c => crcStepsR 0x82F63B78 8 (c ^^^ b.setWidth 32)
  | .crc32 => crcStepsR 0xEDB88320 8 (c ^^^ b.setWidth 32)
  | .crc16 => crcSteps16 8 (c ^^^ (b.setWidth 32 <<< 8))

/-- Bytes fed in stream order. -/
def crcFeed (p : Preset) (c : W32) (bs : List Byte) : W32 := bs.foldl (crcByte p) c

/-- The result of a raw value (R390). -/
def crcFinish (p : Preset) (c : W32) : W32 := c ^^^ crcXor p

/-- The CRC of a byte string. -/
def crcOf (p : Preset) (bs : List Byte) : W32 := crcFinish p (crcFeed p (crcInit p) bs)

/-- CRC-32C, the code of telegrams, images and NVM records (R318). -/
def crc32c (bs : List Byte) : W32 := crcOf .crc32c bs

/-! ### CRC-8 of the debug port (R619) -/

/-- `n` steps of the CRC-8 with polynomial 0x07, most significant bit first. -/
def crcSteps8 : Nat → Byte → Byte
  | 0, c => c
  | n + 1, c => crcSteps8 n (if c.getLsbD 7 then (c <<< 1) ^^^ 0x07 else c <<< 1)

/-- CRC-8 of a byte string: initial value 0, no reflection, no final XOR. -/
def crc8 (bs : List Byte) : Byte := bs.foldl (fun c b => crcSteps8 8 (c ^^^ b)) 0

/-! ### SHA-256 (PRESUMED: FIPS 180-4, which the spec names and does not restate; log entry 53)

The constants are computed from what they are: the leading 32 fraction bits of the square roots of the first 8 primes (initial value)
and of the cube roots of the first 64 primes (one for each round). -/

/-- The first 64 primes: 2 to 311. -/
def shaPrimes : List Nat :=
  ((List.range 312).drop 2).filter fun n => [2, 3, 5, 7, 11, 13, 17].all fun d => n = d || n % d != 0

/-- The largest number below `r + 2 ^ b`, from `r` on, whose `k`-th power is at most `n`. -/
def rootUp (k n : Nat) : Nat → Nat → Nat
  | 0, r => r
  | b + 1, r => rootUp k n b (if (r + 2 ^ b) ^ k ≤ n then r + 2 ^ b else r)

/-- The leading 32 fraction bits of the `k`-th root of `p`. -/
def fracRoot (k p : Nat) : W32 := BitVec.ofNat 32 (rootUp k (p * 2 ^ (32 * k)) 37 0)

/-- XOR of right rotations of a word. -/
def rotXor (l : List Nat) (x : W32) : W32 := l.foldl (fun y n => y ^^^ x.rotateRight n) 0

/-- The last 16 words of the message schedule, newest first, move on by one word. -/
def shaNext (w : List W32) : List W32 :=
  let old := w.getD 14 0
  let new := w.getD 1 0
  (w.getD 15 0 + w.getD 6 0 + (rotXor [7, 18] old ^^^ (old >>> 3)) + (rotXor [17, 19] new ^^^ (new >>> 10))) :: w.take 15

/-- One round on the eight working words, with the constant and the word of the round. -/
def shaRound (k w : W32) : List W32 → List W32
  | [a, b, c, d, e, f, g, h] =>
    let t := rotXor [6, 11, 25] e + (g ^^^ (e &&& (f ^^^ g))) + h + k + w
    [t + rotXor [2, 13, 22] a + ((a &&& b) ||| (c &&& (a ||| b))), a, b, c, d + t, e, f, g]
  | l => l

/-- The rounds of a block: `w` holds the schedule, newest word first, and the word of the next round stands in place 15. -/
def shaRounds : List W32 → List W32 → List W32 → List W32
  | [], _, v => v
  | k :: ks, w, v => shaRounds ks (shaNext w) (shaRound k (w.getD 15 0) v)

/-- One block of 64 bytes. -/
def shaBlock (v : List W32) (blk : List Byte) : List W32 :=
  let w := (List.range 16).map fun i => BitVec.ofNat 32 (beAt blk (60 - 4 * i) 4)
  List.zipWith (· + ·) v (shaRounds (shaPrimes.map (fracRoot 3)) w v)

/-- A message with its padding: one bit, zeros, and the length in bits. -/
def shaPadded (m : List Byte) : List Byte :=
  m ++ (0x80 : Byte) :: List.replicate ((119 - m.length % 64) % 64) 0 ++ bytesBE 8 (8 * m.length)

/-- The 32 bytes of SHA-256 of a message. -/
def sha256 (m : List Byte) : List Byte :=
  let p := shaPadded m
  let v := (List.range (p.length / 64)).foldl (fun v i => shaBlock v (slice p (64 * i) 64)) ((shaPrimes.take 8).map (fracRoot 2))
  v.flatMap fun x => bytesBE 4 x.toNat

end Sys2Proof.Machine
end

