-- ==== Sys2Proof/Machine/Mem.lean ====
section
/-! DEFINITION. Byte memories in one canonical form: addresses strictly rising, and no entry equal to what an unlisted
address reads as. -/

namespace Sys2Proof.Machine

open Sys2Proof

/-- The canonical form of a memory whose unlisted addresses read `d`. -/
def Memory.wf (d : Byte) : List Host.Cell → Bool
  | [] => true
  | [c] => c.2 != d
  | c :: c' :: m => c.2 != d && decide (c.1 < c'.1) && Memory.wf d (c' :: m)

/-- The byte at address `a`. -/
def memRead (d : Byte) : List Host.Cell → Nat → Byte
  | [], _ => d
  | c :: m, a => if c.1 = a then c.2 else if a < c.1 then d else memRead d m a

/-- The memory with byte `b` at address `a`. -/
def memWrite (d : Byte) : List Host.Cell → Nat → Byte → List Host.Cell
  | [], a, b => if b = d then [] else [(a, b)]
  | c :: m, a, b =>
    if c.1 = a then (if b = d then m else (a, b) :: m)
    else if a < c.1 then (if b = d then c :: m else (a, b) :: c :: m)
    else c :: memWrite d m a b

/-- Bytes written from address `a` upwards. -/
def memWriteList (d : Byte) (m : List Host.Cell) (a : Nat) (bs : List Byte) : List Host.Cell :=
  (bs.foldl (fun (p : List Host.Cell × Nat) b => (memWrite d p.1 p.2 b, p.2 + 1)) (m, a)).1

/-- `n` bytes from address `a`. -/
def memReadList (d : Byte) (m : List Host.Cell) (a n : Nat) : List Byte :=
  (List.range n).map fun i => memRead d m (a + i)

/-- The 32-bit word at address `a`, least significant byte at the lower address (R188, R469). -/
def memRead32 (d : Byte) (m : List Host.Cell) (a : Nat) : W32 :=
  BitVec.ofNat 32 (natLE (memReadList d m a 4))

/-- The memory with a 32-bit word at address `a`. -/
def memWrite32 (d : Byte) (m : List Host.Cell) (a : Nat) (w : W32) : List Host.Cell :=
  memWriteList d m a (bytesLE 4 w.toNat)

/-- The memory without its entries from `lo` to `hi - 1`, which then read `d`. -/
def memErase (m : List Host.Cell) (lo hi : Nat) : List Host.Cell :=
  m.filter fun c => decide (c.1 < lo ∨ hi ≤ c.1)

end Sys2Proof.Machine
end

