-- ==== Sys2Proof/Machine/PartsA.lean ====
section
/-! DEFINITION. State of the mode logic (chapter 02), of the event system (chapter 12) and of the NVM: vault,
staging, change log, ledger and fault cells (chapter 13). -/

namespace Sys2Proof.Machine

open Sys2Proof

/-- The six modes of Table SY-1. -/
inductive Mode where
  | reset | prove | configure | operate | degraded | safe
  deriving DecidableEq, Repr

/-- What a running stop sequence leads to (R59, R75, R76). -/
inductive StopGoal where
  | configure | resetHost | resetUsb
  deriving DecidableEq, Repr

/-- One item of Table SY-9 at device level (R80): when its timer started (model time), the minutes that had run
before the reset it resumed from (R504), whether its escalation has been applied, the first unit that set it, and the units
for which it stands. -/
structure DegItem where
  units : BitVec 32 := 0
  start : Option Nat := none
  before : Nat := 0
  escalated : Bool := false
  unit : Byte := 0
  deriving DecidableEq, Repr

/-- Sampled readback of one of the two supervised pins (R83, PINRB). -/
structure PinRb where
  diff : Nat := 0
  high : Bool := false
  deriving DecidableEq, Repr

/-- The mode logic, reset logic, clock monitor and timestamp (chapter 02). -/
structure Sys where
  /-- Mode (SY_MODE.MODE, Table SY-1). -/
  mode : Mode := .prove
  /-- What a running stop sequence leads to; `some` is SY_MODE.STOPPING (R76). -/
  stop : Option StopGoal := none
  /-- A mode change that takes effect at step 1 of the next tick (R54, R72 step 6). -/
  pendMode : Option Mode := none
  /-- SY_MODE.REQREJ. -/
  reqRej : Bool := false
  /-- Time of an accepted first reset key 0x52A7, while the second may follow (R57). -/
  keyAt : Option Nat := none
  /-- SY_RSTCAUSE. -/
  rstCause : W16 := 0x0001
  /-- Causes of Table SY-3 collected while RESET is held, as SY_RSTCAUSE bits. -/
  rstPend : W16 := 0
  /-- A supply fell below its off level during this RESET (R56). -/
  offLevel : Bool := false
  /-- SY_PROVE.STEP. -/
  proveStep : BitVec 4 := 1
  /-- PROVE steps completed. -/
  proveDone : BitVec 4 := 0
  /-- SY_PROVE.PASS. -/
  provePass : Bool := false
  /-- SY_PROVE.FAIL. -/
  proveFail : Bool := false
  /-- SY_PROVE.DETAIL. -/
  proveDetail : Byte := 0
  /-- First step of this PROVE with a failure that PROVE survives (Table SY-12), 0 none. -/
  proveBad : BitVec 4 := 0
  /-- SY_PROVETIME. -/
  proveTime : W16 := 0
  /-- PROVE step 5 has completed, so that NVM-reset words read (R693) and appends run (R507). -/
  nvmReady : Bool := false
  /-- PROVE step 9 has ended and a configuration load is due (R72). -/
  loadDue : Bool := false
  /-- Load steps completed, and the time at which PROVE step 9 ended. -/
  loadDone : BitVec 3 := 0
  loadFrom : Nat := 0
  /-- Load step 5 has started the units (R72, Table SY-8). -/
  started : Bool := false
  /-- SY_CFGSTAT.LOADED (R77). -/
  loaded : Bool := false
  /-- SY_CFGSTAT.NOIMG. -/
  noImg : Bool := false
  /-- SY_CFGSTAT.LSTEP. -/
  lstep : BitVec 3 := 0
  /-- SY_SAFECAUSE.CAUSE. -/
  cause : Byte := 0
  /-- SY_SAFECAUSE.MORE. -/
  more : Byte := 0
  /-- SY_SAFEINFO. -/
  info : W16 := 0
  /-- SY_DEGSRC. -/
  degsrc : BitVec 10 := 0
  /-- The device-level timers of Table SY-9. -/
  deg : Vector DegItem 10 := Vector.replicate 10 {}
  /-- SY_CLKDEV. -/
  clkDev : W16 := 0
  /-- SY_CLKSTAT.LOCK. -/
  lock : Bool := true
  /-- SY_CLKSTAT.MONOK. -/
  monOk : Bool := true
  /-- SY_CLKSTAT.WARN. -/
  warn : Bool := false
  /-- Driven level of SAFE# (R34). -/
  safeHi : Bool := false
  /-- Driven level of LIFE (R35). -/
  lifeHi : Bool := false
  /-- Readback of SAFE# (SY_OUTSTAT.SAFEHI). -/
  safeRb : PinRb := {}
  /-- Readback of LIFE. -/
  lifeRb : PinRb := {}
  /-- SY_OUTSTAT.LIFEACT. -/
  lifeAct : Bool := false
  /-- SY_RSTDIGN. -/
  rstdIgn : W16 := 0
  /-- SY_BOOTSEL. -/
  bootsel : BitVec 2 := 0
  /-- SY_UID (fused). -/
  uid : BitVec 64 := Config.uid
  /-- Since when the junction has been above 115 degrees (R83, TEMP). -/
  hotSince : Option Nat := none
  /-- That cause has been met since (it is counted once). -/
  hotDone : Bool := false
  deriving DecidableEq, Repr

/-! ### Events and rings (chapter 12) -/

/-- A ring entry (Table EV-4) with the instant it was written. -/
structure Entry where
  code : BitVec 9
  marker : Bool := false
  sr : Bool := false
  lg : Bool := false
  unl : Bool := false
  sl : Bool := false
  cp : Bool := false
  data : W16
  ts : W32
  /-- When the entry was written (R450 age). -/
  at_ : Nat := 0
  deriving DecidableEq, Repr

/-- What waits in the event fabric, in raise order (R437). -/
inductive FabItem where
  /-- An event of a source group: code, data word, TSTAMP of the happening, marked as a safety reaction, SL. -/
  | event (code : BitVec 9) (data : W16) (ts : TStamp) (sr sl : Bool)
  /-- A ledger mirror entry (R440). -/
  | mirror (code : BitVec 9) (data : W16) (ts : TStamp) (unl sl : Bool)
  /-- A RECOVERY marker of Table EV-7: kind and unit. -/
  | recovery (kind unit : Byte) (ts : TStamp)
  deriving DecidableEq, Repr

/-- One ring (R443 to R449, R459). -/
structure Ring where
  /-- Depth code (R443). -/
  depth : BitVec 4 := 5
  /-- Stored entries, oldest first. -/
  q : List Entry := []
  /-- Ring write index of the next entry (Table CK-3, TAP6). -/
  wix : W16 := 0
  /-- EV_QnSTAT.OVF. -/
  ovf : Bool := false
  /-- EV_QnDROP. -/
  drop : W16 := 0
  /-- Pending RECOVERY markers, oldest first (R459). -/
  pend : List Entry := []
  /-- The newest entry is the OVERFLOW marker of the current episode (R445). -/
  episode : Bool := false
  /-- Q0: entries removed since the last OVERFLOW marker (R446). -/
  removed : W16 := 0
  /-- Q0: TSTAMP of the first of those removals. -/
  removedTs : W32 := 0
  /-- EV_QnD1 to EV_QnD3. -/
  d1 : W16 := 0
  d2 : W16 := 0
  d3 : W16 := 0
  deriving DecidableEq, Repr

/-- The event system (chapter 12). -/
structure Ev where
  /-- The group buffers and the ledger-mirror buffer, all entries in raise order (R436, R437). -/
  fabric : List FabItem := []
  /-- Which of the 96 group buffers lost an entry since its last accepted one (R439). -/
  lost : BitVec 96 := 0
  rings : Vector Ring 8 := Vector.replicate 8 {}
  /-- EV_IEN. -/
  ien : Byte := 0
  /-- EV_IRQSEL. -/
  irqsel : Byte := 0
  /-- EV_ITHR0, EV_ITHR1. -/
  ithr0 : W16 := 0
  ithr1 : W16 := 0
  /-- EV_ITIME. -/
  itime : Byte := 0
  /-- HIRQA# and HIRQB# levels (R451); high is inactive. -/
  hirqa : Bool := true
  hirqb : Bool := true
  /-- The loaded routes; none is the built-in Table EV-3 (R434). -/
  route : Option EventCfg := none
  /-- Route-table reload in progress until this instant (R465). -/
  routeBusy : Option Nat := none
  /-- Instant of the last route-table mismatch. -/
  routeBad : Option Nat := none
  /-- Built-in defaults until reset after a second mismatch (R465). -/
  routeDefault : Bool := false
  /-- EV_SRCDROP. -/
  srcDrop : W16 := 0
  /-- EV_LASTSL. -/
  lastSl : BitVec 9 := 0
  /-- EV_ECC. -/
  ecc : W16 := 0
  deriving DecidableEq, Repr

/-! ### NVM (chapter 13) -/

/-- The items of a vault record (Table LV-2) but for its generation. -/
structure Vault where
  bank : Bool := false
  pbank : Bool := false
  loadNo : W16 := 0
  salt : List Byte := List.replicate 16 0
  hash : List Byte := List.replicate 32 0
  wrong : Byte := 0
  k : Byte := 0
  lockMin : W16 := 0
  marks : Vector W32 5 := Vector.replicate 5 0
  /-- Door-channel status records (R289), 8 bytes each, as a little-endian number. -/
  doors : Vector (BitVec 64) 16 := Vector.replicate 16 0
  deriving DecidableEq, Repr

/-- A ledger record (Table LV-7). -/
structure LRec where
  lseq : W32
  loadNo : W16
  time : TStamp
  type : Byte
  gap : Bool := false
  fc : Bool := false
  code : W16
  data : List Byte
  deriving DecidableEq, Repr

/-- A commit that runs (R489): its port, the check code given, its start, the step of Table LV-4 in progress, its findings, and the
CSEQ of its entry, all ones before step 5. -/
structure CommitRun where
  port : Fin 2
  code : W32
  start : Nat
  step : Nat := 2
  f : CommitFindings
  cseq : W32 := 0xFFFFFFFF
  deriving DecidableEq, Repr

/-- A change-log entry (Table LV-6). -/
structure CEnt where
  cseq : W32
  origin : Byte
  state : Byte
  type : Byte
  banks : Byte
  loadNo : W16
  time : TStamp
  code : W32
  oldCode : W32
  imageId : W32
  length : W32
  pcrc : W32
  deriving DecidableEq, Repr

/-- Why a partition was lost (Table LV-8, LOST). -/
inductive LossCause where
  | noSpare | engine
  deriving DecidableEq, Repr

/-- An append-only partition: the ledger or the change log (R495, R500, R501, R502, R503). -/
structure Part (α : Type) where
  /-- Retained items, oldest first. -/
  recs : List α := []
  /-- Slots of retained sectors that were overwritten or unreadable, before the oldest retained item. -/
  fill : Nat := 0
  /-- Index of the sector being filled within the partition's circular order. -/
  cur : Nat := 0
  /-- Full sectors kept. -/
  full : Nat := 0
  /-- One erased sector lies ahead of the next record. -/
  ahead : Bool := true
  /-- Retired sectors: index within the partition, and the spare that took its place. -/
  retired : List (Nat × Nat) := []
  /-- A retirement in progress: the sector index concerned, and whether the failing record is written again at its end. -/
  retiring : Option Nat := none
  again : Bool := false
  /-- The retirement in progress was asked for by a read-verify that found the sector weak (R522, R523). -/
  weak : Bool := false
  /-- Sectors erased so far, for the wear of Table ST-6. -/
  erases : Nat := 0
  lost : Option LossCause := none
  deriving DecidableEq, Repr

/-- A chunk being staged (R485). The one chunk buffer is shared by both ports (R487). -/
structure ChunkBuf where
  opened : Bool := false
  words : List W16 := []
  deriving DecidableEq, Repr

/-- A port's password buffer (R482): the characters so far, the words written and whether a 0x00 ended it. -/
structure PwBuf where
  chars : List Byte := []
  words : Nat := 0
  ended : Bool := false
  deriving DecidableEq, Repr

/-- A port's login (R479): since its last CV or LG write. -/
structure Login where
  on : Bool := false
  last : Nat := 0
  pw : PwBuf := {}
  deriving DecidableEq, Repr

/-- The vault, the change log, the ledger and the fault cells (chapter 13). -/
structure Nv where
  /-- Configuration and program banks by NVM byte address (Table LV-1, sectors 0 to 43), erased bytes 0xFF unlisted. -/
  mem : List Host.Cell := []
  /-- Working values of the vault items. -/
  vault : Vault := {}
  /-- The current vault record in NVM and its generation (R470). -/
  stored : Vault := {}
  gen : W32 := 0
  /-- Page of the current record within the pair in use (0 to 127), and the pair's first sector (R471). -/
  page : Nat := 0
  pair : Nat := 52
  /-- Erase count of the eight pool sectors 52 to 59 (R472). -/
  wear : Vector Nat 8 := Vector.replicate 8 0
  /-- A wear move is due. -/
  moveDue : Bool := false
  /-- Vault pages in a row whose readback failed. -/
  pageFails : Nat := 0
  /-- Logins: host bus, USB. -/
  login : Vector Login 2 := Vector.replicate 2 {}
  /-- When the running lock minute ends (R480). -/
  lockNext : Option Nat := none
  /-- CV_SSEL. -/
  ssel : W16 := 0
  chunk : ChunkBuf := {}
  /-- CV_SCRC0. -/
  scrc0 : W16 := 0
  /-- CV_SSTAT.LAST. -/
  sLast : BitVec 3 := 0
  /-- CV_SSTAT.ERASING and the instant it must end. -/
  erasing : Bool := false
  /-- CV_SSTAT.PREP. -/
  prep : Bool := false
  /-- The staging directory: DRCF and PROGRAM chunk indexes. -/
  dirD : List Nat := []
  dirP : List Nat := []
  /-- A sector of a staging bank failed a read-verify since the banks were prepared (Table LV-11). -/
  stageBad : Bool := false
  /-- CV_CODE1:CV_CODE0. -/
  code : W32 := 0
  /-- The commit that runs (R489), CV_STAT.CBUSY. -/
  commit : Option CommitRun := none
  /-- CV_RESULT. -/
  result : Byte := 0
  origin : BitVec 2 := 0
  /-- CV_RESREC. -/
  resTag : Byte := 0
  resIndex : Byte := 0
  /-- The ledger and the change log. -/
  ledger : Part LRec := {}
  clog : Part CEnt := {}
  /-- CSEQ of the newest change-log entry. -/
  cseq : W32 := 0
  /-- Append queue, oldest first (R498). -/
  queue : List (LRec × Nat) := []
  /-- LG_QLEVEL.PEAK. -/
  qPeak : Nat := 0
  /-- LG_QDROP. -/
  qDrop : W16 := 0
  /-- LG_SEQ: the next LSEQ. -/
  lseq : W32 := 0
  /-- The next record written carries GAP (R498). -/
  gapNext : Bool := false
  /-- The 16 fault cells (R468, R502). -/
  cells : Vector (Option LRec) 16 := Vector.replicate 16 none
  /-- The fault-cell store cannot be written, and a write has failed while the ledger was lost (Table LV-11). -/
  cellsBad : Bool := false
  cellFail : Bool := false
  /-- The next of cells 1 to 15 to be written. -/
  cellNext : Nat := 1
  /-- Fault-cell header: minutes elapsed of items 8 and 9, and whether their escalation was applied (R504). -/
  hdrMin : Vector W16 2 := Vector.replicate 2 0
  hdrEsc : Vector Bool 2 := Vector.replicate 2 false
  /-- LG_UNLOGGED. -/
  unlogged : W16 := 0
  /-- LG_RSEL. -/
  rsel0 : W16 := 0
  rsel1 : W16 := 0
  /-- LG_RSTAT.READY, LG_RSTAT.RES. -/
  ready : Bool := false
  res : BitVec 3 := 0
  /-- Words of the fetched item still to be read through LG_RDATA. -/
  rdata : List W16 := []
  /-- LG_APPMAX. -/
  appMax : W16 := 0
  deriving DecidableEq, Repr

end Sys2Proof.Machine
end

