-- ==== Sys2Proof/Machine/PartsB.lean ====
section
/-! DEFINITION. State of the lanes (chapter 03), the counting heads (chapter 04), the sections, walker and tack
table (chapter 05) and the berths (chapter 06). -/

namespace Sys2Proof.Machine

open Sys2Proof

/-! ### Lanes (chapter 03) -/

/-- Spare states of Table WF-1. -/
inductive Spare where
  | free | shadow | serving | faulted
  deriving DecidableEq, Repr

/-- Where a group's proving or fault check stands (Tables WF-6 and WF-8, R118, R132). Times are model times. -/
inductive GPhase where
  | idle
  /-- Step 1: the spare settles alongside the home lane. -/
  | settle1 (til : Nat)
  /-- Step 2: agreement window, agreeing samples so far, limit of R128. -/
  | agree1 (n til : Nat)
  /-- Step 4: the home lane is measured while the spare serves. -/
  | homeTest (til : Nat)
  /-- Steps 5 and 6: the home lane settles alongside the spare. -/
  | settle2 (til : Nat)
  | agree2 (n til : Nat)
  /-- R130: the spare serves and the stitch becomes permanent when the head sees no wheel. -/
  | waitStitch (cause : BitVec 8)
  /-- R132: the lane not serving (the spare when `spare`) is proved. -/
  | disFirst (spare : Bool) (til : Nat)
  /-- R132: the other lane takes over when the head sees no wheel. -/
  | disSwap (toSpare : Bool)
  /-- R132: the lane that was serving (the spare when `spare`) is proved. -/
  | disSecond (spare : Bool) (til : Nat)
  /-- A lane that serves no input is proved directly (R122). -/
  | direct (til : Nat)
  /-- Fault check of R118: band raised, excursion samples seen by the spare, and its 2 ms limit. -/
  | check (cause : BitVec 4) (n til : Nat)
  deriving DecidableEq, Repr

/-- Result of the last proving (WF_IPROVE.RESULT, Table WF-7). -/
inductive ProveRes where
  | none | pass | drift | fail
  deriving DecidableEq, Repr

/-- A lane (R97): its last proving. -/
structure Lane where
  provedAt : Option Nat := none
  result : ProveRes := .none
  /-- WF_ICALERR: signed largest error, 0.01% of the reading. -/
  calErr : W16 := 0
  /-- Bursts completed of the 40 of R136. -/
  bursts : Nat := 0
  /-- OVERDUE reports of R145 already made (600 s, 24 h). -/
  over600 : Bool := false
  over24h : Bool := false
  deriving DecidableEq, Repr

/-- A running burst (R136): its start and, once aborted, the sample that aborted it. -/
structure Burst where
  start : Nat
  abort : Option Nat := none
  deriving DecidableEq, Repr

/-- The detection sample a head takes in (Table WF-5). -/
structure Sample where
  det : Bool := false
  fault : Bool := false
  proving : Bool := false
  prior : Bool := false
  lane : Fin 72 := 0
  deriving DecidableEq, Repr

/-- One input pair (R96). -/
structure Input where
  /-- The detection bit of R112. -/
  det : Bool := false
  /-- Causes of the faults that stand (Table WF-11), the first raised first, each with its instant. -/
  faults : List (BitVec 4 × Nat) := []
  /-- The last detection sample (R120). -/
  last : Sample := {}
  /-- The last valid sample was the first after an aborted burst (R140). -/
  after : Bool := false
  /-- Last valid sample carried PRIOR. -/
  prior : Bool := false
  val : BitVec 12 := 0
  idc : BitVec 12 := 0
  freq : BitVec 10 := 0
  /-- Consecutive samples beyond each band of Table WF-4. -/
  nOpen : Nat := 0
  nShort : Nat := 0
  nCarrier : Nat := 0
  nOver : Nat := 0
  /-- Since when the input has stayed within every band (R117). -/
  okSince : Option Nat := none
  burst : Option Burst := none
  /-- Last burst start (R136: at most once every 5 ms). -/
  lastBurst : Option Nat := none
  /-- Instant of the last sample with DET = 1, or of the load (R135). -/
  lastDet : Option Nat := none
  /-- Detection bit of the lane that runs alongside the serving lane. -/
  shadowDet : Bool := false
  /-- Last disagreement (R132: a second one within 24 h). -/
  disAt : Option Nat := none
  deriving DecidableEq, Repr

/-- One lane group (R97 to R100). -/
structure Group where
  spare : Spare := .free
  /-- Position shadowed or served (WF_GRPg.SPAREPOS). -/
  pos : Fin 8 := 0
  /-- The spare, not the home lane, is the serving lane of that position. -/
  spareServes : Bool := false
  /-- Home lanes stitched out (bit per position). -/
  out : BitVec 8 := 0
  /-- A factory stitch lies in this group (R146). -/
  fact : Bool := false
  groupFault : Bool := false
  phase : GPhase := .idle
  /-- Input positions whose burst proving is under way (R136, R141). -/
  under : BitVec 8 := 0
  /-- Fault checks of R118 that wait for the spare, the fault detected first in front: position and band. -/
  waiting : List (Fin 8 × BitVec 4) := []
  /-- Next position in the proving order, 8 the spare (R123). -/
  next : Nat := 0
  /-- Lane positions moved to the front of the order (R125). -/
  front : List (Fin 9) := []
  /-- Start of the last proving (R123: one every 6 s). -/
  lastStart : Option Nat := none
  deriving DecidableEq, Repr

/-- The lanes block. -/
structure Wf where
  input : Vector Input 64 := Vector.replicate 64 {}
  lane : Vector Lane 72 := Vector.replicate 72 {}
  group : Vector Group 8 := Vector.replicate 8 {}
  /-- WF_ABORTS. -/
  aborts : W16 := 0
  /-- WF_DISAGREE. -/
  disagree : W16 := 0
  deriving DecidableEq, Repr

/-! ### Heads (chapter 04) -/

/-- Phases of Table HD-1. -/
inductive Phase where
  | idle | enter | both | leave | pend | resync | fault | disabled
  deriving DecidableEq, Repr

/-- A counting head (R156 to R187). Entry and pending systems: false is A, true is B. -/
structure Head where
  phase : Phase := .disabled
  e : Bool := false
  v : Bool := false
  back : Bool := false
  /-- Rise times of E and F and fall time of E (sample instants). -/
  riseE : Option Nat := none
  riseF : Option Nat := none
  fallE : Option Nat := none
  /-- Start of the excursion for durations (rise of X in PEND, else of E). -/
  began : Nat := 0
  /-- Consecutive samples of the BOTH interval (R166). -/
  nBoth : Nat := 0
  nonIdle : Option Nat := none
  busy : Bool := false
  standing : Bool := false
  /-- Last change of DA or DB, or of the phase into the standing phases. -/
  changed : Nat := 0
  idleSince : Option Nat := none
  da : Bool := false
  db : Bool := false
  cin : W32 := 0
  cout : W32 := 0
  rocks : W16 := 0
  dist : W16 := 0
  seqerr : W16 := 0
  /-- TSTAMP of the last raised disturbance event (R171). -/
  distAt : Option Nat := none
  /-- HD_SPEED.DATA. -/
  speed : BitVec 11 := 0
  /-- The live dual copy of the section mask (R182). -/
  mask1 : W32 := 0
  mask2 : W32 := 0xFFFFFFFF
  /-- A mask reload stands (R182). -/
  reload : Bool := false
  /-- The head has processed its first sample (R168). -/
  started : Bool := false
  deriving DecidableEq, Repr

/-- The heads block. -/
structure Hd where
  head : Vector Head 32 := Vector.replicate 32 {}
  /-- HD_MASKERR. -/
  maskErr : W16 := 0
  deriving DecidableEq, Repr

/-! ### Sections (chapter 05) -/

/-- States of Table SC-4. -/
inductive SecState where
  | clear | occupied | disturbed | prepared | disabled
  deriving DecidableEq, Repr

/-- A track section (R200, R209, R212). -/
structure Sect where
  st : SecState := .disabled
  cause : BitVec 4 := 0
  count : W16 := 0
  compl : W16 := 0xFFFF
  entries : W16 := 0
  anom : W16 := 0
  /-- The count is outside 0 to 2000 and its anomaly was raised (R210). -/
  outside : Bool := false
  deriving DecidableEq, Repr

/-- A walker FIFO entry (R191). -/
structure WEntry where
  head : Fin 32
  inward : Bool
  ts : TStamp
  at_ : Nat
  seq : BitVec 5
  deriving DecidableEq, Repr

/-- A reset ordered by the interlocking and not yet applied (R211): section, direct or preparatory, and the RINST
of its command instance. -/
structure ROrder where
  sect : Fin 32
  direct : Bool
  rinst : Byte
  deriving DecidableEq, Repr

/-- The sections block. -/
structure Sc where
  sect : Vector Sect 32 := Vector.replicate 32 {}
  fifo : List WEntry := []
  peak : Nat := 0
  walks : W32 := 0
  walkFlt : W16 := 0
  lastFlt : W16 := 0
  eccCor : W16 := 0
  /-- The tack region of SRAM by walker byte address, zero bytes unlisted (R188). -/
  tack : List Host.Cell := []
  tackValid : Bool := false
  /-- A tack refresh stands, since this instant (R220). -/
  refresh : Option Nat := none
  /-- End of the last tack refresh (R222). -/
  refreshed : Option Nat := none
  nltot : BitVec 9 := 0
  walkMax : W16 := 0
  cntErr : W16 := 0
  orders : List ROrder := []
  deriving DecidableEq, Repr

/-! ### Berths (chapter 06) -/

/-- A berth unit (R230 to R243). -/
structure Berth where
  drp : Bool := false
  release : Bool := false
  /-- BR_STAT bits 1 to 6: modeok, sectok, countok, stopok, quiet, stillok. -/
  terms : BitVec 6 := 0
  enable : Bool := false
  permit : Bool := false
  dbgw : Bool := false
  lastw : BitVec 4 := 0
  /-- Latest activity of Table BR-2 (model time). -/
  still : Nat := 0
  /-- BR_STILLT. -/
  stillT : W16 := 0
  wdcnt : W16 := 0
  lastwAt : W32 := 0
  deriving DecidableEq, Repr

end Sys2Proof.Machine
end

