-- ==== Sys2Proof/Machine/PartsC.lean ====
section
/-! DEFINITION. State of the door channels, their contacts, test-pulse sources and STO outputs (chapter 07). -/

namespace Sys2Proof.Machine

open Sys2Proof

/-- A contact input: CLA, CLB, OBA, OBB of channel c are 4c to 4c + 3; ESTOPA and ESTOPB are 64 and 65. Closed
is true. -/
structure Contact where
  raw : Bool := false
  filt : Bool := false
  /-- Samples outside blind windows that have held a value other than `filt` (R257). -/
  run : Nat := 0
  darkFail : Bool := false
  crossFail : Bool := false
  /-- Closed at the last own sample before the pulse of another source (R255). -/
  pre : Bool := false
  /-- Read open inside the pulse of this other source, waiting for the sample after it. -/
  crossCand : Option (Fin 4) := none
  /-- Consecutive periods in which a cross-circuit to each source was seen. -/
  crossN : Vector Nat 4 := Vector.replicate 4 0
  /-- Dark checks passed since the channel last left INACTIVE (R294). -/
  dark : Bool := false
  /-- Dark checks passed in the present antivalent run (R259). -/
  darkN : Nat := 0
  deriving DecidableEq, Repr

/-- Evaluation of a pair (Tables DC-2 and DC-3): for the CL and ESTOP pairs good is LOCKED and bad NOTLOCKED; for the
OB pair good is CLEAR and bad OBSTACLE. -/
inductive PairEval where
  | good | bad | transit | fault
  deriving DecidableEq, Repr

/-- A pair of contacts. -/
structure Pair where
  eval : PairEval := .bad
  /-- Since when the values have been non-agreeing (CL, ESTOP) or non-antivalent (OB). -/
  since : Option Nat := none
  /-- ESTOP: both inputs have been open together since the fault (R260). -/
  opened : Bool := false
  /-- OB: since when an antivalent value has been held (R259). -/
  antiSince : Option Nat := none
  /-- The standing FAULT comes from a source fault (Table DC-3). -/
  bySource : Bool := false
  /-- KIND and TPS of the standing fault's event (Table DC-11). -/
  kind : BitVec 4 := 0
  tps : BitVec 2 := 0
  deriving DecidableEq, Repr

/-- A test-pulse source (R252, R256). -/
structure Tps where
  pulseAt : Option Nat := none
  fault : Bool := false
  deriving DecidableEq, Repr

/-- Channel states of Table DC-4. -/
inductive ChanState where
  | inactive | closed | opening | closing | stopping | stopped | locked | isolated
  deriving DecidableEq, Repr

/-- Door requests (R264). -/
inductive Req where
  | hold | open_ | close | stop
  deriving DecidableEq, Repr

/-- One STO output with its readback (R280 to R284). -/
structure Sto where
  on : Bool := false
  /-- Levels commanded one and two ticks ago (R280). -/
  on1 : Bool := false
  on2 : Bool := false
  rb : Bool := false
  bad : Nat := 0
  /-- Start of the running dark pulse (R281). -/
  darkAt : Option Nat := none
  /-- Stuck on, or a dark pulse failed: the degraded STO fault. -/
  deg : Bool := false
  /-- The standing degraded STO fault is a stuck-on output. -/
  stuckOn : Bool := false
  /-- Stuck off: a lockout fault. -/
  stuckOff : Bool := false
  deriving DecidableEq, Repr

/-- A door channel. -/
structure Chan where
  state : ChanState := .inactive
  /-- DC_STAT.CAUSE. -/
  cause : BitVec 5 := 0
  armed : Bool := false
  release : Bool := false
  psi : Bool := false
  sto : Vector Sto 2 := Vector.replicate 2 {}
  cl : Pair := {}
  ob : Pair := { eval := .good }
  req : Req := .hold
  fresh : Bool := false
  iso : Bool := false
  /-- Speed of the last tick, mm/s (R261). -/
  speed : Nat := 0
  /-- TACH: last edge, period between the last two edges, edges since the grant, start of an over-fast run. -/
  edge : Option Nat := none
  period : Nat := 0
  edges : Nat := 0
  fastSince : Option Nat := none
  tachF : Bool := false
  /-- Instant of the last grant of torque; the CL pair has left LOCKED since; edges came in time (R262, R263). -/
  grantAt : Option Nat := none
  leftLock : Bool := false
  /-- The present grant has given an edge within the tachometer timeout. -/
  edgesIn : Bool := false
  /-- Every grant of the present door cycle has. -/
  cycleOk : Bool := true
  /-- KIND of the standing tachometer fault (Table DC-11). -/
  tachKind : BitVec 4 := 0
  /-- Door cycles counted (R271). -/
  cycles : Nat := 0
  /-- STOPPING: tick of entry, speed at entry, ticks at standstill, class-0 DOOR_CMD sent (R275, R278). -/
  stopAt : Nat := 0
  /-- Cause of the safe-stop demand with which the channel entered STOPPING (R273). -/
  stopCause : BitVec 4 := 0
  stopV : Nat := 0
  stillN : Nat := 0
  cmdSent : Bool := false
  cmdQueued : Bool := false
  /-- A lockout waits for torque off (R288); it is one of the STO outputs or of the CL pair. -/
  lockPend : Bool := false
  lockHard : Bool := false
  /-- The lockout has an STO cause (R290). -/
  lockSto : Bool := false
  /-- A lockout fault that only a reset removes (source fault, Table DC-8). -/
  lockSource : Bool := false
  locked : Bool := false
  /-- Degraded state, used door cycles and minutes (R286), and when the next minute is due. -/
  degraded : Bool := false
  /-- The degraded state was resumed from the status record (R289). -/
  degResumed : Bool := false
  usedCyc : Byte := 0
  usedMin : BitVec 11 := 0
  nextMin : Option Nat := none
  /-- Microseconds of degraded time not yet counted as a minute. -/
  partUs : Nat := 0
  /-- Last occurrence of each degraded fault: OB pair, tachometer, STO (Table DC-8, twice within 24 h). -/
  degAt : Vector (Option Nat) 3 := Vector.replicate 3 none
  /-- An unlock request that the next tick decides, from USB or not (R267, R290, Table DC-9). -/
  unlocking : Option Bool := none
  deriving DecidableEq, Repr

/-- A pending unlock stage test (R290): the channel, whether USB asked, and its start. -/
structure UnlockReq where
  chan : Fin 16
  usb : Bool
  start : Nat
  deriving DecidableEq, Repr

/-- The door block. -/
structure Dc where
  contact : Vector Contact 66 := Vector.replicate 66 {}
  chan : Vector Chan 16 := Vector.replicate 16 {}
  tps : Vector Tps 4 := Vector.replicate 4 {}
  estop : Pair := {}
  /-- PSI of each berth and of the platform (R295, R296). -/
  psiB : BitVec 8 := 0
  psiAll : Bool := false
  unlockRej : Bool := false
  /-- Unlock requests whose stage test runs, oldest first. -/
  unlock : List UnlockReq := []
  lastStop : W16 := 0
  lastStopCh : BitVec 4 := 0
  viol : W16 := 0
  rbErr : W16 := 0
  xcnt : W16 := 0
  /-- PROVE step 7 findings: stages that failed (bit c). -/
  stageFail : W16 := 0
  /-- PROVE step 7: contact inputs that read closed with every source low. -/
  darkFail : BitVec 66 := 0
  deriving DecidableEq, Repr

end Sys2Proof.Machine
end

