-- ==== Sys2Proof/Machine/PartsD.lean ====
section
/-! DEFINITION. State of the Scaos telegram layer (chapter 09) and of the Ethernet and CAN ports (chapter 10). Pair 0 is
Ethernet and pair 1 is CAN; ports 0 to 3 are ETHA, ETHB, CANA, CANB. Peer 0 is the interlocking and peers 1 to 4 the
door-controller slots 0 to 3. -/

namespace Sys2Proof.Machine

open Sys2Proof

/-- Pair modes (TG_PSTAT.EMODE, R346, R347). -/
inductive PMode where
  | dual | singleA | singleB | lost
  deriving DecidableEq, Repr

/-- A held copy (R329, R330): network within the pair, source, SEQ, the 16 + LEN bytes and its end of reception. -/
structure Slot where
  net : Fin 2
  src : Byte
  seq : W32
  bytes : List Byte
  at_ : Nat
  deriving DecidableEq, Repr

/-- A telegram accepted lately (R329 late repetitions, R348 streaks): in single mode `seen` tells whether an equal copy
came on the lost network within W. -/
structure Acc where
  src : Byte
  seq : W32
  bytes : List Byte
  at_ : Nat
  seen : Bool
  deriving DecidableEq, Repr

/-- A pair of networks (R329, R345 to R348). -/
structure NetPair where
  mode : PMode := .dual
  slots : List Slot := []
  recent : List Acc := []
  /-- Consecutive missing copies of each network (R345). -/
  miss : Vector Nat 2 := Vector.replicate 2 0
  /-- Consecutive mismatches (R347). -/
  mism : Nat := 0
  netLost : Vector Bool 2 := Vector.replicate 2 false
  /-- Good telegrams in a row towards recovery (R348). -/
  streak : Nat := 0
  /-- Start of single mode (R80). -/
  since : Option Nat := none
  /-- Alive counter sent (R322). -/
  alive : Byte := 0
  deriving DecidableEq, Repr

/-- What is kept for a source (R333 to R336). -/
structure Source where
  sync : Bool := false
  seq : W32 := 0
  alive : Byte := 0
  time : W32 := 0
  /-- Consecutive sequence faults towards R335 and the SEQ of the last. -/
  faults : Nat := 0
  faultSeq : W32 := 0
  deriving DecidableEq, Repr

/-- A sequence stream towards a destination (R324 to R326). -/
structure Stream where
  /-- SEQ of the next telegram. -/
  seq : W32 := 0
  /-- The last 256 telegrams, newest first: SEQ and sender time. -/
  sent : List (W32 × W32) := []
  /-- SEQ of the latest telegram accepted from that node (R325). -/
  echo : W32 := 0
  deriving DecidableEq, Repr

/-- Held door request of a channel (R344). -/
structure HeldReq where
  valid : Bool := false
  req : BitVec 2 := 0
  iso : Bool := false
  echo : W32 := 0
  peer : Fin 5 := 1
  /-- SEQ of the DOOR_CMD that set it (R340). -/
  seq : W32 := 0
  fresh : Bool := false
  deriving DecidableEq, Repr

/-- A copy for a CAN controller (R374, R377): a stop demand (class 0) or a DOOR_STAT (class 2), its door-controller slot, its
identifier, whether its data phase runs at the data bit rate (R372), its bytes and the channels a stop demand names. -/
structure CanTx where
  stop : Bool
  slot : Fin 4
  ident : BitVec 11
  brs : Bool
  bytes : List Byte
  chans : W16
  /-- The tick that built it. -/
  at_ : Nat := 0
  deriving DecidableEq, Repr

/-- A telegram that waits for its sequence mark to be written (R324) or for room in a check unit (R398): its destination, its bytes, and
its CAN copy. -/
structure Unsent where
  peer : Fin 5
  bytes : List Byte
  can : Option CanTx
  deriving DecidableEq, Repr

/-- The telegram layer. -/
structure Tg where
  pair : Vector NetPair 2 := Vector.replicate 2 {}
  source : Vector Source 5 := Vector.replicate 5 {}
  stream : Vector Stream 5 := Vector.replicate 5 {}
  /-- Held COMMAND: content used since load, berth enables, ECHO and its sender time, freshness (R339). -/
  benValid : Bool := false
  ben : Byte := 0
  benEcho : W32 := 0
  benTime : W32 := 0
  benFresh : Bool := false
  held : Vector HeldReq 16 := Vector.replicate 16 {}
  /-- TG_RACK: last RINST applied and its STEP and REASON. -/
  rack : Byte := 0
  rstep : Byte := 0
  /-- The last reset instance accepted (queued or applied) since load (R211, R343). -/
  rinst : Byte := 0
  /-- The section whose reset gave RSTEP, while a sweep may still change it. -/
  rsect : Option (Fin 32) := none
  rxerr : Vector W16 4 := Vector.replicate 4 0
  missCnt : Vector W16 4 := Vector.replicate 4 0
  mismatch : W16 := 0
  seqerr : W16 := 0
  stale : W16 := 0
  gap : W16 := 0
  /-- TSTAMP of the last raised limited event of each port: k = 0, k = 2 (R328, R355, R794). -/
  k0At : Vector (Option Nat) 4 := Vector.replicate 4 none
  k2At : Vector (Option Nat) 4 := Vector.replicate 4 none
  /-- A sequence mark could not be written (R353). -/
  markBad : Bool := false
  /-- Latest instants at which an Ethernet and a CAN transmit cycle began (R357). -/
  cycleAt : Vector (Option Nat) 2 := Vector.replicate 2 none
  /-- STATUS and DOOR_STAT payloads of the tick at which a cycle began, by peer (R351). -/
  pay : Vector (List Byte) 5 := Vector.replicate 5 []
  /-- Telegrams that wait for their sequence mark. -/
  unsent : List Unsent := []
  deriving DecidableEq, Repr

/-! ### Ports (chapter 10) -/

/-- An Ethernet port (R364 to R369). -/
structure Eth where
  up : Bool := false
  link : Bool := false
  anDone : Bool := false
  fd100 : Bool := false
  mdioOk : Bool := false
  cause : BitVec 4 := 5
  good : Nat := 0
  ffs : Nat := 0
  polls : Nat := 0
  waiting : Option (List Byte) := none
  sending : Option (List Byte) := none
  drop : W16 := 0
  reg1 : Byte := 0
  /-- Last poll (R367: every 10 ms). -/
  pollAt : Option Nat := none
  /-- Last event of each limited WHAT: 3, 4 and 7 (R387). -/
  evAt : Vector (Option Nat) 3 := Vector.replicate 3 none
  deriving DecidableEq, Repr

/-- CAN error states (CN_STAT.STATE). -/
inductive CanState where
  | active | passive | busOff | off
  deriving DecidableEq, Repr


/-- A CAN FD controller (R377 to R383). -/
structure Can where
  state : CanState := .off
  recovering : Bool := false
  holdoff : Bool := false
  /-- Level of CANx_STB. -/
  stb : Bool := true
  /-- Until when the transceiver leaves standby (R768). -/
  exitAt : Option Nat := none
  lec : BitVec 3 := 0
  tec : Nat := 0
  rec_ : Nat := 0
  boff : W16 := 0
  boffAt : List Nat := []
  drop : W16 := 0
  wdr : Byte := 0
  queue : List CanTx := []
  sending : Option CanTx := none
  evAt : Vector (Option Nat) 3 := Vector.replicate 3 none
  deriving DecidableEq, Repr

/-- An IEEE 802.3 Clause 22 frame on MDIO (R366): a write with its data, or a read. -/
structure MdioFrame where
  phy : BitVec 5
  reg : BitVec 5
  write : Option W16
  deriving DecidableEq, Repr

/-- The ports block. -/
structure Ports where
  eth : Vector Eth 2 := Vector.replicate 2 {}
  can : Vector Can 2 := Vector.replicate 2 {}
  /-- MDIO has been started (R367). -/
  mdioOn : Bool := false
  /-- The frames that the last start, poll or host read put on MDIO, in order. -/
  mdioOut : List MdioFrame := []
  /-- A host MDIO read under way: port and register (R370). -/
  mdioRead : Option (Fin 2 × BitVec 5) := none
  mdioData : W16 := 0
  deriving DecidableEq, Repr

end Sys2Proof.Machine
end

