-- ==== Sys2Proof/Machine/PartsE.lean ====
section
/-! DEFINITION. State of the check units (chapter 11). -/

namespace Sys2Proof.Machine

open Sys2Proof

/-- A block delivered by a tap (R396): its bytes and the tag of Table CK-3. -/
structure Block where
  bytes : List Byte
  tag : List Byte := []
  deriving DecidableEq, Repr

/-- A CKBLK under way (R409, R410): the bytes captured at issue and whether it compares. -/
structure Feed where
  bytes : List Byte
  cmp : Bool
  addr : Nat := 0
  /-- When the feed started. -/
  start : Nat := 0
  deriving DecidableEq, Repr

/-- A coprocessor operation in the FIFO (R412, R413); `ret` is a CKGET, CKFIN or CKCMP that waits for the ones before it (R407). -/
inductive CkOp where
  | init | set (v : W32) | exp (v : W32) | feed (bytes : List Byte) | blk (f : Feed) | ret
  deriving DecidableEq, Repr

/-- The snapshot of an uncommitted operation (R413): raw value, FIFO write pointer, CKn_EXP, and CKn_STAT.HELD. -/
structure CkSnap where
  raw : W32
  exp : W32
  ptr : Nat
  held : Bool
  deriving DecidableEq, Repr

/-- A check unit. -/
structure Ck where
  cfg : W16 := 0
  par : W16 := 0
  /-- The raw running value (R390). -/
  raw : W32 := 0
  /-- CKn_VAL of a snoop unit: the result of the last block. -/
  val : W32 := 0
  exp : W32 := 0
  bseq : W32 := 0
  alast : Option Byte := none
  /-- Blocks in the FIFO of a snoop unit, oldest first. -/
  fifo : List Block := []
  /-- A CKBLK in progress (COP). -/
  feed : Option Feed := none
  /-- Coprocessor operations behind it, oldest first. -/
  ops : List CkOp := []
  /-- A CKBLK read an uncorrectable word and no result has been returned since (R545). -/
  dataEcc : Bool := false
  disabled : Bool := false
  /-- The snapshot of an uncommitted operation, none once it is committed (CKn_STAT.SPEC). -/
  spec : Option CkSnap := none
  /-- A self-test runs since this instant (R422), and the last completed test and OVERDUE before it (R424). -/
  testing : Option Nat := none
  testBefore : Nat × Bool := (0, false)
  held : Bool := false
  mis : Bool := false
  overdue : Bool := false
  lastk : BitVec 4 := 0
  cnt : W16 := 0
  lastTest : Nat := 0
  /-- Time of the last mismatch event (R405). -/
  evAt : Option Nat := none
  deriving DecidableEq, Repr

/-- The settings of CK0 to CK3 (Table CK-2) and the reset settings of CK4 to CK7. -/
def ckFixed (n : Nat) : W16 :=
  if n = 0 then 0x0A01 else if n = 1 then 0x0E11 else if n = 2 then 0x0A21 else if n = 3 then 0x0E31 else 0

end Sys2Proof.Machine
end

