-- ==== Sys2Proof/Machine/PartsF.lean ====
section
/-! DEFINITION. State of stitching, burnishing and telemetry (chapter 14) and of the Cantle sequencer (chapters 15 and
16). -/

namespace Sys2Proof.Machine

open Sys2Proof

/-! ### Stitching, burnishing, telemetry -/

/-- A field entry of the stitch map (Table ST-2); its ESEQ is its place in the list. -/
structure MEntry where
  kind : Byte
  cause : Byte
  item : W16
  spare : W16
  loadNo : W16
  deriving DecidableEq, Repr

/-- A row stitch under way (R520): area of Table ST-10, row, the spare claimed and the cause. -/
structure RowJob where
  area : Fin 10
  row : Byte
  spare : W16
  cause : Byte
  deriving DecidableEq, Repr

/-- A field copy of the stitch map: entries it holds, valid, and given up because it cannot be written (R516). A new device holds two
valid copies without entries (log entry 3). -/
structure MapCopy where
  written : Nat := 0
  ok : Bool := true
  dead : Bool := false
  deriving DecidableEq, Repr

/-- A burnisher (R526 to R528): the next word, the start and the last duration of a pass, and whether this pass has been
reported. -/
structure Burnish where
  next : Nat := 0
  start : Nat := 0
  dur : Nat := 0
  reported : Bool := false
  deriving DecidableEq, Repr

/-- The NVM read-verify (R530): running, the sector last verified, the next one due, the pass start and the end of the last
pass. -/
structure Verify where
  run : Bool := false
  sector : Byte := 0
  next : Nat := 0
  start : Nat := 0
  due : Nat := 0
  done : Option Nat := none
  reported : Bool := false
  deriving DecidableEq, Repr

/-- Supervision of a supply for R533: consecutive samples out of range, in range, and the warning that stands. -/
structure SupWarn where
  out : Nat := 0
  back : Nat := 0
  warn : Bool := false
  deriving DecidableEq, Repr

/-- Stitching, burnishing and telemetry. -/
structure St where
  /-- ST_FACT (fused). -/
  fact : W16 := 0
  /-- Field entries, ESEQ 1 first, and the two copies. -/
  entries : List MEntry := []
  copies : Vector MapCopy 2 := Vector.replicate 2 {}
  single : Bool := false
  /-- Spares used of each SRAM bank, of Cantle instruction memory and of Cantle data memory. -/
  sramUsed : Vector Nat 8 := Vector.replicate 8 0
  cantUsed : Vector Nat 2 := Vector.replicate 2 0
  /-- The sector that each of SP12 to SP15 replaces. -/
  nvmSpare : Vector (Option Byte) 4 := Vector.replicate 4 none
  /-- Row stitches under way, oldest decision first. -/
  jobs : List RowJob := []
  /-- Rows of the last corrected errors: area, row and time, oldest first (R519). -/
  corr : List (Fin 10 × Byte × Nat) := []
  /-- A row is due for a stitch and its pool has no free spare (Table ST-4: the next PROVE fails). -/
  noSpare : List (Fin 10 × Byte) := []
  /-- ST_LOW. -/
  low : W16 := 0
  eccCor : W16 := 0
  eccUnc : W16 := 0
  /-- ST_LASTERR. -/
  lastErr : W16 := 0
  /-- TSTAMP of the last 0x1F0 of KIND 1. -/
  corAt : Option Nat := none
  burn : Vector Burnish 2 := Vector.replicate 2 {}
  overrun : Bool := false
  verify : Verify := {}
  /-- The telemetry sets of R531 and R532 and ST_TSEL. -/
  shadow : Vector W16 16 := Vector.replicate 16 0
  current : Vector W16 16 := Vector.replicate 16 0
  latched : Vector W16 16 := Vector.replicate 16 0
  tsel : Byte := 0
  tmax : Option Int := none
  tmin : Option Int := none
  hot : Bool := false
  supply : Vector SupWarn 4 := Vector.replicate 4 {}
  tempWarns : W16 := 0
  supplyWarns : W16 := 0
  deriving DecidableEq, Repr

/-! ### The Cantle sequencer -/

/-- Cantle states of Table CS-7. -/
inductive CsState where
  | held | running | waitScan | waitD | halted
  deriving DecidableEq, Repr

/-- The Cantle sequencer. -/
structure Cs where
  state : CsState := .held
  /-- G0 to G15; G0 is never written (R580). -/
  g : Vector W32 16 := Vector.replicate 16 0
  pc : BitVec 16 := 0
  /-- STATUS. -/
  ie : Bool := false
  hl : Bool := false
  /-- The instruction at PC waits at X (Table CS-6). -/
  stalled : Bool := false
  retpc : BitVec 16 := 0
  tkind : W32 := 0
  taddr : BitVec 20 := 0
  lstart : BitVec 16 := 0
  lend : BitVec 16 := 0
  lcount : W32 := 0
  cycle : W32 := 0
  /-- Instruction memory, bytes 0xFF unlisted, and data memory, bytes 0 unlisted (R548). -/
  imem : List Host.Cell := []
  dmem : List Host.Cell := []
  /-- The scan image window (Table CS-3). -/
  window : Vector Byte 144 := Vector.replicate 144 0
  /-- The image of the most recent scan start (R552). -/
  image : Vector Byte 144 := Vector.replicate 144 0
  scanno : W32 := 0
  /-- The first scan has begun (R549, R550). -/
  scanned : Bool := false
  /-- After a restart, the first scan is still to come (R572). -/
  first : Bool := true
  /-- PERMIT: the word of the last accepted permit write. -/
  permit : W32 := 0
  ien : Byte := 0
  ipend : Byte := 0
  /-- TIMER reload value and the instant at which the count reaches 0. -/
  timer : W32 := 0
  timerAt : Option Nat := none
  mbin : Vector W16 4 := Vector.replicate 4 0
  inFull : Bool := false
  inLen : BitVec 3 := 0
  refused : Bool := false
  mbout : Vector W16 4 := Vector.replicate 4 0
  outFull : Bool := false
  outLen : BitVec 3 := 0
  /-- Overrun count, watchdog fault, late scan. -/
  ovcnt : Byte := 0
  wdf : Bool := false
  late : Bool := false
  /-- The scan that began at the last scan start was on time, and it has reached SCANW. -/
  onTime : Bool := false
  reached : Bool := false
  /-- The last scan start. -/
  scanAt : Nat := 0
  rej : Bool := false
  /-- A restart is in progress, since this instant. -/
  restart : Option Nat := none
  scanMax : W16 := 0
  overrun : W16 := 0
  excCnt : W16 := 0
  lastExc : BitVec 4 := 0
  excPc : BitVec 16 := 0
  excAddr : BitVec 20 := 0
  imecc : W16 := 0
  /-- TSTAMPs of the last limited events: 0x1F8 KIND 1, 0x1F9, 0x1FA KIND 8 and KIND 9. -/
  ovAt : Option Nat := none
  excAt : Option Nat := none
  termAt : Option Nat := none
  deriving DecidableEq, Repr

end Sys2Proof.Machine
end

