-- ==== Sys2Proof/Machine/PartsG.lean ====
section
/-! DEFINITION. State of the debug port (chapter 17), of the host bus (chapters 18 and 19) and of the USB maintenance
port (chapter 20). -/

namespace Sys2Proof.Machine

open Sys2Proof

/-! ### Debug port -/

/-- Responses of Table DB-2. -/
inductive Resp where
  | ok | busy | reject | silent
  deriving DecidableEq, Repr

/-- The debug port. -/
structure Db where
  /-- The open session's wire and the last valid frame on it (R614, R615). -/
  session : Option Wire := none
  lastFrame : Nat := 0
  /-- Symbols of a partial one-wire frame, newest first (R623). -/
  partial_ : List Bool := []
  monEn : Bool := false
  mon : Bool := false
  inh : Bool := false
  patched : Bool := false
  /-- DB_STAT.WIRE. -/
  wire : Bool := false
  reason : BitVec 4 := 0
  unit : BitVec 2 := 0
  brkCode : Byte := 0
  /-- DB_PC. -/
  pc : BitVec 16 := 0
  /-- A stop request waits for the next boundary with HL = 0; a step is under way; the instruction at DB_PC does not
  trigger a breakpoint (R627, R631, R632). -/
  stopReq : Bool := false
  stepping : Bool := false
  skipBp : Bool := false
  gsel : BitVec 4 := 0
  /-- DB_MADDR: address, INC, SPACE. -/
  maddr : BitVec 20 := 0
  minc : Bool := false
  mspace : Bool := false
  ibp : Vector W32 4 := Vector.replicate 4 0
  wa : Vector W32 4 := Vector.replicate 4 0
  wv : Vector W32 4 := Vector.replicate 4 0
  wm : Vector W32 4 := Vector.replicate 4 0
  whaddr : BitVec 20 := 0
  whval : W32 := 0
  /-- The two complementary copies of DB_WDRAW, and a mismatch that stands until reset (R652). -/
  wdraw : BitVec 9 := 0
  wdrawC : BitVec 9 := 0x1FF
  copyFault : Bool := false
  freeze : BitVec 6 := 0
  /-- The terminal FIFOs, oldest first, 16 characters each. -/
  vtOut : List Byte := []
  vtIn : List Byte := []
  lost : Bool := false
  missed : W16 := 0
  stops : W16 := 0
  ferr : W16 := 0
  stopAt : Option Nat := none
  resumeAt : Option Nat := none
  writeAt : Option Nat := none
  /-- The answer to the last frame, and the DATA and CHK it carried (Table DB-1). -/
  resp : Resp := .silent
  data : W32 := 0
  chk : Byte := 0
  deriving DecidableEq, Repr

/-! ### Host bus -/

/-- The select registers that each port holds for itself (R681). -/
structure Sels where
  wf : W16 := 0
  hd : W16 := 0
  sc : W16 := 0
  br : W16 := 0
  dc : W16 := 0
  rsel : W16 := 0
  csel : W16 := 0
  deriving DecidableEq, Repr

/-- What the host bus and the register map keep for a port. -/
structure PortRegs where
  sel : Sels := {}
  /-- HB_SCRATCH (R682). -/
  scratch : W16 := 0
  /-- HB_OWNER.DENIED. -/
  denied : Bool := false
  /-- Snapshots of the upper words of RS groups, by word address; a word not listed reads 0 (R675). -/
  snap : List (Nat × W16) := []
  /-- The data of the port's last read with a side effect. -/
  data : W16 := 0
  /-- Time of the port's last register write (R686). -/
  wroteAt : Option Nat := none
  deriving DecidableEq, Repr

/-- The host bus. -/
structure Hb where
  port : Vector PortRegs 2 := Vector.replicate 2 {}
  owner : BitVec 2 := 0
  tag : Byte := 0
  mixChunk : Bool := false
  /-- Ports that have written words of the open chunk (R687). -/
  chunkBy : BitVec 2 := 0
  lastProt : BitVec 2 := 0
  /-- HB_STAT.PORT. -/
  lastPort : Bool := false
  holds : W16 := 0
  protErr : W16 := 0
  xwr : W16 := 0
  wrBus : W16 := 0
  wrUsb : W16 := 0
  deriving DecidableEq, Repr

/-! ### USB maintenance port -/

/-- UM_STAT.STATE. -/
inductive UState where
  | disconnected | default_ | addressed | configured
  deriving DecidableEq, Repr

/-- A download (R720): kind, the next item, the last item, and whether the packet before was a full one that ended the
items. -/
structure Download where
  kind : Fin 3
  next : Nat
  last : Nat
  deriving DecidableEq, Repr

/-- The answer to the last control request. -/
inductive UAns where
  | none | data (bytes : List Byte) | status | stall
  deriving DecidableEq, Repr

/-- The USB port. -/
structure Um where
  state : UState := .disconnected
  vbus : Bool := false
  suspend : Bool := false
  addr : BitVec 7 := 0
  /-- The port has been on a bus since reset, so that SOF packets may have given UM_FRAME a number. -/
  sof : Bool := false
  /-- A control transfer waits for the rest of its data stage (R716, R723). -/
  held : Bool := false
  reqCnt : W16 := 0
  stalls : W16 := 0
  busRst : W16 := 0
  aborts : W16 := 0
  lastReq : Byte := 0
  lastRes : BitVec 4 := 0
  /-- ENDPOINT_HALT of EP1 IN. -/
  halt : Bool := false
  download : Option Download := none
  /-- The last packet sent on EP1 IN. -/
  packet : List Byte := []
  /-- A reset requested by RESET_DEVICE falls due at this instant (R719). -/
  resetAt : Option Nat := none
  answer : UAns := .none
  /-- CSEQ and check code of the last commit that reached step 5 (Table UM-5). -/
  comSeq : W32 := 0xFFFFFFFF
  comCode : W32 := 0
  deriving DecidableEq, Repr

end Sys2Proof.Machine
end

