-- ==== Sys2Proof/Machine/State.lean ====
section
/-! DEFINITION. The whole state of the Darore, its faults and refusals, and the state after reset. -/

namespace Sys2Proof.Machine

open Sys2Proof

/-- Why the machine stops with a fault. -/
inductive Fault where
  /-- Raised by no command: every command of the block has an effect in every state. Safe. -/
  | notRaised
  deriving DecidableEq, Repr

/-- Why a command is refused. -/
inductive Refusal where
  /-- Raised by an arm of exec whose command has no meaning yet. Safe: the machine stops where the hardware goes on. -/
  | notModelled (mnemonic : String)
  deriving DecidableEq, Repr

/-- The instants at which the work of the fixed grids was last done (model time). -/
structure Grid where
  tick : Option Nat := none
  lane : Option Nat := none
  contact : Option Nat := none
  pin : Option Nat := none
  window : Option Nat := none
  telem : Option Nat := none
  burnSram : Option Nat := none
  burnCantle : Option Nat := none
  /-- The instant of the last lane sample, accepted telegram or other happening that a tick latches: at a tick instant it counts for
  the next tick (R160, R305). -/
  latch : Option Nat := none
  deriving DecidableEq, Repr

/-- The whole machine. -/
structure State where
  /-- Microseconds since the power first came (the model's own clock). -/
  now : Nat := 0
  /-- TSTAMP (R92) and whether it runs. -/
  tstamp : TStamp := 0
  tsRun : Bool := true
  /-- The model's own counter of free values drawn. -/
  free : Nat := 0
  grid : Grid := {}
  /-- The loaded configuration image (R19, R77). -/
  cfg : Image := {}
  sys : Sys := {}
  ev : Ev := {}
  nv : Nv := {}
  wf : Wf := {}
  hd : Hd := {}
  sc : Sc := {}
  berth : Vector Berth 8 := Vector.replicate 8 {}
  dc : Dc := {}
  tg : Tg := {}
  ports : Ports := {}
  ck : Vector Ck 8 := vec fun n => { cfg := ckFixed n.1 }
  st : St := {}
  cs : Cs := {}
  db : Db := {}
  hb : Hb := {}
  um : Um := {}
  /-- The commands that wait, first in, first out. -/
  pending : List Instr := []
  deriving DecidableEq, Repr

/-- The machine right after reset (R56, R65): SY_MODE is PROVE, no configuration is loaded, every register as its chapter
states, and no command waits. -/
def State.reset : State := {}

end Sys2Proof.Machine
end

