-- ==== Sys2Proof/Machine/Ops.lean ====
section
/-! DEFINITION. The operations the chapters share: time, free values, raising an event, queueing a ledger record, degraded
items, disturbing sections, and entering SAFE. -/

namespace Sys2Proof.Machine

open Sys2Proof

/-- What a command answers. -/
abbrev Result := Host.Outcome State Fault Refusal

/-! ### Time -/

/-- A bit of DB_FREEZE acts (R647). -/
def frozen (i : Nat) (s : State) : Bool := s.db.mon && !s.db.inh && bitOf s.db.freeze i

/-- `d` microseconds pass for Cantle: CYCLE counts 100 clocks in each while it waits (Table CI-9), and a frozen TIMER is held
back (R647). -/
def csTime (d : Nat) (s : State) : Cs :=
  { s.cs with
    cycle := if (s.cs.state = .waitScan || s.cs.state = .waitD) && !frozen 1 s then s.cs.cycle + BitVec.ofNat 32 (100 * d)
             else s.cs.cycle,
    timerAt := if frozen 0 s then s.cs.timerAt.map (· + d) else s.cs.timerAt }

/-- `d` microseconds pass; TSTAMP follows while it runs (R92). -/
def advance (d : Nat) (s : State) : State :=
  { s with now := s.now + d, tstamp := if s.tsRun then s.tstamp + BitVec.ofNat 48 d else s.tstamp, cs := csTime d s }

/-- How long until the next instant of a grid of TSTAMP whose work was last done at `last` (R21, R108). -/
def reachDelay (p : Nat) (last : Option Nat) (s : State) : Nat :=
  if last = some s.now then p - s.tstamp.toNat % p else gridDelay p s.tstamp.toNat none

/-- Time up to the next instant of a grid of TSTAMP whose work was last done at `last` (R21, R108). -/
def reach (p : Nat) (last : Option Nat) (s : State) : State := advance (reachDelay p last s) s

/-- The instant after which the next safety tick lies: what is sampled or accepted at a tick instant is latched by the next tick
(R160, R231, R305, R311). DESIGN CHOICE (log entry 8): a tick commanded after it at the same instant is that next one. -/
def tickLast (s : State) : Option Nat := if s.grid.latch = some s.now then s.grid.latch else s.grid.tick

/-- Time up to the next tick instant (R21). -/
def reachTick (s : State) : State := reach 100 (tickLast s) s

/-- Something that a tick latches happens at this instant. -/
def noteLatch (s : State) : State := { s with grid := { s.grid with latch := some s.now } }

/-- The instant of the safety tick in progress (R21). -/
def tickInstant (s : State) : TStamp := s.tstamp - BitVec.ofNat 48 (s.tstamp.toNat % 100)

/-- A free word, and the state that has drawn it. -/
def draw (s : State) : BitVec 64 × State := (Config.freeWord s.free, { s with free := s.free + 1 })

/-- A free choice, and the state that has drawn it. -/
def drawBit (s : State) : Bool × State := (Config.freeBit s.free, { s with free := s.free + 1 })

/-! ### Modes -/

/-- OPERATE or DEGRADED (R232 modeok). -/
def inService (s : State) : Bool := s.sys.mode = .operate || s.sys.mode = .degraded

/-- SAFE with cause CLOCK (R85). -/
def clockSafe (s : State) : Bool := s.sys.mode = .safe && s.sys.cause = 1

/-- Mode code of Table SY-1. -/
def modeCode : Mode → Nat
  | .reset => 0
  | .prove => 1
  | .configure => 2
  | .operate => 3
  | .degraded => 4
  | .safe => 5

/-- CONFIGURE with an image (R77). -/
def configImage (s : State) : Bool := s.sys.mode = .configure && s.sys.loaded

/-- A committed image has been taken over: load step 5 has started the units (Table SY-8). -/
def imageTaken (s : State) : Bool := s.sys.loaded || s.sys.started

/-- Load step 5 has started the units and the load still goes on (Table SY-8). -/
def loadRuns (s : State) : Bool := s.sys.mode = .prove && s.sys.started

/-- Lanes, heads and contacts run on an image (R77, R147, R168, R297): from load step 5 on. -/
def imageRuns (s : State) : Bool := imageTaken s && s.sys.mode != .reset

/-! ### Events -/

/-- Source group of an event code (R436); group 95 is the ledger mirror. -/
def groupOf (code : Nat) : Nat :=
  if code < 0x100 then code / 8
  else if code < 0x180 then 32 + (code - 0x100) / 4
  else if code < 0x1D0 then 64 + (code - 0x180) / 5
  else if code < 0x1E0 then 80 + (code - 0x1D0) / 4
  else if code < 0x1F0 then 84 + code % 8
  else if code < 0x1F8 then 92
  else if code < 0x1FC then 93
  else 94

/-- Group of a fabric item; a RECOVERY marker takes no buffer room (R438). -/
def itemGroup : FabItem → Option Nat
  | .event c _ _ _ _ => some (groupOf c.toNat)
  | .mirror _ _ _ _ _ => some 95
  | .recovery _ _ _ => none

/-- Entries that wait in a group's buffer. -/
def groupLevel (g : Nat) (s : State) : Nat := (s.ev.fabric.filter fun x => itemGroup x = some g).length

/-- Room in a group's buffer: 8 entries, 32 for the mirror (R436). -/
def groupRoom (g : Nat) (s : State) : Bool := decide (groupLevel g s < if g = 95 then 32 else 8)

/-- An item enters the fabric or is lost (R439); nothing enters in RESET or under SAFE cause CLOCK (R462). -/
def fabricPut (g : Nat) (code : BitVec 9) (mk : Bool → FabItem) (s : State) : State :=
  if s.sys.mode = .reset || clockSafe s then s
  else if groupRoom g s then
    { s with ev := { s.ev with fabric := s.ev.fabric ++ [mk (bitOf s.ev.lost g)], lost := putBit s.ev.lost g false } }
  else
    { s with ev := { s.ev with srcDrop := s.ev.srcDrop + 1, lastSl := code, lost := putBit s.ev.lost g true } }

/-- Raises an event with its data word, the TSTAMP of the happening and its safety-reaction mark (R431, R433). -/
def raiseAt (code : Nat) (data : W16) (ts : TStamp) (sr : Bool) (s : State) : State :=
  fabricPut (groupOf code) (BitVec.ofNat 9 code) (fun sl => .event (BitVec.ofNat 9 code) data ts sr sl) s

/-- Raises an event that happens now. -/
def raise (code : Nat) (data : W16) (s : State) : State := raiseAt code data s.tstamp false s

/-- A RECOVERY marker of Table EV-7 (R458). -/
def recovery (kind unit : Nat) (s : State) : State :=
  if s.sys.mode = .reset || clockSafe s then s
  else { s with ev := { s.ev with
    fabric := s.ev.fabric ++ [.recovery (BitVec.ofNat 8 kind) (BitVec.ofNat 8 unit) s.tstamp] } }

/-- The rate limit of R794: an occurrence is raised when `p` microseconds have passed since the last raised one. -/
def limitOk (p : Nat) (last : Option Nat) (t : Nat) : Bool :=
  match last with
  | none => true
  | some l => decide (l + p ≤ t)

/-! ### Ledger records -/

/-- The mirror entry of a record (R440). -/
def mirror (r : LRec) (unl : Bool) (s : State) : State :=
  let code : BitVec 9 := if r.code = 0xFFFF then 0x1F6 else r.code.setWidth 9
  fabricPut 95 code (fun sl => .mirror code (r.lseq.setWidth 16) r.time unl sl) s

/-- A fault cell takes a record (R502, R503). -/
def cellPut (i : Fin 16) (r : LRec) (s : State) : State :=
  { s with nv := { s.nv with cells := s.nv.cells.set i.1 (some r) } }

/-- The next of cells 1 to 15, wrapping (R502). -/
def cellNextIx (n : Nat) : Fin 16 := if h : 1 ≤ n ∧ n < 16 then ⟨n, h.2⟩ else 1

/-- Record types that a lost ledger keeps in the fault cells (R502). -/
def cellType (t : Byte) : Bool :=
  t = 0x01 || t = 0x02 || t = 0x03 || t = 0x04 || t = 0x08 || t = 0x0E

/-- Data word of 0x1F6 (Table ST-10). -/
def ledgerWord (kind part index : Nat) : W16 := pack [(0, kind), (4, part), (8, index)]

/-- A record while the ledger is lost (R502): counted, mirrored, and kept in a cell when its type is one of R502. -/
def recordLost (r : LRec) (s : State) : State :=
  let s := mirror r true { s with nv := { s.nv with unlogged := satInc s.nv.unlogged } }
  if !cellType r.type then s
  else if s.nv.cellsBad then { s with nv := { s.nv with cellFail := true } }
  else
    let i := cellNextIx s.nv.cellNext
    let s := cellPut i r { s with nv := { s.nv with cellNext := if i.1 = 15 then 1 else i.1 + 1 } }
    raise 0x1F6 (ledgerWord 2 0 i.1) s

/-- The record the ledger makes of a happening: the next LSEQ, the load number and the time (R496). -/
def mkRec (type : Nat) (code : Nat) (data : List Byte) (ts : TStamp) (s : State) : LRec :=
  { lseq := s.nv.lseq, loadNo := s.nv.vault.loadNo, time := ts, type := BitVec.ofNat 8 type,
    code := BitVec.ofNat 16 code, data := data }

/-- A record enters the append queue, or is discarded with its mirror entry when the queue is full (R498). -/
def queueRec (r : LRec) (s : State) : State :=
  if s.nv.queue.length < 32 then
    let q := s.nv.queue ++ [(r, s.now)]
    { s with nv := { s.nv with queue := q, qPeak := max s.nv.qPeak q.length } }
  else mirror r true { s with nv := { s.nv with qDrop := satInc s.nv.qDrop, gapNext := true } }

/-- Queues a ledger record (R497, R498, R502); under cause CLOCK only the SAFE record is attempted (R507). -/
def recordAt (type : Nat) (code : Nat) (data : List Byte) (ts : TStamp) (s : State) : State :=
  if s.sys.mode = .reset || (clockSafe s && type != 4) then s
  else
    let r := mkRec type code data ts s
    let s := { s with nv := { s.nv with lseq := s.nv.lseq + 1 } }
    if s.nv.ledger.lost.isSome then recordLost r s else queueRec r s

/-- Queues a record of a happening at this instant. -/
def record (type : Nat) (code : Nat) (data : List Byte) (s : State) : State := recordAt type code data s.tstamp s

/-- "Record appended": the EVENT record of an event (R497). -/
def eventRecord (code : Nat) (data : W16) (s : State) : State := record 5 code (bytesLE 2 data.toNat) s

/-- An event together with its EVENT record. -/
def raiseRec (code : Nat) (data : W16) (s : State) : State := eventRecord code data (raise code data s)

/-! ### Degraded items (Table SY-9) -/

/-- Data word of 0x1FD. -/
def itemWord (i : Nat) (set : Bool) (unit : Nat) : W16 := pack [(0, i), (4, b2n set), (8, unit)]

/-- A degraded item begins to stand for a unit (R79, R497, Tables SY-13 and DC-10): event 0x1FD and a DEGRADED record; the
item's bit is set with its first unit, and its timer starts at a tick (R80). -/
def setItem (i : Fin 10) (unit : Nat) (s : State) : State :=
  let d := s.sys.deg[i.1]
  if bitOf d.units unit then s
  else
    let d := if bitOf s.sys.degsrc i.1 then d else { unit := BitVec.ofNat 8 unit }
    let s := { s with sys := { s.sys with
      degsrc := putBit s.sys.degsrc i.1 true, deg := s.sys.deg.set i.1 { d with units := putBit d.units unit true } } }
    record 8 0x1FD [BitVec.ofNat 8 i.1, 1, BitVec.ofNat 8 unit] (raise 0x1FD (itemWord i.1 true unit) s)

/-- A degraded item ends for a unit; its bit clears with the last unit. -/
def clearUnit (i : Fin 10) (unit : Nat) (s : State) : State :=
  let d := s.sys.deg[i.1]
  if bitOf d.units unit then
    let left := putBit d.units unit false
    let s := { s with sys := { s.sys with
      degsrc := putBit s.sys.degsrc i.1 (left != 0),
      deg := s.sys.deg.set i.1 (if left = 0 then {} else { d with units := left }) } }
    record 8 0x1FD [BitVec.ofNat 8 i.1, 0, BitVec.ofNat 8 unit] (raise 0x1FD (itemWord i.1 false unit) s)
  else s

/-- A degraded item of one unit clears. -/
def clearItem (i : Fin 10) (s : State) : State := clearUnit i s.sys.deg[i.1].unit.toNat s

/-- The items with a limit, in µs (Table SY-9). -/
def itemLimit (i : Fin 10) (s : State) : Option Nat :=
  if i = 0 then some (60000000 * s.cfg.tg.eslim.toNat)
  else if i = 2 then some (60000000 * s.cfg.tg.cslim.toNat)
  else if i = 8 ∨ i = 9 then some (3600000000 * fld s.cfg.ledger 7 0)
  else none

/-- An item's timer has reached its limit at instant `t`, and its escalation has not been applied (R80, R504). -/
def timerDueAt (i : Fin 10) (t : Nat) (s : State) : Bool :=
  bitOf s.sys.degsrc i.1 && !s.sys.deg[i.1].escalated &&
    match s.sys.deg[i.1].start, itemLimit i s with
    | some t0, some l => decide (t0 + l ≤ t + 60000000 * s.sys.deg[i.1].before)
    | _, _ => false

/-- The timer of an item expires at the next tick, so that the item no longer clears before it: a timer that expires in the tick in
which its item clears is escalated (Table SY-12a). -/
def escalatesNext (i : Fin 10) (s : State) : Bool := timerDueAt i (s.now + reachDelay 100 (tickLast s) s) s

/-! ### Sections -/

/-- Code of a section state (Table SC-4). -/
def secCode : SecState → Nat
  | .clear => 0
  | .occupied => 1
  | .disturbed => 2
  | .prepared => 3
  | .disabled => 7

/-- HD_CFG.EN. -/
def headOn (h : Fin 32) (s : State) : Bool := bitOf s.cfg.head[h.1].cfg 15

/-- Head `h` bounds section `i` (R201). -/
def bounds (h i : Fin 32) (s : State) : Bool := headOn h s && bitOf s.hd.head[h.1].mask1 i.1

/-- All heads, in ascending number. -/
def allHeads : List (Fin 32) := List.finRange 32

/-- The bounding heads of a section (R201). -/
def boundingHeads (i : Fin 32) (s : State) : List (Fin 32) := allHeads.filter fun h => bounds h i s

/-- Activity on a section at an instant, for every berth on it (R230, Table BR-2). -/
def activity (i : Fin 32) (t : Nat) (s : State) : State :=
  { s with berth := mapv (fun b x =>
      if fld s.cfg.berth[b.1].cfg 4 0 = i.1 then { x with still := max x.still t } else x) s.berth }

/-- Activity on every section a head bounds. -/
def headActivity (h : Fin 32) (t : Nat) (s : State) : State :=
  allHeads.foldl (fun s i => if bounds h i s then activity i t s else s) s

/-- The section is pending (R202). -/
def secPending (i : Fin 32) (s : State) : Bool :=
  s.sc.fifo.any (fun e => bounds e.head i s) || s.sc.refresh.isSome ||
    (boundingHeads i s).any fun h => s.hd.head[h.1].reload

/-- Data word of a section's state change (Table SC-9). -/
def secWord (new old cause : Nat) (hv : Option (Fin 32)) : W16 :=
  pack [(0, new), (3, old), (6, cause), (10, match hv with | some h => h.1 | none => 0), (15, b2n hv.isSome)]

/-- HD_CFG.INA and INB. -/
def headInA (h : Fin 32) (s : State) : Nat := fld s.cfg.head[h.1].cfg 5 0
def headInB (h : Fin 32) (s : State) : Nat := fld s.cfg.head[h.1].cfg 11 6

/-- Input number from a field of six bits. -/
def inputIx (k : Nat) : Fin 64 := ⟨k % 64, by omega⟩

/-- A burst on an input is aborted, at the last sample (R138, R139): one that still runs, also at the sample of its normal end
(Table WF-9). -/
def burstAbort (n : Fin 64) (s : State) : State :=
  match s.wf.input[n.1].burst, s.grid.lane with
  | some ⟨b, none⟩, some a =>
    if a ≤ b + 200 then
      { s with wf := { s.wf with
          aborts := satInc s.wf.aborts, input := upd s.wf.input n fun x => { x with burst := some ⟨b, some a⟩ } } }
    else s
  | _, _ => s

/-- A section leaves CLEAR: the bursts of the heads that bound it are aborted (R138). -/
def abortBursts (i : Fin 32) (s : State) : State :=
  allHeads.foldl (fun s h =>
    if bounds h i s then burstAbort (inputIx (headInB h s)) (burstAbort (inputIx (headInA h s)) s) else s) s

/-- A section takes a new state, with its event and its berths' activity (R208, R230). -/
def secSet (i : Fin 32) (new : SecState) (cause : Nat) (hv : Option (Fin 32)) (s : State) : State :=
  let old := s.sc.sect[i.1].st
  let s := { s with sc := { s.sc with sect := upd s.sc.sect i fun x =>
    { x with st := new, cause := if new = .disturbed then BitVec.ofNat 4 cause else x.cause } } }
  if old = new then s
  else
    let s := if old = .clear then abortBursts i s else s
    activity i s.now
      (raise (0x100 + 4 * i.1) (secWord (secCode new) (secCode old) (if new = .disturbed then cause else 0) hv) s)

/-- Data word of a reset step (Table SC-9, k = 2). -/
def stepWord (step reason detail : Nat) : W16 := pack [(0, step), (3, reason), (8, min 255 detail)]

/-- The STEP and REASON that STATUS carries for the last instance (RSTEP). -/
def setRstep (i : Fin 32) (step reason : Nat) (s : State) : State :=
  if s.tg.rsect = some i then { s with tg := { s.tg with rstep := BitVec.ofNat 8 (step + 8 * reason) } } else s

/-- A section enters DISTURBED with a cause of Table SC-5 (R206); a PREPARED section's sweep fails (R213). -/
def disturb (i : Fin 32) (cause : Nat) (hv : Option (Fin 32)) (s : State) : State :=
  match s.sc.sect[i.1].st with
  | .disabled => s
  | .prepared =>
    let reason := if cause = 6 || cause = 7 then 8 else 9
    let w := stepWord 4 reason s.sc.sect[i.1].entries.toNat
    secSet i .disturbed cause hv (setRstep i 4 reason (raiseRec (0x100 + 4 * i.1 + 2) w s))
  | _ => secSet i .disturbed cause hv s

/-- Every section of a mask enters DISTURBED. -/
def disturbMask (m : W32) (cause : Nat) (hv : Option (Fin 32)) (s : State) : State :=
  allHeads.foldl (fun s i => if bitOf m i.1 then disturb i cause hv s else s) s

/-- Every enabled section that is not DISTURBED enters it with cause MODE (R216). -/
def disturbAll (s : State) : State :=
  allHeads.foldl (fun s i => if s.sc.sect[i.1].st = .disturbed then s else disturb i 9 none s) s

/-- A bounding head is BUSY. -/
def anyBusy (i : Fin 32) (s : State) : Bool := (boundingHeads i s).any fun h => s.hd.head[h.1].busy

/-- Every bounding head is in phase IDLE. -/
def allIdle (i : Fin 32) (s : State) : Bool := (boundingHeads i s).all fun h => s.hd.head[h.1].phase = .idle

/-- The conditions of R204. -/
def clearOk (i : Fin 32) (s : State) : Bool :=
  s.sc.sect[i.1].count = 0 && allIdle i s && !secPending i s

/-- The section is pending for a reason other than a waiting commit (R205). -/
def pendOther (i : Fin 32) (s : State) : Bool :=
  s.sc.refresh.isSome || (boundingHeads i s).any fun h => s.hd.head[h.1].reload

/-- One evaluation of a section's state (R203 to R205, R213); a BUSY bounding head wins (R218). -/
def secEval (hv : Option (Fin 32)) (s : State) (i : Fin 32) : State :=
  match s.sc.sect[i.1].st with
  | .clear =>
    if anyBusy i s || s.sc.sect[i.1].count != 0 || pendOther i s then secSet i .occupied 0 hv s else s
  | .occupied => if !anyBusy i s && clearOk i s then secSet i .clear 0 hv s else s
  | .prepared =>
    if decide (2 ≤ s.sc.sect[i.1].entries.toNat) && !anyBusy i s && clearOk i s then
      let w := stepWord 3 0 s.sc.sect[i.1].entries.toNat
      secSet i .clear 0 hv (setRstep i 3 0 (raise (0x100 + 4 * i.1 + 2) w s))
    else s
  | _ => s

/-- The sections' states are evaluated in ascending number (R195). -/
def secEvalAll (hv : Option (Fin 32)) (s : State) : State := allHeads.foldl (secEval hv) s

/-! ### Door channels at a mode change -/

/-- Code of a channel state (Table DC-4). -/
def chanCode : ChanState → Nat
  | .inactive => 0
  | .closed => 1
  | .opening => 2
  | .closing => 3
  | .stopping => 4
  | .stopped => 5
  | .locked => 6
  | .isolated => 7

/-- Torque is granted in OPENING, CLOSING and STOPPING (Table DC-4, R268). -/
def torqueOn (st : ChanState) : Bool := st = .opening || st = .closing || st = .stopping

/-- A channel takes a new state with a cause of Table DC-6, and raises event k = 0 when it changes (R301). -/
def chanSet (c : Fin 16) (new : ChanState) (cause : Nat) (s : State) : State :=
  let old := s.dc.chan[c.1].state
  let s := { s with dc := { s.dc with chan := upd s.dc.chan c fun x =>
    { x with state := new, cause := BitVec.ofNat 5 cause,
             armed := if new = .inactive || new = .locked || new = .isolated then false else x.armed } } }
  if old = new then s
  else raise (0x180 + 5 * c.1) (pack [(0, chanCode new), (4, chanCode old), (8, cause)]) s

/-- Every output of a channel is commanded off. -/
def stoOff (x : Chan) : Chan := { x with sto := mapv (fun _ o => { o with on := false }) x.sto }

/-! ### Logins -/

/-- A login ends (R479): its password buffer is cleared and an ACCESS record of kind 4 gives the reason. -/
def endLogin (p : Fin 2) (reason : Nat) (s : State) : State :=
  if s.nv.login[p.1].on then
    let s := { s with nv := { s.nv with login := s.nv.login.set p.1 {} } }
    record 0x0A 0xFFFF [BitVec.ofNat 8 (p.1 + 1), 4, 0, 0, BitVec.ofNat 8 reason] s
  else s

/-! ### Check units -/

/-- A unit on a tap runs in the present mode (Table CK-6). -/
def snoopRuns (n : Fin 8) (s : State) : Bool :=
  match s.sys.mode with
  | .reset | .prove => false
  | .configure => decide (n.1 < 4) || s.sys.loaded
  | .operate | .degraded => true
  | .safe => s.sys.cause != 1

/-- CKn_CFG.OWNER. -/
def ckOwner (u : Ck) : Nat := fld u.cfg 1 0

/-! ### Cantle stops -/

/-- An interrupt source sets its IPEND bit (R558). -/
def ipendSet (n : Nat) (s : State) : State := { s with cs := { s.cs with ipend := putBit s.cs.ipend n true } }

/-- The coprocessor operations that wait in a FIFO are discarded (R566, Table CK-6). -/
def discardOps (s : State) : State :=
  { s with ck := mapv (fun _ u => if ckOwner u = 2 then { u with feed := none, ops := [], spec := none } else u) s.ck }

/-- Monitor mode is left without a resume event (R634). -/
def leaveMonitor (s : State) : State :=
  { s with db := { s.db with mon := false, inh := false, stopReq := false, stepping := false, skipBp := false } }

/-- Cantle enters HELD or HALTED (R566, R634). -/
def cantleStop (st : CsState) (s : State) : State :=
  leaveMonitor (discardOps { s with cs := { s.cs with state := st } })

/-- Data word of 0x1F8 (Table CS-10). -/
def wdWord (kind count : Nat) : W16 := pack [(0, kind), (8, min 255 count)]

/-- The watchdog fault is set, with its event, record, degraded item and the clearing of PERMIT (R557, R567, Table CS-9). -/
def wdFault (kind count : Nat) (s : State) : State :=
  let s := { s with cs := { s.cs with wdf := true, permit := 0 } }
  let w := wdWord kind count
  setItem 7 0 (eventRecord 0x1F8 w (raiseAt 0x1F8 w s.tstamp true s))

/-- Cantle enters HALTED by a host HALT or a double fault (Table CS-9). -/
def cantleHalted (count : Nat) (s : State) : State := wdFault 4 count (cantleStop .halted s)

/-! ### Debug sessions -/

/-- A session ends (R615): the debug functions are disarmed, and a stopped Cantle continues at DB_PC. -/
def sessionEnd (s : State) : State :=
  let go := s.db.mon && s.cs.state = .waitD
  let pc := if go then s.db.pc else s.cs.pc
  let st : CsState := if go then .running else s.cs.state
  let s := leaveMonitor { s with cs := { s.cs with state := st, pc := pc } }
  { s with db := { s.db with
      session := none, monEn := false, freeze := 0, vtOut := [], vtIn := [], lost := false,
      ibp := mapv (fun _ w => putBit w 0 false) s.db.ibp, wa := mapv (fun _ w => putBit w 31 false) s.db.wa } }

/-! ### USB -/

/-- The USB port disconnects (R705, R722). -/
def usbDisconnect (s : State) : State :=
  { s with um := { s.um with state := .disconnected, addr := 0, suspend := false, halt := false, held := false, download := none } }

/-- The pull-up connects while VBUS is valid (R705): the port is on the bus, in its default state. -/
def usbConnect (s : State) : State :=
  if s.um.vbus then { s with um := { s.um with state := .default_, sof := true } } else s

/-! ### Ports (Table NW-4) -/

/-- A controller goes off, its transceiver stands by, and the copies it still holds are withdrawn (R385). -/
def canOff (c : Can) : Can :=
  { c with state := .off, recovering := false, stb := true, exitAt := none, queue := [], sending := none,
           wdr := satAdd c.wdr (c.queue.length + b2n c.sending.isSome) }

/-- Every port off: ETHx_TXEN low, MDIO idle, CAN controllers off and in standby; the copies they hold are withdrawn. -/
def portsOff (s : State) : State :=
  { s with ports := { s.ports with
      mdioOn := false, mdioOut := [],
      eth := mapv (fun _ e => { e with up := false, cause := 5, waiting := none, sending := none }) s.ports.eth,
      can := mapv (fun _ c => canOff c) s.ports.can } }

/-- MDIO addresses of the two PHYs (R366): EN_PHY.ADA and ADB. -/
def phyAddr (x : Fin 2) (s : State) : BitVec 5 := BitVec.ofNat 5 (if x = 0 then fld s.cfg.en.phy 4 0 else fld s.cfg.en.phy 9 5)

/-- The writes with which a port starts (R367): advertise 100BASE-TX full duplex only, enable and restart autonegotiation. -/
def phyStart (x : Fin 2) (s : State) : List MdioFrame := [⟨phyAddr x s, 4, some 0x0101⟩, ⟨phyAddr x s, 0, some 0x1200⟩]

/-- MDIO runs from here on: both ports start (R367). -/
def mdioStart (s : State) : State :=
  if s.ports.mdioOn then s
  else { s with ports := { s.ports with
      mdioOn := true, mdioOut := phyStart 0 s ++ phyStart 1 s,
      eth := mapv (fun _ e => { e with good := 0, ffs := 0, polls := 0, pollAt := none }) s.ports.eth } }

/-- The Ethernet ports run: one in standby starts anew. -/
def ethOn (s : State) : State :=
  let s := mdioStart s
  { s with ports := { s.ports with
      eth := mapv (fun _ e => if e.cause = 5 then { e with cause := 0, good := 0, ffs := 0, polls := 0 } else e) s.ports.eth } }

/-- The CAN pair is unused (R741): a committed image has been taken over, with no door-controller slot in use and no door channel
enabled. -/
def canUnused (s : State) : Bool :=
  imageTaken s && s.cfg.tg.cpeer0 = 0 && s.cfg.tg.cpeer1 = 0 && s.cfg.chan.toList.all fun c => !bitOf c.cfg 0

/-- The CAN controllers run, and CANx_STB falls (Table NW-4, R768); those of an unused pair stay off (R741). -/
def canOn (s : State) : State :=
  if canUnused s then s
  else { s with ports := { s.ports with
      can := mapv (fun _ c => if c.state = .off then
          { c with state := .active, tec := 0, rec_ := 0, stb := false, exitAt := some (s.now + 50) } else c)
        s.ports.can } }

/-! ### Entering SAFE -/

/-- Data word of a mode change (Table SY-13). -/
def modeWord (new old : Mode) (cause : Nat) : W16 := pack [(0, modeCode new), (3, modeCode old), (8, cause)]

/-- A fall of a berth's DRP in the tick in progress (R49, R242, R243, R245). -/
def drpFall (reason : Nat) (s : State) (b : Fin 8) : State :=
  let t := tickInstant s
  let s := { s with berth := upd s.berth b fun x => { x with
    drp := false, release := false, lastw := BitVec.ofNat 4 reason, wdcnt := satInc x.wdcnt, lastwAt := t.setWidth 32 } }
  recordAt 6 0xFFFF [BitVec.ofNat 8 b.1, 0, BitVec.ofNat 8 reason, 0] t s

/-- Every DRP falls at an entry to SAFE, for the reason MODE (R232, R245). -/
def drpFalls (s : State) : State :=
  (List.finRange 8).foldl (fun s b => if s.berth[b.1].drp then drpFall 1 s b else s) s

/-- UNLOCK record (Table LV-8). -/
def unlockRecord (c : Fin 16) (usb ok : Bool) (s : State) : State :=
  record 0x0B 0xFFFF [BitVec.ofNat 8 c.1, if usb then 2 else 1, if ok then 1 else 0] s

/-- Unlock requests that wait at an entry to SAFE are not accepted (R290, R292). -/
def unlockDrop (s : State) : State :=
  let l := s.dc.unlock.map (fun u => (u.chan, u.usb)) ++
    (List.finRange 16).filterMap fun c => s.dc.chan[c.1].unlocking.map fun usb => (c, usb)
  let s := { s with dc := { s.dc with
    unlock := [], unlockRej := s.dc.unlockRej || !l.isEmpty,
    chan := mapv (fun _ x => { x with unlocking := none }) s.dc.chan } }
  l.foldl (fun s u => unlockRecord u.1 u.2 false s) s

/-- The outputs of Table PF-5: torque, DRP, releases, PSI, SAFE# and LIFE; every channel is INACTIVE (Table DC-5). -/
def safeOutputs (s : State) : State :=
  { s with
    sys := { s.sys with safeHi := false, lifeHi := false },
    berth := mapv (fun _ b => { b with drp := false, release := false }) s.berth,
    dc := { s.dc with psiB := 0, psiAll := false,
                      chan := mapv (fun _ c => { stoOff c with
                        state := .inactive, cause := 0x1A, armed := false, psi := false, release := false }) s.dc.chan } }

/-- Event k = 0 of a channel that leaves its state for INACTIVE (Table DC-5, R301). -/
def inactiveEvent (s : State) (c : Fin 16) : State :=
  let old := s.dc.chan[c.1].state
  if old = .inactive then s else raise (0x180 + 5 * c.1) (pack [(4, chanCode old), (8, 0x1A)]) s

/-- Lanes keep serving; provings, bursts and fault checks stop (R147). A spare that does not serve is FREE again, one that serves stays
SHADOW. -/
def stopProving (s : State) : State :=
  { s with wf := { s.wf with
      group := mapv (fun _ g => { g with
        phase := .idle, under := 0, waiting := [], front := [],
        spare := if g.spare = .shadow && !g.spareServes then .free else g.spare }) s.wf.group,
      input := mapv (fun _ x => { x with burst := none }) s.wf.input } }

/-- Changes the NVM block. -/
def setNv (f : Nv → Nv) (s : State) : State := { s with nv := f s.nv }

/-- CV_RESULT and CV_RESREC. -/
def setResult (code : Nat) (p : Fin 2) (tag index : Nat) (s : State) : State :=
  setNv (fun v => { v with
    result := BitVec.ofNat 8 code, origin := BitVec.ofNat 2 (p.1 + 1), resTag := BitVec.ofNat 8 tag, resIndex := BitVec.ofNat 8 index }) s

/-- The COMMIT record of a commit, ended or refused (Table LV-8). -/
def commitRecord (p : Fin 2) (code : W32) (res : Nat) (cseq : W32) (s : State) : State :=
  record 0x09 0xFFFF ([BitVec.ofNat 8 res, BitVec.ofNat 8 (p.1 + 1)] ++ bytesLE 4 code.toNat ++ bytesLE 4 cseq.toNat) s

/-- A commit ends, or a COMMIT is refused, with its result and its record. -/
def commitEnd (p : Fin 2) (code : W32) (res tag index : Nat) (cseq : W32) (s : State) : State :=
  commitRecord p code res cseq (setResult res p tag index (setNv (fun v => { v with commit := none }) s))

/-- A commit that has not reached step 5 is abandoned at an entry to SAFE (Table LV-10). -/
def commitAbandon (s : State) : State :=
  match s.nv.commit with
  | none => s
  | some r => if r.step < 5 then commitEnd r.port r.code 0x11 0 0 0xFFFFFFFF s else s

/-- A cause of SAFE (R83 to R86, R298, Table PF-5): the first cause is latched with its detail, later ones are counted. A request
that still waits is discarded (Table SY-12a; DESIGN CHOICE, log entry 101, for a USB reset request of CONFIGURE whose millisecond
has begun at an earlier tick), and a MODE record is made once PROVE has passed (R95; its place after the SAFE record: log
entry 10). -/
def enterSafe (cause : Nat) (info : W16) (s : State) : State :=
  if s.sys.mode = .reset then s
  else if s.sys.mode = .safe then { s with sys := { s.sys with more := satInc s.sys.more } }
  else
    let old := s.sys.mode
    let unproved := old = .prove && !s.sys.provePass
    let s := { s with
      sys := { s.sys with
        mode := .safe, stop := none, pendMode := none, loadDue := false, cause := BitVec.ofNat 8 cause, info := info },
      um := { s.um with resetAt := none } }
    let s := { s with tsRun := s.tsRun && cause != 1 }
    let s := disturbAll (stopProving (drpFalls s))
    let s := safeOutputs ((List.finRange 16).foldl inactiveEvent s)
    let s := raise 0x1FC (modeWord .safe old cause) s
    let s := record 4 0x1FC ([BitVec.ofNat 8 cause, 0] ++ bytesLE 2 info.toNat ++ bytesLE 2 s.sys.degsrc.toNat) s
    let s := if unproved then s
      else record 3 0x1FC [5, BitVec.ofNat 8 (modeCode old), BitVec.ofNat 8 cause] s
    let s := unlockDrop s
    let s := commitAbandon (endLogin 1 3 (endLogin 0 3 s))
    let s := { s with cs := { s.cs with permit := 0 } }
    let s := cantleStop .halted s
    if cause = 1 then portsOff (usbDisconnect (sessionEnd s)) else canOn (ethOn s)

end Sys2Proof.Machine
end

