-- ==== Sys2Proof/Machine/Snoop.lean ====
section
/-! DEFINITION. The taps and the snoop processing of the check units (chapter 11): what a block does at a unit, and the FIFO in front of
it. Taps are Table CK-3 (R396), tags come with the blocks. -/

namespace Sys2Proof.Machine

open Sys2Proof

/-- Changes a check unit. -/
def setCk (n : Fin 8) (f : Ck → Ck) (s : State) : State := { s with ck := upd s.ck n f }

/-- Preset, tap, fold, compare and alive window of a unit. -/
def ckPreset (u : Ck) : Preset := presetOf (fld u.cfg 3 2)
def ckTap (u : Ck) : Nat := fld u.cfg 7 4
def ckFold (u : Ck) : Nat := fld u.cfg 9 8
def ckCmp (u : Ck) : Nat := fld u.cfg 11 10
def ckAwin (u : Ck) : Nat := fld u.cfg 15 12

/-- The bits of a raw value that a preset uses (R390). -/
def ckMask (p : Preset) (v : W32) : W32 := match p with
  | .crc16 => v &&& 0xFFFF
  | _ => v

/-- The result of a unit (R390). -/
def ckResult (u : Ck) : W32 := crcFinish (ckPreset u) u.raw

/-- A self-test still runs: it completes within 12 µs (R422). -/
def ckTesting (u : Ck) (t : Nat) : Bool := u.testing.any fun b => decide (t < b + 12)

/-! ### Mismatches and unit faults (R405, Table CK-7) -/

/-- Data word of a mismatch. -/
def misWord (u : Ck) (kind diff : Nat) : W16 :=
  pack [(0, kind), (4, if ckOwner u = 2 then 15 else ckTap u), (8, diff % 256)]

/-- A mismatch (R404, R405, R408): CK4 to CK7 raise at most one event per ms, which is also Cantle's interrupt source. -/
def ckMismatch (n : Fin 8) (kind diff : Nat) (s : State) : State :=
  let u := s.ck[n.1]
  let s := setCk n (fun u => { u with mis := true, lastk := BitVec.ofNat 4 kind, cnt := satInc u.cnt }) s
  if 4 ≤ n.1 && limitOk 1000 u.evAt s.now then
    let s := raise (0x1E0 + n.1) (misWord u kind diff) (setCk n (fun u => { u with evAt := some s.now }) s)
    if ckOwner u = 2 then ipendSet (n.1 - 3) s else s
  else s

/-! ### Snoop (R400 to R403) -/

/-- Bytes at the end of a block that are not fed (R399, R400). -/
def ckTrail (u : Ck) : Nat :=
  if ckCmp u = 2 then (if ckPreset u = .crc16 then 2 else 4) else if ckCmp u = 3 then 4 else 0

/-- The fold bytes (R401). -/
def ckFoldBytes (u : Ck) (b : Block) : List Byte :=
  match ckFold u with
  | 1 => [BitVec.ofNat 8 (fld u.par 7 0)]
  | 2 => b.tag
  | 3 => bytesBE 4 u.bseq.toNat
  | _ => []

/-- The result of a block (R400). -/
def ckBlockResult (u : Ck) (b : Block) : W32 :=
  crcOf (ckPreset u) (ckFoldBytes u b ++ b.bytes.take (b.bytes.length - ckTrail u))

/-- The byte of the alive counter (R403). -/
def ckAlive (u : Ck) (b : Block) : Byte := b.bytes.getD (fld u.par 13 8) 0

/-- The block is too short for the trailing bytes or the alive byte (R402). -/
def ckShort (u : Ck) (b : Block) : Bool :=
  decide (b.bytes.length < ckTrail u) || (decide (0 < ckAwin u) && decide (b.bytes.length ≤ fld u.par 13 8))

/-- The mismatch of a block's code with its DIFF (R402): TRAIL or EXPECT, none without one or where the trailing bytes are missing. -/
def ckCode (u : Ck) (b : Block) : Option (Nat × Nat) :=
  let r := ckBlockResult u b
  let t : W32 := BitVec.ofNat 32 (natBE (b.bytes.drop (b.bytes.length - ckTrail u)))
  if ckCmp u = 2 && decide (ckTrail u ≤ b.bytes.length) && r != t then some (1, (r ^^^ t).toNat)
  else if ckCmp u = 1 && r != u.exp then some (2, (r ^^^ u.exp).toNat)
  else none

/-- The block holds the byte of the alive counter, which is checked. -/
def ckAliveHere (u : Ck) (b : Block) : Bool := decide (0 < ckAwin u) && decide (fld u.par 13 8 < b.bytes.length)

/-- The mismatch of a block's alive counter with its DIFF (R403): ALIVE or REPEAT. -/
def ckAliveKind (u : Ck) (b : Block) : Nat × Nat :=
  let v := ckAlive u b
  match u.alast with
  | some l =>
    if !ckAliveHere u b then (0, 0)
    else if ckAwin u < (v - l).toNat then (5, v.toNat)
    else if v = l then (6, v.toNat) else (0, 0)
  | none => (0, 0)

/-- The lowest kind of mismatch of a block with its DIFF, kind 0 for none (R405, Table CK-7). -/
def ckBlockKind (u : Ck) (b : Block) : Nat × Nat :=
  (ckCode u b).getD (if ckShort u b then (4, 0) else ckAliveKind u b)

/-- The unit after a block (R400, R401, R403). -/
def ckAfter (u : Ck) (b : Block) : Ck :=
  { u with
    val := ckBlockResult u b, bseq := u.bseq + 1, testing := none, held := false,
    alast := if ckAliveHere u b then some (ckAlive u b) else u.alast }

/-- One block is processed, and its mismatch reported. -/
def ckServe (n : Fin 8) (s : State) (b : Block) : State :=
  let k := ckBlockKind s.ck[n.1] b
  let s := setCk n (fun u => ckAfter u b) s
  if k.1 = 0 then s else ckMismatch n k.1 k.2 s

/-- Every block that waits is processed in order. -/
def ckServeAll (n : Fin 8) (s : State) : State :=
  s.ck[n.1].fifo.foldl (ckServe n) (setCk n (fun u => { u with fifo := [] }) s)

/-! ### The FIFO (R391, R398, R412, R423, R424) -/

/-- FIFO entries of a block: one holds 8 bytes (R391). -/
def ckEntries (b : Block) : Nat := (b.bytes.length + 7) / 8

/-- FIFO entries in use; a block of more than 32 passes through as the unit takes its entries. -/
def ckLevel (u : Ck) : Nat := min 32 ((u.fifo.map ckEntries).sum + u.ops.length)

/-- A self-test is abandoned (R424): it does not count as a completed one. -/
def ckAbandon (u : Ck) : Ck :=
  { u with testing := none, held := false, lastTest := u.testBefore.1, overdue := u.testBefore.2 }

/-- Room is made for a block: a self-test during which the FIFO fills is abandoned (R424), and without one the unit, which takes an
entry every 2 clocks, has served the blocks before. -/
def ckMakeRoom (n : Fin 8) (b : Block) (s : State) : State :=
  let u := s.ck[n.1]
  if ckTesting u s.now then
    (if ckLevel u + ckEntries b < 32 then s else ckServeAll n (setCk n ckAbandon s))
  else if ckLevel u + ckEntries b ≤ 32 then s
  else ckServeAll n s

/-- The unit watches a tap in the present mode. -/
def ckWatches (t : Nat) (n : Fin 8) (s : State) : Bool :=
  ckOwner s.ck[n.1] = 1 && ckTap s.ck[n.1] = t && snoopRuns n s && !s.ck[n.1].disabled

/-- A block reaches a unit; one that arrives during a self-test is held (R423). -/
def tapUnit (t : Nat) (b : Block) (s : State) (n : Fin 8) : State :=
  if ckWatches t n s then
    let s := ckMakeRoom n b s
    setCk n (fun u => { u with fifo := u.fifo ++ [b], held := u.held || ckTesting u s.now }) s
  else s

/-- A tap delivers a block to every snoop unit on it (R396). -/
def tapOut (t : Nat) (b : Block) (s : State) : State := (List.finRange 8).foldl (tapUnit t b) s

/-- Every unit on a tap has room for a whole block (R398): only a self-test keeps a unit from making it. -/
def tapRoom (t : Nat) (b : Block) (s : State) : Bool :=
  (List.finRange 8).all fun n =>
    !ckWatches t n s || !ckTesting s.ck[n.1] s.now || decide (ckLevel s.ck[n.1] + ckEntries b ≤ 32)

end Sys2Proof.Machine
end

