-- ==== Sys2Proof/Machine/HostOps.lean ====
section
/-! DEFINITION. What every write and read of a port does beside its own effect (chapter 18). -/

namespace Sys2Proof.Machine

open Sys2Proof

/-- The ports serve writes: not in RESET (R669) and not under SAFE cause CLOCK (R670). -/
def portLive (s : State) : Bool := s.sys.mode != .reset && !clockSafe s

/-- Changes what a port keeps. -/
def setPort (p : Port) (f : PortRegs → PortRegs) (s : State) : State :=
  { s with hb := { s.hb with port := upd s.hb.port p.ix f } }

/-- The other port. -/
def otherPort : Port → Port
  | .bus => .usb
  | .usb => .bus

/-- A port's login is kept alive by a write to a defined word of the CV or LG block, whatever its access code (R479). -/
def touchLogin (p : Port) (addr : Nat) (s : State) : State :=
  if (0x1A0 ≤ addr ∧ addr < 0x1B6) ∨ (0x1C0 ≤ addr ∧ addr < 0x1D0) then
    { s with nv := { s.nv with login := upd s.nv.login p.ix fun l => { l with last := s.now } } }
  else s

/-- A register write of a port is counted, with the interleaving of R686 and HB_STAT.PORT. -/
def countWrite (p : Port) (addr : Nat) (s : State) : State :=
  let other := s.hb.port[(otherPort p).ix].wroteAt
  let x := other.any fun t => decide (s.now < t + 100000)
  let hb := { s.hb with
    wrBus := if p = .bus then satInc s.hb.wrBus else s.hb.wrBus,
    wrUsb := if p = .usb then satInc s.hb.wrUsb else s.hb.wrUsb,
    xwr := if x then satInc s.hb.xwr else s.hb.xwr,
    lastPort := decide (p = .usb) }
  touchLogin p addr (setPort p (fun q => { q with wroteAt := some s.now }) { s with hb := hb })

/-- A write of a port to a word that has a writable field: counted, then applied (R64, R670, R684). -/
def portWrite (p : Port) (addr : Nat) (f : State → State) (s : State) : State :=
  if portLive s then f (countWrite p addr s) else s

/-- The data a port reads. -/
def portData (p : Port) (w : W16) (s : State) : State := setPort p (fun q => { q with data := w }) s

/-- Key byte of a keyed word. -/
def keyOf (v : W16) : Nat := fld v 15 8

/-- An access of the host bus too soon after the one before, and one with both strobes low, are counted (R660, R668). -/
def protError (cause : BitVec 2) (s : State) : State :=
  if s.sys.mode = .reset then s else { s with hb := { s.hb with protErr := satInc s.hb.protErr, lastProt := cause } }

/-- An access too soon is served all the same (R668). -/
def busSoon (p : Port) (soon : Bool) (s : State) : State := if soon && p = .bus then protError 1 s else s

/-- A read that held an update is counted (R672). -/
def readHeld (held : Bool) (s : State) : State :=
  if held && s.sys.mode != .reset then { s with hb := { s.hb with holds := satInc s.hb.holds } } else s

/-- A read cycle with its effect (R668, R671, R672). -/
def readCycle (p : Port) (c : ReadCycle) (f : State → State) (s : State) : State := readHeld c.held (f (busSoon p c.soon s))

/-- The word of a port's snapshot (R675). -/
def snapGet (p : Port) (a : Nat) (s : State) : W16 :=
  ((s.hb.port[p.ix].snap.find? fun x => x.1 = a).map (·.2)).getD 0

/-- The snapshot with a word latched (R674). -/
def snapPut (p : Port) (a : Nat) (w : W16) (s : State) : State :=
  setPort p (fun q => { q with snap := (a, w) :: q.snap.filter fun x => x.1 ≠ a }) s

end Sys2Proof.Machine
end

