-- ==== Sys2Proof/Machine/Stitch.lean ====
section
/-! DEFINITION. The stitch map and the stitching of rows (chapter 14).
Resources, copies, resolution and spares are Tables ST-1 to ST-4 (R510 to R512, R514, R517, R525); collisions are those of Table ST-7
(R535), failures of Table ST-8 (R536), structure codes and event words of Tables ST-9 and ST-10 (R537, R538). -/

namespace Sys2Proof.Machine

open Sys2Proof

/-! ### The program banks (Table LV-1, R548) -/

/-- First NVM byte of a configuration bank. -/
def confBase (b : Nat) : Nat := 262144 * b
/-- First NVM byte of a program bank. -/
def progBase (b : Nat) : Nat := 524288 + 98304 * b
/-- A byte of NVM; an erased byte reads 0xFF. -/
def nvByte (a : Nat) (s : State) : Byte := memRead 0xFF s.nv.mem a

/-- The byte that the loaded program gives an address of instruction memory; beyond ILEN the fill word (R548). -/
def progInstr (a : Nat) (s : State) : Byte :=
  if a < s.cfg.seqr.ilen.toNat then nvByte (progBase s.cfg.progBank.toNat + a) s else 0xFF

/-- The byte that the loaded program gives an address of data memory (R548). -/
def progData (a : Nat) (s : State) : Byte :=
  if a < s.cfg.seqr.dlen.toNat then nvByte (progBase s.cfg.progBank.toNat + s.cfg.seqr.ilen.toNat + a) s else 0

/-! ### The map -/

/-- Changes the stitching block. -/
def setSt (f : St → St) (s : State) : State := { s with st := f s.st }

/-- The NVM sector of a map entry's load number, cause, item and spare (R515, R523): the entry waits for its two writes. -/
def mapAppend (kind cause item spare : Nat) (s : State) : State :=
  setSt (fun x => { x with entries := x.entries ++
    [{ kind := BitVec.ofNat 8 kind, cause := BitVec.ofNat 8 cause, item := BitVec.ofNat 16 item,
       spare := BitVec.ofNat 16 spare, loadNo := s.nv.vault.loadNo }] }) s

/-- An item is named by a field entry. -/
def mapHas (kind item : Nat) (s : State) : Bool :=
  s.st.entries.any fun e => e.kind.toNat = kind && e.item.toNat = item

/-- A stitch of Table LV-8 is recorded: the ledger's STITCH record and the entry for both map copies (R133, R515). -/
def recordStitch (resource cause item spare code : Nat) (s : State) : State :=
  record 7 code ([BitVec.ofNat 8 (if resource = 5 then 1 else resource), BitVec.ofNat 8 cause] ++ bytesLE 2 item ++ bytesLE 2 spare)
    (mapAppend resource cause item spare s)

/-! ### Rows (R518 to R521) -/

/-- Data word of 0x1F0 (Table ST-10). -/
def rowWord (kind : Nat) (area : Fin 10) (row : Byte) : W16 := pack [(0, kind), (4, area.1), (8, row.toNat)]

/-- Item number of a row (Table ST-1). -/
def rowItem (area : Fin 10) (row : Byte) : Nat :=
  if area.1 < 8 then area.1 * 128 + row.toNat else if area.1 = 8 then row.toNat else 128 + row.toNat

/-- Resource number of an area (Table ST-1). -/
def rowResource (area : Fin 10) : Nat := if area.1 < 8 then 2 else 4

/-- Spares of an area's pool. -/
def poolSize (area : Fin 10) : Nat := if area.1 < 8 then 16 else if area.1 = 8 then 8 else 4

/-- Spares of an area's pool that are used. -/
def poolUsed (area : Fin 10) (s : State) : Nat :=
  if h : area.1 < 8 then s.st.sramUsed[area.1] else if area.1 = 8 then s.st.cantUsed[0] else s.st.cantUsed[1]

/-- Spare number of the k-th spare of an area (Table ST-1). -/
def spareNo (area : Fin 10) (k : Nat) : Nat :=
  if area.1 < 8 then area.1 * 16 + k else if area.1 = 8 then k else 8 + k

/-- One more spare of an area is used. -/
def useSpare (area : Fin 10) (s : State) : State :=
  setSt (fun x =>
    if h : area.1 < 8 then { x with sramUsed := upd x.sramUsed ⟨area.1, h⟩ (· + 1) }
    else { x with cantUsed := upd x.cantUsed (if area.1 = 8 then 0 else 1) (· + 1) }) s

/-- Free spares at which an area's pool is at its low mark (R524). -/
def lowMark (area : Fin 10) : Nat := if area.1 < 8 then 4 else if area.1 = 8 then 2 else 0

/-- A pool that first reaches its low mark sets its bit of ST_LOW, with its event and record (R524). -/
def lowCheck (area : Fin 10) (row : Byte) (s : State) : State :=
  if poolSize area - poolUsed area s ≤ lowMark area ∧ ¬ bitOf s.st.low area.1 then
    raiseRec 0x1F0 (rowWord 5 area row) (setSt (fun x => { x with low := putBit x.low area.1 true }) s)
  else s

/-- A row is due for a stitch (R518, R520, Table ST-4). In SAFE stitching stops (R534); a row that is being stitched, or that
the map already names (R513), is not stitched again. -/
def stitchRow (area : Fin 10) (row : Byte) (cause : Nat) (s : State) : State :=
  if s.sys.mode = .safe || s.st.jobs.any (fun j => j.area = area && j.row = row) ||
      mapHas (rowResource area) (rowItem area row) s then s
  else if poolUsed area s < poolSize area then
    let k := spareNo area (poolUsed area s)
    let job : RowJob := { area := area, row := row, spare := BitVec.ofNat 16 k, cause := BitVec.ofNat 8 cause }
    lowCheck area row (setSt (fun x => { x with jobs := x.jobs ++ [job] }) (useSpare area s))
  else
    raiseRec 0x1F0 (rowWord 4 area row)
      (setSt (fun x => { x with noSpare := (area, row) :: x.noSpare.filter (· ≠ (area, row)) }) s)

/-- ST_LASTERR. -/
def lastErrWord (area : Fin 10) (row : Byte) (unc : Bool) : W16 := pack [(0, area.1), (4, b2n unc), (5, row.toNat % 128)]

/-- A corrected word of a row, whoever found it (R518, R519, Table ST-8). -/
def eccCorrected (area : Fin 10) (row : Byte) (s : State) : State :=
  let again := s.st.corr.any fun x => x.1 = area && x.2.1 = row && decide (s.now < x.2.2 + 86400000000)
  let rest := s.st.corr.filter fun x => !(x.1 = area && x.2.1 = row)
  let rest := if rest.length < 32 then rest else rest.tail
  let ev := limitOk 100000 s.st.corAt s.now
  let s := setSt (fun x => { x with
    eccCor := satInc x.eccCor, lastErr := lastErrWord area row false, corr := rest ++ [(area, row, s.now)],
    corAt := if ev then some s.now else x.corAt }) s
  let s := if ev then raise 0x1F0 (rowWord 1 area row) s else s
  if again then stitchRow area row 3 s else s

/-- An uncorrectable word of a row (R518, R529, Table ST-8). -/
def eccUncorrectable (area : Fin 10) (row : Byte) (s : State) : State :=
  let s := setSt (fun x => { x with eccUnc := satInc x.eccUnc, lastErr := lastErrWord area row true }) s
  stitchRow area row 2 (raise 0x1F0 (rowWord 2 area row) s)

/-- What the ECC finds in a word of a row. -/
def eccFound (area : Fin 10) (row : Byte) (e : Ecc) (s : State) : State :=
  match e with
  | .good => s
  | .corrected => eccCorrected area row s
  | .uncorrectable => eccUncorrectable area row s

/-- A row of instruction memory is rewritten from the program (R520, R529, R543). -/
def rewriteImem (row : Nat) (s : State) : State :=
  { s with cs := { s.cs with
    imem := memWriteList 0xFF s.cs.imem (512 * row) ((List.range 512).map fun i => progInstr (512 * row + i) s) } }

/-- A read-verify pass is in progress: a pass that has been completed waits for the next one's first sector (R530). -/
def verifyBusy (v : Verify) : Bool := v.run && !(v.next = 0 && v.done.any fun t => decide (v.start ≤ t))

/-- ROW_STITCH_DONE (R520): the spare replaces the row. A stitch in progress completes in SAFE too (Table ST-7). -/
def execRowStitchDone (s : State) : Result :=
  .next (
    if s.sys.mode = .reset || clockSafe s then s
    else match s.st.jobs with
      | [] => s
      | j :: js =>
        let s := setSt (fun x => { x with jobs := js }) s
        let s := if j.area.1 = 8 then rewriteImem j.row.toNat s else s
        recordStitch (rowResource j.area) j.cause.toNat (rowItem j.area j.row) j.spare.toNat 0x1F0
          (raise 0x1F0 (rowWord 3 j.area j.row) s))

/-! ### The two field copies (R515, R516) -/

/-- Data word of 0x1F2 (Table ST-10). -/
def mapWord (kind : Nat) (copy : Fin 2) (s : State) : W16 :=
  pack [(0, kind), (4, copy.1), (8, min 255 s.st.entries.length)]

/-- Changes one copy. -/
def setCopy (c : Fin 2) (f : MapCopy → MapCopy) (s : State) : State :=
  setSt (fun x => { x with copies := upd x.copies c f }) s

/-- The other copy. -/
def otherCopy (c : Fin 2) : Fin 2 := 1 - c

/-- An entry waits for a copy; copy 1 comes first (R515). -/
def copyDue (c : Fin 2) (s : State) : Bool :=
  !s.st.copies[c.1].dead && decide (s.st.copies[c.1].written < s.st.entries.length) &&
    (c = 0 || s.st.copies[0].dead || decide (s.st.copies[1].written < s.st.copies[0].written))

/-- STITCH_MAP_APPEND (R515, R516): the next entry goes to a copy and is read back; a copy that fails is rewritten from the
other, and a copy that cannot be written leaves the map on one copy or enters SAFE. -/
def execStitchMapAppend (copy : Fin 2) (ok rewriteOk : Bool) (s : State) : Result :=
  .next (
    if s.sys.mode = .reset || clockSafe s || !copyDue copy s then s
    else if ok then setCopy copy (fun x => { x with written := x.written + 1, ok := true }) s
    else if rewriteOk then
      raise 0x1F2 (mapWord 2 copy s) (setCopy copy (fun x => { x with written := s.st.entries.length, ok := true }) s)
    else
      let s := setCopy copy (fun x => { x with ok := false, dead := true }) s
      if s.st.copies[(otherCopy copy).1].dead then enterSafe 3 0x0003 s
      else raiseRec 0x1F2 (mapWord 3 copy s) (setSt (fun x => { x with single := true }) s))

end Sys2Proof.Machine
end

