-- ==== Sys2Proof/Machine/CheckUnits.lean ====
section
/-! DEFINITION. The check units (chapter 11): coprocessor operations, self-test and faults; snoop processing is in Snoop.
Presets and fixed units are Tables CK-1 and CK-2 (R388, R392); an OFF unit does nothing (R395); operations are those of committed
instructions only (R415 to R418); the shadow engine and the test of PROVE step 8 enter as findings (R420, R421). Modes follow Table CK-6
(R427), collisions Table CK-7a (R428), failures Table CK-8 (R429), event words Table CK-7 (R430). -/

namespace Sys2Proof.Machine

open Sys2Proof

/-! ### Unit faults (Table CK-8) -/

/-- Data word of a unit fault. -/
def faultWord (cause : Nat) (disabled : Bool) : W16 := pack [(0, cause), (4, b2n disabled)]

/-- A unit fault (Table CK-8): the unit is out of service, and a fault of CK0 to CK3 enters SAFE. -/
def ckFault (n : Fin 8) (cause : Nat) (s : State) : State :=
  let s := setCk n (fun u => { u with disabled := true, fifo := [], feed := none, ops := [], spec := none, testing := none, held := false }) s
  let w := faultWord cause true
  if n.1 < 4 then enterSafe 2 0x0008 (raise (0x1E8 + n.1) w s) else raiseRec (0x1E8 + n.1) w s

/-- A finding of a unit: a fault of cause SHADOW or FIFO, none for a good one (R420, R426). -/
def ckFound (n : Fin 8) (f : CkFinding) (s : State) : Option State :=
  match f with
  | .good => none
  | .shadow => some (ckFault n 2 s)
  | .parity => some (ckFault n 4 s)

/-! ### Snoop (R400) -/

/-- SNOOP_BLOCK (R400): the oldest block of a snoop unit, once no self-test runs. A finding is a unit fault, and the block's mismatch
is not reported (Table CK-7a). -/
def execSnoopBlock (n : Fin 8) (f : CkFinding) (s : State) : Result :=
  .next (
    let u := s.ck[n.1]
    if ckOwner u != 1 || u.disabled || !snoopRuns n s || ckTesting u s.now then s
    else match u.fifo with
      | [] => s
      | b :: q =>
        let s := setCk n (fun u => { u with fifo := q }) s
        match ckFound n f (setCk n (fun u => ckAfter u b) s) with
        | some t => t
        | none => ckServe n s b)

/-! ### Coprocessor operations (Table CK-5) -/

/-- A compare of the result with CKn_EXP or a value (R408). -/
def ckCompare (n : Fin 8) (v : W32) (s : State) : State :=
  let r := ckResult s.ck[n.1]
  if r = ckMask (ckPreset s.ck[n.1]) v then s else ckMismatch n 3 (r ^^^ v).toNat s

/-- An operation at the unit: a CKBLK with bytes to feed becomes the feed in progress, one with none completes at once
(R409), and one that returns a value changes nothing. -/
def ckDo (n : Fin 8) (o : CkOp) (s : State) : State :=
  let p := ckPreset s.ck[n.1]
  match o with
  | .init => setCk n (fun u => { u with raw := crcInit p }) s
  | .set v => setCk n (fun u => { u with raw := ckMask p v }) s
  | .exp v => setCk n (fun u => { u with exp := ckMask p v }) s
  | .feed bs => setCk n (fun u => { u with raw := crcFeed p u.raw bs }) s
  | .blk f =>
    if f.bytes.isEmpty then (if f.cmp then ckCompare n s.ck[n.1].exp s else s)
    else setCk n (fun u => { u with feed := some { f with start := s.now } }) s
  | .ret => s

/-- A unit owned by COP is frozen by the debug port (R647). -/
def ckFrozen (n : Fin 8) (s : State) : Bool := decide (4 ≤ n.1) && frozen (n.1 - 2) s

/-- The unit takes an operation at once: nothing is ahead of it (R413). -/
def ckFree (n : Fin 8) (s : State) : Bool :=
  s.ck[n.1].feed.isNone && s.ck[n.1].ops.isEmpty && !ckTesting s.ck[n.1] s.now && !ckFrozen n s

/-- Waiting operations run in issue order up to the next feed (R407). -/
def ckDrain (n : Fin 8) : List CkOp → State → State
  | [], s => setCk n (fun u => { u with ops := [], held := false }) s
  | o :: os, s =>
    let s := ckDo n o s
    if s.ck[n.1].feed.isSome then setCk n (fun u => { u with ops := os, held := false }) s else ckDrain n os s

/-- The operations that wait are done, unless a feed, a self-test or a freeze stands before them. -/
def ckCatchUp (n : Fin 8) (s : State) : State :=
  let u := s.ck[n.1]
  if u.feed.isNone && !u.ops.isEmpty && !ckTesting u s.now && !ckFrozen n s then ckDrain n u.ops s else s

/-- An operation enters the FIFO at D with its snapshot (R413). -/
def ckAtD (n : Fin 8) (o : CkOp) (s : State) : State :=
  setCk n (fun u => { u with
    spec := some ⟨u.raw, u.exp, u.ops.length, u.held⟩, ops := u.ops ++ [o], held := u.held || ckTesting u s.now }) s

/-- A squash at D restores the snapshot, without a trace (R414). -/
def ckSquash (n : Fin 8) (s : State) : State :=
  setCk n (fun u => match u.spec with
    | some p => { u with raw := p.raw, exp := p.exp, ops := u.ops.take p.ptr, held := p.held, spec := none }
    | none => u) s

/-- The operation is committed at X (R414): the snapshot is released, a self-test during which the FIFO has filled is abandoned (R424),
and what can be done is done. -/
def ckAtX (n : Fin 8) (s : State) : State :=
  let full := decide (32 ≤ s.ck[n.1].ops.length) && ckTesting s.ck[n.1] s.now
  ckCatchUp n (setCk n (fun u => { (if full then ckAbandon u else u) with spec := none }) s)

/-- An operation is issued and committed: done at once or queued (R413). -/
def ckIssue (n : Fin 8) (o : CkOp) (s : State) : State := ckAtX n (ckAtD n o s)

/-- The end of a feed: the bytes are fed, or with an uncorrectable word nothing further (R545), where the spec does not say
how many bytes came before it, so that the raw value is free. -/
def ckFeedEnd (n : Fin 8) (f : Feed) (ecc : Ecc) (s : State) : State :=
  let p := ckPreset s.ck[n.1]
  let s := eccFound 9 (BitVec.ofNat 8 (f.addr / 512)) ecc s
  if ecc = .uncorrectable then
    let r := draw s
    setCk n (fun u => { u with raw := ckMask p (r.1.setWidth 32), feed := none, dataEcc := true }) r.2
  else
    let s := setCk n (fun u => { u with raw := crcFeed p u.raw f.bytes, feed := none }) s
    if f.cmp then ckCompare n s.ck[n.1].exp s else s

/-- CKBLK_DONE (R406, R410): the feed in progress ends; what waits behind it follows. -/
def execCkblkDone (n : Fin 8) (ecc : Ecc) (f : CkFinding) (s : State) : Result :=
  .next (
    match s.ck[n.1].feed with
    | none => ckCatchUp n s
    | some x =>
      if ckFrozen n s then s
      else match ckFound n f s with
        | some t => t
        | none =>
          let s := ckFeedEnd n x ecc s
          ckDrain n s.ck[n.1].ops s)

/-- A CKBLK covers the word at byte address `a`. -/
def feedCovers (a : Nat) (f : Feed) : Bool := decide (f.addr / 4 * 4 ≤ a) && decide (a < f.addr + f.bytes.length)

/-- An issued CKBLK, under way or waiting, has not yet read the word at `a` (R410): a feed reads its words when it ends. -/
def ckblkHolds (a : Nat) (s : State) : Bool :=
  s.ck.toList.any fun u =>
    u.feed.any (feedCovers a) || u.ops.any fun o => match o with
      | .blk f => feedCovers a f
      | _ => false

/-! ### Self-test (R422 to R426) -/

/-- Self-tests run: CONFIGURE, OPERATE and DEGRADED (R422). -/
def testRuns (s : State) : Bool := inService s || s.sys.mode = .configure

/-- The unit is idle (R422). -/
def ckIdle (n : Fin 8) (s : State) : Bool := s.ck[n.1].fifo.isEmpty && ckFree n s

/-- CK_SELF_TEST (R422, R426): the unit's values are unchanged by a passing test. -/
def execCkSelfTest (n : Fin 8) (ok : Bool) (s : State) : Result :=
  .next (
    let u := s.ck[n.1]
    if ckOwner u = 0 || u.disabled || !testRuns s || !ckIdle n s then s
    else if ok then setCk n (fun u => { u with
      testBefore := (u.lastTest, u.overdue), testing := some s.now, lastTest := s.now, overdue := false }) s
    else ckFault n 1 s)

/-- CK_SELF_TEST_OVERDUE (R425). -/
def execCkSelfTestOverdue (n : Fin 8) (s : State) : Result :=
  .next (
    let u := s.ck[n.1]
    if ckOwner u = 0 || u.disabled || !testRuns s then s
    else if n.1 < 4 then (if u.lastTest + 10000000 < s.now then ckFault n 3 s else s)
    else if u.lastTest + 60000000 ≤ s.now && !u.overdue then
      raiseRec (0x1E8 + n.1) (faultWord 3 false) (setCk n (fun u => { u with overdue := true }) s)
    else s)

end Sys2Proof.Machine
end

