-- ==== Sys2Proof/Machine/Operands.lean ====
section
/-! DEFINITION. The operand forms of the commands: Cantle register, immediate, address and check-unit operands (chapter 16),
and the unit that a select register names (chapter 19). -/

namespace Sys2Proof.Machine

open Sys2Proof

/-! ### Cantle operands -/

/-- Changes the sequencer. -/
def setCs (f : Cs → Cs) (s : State) : State := { s with cs := f s.cs }

/-- An operand register; G0 reads 0 (R580). -/
def gr (r : BitVec 4) (s : State) : W32 :=
  if r = 0 then 0 else s.cs.g[r.toNat]'(by have := r.isLt; omega)

/-- A result register; a result written to G0 is discarded (R580). -/
def setG (r : BitVec 4) (v : W32) (s : State) : State :=
  if r = 0 then s else setCs (fun c => { c with g := c.g.set r.toNat v (by have := r.isLt; omega) }) s

/-- 1 or 0. -/
def flag (b : Bool) : W32 := if b then 1 else 0

/-- sext of an 18-bit immediate. -/
def sx18 (i : BitVec 18) : W32 := i.signExtend 32
/-- zext of an 18-bit immediate. -/
def zx18 (i : BitVec 18) : W32 := i.setWidth 32

/-- The effective address (R585). -/
def effAddr (a : BitVec 4) (imm : BitVec 18) (s : State) : W32 := gr a s + sx18 imm

/-- A check unit from its three bits. -/
def unitIx (u : BitVec 3) : Fin 8 := ⟨u.toNat, by have := u.isLt; omega⟩

/-- Number of a unit as TADDR holds it. -/
def unitAddr (u : BitVec 3) : W32 := u.setWidth 32

/-! ### Unit selection (R681, R699): every value of a select field names a unit -/

def inputSel (w : W16) : Fin 64 := ⟨fld w 5 0 % 64, by omega⟩
def headSel (w : W16) : Fin 32 := ⟨fld w 4 0 % 32, by omega⟩
def sectSel (w : W16) : Fin 32 := ⟨fld w 4 0 % 32, by omega⟩
def berthSel (w : W16) : Fin 8 := ⟨fld w 2 0 % 8, by omega⟩
def chanSel (w : W16) : Fin 16 := ⟨fld w 3 0 % 16, by omega⟩

end Sys2Proof.Machine
end

