-- ==== Sys2Proof/Machine/Cantle.lean ====
section
/-! DEFINITION. The Cantle core (chapters 15 and 16): traps, the instruction boundary with the debug stops, arithmetic,
branches, the hardware loop, check-unit operations and the system instructions.
The states are Table CS-7 (R565, R573), the two spaces R539 and R540. R579's NOP is an ADD to G0; a loop-back is suppressed as R598 says
and LCOUNT is left by branches (R599). Collisions are those of Tables CS-8 and CI-10 (R574, R611), failures of Tables CS-9 and CI-11
(R575, R612), event words of Table CS-10 (R576). An instruction is one command: squashed ones are never given (R563). -/

namespace Sys2Proof.Machine

open Sys2Proof

/-- Changes the debug port. -/
def setDb (f : Db → Db) (s : State) : State := { s with db := f s.db }

/-- Cantle clocks pass (Table CI-9, R647). -/
def clocks (k : Nat) (s : State) : State :=
  if frozen 1 s then s else setCs (fun c => { c with cycle := c.cycle + BitVec.ofNat 32 k }) s

/-! ### Monitor mode (R626 to R632) -/

/-- Monitor mode is enabled (R626). -/
def monOn (s : State) : Bool := s.db.session.isSome && s.db.monEn

/-- Data word of 0x1FB (Table DB-9). -/
def dbWord (kind info detail : Nat) : W16 := pack [(0, kind), (4, info), (8, detail % 256)]

/-- The thread stops (R628): Cantle waits in WAITD at DB_PC. -/
def monStop (reason unit : Nat) (s : State) : State :=
  let ev := limitOk 100000 s.db.stopAt s.now
  let pc := s.cs.pc
  let s := setCs (fun c => { c with state := .waitD }) s
  let s := setDb (fun d => { d with
    mon := true, inh := false, reason := BitVec.ofNat 4 reason, unit := BitVec.ofNat 2 unit, pc := pc, stops := satInc d.stops,
    stopReq := false, stepping := false, stopAt := if ev then some s.now else d.stopAt }) s
  let detail := if reason = 4 then s.db.brkCode.toNat else if reason = 2 ∨ reason = 3 then unit else 0
  if ev then raise 0x1FB (dbWord 3 reason detail) s else s

/-- The lowest enabled instruction breakpoint at an address (R627, R635). -/
def bpAt (pc : BitVec 16) (s : State) : Option (Fin 4) :=
  (List.finRange 4).find? fun n => bitOf s.db.ibp[n.1] 0 && fld (word0 s.db.ibp[n.1]) 15 2 = pc.toNat / 4

/-- The instruction boundary after an instruction whose handler level was `hl0`, with a watchpoint that matched (R629, R631,
Table DB-4, Table DB-7). -/
def boundary (hl0 : Bool) (watch : Option (Fin 4)) (s : State) : State :=
  if s.cs.state ≠ .running ∨ s.cs.hl then s
  else if s.db.mon && s.db.inh then
    setDb (fun d => { d with inh := false, pc := s.cs.pc }) (setCs (fun c => { c with state := .waitD }) s)
  else if monOn s && watch.isSome && !hl0 then monStop 3 (watch.getD 0).1 s
  else if s.db.stepping && !hl0 then monStop 5 0 s
  else if monOn s && s.db.stopReq then
    match bpAt s.cs.pc s with
    | some n => monStop 2 n.1 s
    | none => monStop 1 0 s
  else s

/-! ### Traps (R558 to R561) -/

/-- TKIND.INLOOP. -/
def inLoop (s : State) : W32 := if s.cs.lcount = 0 then 0 else 0x100

/-- An exception of Table CS-5 (R560, R561): a trap, or a double fault while HL is 1. Only the event of a handled exception is
limited (Table CS-9). -/
def exception (code : Nat) (addr : W32) (s : State) : State :=
  let dbl := s.cs.hl
  let ev := dbl || limitOk 100000 s.cs.excAt s.now
  let s := if dbl then s else
    setCs (fun c => { c with
      retpc := c.pc, tkind := inLoop s + BitVec.ofNat 32 code, taddr := addr.setWidth 20, hl := true,
      pc := s.cfg.seqr.vbase }) (clocks 4 s)
  let s := setCs (fun c => { c with
    excCnt := satInc c.excCnt, lastExc := BitVec.ofNat 4 code, excPc := c.retpc, excAddr := c.taddr,
    excAt := if ev then some s.now else c.excAt }) s
  let s := if ev then raise 0x1F9 (pack [(0, code), (4, s.cs.retpc.toNat / 16)]) s else s
  if dbl then cantleHalted code s else s

/-- The PC of the instruction, as a word. -/
def pcW (s : State) : W32 := s.cs.pc.setWidth 32

/-- ILLEGAL (R578). -/
def illegal (s : State) : State := exception 1 (pcW s) s

/-- The source that a takeable interrupt serves (R559). -/
def intSource (s : State) : Option Nat :=
  if s.cs.ie && !s.cs.hl && !s.cs.stalled && (s.cs.state = .running || s.cs.state = .waitScan || s.cs.state = .waitD) then
    (List.range 8).find? fun n => bitOf s.cs.ien n && bitOf s.cs.ipend n
  else none

/-- Trap entry for an interrupt (R559, R605, R606, R629, R630). -/
def enterInt (n : Nat) (s : State) : State :=
  let ret := if s.cs.state = .waitD then s.db.pc else s.cs.pc
  let keep := s.db.mon && s.db.reason != 6
  let s := setDb (fun d => { d with mon := keep, inh := keep }) s
  clocks 3 (setCs (fun c => { c with
    state := .running, retpc := ret, tkind := 0x80000000 + inLoop s + BitVec.ofNat 32 (16 * n), hl := true,
    pc := s.cfg.seqr.vbase + BitVec.ofNat 16 (16 * (n + 1)) }) s)

/-- INTERRUPT_ENTRY (R559). -/
def execInterruptEntry (s : State) : Result :=
  .next (
    match intSource s with
    | some n => enterInt n s
    | none => s)

/-! ### The instruction at X -/

/-- What stands before an instruction reaches X: Cantle must be running; a takeable interrupt is entered first and squashes
it (R559, R608); a breakpoint stops it (R627, R632, R635), or is counted in a handler (R638). An instruction that waits at X has
passed all this (R609, Table CI-10). -/
def atX (f : State → State) (s : State) : State :=
  if s.cs.state ≠ .running then s
  else if s.cs.stalled then f (setCs (fun c => { c with stalled := false }) s)
  else match intSource s with
    | some n => enterInt n s
    | none =>
      let skip := s.db.skipBp && s.cs.pc = s.db.pc
      match (if monOn s && !skip then bpAt s.cs.pc s else none) with
      | some n =>
        if s.cs.hl then f (setDb (fun d => { d with missed := satInc d.missed }) s) else monStop 2 n.1 s
      | none => f (setDb (fun d => { d with skipBp := d.skipBp && !skip }) s)

/-- The instruction at X waits there (Table CS-6). -/
def stall (s : State) : State := setCs (fun c => { c with stalled := true }) s

/-- The next PC of an instruction that completes without a jump: sequential (R594), or back to LSTART (R597). -/
def stepPc (s : State) : State :=
  if s.cs.pc = s.cs.lend ∧ s.cs.lcount ≠ 0 ∧ ¬ s.cs.hl then
    let n := s.cs.lcount - 1
    if n = 0 then setCs (fun c => { c with lcount := n, pc := c.pc + 4 }) s
    else clocks 2 (setCs (fun c => { c with lcount := n, pc := c.lstart }) s)
  else setCs (fun c => { c with pc := c.pc + 4 }) s

/-- An instruction of `k` clocks completes; the loop is judged on the state before its effect `f`. -/
def complete (k : Nat) (f : State → State) (s : State) : State :=
  let hl0 := s.cs.hl
  boundary hl0 none (clocks k (stepPc (f s)))

/-- A taken branch or jump (R592, R593): the link is written when the target is good. -/
def jump (target : W32) (link : State → State) (s : State) : State :=
  let hl0 := s.cs.hl
  if 0x10000 ≤ target.toNat ∨ target.toNat % 4 ≠ 0 then exception 2 target s
  else boundary hl0 none (clocks 3 (setCs (fun c => { c with pc := target.setWidth 16 }) (link s)))

/-! ### Arithmetic and logic (Table CI-3) -/

/-- Gd := f Ga Gb, when no reserved bit is set (R578, R584). -/
def aluR (d a b : BitVec 4) (rsv : Bool) (k : Nat) (f : W32 → W32 → W32) (s : State) : Result :=
  .next (atX (fun s => if rsv then illegal s else complete k (setG d (f (gr a s) (gr b s))) s) s)

/-- Gd := f Ga and the immediate. -/
def aluI (d a : BitVec 4) (imm : W32) (f : W32 → W32 → W32) (s : State) : Result :=
  .next (atX (fun s => complete 1 (setG d (f (gr a s) imm)) s) s)

/-- ADD (R584). -/
def execAddR (d a b : BitVec 4) (rsv : Bool) (s : State) : Result := aluR d a b rsv 1 (fun x y => x + y) s
/-- SUB (R584). -/
def execSubR (d a b : BitVec 4) (rsv : Bool) (s : State) : Result := aluR d a b rsv 1 (fun x y => x - y) s
/-- AND (R584). -/
def execAndR (d a b : BitVec 4) (rsv : Bool) (s : State) : Result := aluR d a b rsv 1 (fun x y => x &&& y) s
/-- OR (R584). -/
def execOrR (d a b : BitVec 4) (rsv : Bool) (s : State) : Result := aluR d a b rsv 1 (fun x y => x ||| y) s
/-- XOR (R584). -/
def execXorR (d a b : BitVec 4) (rsv : Bool) (s : State) : Result := aluR d a b rsv 1 (fun x y => x ^^^ y) s
/-- SLL (R581, R584). -/
def execSll (d a b : BitVec 4) (rsv : Bool) (s : State) : Result :=
  aluR d a b rsv 1 (fun x y => x <<< (y.toNat % 32)) s
/-- SRL (R581, R584). -/
def execSrl (d a b : BitVec 4) (rsv : Bool) (s : State) : Result :=
  aluR d a b rsv 1 (fun x y => x >>> (y.toNat % 32)) s
/-- SRA (R581, R584). -/
def execSra (d a b : BitVec 4) (rsv : Bool) (s : State) : Result :=
  aluR d a b rsv 1 (fun x y => x.sshiftRight (y.toNat % 32)) s
/-- SLT (R584). -/
def execSlt (d a b : BitVec 4) (rsv : Bool) (s : State) : Result := aluR d a b rsv 1 (fun x y => flag (x.slt y)) s
/-- SLTU (R584). -/
def execSltu (d a b : BitVec 4) (rsv : Bool) (s : State) : Result := aluR d a b rsv 1 (fun x y => flag (x.ult y)) s
/-- MUL (R584). -/
def execMul (d a b : BitVec 4) (rsv : Bool) (s : State) : Result := aluR d a b rsv 2 (fun x y => x * y) s
/-- ADDI (R584). -/
def execAddi (d a : BitVec 4) (imm : BitVec 18) (s : State) : Result := aluI d a (sx18 imm) (fun x y => x + y) s
/-- ANDI (R584). -/
def execAndi (d a : BitVec 4) (imm : BitVec 18) (s : State) : Result := aluI d a (zx18 imm) (fun x y => x &&& y) s
/-- ORI (R584). -/
def execOri (d a : BitVec 4) (imm : BitVec 18) (s : State) : Result := aluI d a (zx18 imm) (fun x y => x ||| y) s
/-- XORI (R584). -/
def execXori (d a : BitVec 4) (imm : BitVec 18) (s : State) : Result := aluI d a (zx18 imm) (fun x y => x ^^^ y) s
/-- SLTI (R584). -/
def execSlti (d a : BitVec 4) (imm : BitVec 18) (s : State) : Result := aluI d a (sx18 imm) (fun x y => flag (x.slt y)) s
/-- SLTIU (R584). -/
def execSltiu (d a : BitVec 4) (imm : BitVec 18) (s : State) : Result := aluI d a (sx18 imm) (fun x y => flag (x.ult y)) s

/-- A shift by an immediate distance (Table CI-3). -/
def shiftI (d a : BitVec 4) (rsv : Bool) (f : W32 → W32) (s : State) : Result :=
  .next (atX (fun s => if rsv then illegal s else complete 1 (setG d (f (gr a s))) s) s)

/-- SLLI (R584). -/
def execSlli (d a : BitVec 4) (sh : BitVec 5) (rsv : Bool) (s : State) : Result :=
  shiftI d a rsv (fun x => x <<< sh.toNat) s
/-- SRLI (R584). -/
def execSrli (d a : BitVec 4) (sh : BitVec 5) (rsv : Bool) (s : State) : Result :=
  shiftI d a rsv (fun x => x >>> sh.toNat) s
/-- SRAI (R584). -/
def execSrai (d a : BitVec 4) (sh : BitVec 5) (rsv : Bool) (s : State) : Result :=
  shiftI d a rsv (fun x => x.sshiftRight sh.toNat) s

/-- LUI (R584). -/
def execLui (d : BitVec 4) (imm : BitVec 16) (rsv : Bool) (s : State) : Result :=
  .next (atX (fun s => if rsv then illegal s else complete 1 (setG d (imm.setWidth 32 <<< 16)) s) s)

/-! ### Branches and jumps (Table CI-7a) -/

/-- A conditional branch. -/
def branch (a b : BitVec 4) (off : BitVec 18) (p : W32 → W32 → Bool) (s : State) : Result :=
  .next (atX (fun s =>
    if p (gr a s) (gr b s) then jump (pcW s + 4 * off.signExtend 32) id s else complete 1 id s) s)

/-- BEQ (R591). -/
def execBeq (a b : BitVec 4) (off : BitVec 18) (s : State) : Result := branch a b off (fun x y => x == y) s
/-- BNE (R591). -/
def execBne (a b : BitVec 4) (off : BitVec 18) (s : State) : Result := branch a b off (fun x y => x != y) s
/-- BLT (R591). -/
def execBlt (a b : BitVec 4) (off : BitVec 18) (s : State) : Result := branch a b off (fun x y => x.slt y) s
/-- BGE (R591). -/
def execBge (a b : BitVec 4) (off : BitVec 18) (s : State) : Result := branch a b off (fun x y => !x.slt y) s
/-- BLTU (R591). -/
def execBltu (a b : BitVec 4) (off : BitVec 18) (s : State) : Result := branch a b off (fun x y => x.ult y) s
/-- BGEU (R591). -/
def execBgeu (a b : BitVec 4) (off : BitVec 18) (s : State) : Result := branch a b off (fun x y => !x.ult y) s

/-- JAL (R591). -/
def execJal (d : BitVec 4) (off : BitVec 22) (s : State) : Result :=
  .next (atX (fun s => jump (pcW s + 4 * off.signExtend 32) (setG d (pcW s + 4)) s) s)

/-- JALR (R591). -/
def execJalr (d a : BitVec 4) (imm : BitVec 18) (s : State) : Result :=
  .next (atX (fun s => jump (gr a s + sx18 imm) (setG d (pcW s + 4)) s) s)

/-- LOOP (R595, R596). -/
def execLoopH (c : BitVec 4) (len : BitVec 16) (rsv : Bool) (s : State) : Result :=
  .next (atX (fun s =>
    let last := s.cs.pc.toNat + 4 * len.toNat
    if rsv ∨ len = 0 ∨ 16383 < len.toNat ∨ s.cs.lcount ≠ 0 ∨ s.cs.hl then illegal s
    else if 0xFFFC < last then exception 2 (BitVec.ofNat 32 last) s
    else if gr c s = 0 then jump (BitVec.ofNat 32 (last + 4)) id s
    else
      let n := gr c s
      boundary s.cs.hl none (clocks 1 (setCs (fun x => { x with
        lstart := x.pc + 4, lend := BitVec.ofNat 16 last, lcount := n, pc := x.pc + 4 }) s))) s)

/-! ### Check-unit operations (Table CI-7) -/

/-- The exceptions every check-unit operation checks first (R602), else `f`. -/
def ckGuard (u : BitVec 3) (rsv : Bool) (f : State → State) (s : State) : Result :=
  .next (atX (fun s =>
    if rsv then illegal s
    else if ckOwner s.ck[(unitIx u).1] != 2 then exception 3 (unitAddr u) s
    else if s.ck[(unitIx u).1].disabled then exception 4 (unitAddr u) s
    else f (ckCatchUp (unitIx u) s)) s)

/-- An operation that returns nothing is issued; it waits at D while the FIFO is full (R412). -/
def ckSend (u : BitVec 3) (o : CkOp) (s : State) : State :=
  if 32 ≤ s.ck[(unitIx u).1].ops.length then s else complete 1 (ckIssue (unitIx u) o) s

/-- CKINIT (R601). -/
def execCkinit (u : BitVec 3) (rsv : Bool) (s : State) : Result := ckGuard u rsv (ckSend u .init) s
/-- CKSET (R601). -/
def execCkset (u : BitVec 3) (a : BitVec 4) (rsv : Bool) (s : State) : Result :=
  ckGuard u rsv (fun s => ckSend u (.set (gr a s)) s) s
/-- CKEXP (R601). -/
def execCkexp (u : BitVec 3) (a : BitVec 4) (rsv : Bool) (s : State) : Result :=
  ckGuard u rsv (fun s => ckSend u (.exp (gr a s)) s) s

/-- CKFEED (R389, R601): the low bytes, most significant first; SIZE 0b11 is undefined. -/
def execCkfeed (u : BitVec 3) (a : BitVec 4) (size : BitVec 2) (rsv : Bool) (s : State) : Result :=
  ckGuard u (rsv || size = 3) (fun s => ckSend u (.feed (bytesBE (2 ^ size.toNat) (gr a s).toNat)) s) s

/-- CKBLK (R409 to R411, R601, R602): the bytes are those of data memory at issue. -/
def execCkblk (u : BitVec 3) (a b : BitVec 4) (cmp rsv : Bool) (s : State) : Result :=
  ckGuard u rsv (fun s =>
    let addr := (gr a s).toNat
    let n := (gr b s).toNat
    if n ≠ 0 ∧ (0x8000 ≤ addr ∨ 0x8000 - addr < n) then exception 2 (gr a s) s
    else ckSend u (.blk { bytes := memReadList 0 s.cs.dmem addr n, cmp := cmp, addr := addr }) s) s

/-- An operation that returns a value takes a FIFO entry (R412) and waits at X until the unit's earlier ones are done (R407). -/
def ckWait (u : BitVec 3) (s : State) : State :=
  let x := s.ck[(unitIx u).1]
  if x.ops.getLast? = some .ret then stall s
  else if 32 ≤ x.ops.length then s
  else stall (ckIssue (unitIx u) .ret s)

/-- An operation that returns a value: a finding of the unit is its fault, and the operation raises the unit-fault exception (R420, Table
CK-7a). After a CKBLK that read an uncorrectable word it raises DATAECC (R545), at a word address the spec leaves open within the
block. -/
def ckReturn (u : BitVec 3) (x : CkFinding) (f : State → State) (s : State) : State :=
  if !ckFree (unitIx u) s then ckWait u s
  else match ckFound (unitIx u) x s with
  | some t => exception 4 (unitAddr u) t
  | none =>
  if s.ck[(unitIx u).1].dataEcc then
    let r := draw (setCk (unitIx u) (fun x => { x with dataEcc := false }) s)
    exception 5 ((r.1.setWidth 32 &&& 0x7FFC)) r.2
  else complete 2 f s

/-- CKGET (R601). -/
def execCkget (d : BitVec 4) (u : BitVec 3) (rsv : Bool) (s : State) (x : CkFinding := .good) : Result :=
  ckGuard u rsv (ckReturn u x fun s => setG d s.ck[(unitIx u).1].raw s) s
/-- CKFIN (R601). -/
def execCkfin (d : BitVec 4) (u : BitVec 3) (rsv : Bool) (s : State) (x : CkFinding := .good) : Result :=
  ckGuard u rsv (ckReturn u x fun s => setG d (ckResult s.ck[(unitIx u).1]) s) s
/-- CKCMP (R408, R601, R603). -/
def execCkcmp (d : BitVec 4) (u : BitVec 3) (a : BitVec 4) (rsv : Bool) (s : State) (x : CkFinding := .good) :
    Result :=
  ckGuard u rsv (ckReturn u x fun s =>
    let v := ckMask (ckPreset s.ck[(unitIx u).1]) (gr a s)
    setG d (flag (ckResult s.ck[(unitIx u).1] == v)) (ckCompare (unitIx u) (gr a s) s)) s

/-! ### System registers (Table CI-9) -/

/-- STATUS. -/
def statusWord (s : State) : W32 := (if s.cs.ie then 1 else 0) + (if s.cs.hl then 2 else 0)

/-- A system register, none for an undefined code. -/
def sregRead (r : BitVec 4) (s : State) : Option W32 :=
  match r.toNat with
  | 0 => some (statusWord s)
  | 1 => some (s.cs.retpc.setWidth 32)
  | 2 => some s.cs.tkind
  | 3 => some (s.cs.taddr.setWidth 32)
  | 4 => some (s.cs.lstart.setWidth 32)
  | 5 => some (s.cs.lend.setWidth 32)
  | 6 => some s.cs.lcount
  | 7 => some s.cs.cycle
  | _ => none

/-- An instruction address as an MTS writes it: bits [1:0] are ignored. -/
def codeAddr (v : W32) : BitVec 16 := v.setWidth 16 &&& 0xFFFC

/-- A writable system register with a new value, none for a read-only or undefined code. -/
def sregWrite (r : BitVec 4) (v : W32) (c : Cs) : Option Cs :=
  match r.toNat with
  | 0 => some { c with ie := bitOf v 0, hl := bitOf v 1 }
  | 1 => some { c with retpc := codeAddr v }
  | 4 => some { c with lstart := codeAddr v }
  | 5 => some { c with lend := codeAddr v }
  | 6 => some { c with lcount := v }
  | _ => none

/-- MFS (R604, R610). -/
def execMfs (d sreg : BitVec 4) (rsv : Bool) (s : State) : Result :=
  .next (atX (fun s =>
    match (if rsv then none else sregRead sreg s) with
    | some v => complete 1 (setG d v) s
    | none => illegal s) s)

/-- MTS (R604, R608, R610): the loop of this instruction is judged on the registers before it. -/
def execMts (sreg a : BitVec 4) (rsv : Bool) (s : State) : Result :=
  .next (atX (fun s =>
    match (if rsv then none else sregWrite sreg (gr a s) s.cs) with
    | none => illegal s
    | some c =>
      let t := clocks 1 (stepPc s)
      let v := gr a s
      let w := (sregWrite sreg v t.cs).getD c
      boundary s.cs.hl none { t with cs := w }) s)

/-- RTH (R561, R604). -/
def execRth (rsv : Bool) (s : State) : Result :=
  .next (atX (fun s =>
    if rsv ∨ ¬ s.cs.hl then illegal s
    else boundary true none (clocks 3 (setCs (fun c => { c with pc := c.retpc, hl := false }) s))) s)

/-- WAITD (R606): at once without a session, else a stop of REASON 6. -/
def execWaitd (rsv : Bool) (s : State) : Result :=
  .next (atX (fun s =>
    if rsv then illegal s
    else if s.db.session.isNone then complete 1 id s
    else monStop 6 0 (clocks 1 (stepPc s))) s)

/-! ### The terminal and BRK (R607, R638, R644, R645) -/

/-- Event 0x1FA of the terminal, at most once per second; kinds 8 and 9 share the code's period (Table DB-8, R794). -/
def termEvent (kind : Nat) (s : State) : State :=
  if limitOk 1000000 s.cs.termAt s.now then
    raise 0x1FA (pack [(0, kind)]) (setCs (fun c => { c with termAt := some s.now }) s)
  else s

/-- PUT Gr: the character is appended, or lost when the output FIFO is full. -/
def termPut (r : BitVec 4) (s : State) : State :=
  let ch : Byte := (gr r s).setWidth 8
  if s.db.vtOut.length < 16 then setDb (fun d => { d with vtOut := d.vtOut ++ [ch] }) s
  else termEvent 8 (setDb (fun d => { d with lost := true }) s)

/-- GET Gr: 0x100 + the oldest input character, or 0. -/
def termGet (r : BitVec 4) (s : State) : State :=
  match s.db.vtIn with
  | [] => setG r 0 s
  | ch :: q => setG r (0x100 + ch.setWidth 32) (setDb (fun d => { d with vtIn := q }) s)

/-- A terminal BRK (R645). -/
def termBrk (f : State → State) (s : State) : State :=
  if monOn s then complete 1 f s else exception 8 (pcW s) s

/-- VT_PUT (R644). -/
def execVtPut (r : BitVec 4) (s : State) : Result := .next (atX (termBrk (termPut r)) s)
/-- VT_GET (R644). -/
def execVtGet (r : BitVec 4) (s : State) : Result := .next (atX (termBrk (termGet r)) s)

/-- BRK (R607, R638): codes 0xE0 to 0xFF are the terminal's. -/
def execBrk (code : Byte) (rsv : Bool) (s : State) : Result :=
  .next (atX (fun s =>
    if rsv then illegal s
    else if 0xE0 ≤ code.toNat ∧ code.toNat < 0xF0 then termBrk (termPut (code.setWidth 4)) s
    else if 0xF0 ≤ code.toNat then termBrk (termGet (code.setWidth 4)) s
    else if !monOn s then exception 8 (pcW s) s
    else if s.cs.hl then complete 1 (setDb fun d => { d with missed := satInc d.missed }) s
    else monStop 4 0 (clocks 1 (stepPc (setDb (fun d => { d with brkCode := code }) s)))) s)

end Sys2Proof.Machine
end

