-- ==== Sys2Proof/Machine/Lanes.lean ====
section
/-! DEFINITION. The lanes, the stitch matrices and lane proving (chapter 03).
Table WF-2 (R107) gives the mode of an input, R101 keeps a stitched-out lane disconnected, R113 and R129 hand the detection bit over
between two samples; the collisions of Table WF-9 (R149) follow from the order of the commands, the failures of Table WF-10 (R150) and
the data word of Table WF-11 (R152) from the operations below. -/

namespace Sys2Proof.Machine

open Sys2Proof

/-! ### Numbering and configuration -/

/-- Group of an input (R96). -/
def grpOf (n : Fin 64) : Fin 8 := ⟨n.1 / 8, by omega⟩
/-- Position of an input in its group (R96). -/
def posOf (n : Fin 64) : Fin 8 := ⟨n.1 % 8, by omega⟩
/-- Input at a position of a group. -/
def inputAt (g p : Fin 8) : Fin 64 := ⟨8 * g.1 + p.1, by omega⟩
/-- Home lane of a position (R97). -/
def homeLane (g p : Fin 8) : Fin 72 := ⟨9 * g.1 + p.1, by omega⟩
/-- Spare lane of a group (R97). -/
def spareLane (g : Fin 8) : Fin 72 := ⟨9 * g.1 + 8, by omega⟩

/-- The spare, not the home lane, serves the input. -/
def spareServesOf (n : Fin 64) (s : State) : Bool :=
  s.wf.group[(grpOf n).1].spareServes && decide (s.wf.group[(grpOf n).1].pos = posOf n)

/-- The serving lane of an input (R99). -/
def servingLane (n : Fin 64) (s : State) : Fin 72 :=
  if spareServesOf n s then spareLane (grpOf n) else homeLane (grpOf n) (posOf n)

/-- WF_ICFG.MODE: 0 OFF, 1 LOOP, 2 AMPLITUDE. -/
def inMode (n : Fin 64) (s : State) : Nat := fld s.cfg.input[n.1].icfg 1 0


/-- The enabled head that binds an input, with the system (false A, true B). -/
def headOf (n : Fin 64) (s : State) : Option (Fin 32 × Bool) :=
  allHeads.findSome? fun h =>
    if headOn h s then
      if headInA h s = n.1 then some (h, false) else if headInB h s = n.1 then some (h, true) else none
    else none


/-- The partner input of a bound input. -/
def partnerOf (n : Fin 64) (s : State) : Option (Fin 64) :=
  (headOf n s).map fun hb => inputIx (if hb.2 then headInA hb.1 s else headInB hb.1 s)

/-! ### Detection and fault bands -/

/-- The detection bit of R112: `up` when a wheel raises the value. -/
def detBit (up : Bool) (th hy : Nat) (det : Bool) (v : Nat) : Bool :=
  if up then (if det then decide (¬ v + hy < th) else decide (th ≤ v))
  else (if det then decide (v ≤ th + hy) else decide (v ≤ th))

/-- The detection bit an input's parameters give for a value; in mode OFF there is none (R105). -/
def detOf (n : Fin 64) (s : State) (det : Bool) (v : Nat) : Bool :=
  (inMode n s = 1 || inMode n s = 2) &&
    detBit (inMode n s = 1 && bitOf s.cfg.input[n.1].icfg 2) (fld s.cfg.input[n.1].ith 11 0)
      (fld s.cfg.input[n.1].ihy 8 0) det v

/-- An input runs a signal chain: mode LOOP or AMPLITUDE (R104, R105). -/
def inputOn (n : Fin 64) (s : State) : Bool := inMode n s = 1 || inMode n s = 2

/-- The value of a reading at 50 kS/s (Table WF-2), within full scale: in LOOP mode the average of the pair, in AMPLITUDE mode the
envelope. DESIGN CHOICE (log entry 104): the average is rounded down, and a lane of an input in mode OFF runs the LOOP chain. -/
def laneVal (n : Fin 64) (s : State) (r : LaneReading) : Nat :=
  if inMode n s = 2 then min 2000 r.val.toNat else min 3000 ((r.val.toNat + r.second.toNat) / 2)

/-- Loop or DC current of a reading, in 10 µA. -/
def current (n : Fin 64) (s : State) (r : LaneReading) : Nat :=
  if inMode n s = 1 then laneVal n s r else min 3000 r.idc.toNat

/-- A reading meets a band of Table WF-4 (cause code 1 to 4). -/
def inBand (cause : Nat) (n : Fin 64) (s : State) (r : LaneReading) : Bool :=
  let nom := fld s.cfg.input[n.1].inom 10 0
  match cause with
  | 1 => decide (current n s r < 100)
  | 2 => decide (2500 < current n s r)
  | 3 => inMode n s = 2 && decide (nom ≤ 4 * laneVal n s r) && (decide (r.freq.toNat < 180) || decide (620 < r.freq.toNat))
  | 4 => inMode n s = 2 && (decide (3 * nom < 2 * laneVal n s r) || decide (2000 ≤ laneVal n s r))
  | _ => false

/-- Consecutive samples a band needs (Table WF-4). -/
def bandLen (cause : Nat) : Nat := if cause = 3 then 50 else 5

/-- Cause of the fault an input shows, the first raised of those that stand, 0 none (WF_ISTAT.FCAUSE; DESIGN CHOICE, log
entry 106). -/
def Input.fault (x : Input) : BitVec 4 :=
  match x.faults with
  | f :: _ => f.1
  | [] => 0

/-- A fault of the input stands. -/
def Input.faulty (x : Input) : Bool := !x.faults.isEmpty

/-- A fault of a cause stands. -/
def Input.has (c : BitVec 4) (x : Input) : Bool := x.faults.any fun f => f.1 = c

/-- A fault is raised at an instant. -/
def Input.raise (c : BitVec 4) (t : Nat) (x : Input) : Input :=
  if x.has c then x else { x with faults := x.faults ++ [(c, t)] }

/-- The faults of one cause end. -/
def Input.drop (c : BitVec 4) (x : Input) : Input := { x with faults := x.faults.filter fun f => f.1 ≠ c }

/-- The input is blind in a burst at an instant (R136 to R139): for the 200 µs of the burst, or until 40 µs after the sample that
aborted it. -/
def blindAt (x : Input) (t : Nat) : Bool :=
  match x.burst with
  | none => false
  | some b => match b.abort with
    | none => decide (t ≤ b.start + 200)
    | some a => decide (t < a + 40)

/-- The detection sample of an input as it now stands (R105, R116, R120, R140). -/
def sampleOf (n : Fin 64) (s : State) : Sample :=
  let x := s.wf.input[n.1]
  let blind := blindAt x s.now
  if inputOn n s then
    { det := x.det || x.faulty, fault := x.faulty, proving := blind, prior := !blind && x.after && (x.det || x.faulty),
      lane := servingLane n s }
  else { det := false, fault := false, proving := blind, prior := false, lane := servingLane n s }

/-- A lane sample has been taken at this instant (R108). -/
def atSample (s : State) : Bool := s.grid.lane = some s.now

/-! ### Lane-fault events -/

/-- A head event of this instant. -/
def headEventNow (t : TStamp) : FabItem → Bool
  | .event c _ ts _ _ => decide (c.toNat < 0x100) && ts = t
  | _ => false

/-- An item takes its place by code among head events, after those of the same code. -/
def insertByCode (x : FabItem) : List FabItem → List FabItem
  | [] => [x]
  | y :: l =>
    match x, y with
    | .event c _ _ _ _, .event d _ _ _ _ => if c.toNat < d.toNat then x :: y :: l else y :: insertByCode x l
    | _, _ => y :: insertByCode x l

/-- The head events of one instant stand in ascending head number, those of one head in ascending code (R167, R437, Table HD-3). -/
def headOrder (s : State) : State :=
  let now := headEventNow s.tstamp
  let old := s.ev.fabric.takeWhile fun x => !now x
  let new := s.ev.fabric.dropWhile fun x => !now x
  { s with ev := { s.ev with
      fabric := old ++ (new.filter now).foldl (fun l x => insertByCode x l) [] ++ new.filter fun x => !now x } }

/-- Raises a head event at its place. -/
def raiseHead (code : Nat) (data : W16) (s : State) : State := headOrder (raise code data s)

/-- A head event together with its EVENT record. -/
def raiseHeadRec (code : Nat) (data : W16) (s : State) : State := eventRecord code data (raiseHead code data s)

/-- Data word of a lane-fault event (Table WF-11). -/
def laneWord (lane : Fin 72) (taken : Bool) (cause : Nat) (cleared : Bool) : W16 :=
  pack [(0, lane.1), (7, b2n taken), (8, cause), (15, b2n cleared)]

/-- Reports a lane or input fault: the event of the head's system and an EVENT record; for an input bound to no head the
record alone (R151). In SAFE lanes only sample for the registers (R147, R168). -/
def laneFault (n : Fin 64) (cause : Nat) (cleared : Bool) (s : State) : State :=
  let w := laneWord (servingLane n s) (spareServesOf n s) cause cleared
  if s.sys.mode = .safe then s
  else match headOf n s with
  | some (h, b) => raiseHeadRec (8 * h.1 + (if b then 7 else 6)) w s
  | none => record 5 0xFFFF (bytesLE 2 w.toNat) s

/-- The event alone of a lane fault that a spare has taken over; its record is the STITCH record (Table WF-10). -/
def laneTaken (n : Fin 64) (lane : Fin 72) (cause : Nat) (cleared : Bool) (s : State) : State :=
  match headOf n s with
  | some (h, b) => raiseHead (8 * h.1 + (if b then 7 else 6)) (laneWord lane true cause cleared) s
  | none => s

/-- Changes an input. -/
def setInput (n : Fin 64) (f : Input → Input) (s : State) : State :=
  { s with wf := { s.wf with input := upd s.wf.input n f } }

/-- Changes a group. -/
def setGroup (g : Fin 8) (f : Group → Group) (s : State) : State :=
  { s with wf := { s.wf with group := upd s.wf.group g f } }

/-- Changes a lane. -/
def setLane (l : Fin 72) (f : Lane → Lane) (s : State) : State :=
  { s with wf := { s.wf with lane := upd s.wf.lane l f } }

/-- Neither system of the head bound to the input detects (R130, R132); true for an unbound input. -/
def headQuiet (n : Fin 64) (s : State) : Bool :=
  match headOf n s with
  | none => true
  | some (h, _) =>
    !s.wf.input[(inputIx (headInA h s)).1].last.det && !s.wf.input[(inputIx (headInB h s)).1].last.det

/-! ### Stitches and provings -/

/-- Event cause (Table WF-11) of a stitch cause (Table ST-5). -/
def laneCause (cause : Nat) : Nat := if cause = 6 then 5 else if cause = 5 then 6 else 7

/-- The stitch of a position becomes permanent (R130 to R133): the spare is SERVING and the home lane stitched out. The event
of the lane fault names the home lane, with cause `why`. -/
def stitchLane (g p : Fin 8) (cause why : Nat) (cleared : Bool) (s : State) : State :=
  let s := setGroup g (fun x => { x with spare := .serving, pos := p, spareServes := true, phase := .idle,
                                         out := putBit x.out p.1 true }) s
  let s := laneTaken (inputAt g p) (homeLane g p) why cleared s
  let s := raise 0x1F3 (pack [(0, 1), (4, g.1), (8, (homeLane g p).1)]) s
  recordStitch 1 cause (homeLane g p).1 (spareLane g).1 0x1F3 s

/-- A permanent stitch after a proving or a disagreement. -/
def permanentStitch (g p : Fin 8) (cause : Nat) (s : State) : State := stitchLane g p cause (laneCause cause) false s

/-- A spare fails its proving: FAULTED (R132, R134), with the memory-and-repair event and a stitch record. -/
def faultSpare (g : Fin 8) (s : State) : State :=
  let s := setGroup g (fun x => { x with spare := .faulted, spareServes := false, phase := .idle }) s
  let s := raise 0x1F3 (pack [(0, 2), (4, g.1), (8, (spareLane g).1)]) s
  recordStitch 5 6 (spareLane g).1 0xFFFF 0x1F3 s

/-- Magnitude of a signed host word. -/
def mag (w : W16) : Nat := w.toInt.natAbs

/-- The classed error of a measurement (R121): the largest of points 2 and 3. -/
def calErrOf (m : ProveMeas) : W16 := if mag m.high < mag m.low then m.low else m.high

/-- Table WF-7: 100 is 1.0%. -/
def classify (m : ProveMeas) : ProveRes :=
  let e := max (mag m.off) (max (mag m.low) (mag m.high))
  if !m.cmp || decide (300 < e) then .fail else if 100 < e then .drift else .pass

/-- A lane completes a proving (R121, R145). -/
def laneProved (l : Fin 72) (m : ProveMeas) (s : State) : State :=
  setLane l (fun _ => { provedAt := some s.now, result := classify m, calErr := calErrOf m }) s

/-- A fault of the lane itself (CALFAIL or OVERDUE) of a bound or unbound input is raised (R105: none for mode OFF). -/
def raiseFault (n : Fin 64) (cause : BitVec 4) (s : State) : State :=
  if inputOn n s then setInput n (Input.raise cause s.now) s else s

/-- One fault ends, with its report. -/
def endFault (n : Fin 64) (cause : BitVec 4) (s : State) : State :=
  if s.wf.input[n.1].has cause then laneFault n cause.toNat true (setInput n (Input.drop cause) s) else s

/-- An input fault of the lane itself (CALFAIL or OVERDUE) ends with a proving that passes (R145; for CALFAIL a DESIGN CHOICE, log
entry 106). -/
def clearLaneFault (n : Fin 64) (s : State) : State := endFault n 8 (endFault n 5 s)

/-- Proving and stitching run (R147). -/
def provingRuns (s : State) : Bool := inService s || configImage s

/-- What a fault check takes the spare from: nothing, its direct proving, or a shadowed proving before its step 3 (R118, Table WF-9).
The lane position whose proving is given up, and whether the spare can be taken. -/
def checkTakes (x : Group) : Bool × Option (Fin 9) :=
  match x.spare, x.phase with
  | .free, .direct _ => (true, some 8)
  | .free, _ => (true, none)
  | .shadow, .settle1 _ | .shadow, .agree1 _ _ => (true, some x.pos.castSucc)
  | _, _ => (false, none)

/-- The fault check that waits first takes the spare when it can (R118, Table WF-9). DESIGN CHOICE (log entry 105): a proving given up
for it is put at the front of the group's order. -/
def startWaitingCheck (g : Fin 8) (s : State) : State :=
  let x := s.wf.group[g.1]
  match x.waiting with
  | (p, c) :: rest =>
    if provingRuns s && (checkTakes x).1 then
      setGroup g (fun y => { y with waiting := rest, front := (checkTakes x).2.toList ++ y.front, spare := .shadow, pos := p,
                                    spareServes := false, phase := .check c 0 (s.now + 2000) }) s
    else s
  | [] => s

/-- The spare returns to FREE and the home lane serves. -/
def freeSpare (g : Fin 8) (s : State) : State :=
  startWaitingCheck g (setGroup g (fun x => { x with spare := .free, spareServes := false, phase := .idle }) s)

/-- A disagreement is counted (R132): service continues on the home lane, or a second one within 24 h stitches. DESIGN CHOICE (log
entry 107): the second one is one that is counted, so both lanes have passed, and the 24 h run between the two countings. -/
def countDisagree (g p : Fin 8) (s : State) : State :=
  let n := inputAt g p
  let last := s.wf.input[n.1].disAt
  let s := { s with wf := { s.wf with disagree := satInc s.wf.disagree } }
  let s := setInput n (fun x => { x with disAt := some s.now }) s
  if last.any fun l => decide (s.now < l + 86400000000) then permanentStitch g p 7 s
  else laneFault n 7 false (freeSpare g s)

/-- What follows when the lane proved at this sample is classed (R130 to R134). DESIGN CHOICE (log entry 107): a home lane reconnected
at step 5 starts from the current detection bit. -/
def provedNext (g : Fin 8) (res : ProveRes) (s : State) : State :=
  let grp := s.wf.group[g.1]
  let p := grp.pos
  match grp.phase, res with
  | .homeTest _, .fail => permanentStitch g p 6 s
  | .homeTest _, .drift => setGroup g (fun x => { x with phase := .waitStitch 5 }) s
  | .homeTest _, _ =>
    setInput (inputAt g p) (fun x => { x with shadowDet := x.det }) (setGroup g (fun x => { x with phase := .settle2 (s.now + 200) }) s)
  | .disFirst true _, .fail => faultSpare g s
  | .disFirst true _, _ => setGroup g (fun x => { x with phase := .disSwap true }) s
  | .disFirst false _, .fail => permanentStitch g p 6 s
  | .disFirst false _, .drift => setGroup g (fun x => { x with phase := .waitStitch 5 }) s
  | .disFirst false _, _ => setGroup g (fun x => { x with phase := .disSwap false }) s
  | .disSecond true _, .fail => faultSpare g s
  | .disSecond true _, _ => countDisagree g p s
  | .disSecond false _, .fail => permanentStitch g p 6 s
  | .disSecond false _, .drift => setGroup g (fun x => { x with phase := .waitStitch 5 }) s
  | .disSecond false _, _ => countDisagree g p s
  | .direct _, .fail => faultSpare g s
  | .direct _, _ => freeSpare g s
  | _, _ => s

/-- The lane that a group's proving phase measures. -/
def testedLane (g : Fin 8) (s : State) : Fin 72 :=
  match s.wf.group[g.1].phase with
  | .disFirst true _ => spareLane g
  | .disSecond true _ => spareLane g
  | .direct _ => spareLane g
  | _ => homeLane g s.wf.group[g.1].pos

/-- The two lanes of a position agree on a sample (R127): 2% of full scale. -/
def lanesAgree (n : Fin 64) (a b : LaneReading) (s : State) : Bool :=
  let lim := if inMode n s = 2 then 40 else 60
  decide (laneVal n s a ≤ laneVal n s b + lim) && decide (laneVal n s b ≤ laneVal n s a + lim) &&
    (s.wf.input[n.1].shadowDet == s.wf.input[n.1].det)

/-- The detection bit of the lane that runs alongside the serving lane, after its reading. -/
def shadowStep (n : Fin 64) (r : LaneReading) (s : State) : State :=
  setInput n (fun x => { x with shadowDet := detOf n s x.shadowDet (laneVal n s r) }) s

/-- One sample instant of a group's proving or fault check (Table WF-8, R118, R128, R130, R132). Samples past the 20 ms of an
agreement window or the 2 ms of a fault check no longer count. -/
def groupStep (i : LaneInputs) (s : State) (g : Fin 8) : State :=
  let grp := s.wf.group[g.1]
  let p := grp.pos
  let n := inputAt g p
  let t := s.now
  let rs := i.lane[(spareLane g).1]
  let rh := i.lane[(homeLane g p).1]
  let s1 := shadowStep n (if grp.spareServes then rh else rs) s
  match grp.phase with
  | .settle1 til => if til ≤ t then setGroup g (fun x => { x with phase := .agree1 0 (t + 20000) }) s1 else s1
  | .agree1 k til =>
    if til < t then s1
    else if lanesAgree n rs rh s1 then
      if 100 ≤ k + 1 then
        setGroup g (fun x => { x with spareServes := true, phase := .homeTest (t + 8000) }) s1
      else setGroup g (fun x => { x with phase := .agree1 (k + 1) til }) s1
    else setGroup g (fun x => { x with phase := .agree1 0 til }) s1
  | .settle2 til => if til ≤ t then setGroup g (fun x => { x with phase := .agree2 0 (t + 20000) }) s1 else s1
  | .agree2 k til =>
    if til < t then s1
    else if lanesAgree n rs rh s1 then
      if 100 ≤ k + 1 then freeSpare g s1
      else setGroup g (fun x => { x with phase := .agree2 (k + 1) til }) s1
    else setGroup g (fun x => { x with phase := .agree2 0 til }) s1
  | .homeTest til | .disFirst _ til | .disSecond _ til | .direct til =>
    if til ≤ t then provedNext g (classify i.meas[g.1]) (laneProved (testedLane g s) i.meas[g.1] s) else s
  | .waitStitch c => if headQuiet n s then permanentStitch g p c.toNat s else s
  | .disSwap toSpare =>
    if headQuiet n s then
      setGroup g (fun x => { x with spareServes := toSpare, phase := .disSecond (!toSpare) (t + 8000) }) s
    else s
  | .check c k til =>
    if til < t ∨ t + 2000 ≤ til then s
    else if inBand c.toNat n s rs then
      if bandLen c.toNat ≤ k + 1 then freeSpare g s
      else setGroup g (fun x => { x with phase := .check c (k + 1) til }) s
    else setGroup g (fun x => { x with phase := .check c 0 til }) s
  | .idle => startWaitingCheck g s

/-! ### One sample of an input -/

/-- The first band that has lasted long enough. DESIGN CHOICE (log entry 106): of bands completed at one sample, the lowest cause
code. -/
def bandHit (x : Input) : Nat :=
  if 5 ≤ x.nOpen then 1 else if 5 ≤ x.nShort then 2 else if 50 ≤ x.nCarrier then 3 else if 5 ≤ x.nOver then 4 else 0

/-- A newly detected input fault (R116, R118, R119, Table WF-9): it stands, is reported, and asks for a fault check unless the group
has no spare. -/
def inputFault (n : Fin 64) (cause : Nat) (s : State) : State :=
  let g := grpOf n
  let c := BitVec.ofNat 4 cause
  let s := laneFault n cause false (setInput n (Input.raise c s.now) s)
  let s := if s.sys.mode != .safe && (s.wf.group[g.1].spare = .free || s.wf.group[g.1].spare = .shadow) then
      setGroup g (fun x => { x with waiting := x.waiting ++ [(posOf n, c)] }) s
    else s
  startWaitingCheck g s

/-- The input's values, detection bit, band counters and burst after one reading (R112, R115, R137 to R140). DESIGN CHOICE (log entry
106): an input in mode OFF shows 0 as its value, current and frequency. -/
def readInput (n : Fin 64) (r : LaneReading) (s : State) (x : Input) : Input :=
  let blind := blindAt x s.now
  let aborted := x.burst.any fun b => b.abort.isSome
  let burst := if !blind && aborted then none else x.burst
  if !inputOn n s then
    { x with det := false, val := 0, idc := 0, freq := 0, nOpen := 0, nShort := 0, nCarrier := 0, nOver := 0, burst := burst }
  else if blind then x
  else
    let bound := (headOf n s).isSome
    let bad := fun c => bound && inBand c n s r
    let within := !(bad 1) && !(bad 2) && !(bad 3) && !(bad 4)
    { x with
      det := detOf n s x.det (laneVal n s r), val := BitVec.ofNat 12 (laneVal n s r)
      idc := BitVec.ofNat 12 (current n s r), freq := r.freq
      after := aborted, burst := burst
      nOpen := if bad 1 then x.nOpen + 1 else 0
      nShort := if bad 2 then x.nShort + 1 else 0
      nCarrier := if bad 3 then x.nCarrier + 1 else 0
      nOver := if bad 4 then x.nOver + 1 else 0
      okSince := if within then (match x.okSince with | none => some s.now | some o => some o) else none }

/-- A fault that the bands raise stands. -/
def bandStands (x : Input) : Bool := x.has 1 || x.has 2 || x.has 3 || x.has 4

/-- One reading of an input and the fault it completes (R99, R108, R115). DESIGN CHOICE (log entry 106): while one band's fault stands,
another band raises none. -/
def inputStep (i : LaneInputs) (s : State) (n : Fin 64) : State :=
  let s := setInput n (readInput n i.lane[(servingLane n s).1] s) s
  let x := s.wf.input[n.1]
  if bandHit x ≠ 0 ∧ bandStands x = false then inputFault n (bandHit x) s else s

/-- The input's detection sample is formed (R120). -/
def takeSample (s : State) (n : Fin 64) : State :=
  let d := sampleOf n s
  setInput n (fun x => { x with
    last := d, prior := if d.proving then x.prior else d.prior,
    lastDet := if d.det && !d.proving then some s.now else x.lastDet }) s

/-- Every section of a head's mask is CLEAR (R135). -/
def maskClear (h : Fin 32) (s : State) : Bool :=
  allHeads.all fun i => !(bitOf s.hd.head[h.1].mask1 i.1) || s.sc.sect[i.1].st = .clear

/-- A burst is aborted by the partner's first detecting sample (R138); a section leaving CLEAR aborts it where that happens
(secSet). -/
def abortStep (s : State) (n : Fin 64) : State :=
  match partnerOf n s with
  | some m => if s.wf.input[m.1].last.det then burstAbort n s else s
  | none => s

/-- The lanes' part of a sample instant: every input's reading and faults, the samples, aborted bursts, then what the groups' provings
change between this sample and the next (R113, R129). -/
def lanesStep (i : LaneInputs) (s : State) : State :=
  let s := (List.finRange 64).foldl (inputStep i) s
  let s := (List.finRange 64).foldl abortStep ((List.finRange 64).foldl takeSample s)
  if provingRuns s then (List.finRange 8).foldl (groupStep i) s else s

/-! ### The lanes' own commands -/

/-- The spare of a group can shadow. -/
def spareFree (g : Fin 8) (s : State) : Bool := s.wf.group[g.1].spare = .free

/-- The positions a group proves: serving home lanes, and the spare when it is FREE or SERVING (R123). -/
def provable (g : Fin 8) (s : State) (k : Nat) : Bool :=
  if k < 8 then !(bitOf s.wf.group[g.1].out k)
  else s.wf.group[g.1].spare = .free || s.wf.group[g.1].spare = .serving

/-- The next position in rising order, from `next` round (R123). -/
def nextPos (g : Fin 8) (s : State) : Nat :=
  (((List.range 9).map fun k => (s.wf.group[g.1].next + k) % 9).find? (provable g s)).getD 0

/-- Starts the proving of a position: shadowed, direct or in bursts (R122, R126, R134, R135). -/
def startProving (g : Fin 8) (k : Nat) (s : State) : State :=
  let s := setGroup g (fun x => { x with lastStart := some s.now }) s
  if h : k < 8 then
    if spareFree g s then
      setInput (inputAt g ⟨k, h⟩) (fun x => { x with shadowDet := x.det })
        (setGroup g (fun x => { x with spare := .shadow, pos := ⟨k, h⟩, spareServes := false, phase := .settle1 (s.now + 200) }) s)
    else setGroup g (fun x => { x with under := putBit x.under k true }) s
  else if spareFree g s then setGroup g (fun x => { x with phase := .direct (s.now + 8000) }) s
  else setGroup g (fun x => { x with under := putBit x.under x.pos.1 true }) s

/-- PROVING_START (R123 to R125): one proving every 6 s, that of a position moved to the front first; the rest of the order stays. A
burst proving that pauses (R141) does not keep the next one from starting. -/
def execProvingStart (g : Fin 8) (s : State) : Result :=
  .next (
    if provingRuns s && s.wf.group[g.1].phase = .idle && limitOk 6000000 s.wf.group[g.1].lastStart s.now then
      let k := nextPos g s
      match s.wf.group[g.1].front.filter fun f => provable g s f.1 with
      | f :: rest =>
        startProving g f.1 (setGroup g (fun x => { x with front := rest, next := if k = f.1 then (k + 1) % 9 else x.next }) s)
      | [] => startProving g k (setGroup g (fun x => { x with front := [], next := (k + 1) % 9 }) s)
    else s)

/-- AGREEMENT_WINDOW_EXPIRY (R128, R132): the lane that does not serve is disconnected and proved. -/
def execAgreementWindowExpiry (g : Fin 8) (s : State) : Result :=
  .next (
    match s.wf.group[g.1].phase with
    | .agree1 _ til | .agree2 _ til =>
      if til ≤ s.now && atSample s && provingRuns s then
        setGroup g (fun x => { x with phase := .disFirst (!x.spareServes) (s.now + 8000) }) s
      else s
    | _ => s)

/-- No DET = 1 sample of an input for 2 s (R135). -/
def quiet2s (n : Fin 64) (s : State) : Bool := limitOk 2000000 s.wf.input[n.1].lastDet s.now

/-- The conditions of R135 for a burst on an input. -/
def burstAllowed (n : Fin 64) (s : State) : Bool :=
  match headOf n s, partnerOf n s with
  | some (h, _), some m =>
    quiet2s n s && quiet2s m s && maskClear h s && !s.wf.input[m.1].faulty && !blindAt s.wf.input[m.1] s.now
  | _, _ => true

/-- A burst of an input may start at this sample instant but for the partner's (R135, R136, R141). -/
def burstDue (n : Fin 64) (s : State) : Bool :=
  let g := s.wf.group[(grpOf n).1]
  provingRuns s && atSample s && (g.spare = .serving || g.spare = .faulted) && bitOf g.under (posOf n).1 &&
    s.wf.input[n.1].burst.isNone && limitOk 5000 s.wf.input[n.1].lastBurst s.now && burstAllowed n s

/-- The partner's burst is due at the same instant and goes first: its input lies in the lower-numbered group (R135). -/
def partnerFirst (n : Fin 64) (s : State) : Bool :=
  match partnerOf n s with
  | some m => decide ((grpOf m).1 < (grpOf n).1) && burstDue m s
  | none => false

/-- BURST_START (R135, R136, R141): between the sample at this instant and the next. -/
def execBurstStart (n : Fin 64) (s : State) : Result :=
  .next (
    if burstDue n s && !partnerFirst n s then
      setInput n (fun x => { x with burst := some ⟨s.now, none⟩, lastBurst := some s.now }) s
    else s)

/-- A proving in bursts completes (R121, R136, Table WF-10). -/
def burstsDone (n : Fin 64) (m : ProveMeas) (s : State) : State :=
  let s := setGroup (grpOf n) (fun x => { x with under := putBit x.under (posOf n).1 false }) (laneProved (servingLane n s) m s)
  match classify m with
  | .fail => laneFault n 5 false (raiseFault n 5 s)
  | .drift => laneFault n 6 false s
  | _ => clearLaneFault n s

/-- BURST_END (R136, R138): a burst that was not aborted ends after 200 µs, at a sample, and counts. -/
def execBurstEnd (n : Fin 64) (m : ProveMeas) (s : State) : Result :=
  .next (
    match s.wf.input[n.1].burst with
    | some ⟨b, none⟩ =>
      if b + 200 ≤ s.now && atSample s then
        let s := setInput n (fun x => { x with burst := none }) s
        let l := servingLane n s
        if 40 ≤ s.wf.lane[l.1].bursts + 1 then burstsDone n m s
        else setLane l (fun x => { x with bursts := x.bursts + 1 }) s
      else s
    | _ => s)

/-- PROVING_OVERDUE (R145): 600 s raise OVERDUE, 24 h fault the input. -/
def execProvingOverdue (n : Fin 64) (s : State) : Result :=
  .next (
    let l := servingLane n s
    let x := s.wf.lane[l.1]
    let noSpare := s.wf.group[(grpOf n).1].spare = .serving || s.wf.group[(grpOf n).1].spare = .faulted
    let since := s.now - x.provedAt.getD 0
    if noSpare && provingRuns s && atSample s && decide (86400000000 ≤ since) && !x.over24h then
      laneFault n 8 false (raiseFault n 8 (setLane l (fun y => { y with over600 := true, over24h := true }) s))
    else if noSpare && provingRuns s && atSample s && decide (600000000 ≤ since) && !x.over600 then
      laneFault n 8 false (setLane l (fun y => { y with over600 := true }) s)
    else s)

/-- An input whose band fault the fault check has placed in the lane. -/
def checkGone (c : BitVec 4) (x : Input) : Input :=
  { x.drop c with okSince := none, nOpen := 0, nShort := 0, nCarrier := 0, nOver := 0 }

/-- FAULT_CHECK_EXPIRY (R118): the spare did not see the excursion within 2 ms, so the lane is faulty, the spare takes over at the
next sample boundary, and the input fault of the band clears. -/
def execFaultCheckExpiry (g : Fin 8) (s : State) : Result :=
  .next (
    match s.wf.group[g.1].phase with
    | .check c _ til =>
      if til ≤ s.now && atSample s && provingRuns s then
        let p := s.wf.group[g.1].pos
        stitchLane g p 0x0A c.toNat true (setGroup g (fun x => { x with waiting := [] }) (setInput (inputAt g p) (checkGone c) s))
      else s
    | _ => s)

/-- Faults that the bands raise and clear (R117): OPEN, SHORT, CARRIER, OVERAMP and GROUP. -/
def bandFault (c : BitVec 4) : Bool := c = 1 || c = 2 || c = 3 || c = 4 || c = 9

/-- A fault clears now by R117: the input has stayed within every band for 500 ms since the fault was raised. -/
def clearsNow (x : Input) (t : Nat) (f : BitVec 4 × Nat) : Bool :=
  match x.okSince with
  | some o => bandFault f.1 && decide (max o f.2 + 500000 ≤ t)
  | none => false

/-- The group reference fault ends when no input of the group has it. -/
def groupFaultEnds (g : Fin 8) (s : State) : State :=
  if (List.finRange 8).all fun p => !s.wf.input[(inputAt g p).1].has 9 then setGroup g (fun y => { y with groupFault := false }) s
  else s

/-- The fault checks of an input whose faults no longer stand wait no more. -/
def dropWaits (n : Fin 64) (s : State) : State :=
  let stands := s.wf.input[n.1]
  setGroup (grpOf n) (fun x => { x with waiting := x.waiting.filter (fun w => w.1 ≠ posOf n || stands.has w.2) }) s

/-- INPUT_FAULT_CLEAR (R117): 500 ms within every band without a break. A fault check that still waits for the fault is dropped. -/
def execInputFaultClear (n : Fin 64) (s : State) : Result :=
  .next (
    let done := s.wf.input[n.1].faults.filter (clearsNow s.wf.input[n.1] s.now)
    if atSample s && !done.isEmpty then
      groupFaultEnds (grpOf n) (dropWaits n (done.foldl (fun s f => endFault n f.1 s) s))
    else s)

/-- A group fault is raised for one bound input. -/
def groupFaultAt (g : Fin 8) (s : State) (p : Fin 8) : State :=
  let n := inputAt g p
  if (headOf n s).isSome && inputOn n s && !s.wf.input[n.1].has 9 then
    laneFault n 9 false (setInput n (Input.raise 9 s.now) s)
  else s

/-- GROUP_REFERENCE_FAULT (R118): cause GROUP for every bound input of the group. -/
def execGroupReferenceFault (g : Fin 8) (s : State) : Result :=
  .next (
    if imageRuns s && !clockSafe s then
      (List.finRange 8).foldl (groupFaultAt g) (setGroup g (fun x => { x with groupFault := true }) s)
    else s)

/-- A write of WF_PROVEREQ (R125). -/
def proveRequest (v : W16) (s : State) : State :=
  if keyOf v = 0xB7 then
    let n := inputIx (fld v 5 0)
    let k : Fin 9 := if spareServesOf n s then 8 else (posOf n).castSucc
    setGroup (grpOf n) (fun x => { x with front := k :: x.front.filter (· ≠ k) }) s
  else s

/-- PROVE_REQUEST (R125): a keyed write to WF_PROVEREQ. -/
def execProveRequest (p : Port) (v : W16) (s : State) : Result := .next (portWrite p 0x09E (proveRequest v) s)

end Sys2Proof.Machine
end

