-- ==== Sys2Proof/Machine/Heads.lean ====
section
/-! DEFINITION. The counting heads (chapter 04): the phase machine of Table HD-2 and what its outcomes do.
A head's inputs and direction come from the image (R153, R155). -/

namespace Sys2Proof.Machine

open Sys2Proof

/-- Phase codes of Table HD-1. -/
def phaseCode : Phase → Nat
  | .idle => 0
  | .enter => 1
  | .both => 2
  | .leave => 3
  | .pend => 4
  | .resync => 5
  | .fault => 6
  | .disabled => 7

/-- What a head decides at a sample. -/
inductive HAct where
  | commit
  | rock
  | single (sys : Bool)
  | err (cause : Nat)
  | fault
  deriving DecidableEq, Repr

/-- The DET bit a head uses: a proving sample leaves the last valid one (R157). -/
def detUse (s : Sample) (last : Bool) : Bool := if s.proving then last else s.det

/-- Phase ENTER or RESYNC or IDLE after a single system X is seen in IDLE (Table HD-2). -/
def enterOn (x : Head) (sysX partnerProving : Bool) (t : Nat) : Head :=
  { x with phase := if partnerProving then .pend else .enter, e := sysX, v := false, back := false,
           riseE := some t, riseF := none, fallE := none, began := t, nBoth := 0 }

/-- The ENTER rows of Table HD-2: `ed` and `fd` are the DET bits of E and F. -/
def enterRows (x : Head) (ed fd : Bool) (t : Nat) : Head × List HAct :=
  match ed, fd with
  | true, true => ({ x with phase := .both, v := true, riseF := some t, nBoth := 1 }, [])
  | true, false => ({ x with phase := .enter }, [])
  | false, true => ({ x with phase := .resync }, [.err 2])
  | false, false => ({ x with phase := .idle }, [if x.v then .rock else .single x.e])

/-- The PEND rows: `p` is the sample of the proving system and `xd` the DET bit of X. -/
def pendRows (x : Head) (p : Sample) (xd : Bool) (t : Nat) : Head × List HAct :=
  if p.proving then (x, [])
  else if p.prior then enterRows { x with e := !x.e, v := false, riseE := none } p.det xd t
  else if p.det then ({ x with phase := .resync }, [.err 1])
  else if xd then ({ x with phase := .enter, v := false }, [])
  else ({ x with phase := .idle }, [.single x.e])

/-- The transitions of Table HD-2 for a head whose systems carry no FAULT; `a` and `b` are the DET bits in use. -/
def phaseRows (x : Head) (sa sb : Sample) (a b : Bool) (t : Nat) : Head × List HAct :=
  let ed := if x.e then b else a
  let fd := if x.e then a else b
  match x.phase with
  | .idle =>
    match a, b with
    | false, false => (x, [])
    | true, true => ({ x with phase := .resync, e := false }, [.err 1])
    | true, false => (enterOn x false sb.proving t, [])
    | false, true => (enterOn x true sa.proving t, [])
  | .pend => pendRows x (if x.e then sa else sb) ed t
  | .enter => enterRows x ed fd t
  | .both =>
    match ed, fd with
    | true, true => ({ x with nBoth := x.nBoth + 1 }, [])
    | false, true => ({ x with phase := .leave, fallE := some t }, [])
    | true, false => ({ x with phase := .enter, back := true }, [])
    | false, false => ({ x with phase := .resync }, [.err 3])
  | .leave =>
    match ed, fd with
    | false, true => (x, [])
    | false, false => ({ x with phase := .idle }, [if 2 ≤ x.nBoth then .commit else .err 5])
    | true, true => ({ x with phase := .both, back := true, nBoth := 1 }, [])
    | true, false => ({ x with phase := .resync }, [.err 4])
  | .resync => if !a && !b then ({ x with phase := .idle }, []) else (x, [])
  | .fault => ({ x with phase := .resync }, [])
  | .disabled => (x, [])

/-- One sample of a head: the fault row first, then the first sample after load (R168), then Table HD-2. -/
def headRows (x : Head) (sa sb : Sample) (a b : Bool) (t : Nat) : Head × List HAct :=
  if x.phase = .disabled then (x, [])
  else if sa.fault || sb.fault then
    ({ x with phase := .fault, started := true }, if x.phase = .fault then [] else [.fault])
  else if !x.started then ({ x with phase := if a || b then .resync else .idle, started := true }, [])
  else phaseRows x sa sb a b t

/-- Phases in which a head can stand (R172). -/
def standPhase (p : Phase) : Bool := p = .enter || p = .both || p = .leave

/-- The head after a sample with its times and presence (R161, R163, R164, R172, R174), and what it decided. -/
def headNext (x : Head) (sa sb : Sample) (t : Nat) : Head × List HAct :=
  let a := detUse sa x.da
  let b := detUse sb x.db
  let r := headRows x sa sb a b t
  let y := r.1
  let moved := a != x.da || b != x.db
  let idle := y.phase = .idle || y.phase = .disabled
  ({ y with
     da := a, db := b,
     changed := if moved || standPhase y.phase != standPhase x.phase then t else y.changed,
     standing := y.standing && !moved && y.phase != .fault,
     nonIdle := if idle then none else if x.phase = .idle || !x.started then some t else y.nonIdle,
     idleSince := if y.phase = .idle then (if x.phase = .idle && x.started then y.idleSince else some t) else none,
     busy := !idle && (y.busy || y.phase = .fault) }, r.2)

/-! ### What the decisions do -/

/-- Changes a head. -/
def setHead (h : Fin 32) (f : Head → Head) (s : State) : State :=
  { s with hd := { s.hd with head := upd s.hd.head h f } }

/-- Heads raise events and disturb sections: not in SAFE (R168). -/
def headsReport (s : State) : Bool := s.sys.mode != .safe

/-- Commits enter the walker FIFO: not in CONFIGURE or SAFE (R168). -/
def headsCount (s : State) : Bool := s.sys.mode != .safe && s.sys.mode != .configure

/-- Sequence error of a head (R178, Table HD-4), with its phase and entry system before the error. -/
def seqError (h : Fin 32) (cause : Nat) (ph : Phase) (e : Bool) (s : State) : State :=
  let s := setHead h (fun x => { x with seqerr := satInc x.seqerr }) s
  if headsReport s then
    let w := pack [(0, cause), (4, phaseCode ph), (7, b2n e)]
    disturbMask s.hd.head[h.1].mask1 2 (some h) (raiseHeadRec (8 * h.1 + 5) w s)
  else s

/-- Speed of a passage in km/h (R175), when it is valid. -/
def speedOf (x : Head) (dsys t : Nat) : Option Nat :=
  match x.riseE, x.riseF, x.fallE with
  | some re, some rf, some fe =>
    if x.back then none
    else
      let d := (rf - re) + (t - fe)
      if d = 0 then none else some (7200 * dsys / d)
  | _, _, _ => none

/-- Bits [10:0] of a commit's data word (Table HD-5). -/
def commitData (h : Fin 32) (x : Head) (s : State) : Nat × Bool :=
  match speedOf x (fld s.cfg.head[h.1].dsys 8 0) s.now with
  | none => (0, false)
  | some v =>
    let ov := decide (11 * fld s.cfg.head[h.1].vmax 8 0 < 10 * v)
    (min 511 v + 512 + 1024 * b2n ov, ov)

/-- A commit enters the walker FIFO (R167, R191). -/
def fifoPut (e : WEntry) (s : State) : State :=
  let q := s.sc.fifo ++ [e]
  { s with sc := { s.sc with fifo := q, peak := max s.sc.peak q.length } }

/-- A commit (R165, R167, R168, R177, R179, R182): `x` is the head before the sample. With the walker FIFO full the error NOSLOT
takes the commit's place. -/
def headCommit (h : Fin 32) (x : Head) (s : State) : State :=
  let inward := !x.e
  let put := headsCount s && !s.hd.head[h.1].reload
  if put && decide (64 ≤ s.sc.fifo.length) then seqError h 7 x.phase x.e s
  else
    let d := commitData h x s
    let s := setHead h (fun y => { y with
      cin := if inward then y.cin + 1 else y.cin, cout := if inward then y.cout else y.cout + 1,
      speed := BitVec.ofNat 11 d.1 }) s
    let seq : BitVec 5 := (s.hd.head[h.1].cin + s.hd.head[h.1].cout).setWidth 5
    let s := if put then fifoPut { head := h, inward := inward, ts := s.tstamp, at_ := s.now, seq := seq } s else s
    let s := if headsReport s then
        raiseHead (8 * h.1 + (if inward then 0 else 1)) (pack [(0, d.1), (11, seq.toNat)]) s
      else s
    if d.2 then seqError h 6 x.phase x.e s else s

/-- A head enters FAULT (R180). -/
def headFault (h : Fin 32) (s : State) : State :=
  if headsReport s then setItem 6 h.1 (disturbMask s.hd.head[h.1].mask1 3 (some h) s) else s

/-- Data word of a rock or a single-system disturbance (Table HD-5). -/
def durWord (sys : Bool) (d : Nat) : W16 := pack [(0, b2n sys), (4, min 4095 d)]

/-- A single-system disturbance (R171). -/
def headSingle (h : Fin 32) (sys : Bool) (dur : Nat) (s : State) : State :=
  let s := setHead h (fun y => { y with dist := satInc y.dist }) s
  if headsReport s && limitOk 100000 s.hd.head[h.1].distAt s.now then
    raiseHead (8 * h.1 + 4) (durWord sys (dur / 20)) (setHead h (fun y => { y with distAt := some s.now }) s)
  else s

/-- A rock (Table HD-2). -/
def headRock (h : Fin 32) (x : Head) (s : State) : State :=
  let s := setHead h (fun y => { y with rocks := satInc y.rocks }) s
  if headsReport s then raiseHead (8 * h.1 + 2) (durWord x.e ((s.now - x.began) / 10000)) s else s

/-- One decision of a head; `x` is the head before the sample. -/
def headAct (h : Fin 32) (x : Head) (s : State) (a : HAct) : State :=
  let s := if a matches .single _ then s else headActivity h s.now s
  match a with
  | .commit => headCommit h x s
  | .rock => headRock h x s
  | .single sys => headSingle h sys (s.now - x.began) s
  | .err c =>
    let ph : Phase := if x.phase = .pend && c = 2 then .enter else x.phase
    seqError h c ph (if c = 1 || x.phase = .resync then false else s.hd.head[h.1].e) s
  | .fault => headFault h s

/-- Data word of a standing event (Table HD-5). -/
def standWord (x : Head) (raised : Bool) : W16 :=
  pack [(0, phaseCode x.phase), (3, b2n x.e), (4, b2n raised)]

/-- One sample of one head (R156 to R185). -/
def headStep (s : State) (h : Fin 32) : State :=
  if !headOn h s then s
  else
    let x := s.hd.head[h.1]
    let sa := s.wf.input[(inputIx (headInA h s)).1].last
    let sb := s.wf.input[(inputIx (headInB h s)).1].last
    let r := headNext x sa sb s.now
    let s := setHead h (fun _ => r.1) s
    let s := if x.busy && (r.1.da != x.da || r.1.db != x.db) then headActivity h s.now s else s
    let s := if x.standing && !r.1.standing && headsReport s then raiseHead (8 * h.1 + 3) (standWord x false) s else s
    secEvalAll (some h) (r.2.foldl (headAct h x) s)

/-- Bit 6 of SY_DEGSRC ends for each head that has left FAULT (R180). -/
def headsItem (s : State) : State :=
  allHeads.foldl (fun s h => if s.hd.head[h.1].phase = .fault then s else clearUnit 6 h.1 s) s

/-- LANE_SAMPLE (R108, R156): the lanes, then the heads in ascending number (R167); a sample at a tick instant counts towards the
next tick (R160). Under SAFE cause CLOCK nothing is sampled. -/
def execLaneSample (i : LaneInputs) (s : State) : Result :=
  .next (
    let s := reach 20 s.grid.lane s
    let s := noteLatch { s with grid := { s.grid with lane := some s.now } }
    if imageRuns s && !clockSafe s then headsItem (allHeads.foldl headStep (lanesStep i s)) else s)

/-- The presence filter of a head has run out (R161). -/
def busyDue (h : Fin 32) (s : State) : Bool :=
  match s.hd.head[h.1].nonIdle with
  | some t => decide (t + 20 * fld s.cfg.head[h.1].pfilt 6 0 ≤ s.now) && headOn h s && !s.hd.head[h.1].busy
  | none => false

/-- HEAD_BUSY (R161, R203): at a sample, after its transitions, the sections the head bounds go OCCUPIED. -/
def execHeadBusy (h : Fin 32) (s : State) : Result :=
  .next (
    if busyDue h s && atSample s && imageRuns s && !clockSafe s then
      secEvalAll (some h) (headActivity h s.now (setHead h (fun x => { x with busy := true }) s))
    else s)

/-- STANDING_TIMEOUT (R172, Table HD-3): at a sample, when it has not changed DA or DB. -/
def execStandingTimeout (h : Fin 32) (s : State) : Result :=
  .next (
    let x := s.hd.head[h.1]
    if headOn h s && imageRuns s && !clockSafe s && standPhase x.phase && !x.standing && atSample s &&
        decide (x.changed + 10000 * fld s.cfg.head[h.1].tstand 9 0 ≤ s.now) then
      let s := setHead h (fun y => { y with standing := true }) s
      if headsReport s then raiseHead (8 * h.1 + 3) (standWord x true) s else s
    else s)

/-- Word of 0x1F5 (Table ST-10). -/
def structWord (struct unit : Nat) : W16 := pack [(0, struct), (8, unit)]

/-- SECTION_MASK_MISMATCH (R182): the two copies, compared at every system clock, now read as no complements, so the sections of
either are disturbed, the head's commits are applied to nothing, and a reload starts. No sample and no walk makes the change
(Table SC-9, HV). -/
def execSectionMaskMismatch (h : Fin 32) (copy1 copy2 : W32) (s : State) : Result :=
  .next (
    if s.sys.mode = .reset || clockSafe s || copy2 = ~~~copy1 then s
    else
      let s := setHead h (fun x => { x with mask1 := copy1, mask2 := copy2, reload := true }) s
      let s := { s with hd := { s.hd with maskErr := satInc s.hd.maskErr } }
      let s := raiseRec 0x1F5 (structWord 1 h.1) s
      secEvalAll none (disturbMask (copy1 ||| ~~~copy2) 5 none s))

/-- MASK_RELOAD_DONE (R182, R183, R458). -/
def execMaskReloadDone (h : Fin 32) (ok : Bool) (s : State) : Result :=
  .next (
    if !s.hd.head[h.1].reload || s.sys.mode = .reset || clockSafe s then s
    else if ok then
      let s := setHead h (fun x => { x with
        mask1 := s.cfg.head[h.1].mask1, mask2 := s.cfg.head[h.1].mask2, reload := false }) s
      secEvalAll none (recovery 2 h.1 s)
    else enterSafe 3 0x0002 s)

end Sys2Proof.Machine
end

