-- ==== Sys2Proof/Machine/Sections.lean ====
section
/-! DEFINITION. The track sections, the walker and the tack table (chapter 05).
Every section starts DISTURBED and leaves it only by a reset procedure (R37, R38, R207); the walker stays within the tack region
(R196). Failures act as Table SC-7 says (R223), events carry the words of Table SC-9 (R224). -/

namespace Sys2Proof.Machine

open Sys2Proof

/-! ### The walk (R194) -/

/-- What a walk found: the links it read, or its fault (cause, link, link fault), and the words it read with what the ECC
found in them. -/
structure WalkOut where
  links : List (Fin 32 × Bool) := []
  bad : Option (Nat × Nat × Bool) := none
  words : List (Nat × Ecc) := []
  deriving DecidableEq, Repr

/-- A word of the tack region. -/
def tackWord (s : State) (a : Nat) : W32 := memRead32 0 s.sc.tack a

/-- Section number of a link word. -/
def linkSect (w : W32) : Fin 32 := ⟨w.toNat % 32, by omega⟩

/-- A link word has the form of Table SC-3. -/
def linkForm (w : W32) : Bool := word1 w = ~~~(word0 w) && fld (word0 w) 15 6 = 0

/-- The link words of a walk from index `i` on, `n` of them (R194). -/
def walkLinks (s : State) (ecc : Vector Ecc 33) (mask : W32) (lo : Nat) : Nat → Nat → WalkOut
  | 0, _ => {}
  | n + 1, i =>
    let a := lo + 4 * i
    let e := ecc.toArray.getD (i + 1) .good
    let w := tackWord s a
    if e = .uncorrectable then { bad := some (3, i, true), words := [(a, e)] }
    else if !linkForm w then { bad := some (5, i, true), words := [(a, e)] }
    else if !bitOf mask (w.toNat % 32) then { bad := some (4, i, true), words := [(a, e)] }
    else
      let r := walkLinks s ecc mask lo n (i + 1)
      { r with links := (linkSect w, bitOf w 5) :: r.links, words := (a, e) :: r.words }

/-- The read of a head's directory word and links (R194). -/
def walkRead (h : Fin 32) (ecc : Vector Ecc 33) (s : State) : WalkOut :=
  let a := 0x7E010 + 4 * h.1
  let e := ecc[0]
  let d := tackWord s a
  let n := (d.toNat / 2 ^ 20) % 64
  let lo := d.toNat % 2 ^ 20
  let hi := lo + 4 * n - 1
  let w0 : WalkOut := { words := [(a, e)] }
  if e = .uncorrectable then { w0 with bad := some (3, 0, false) }
  else if (d.toNat / 2 ^ 26) % 32 ≠ h.1 ∨ 32 < n then { w0 with bad := some (5, 0, false) }
  else if n = 0 then w0
  else if lo ≤ 0xFFFFF ∧ 0xF0000 ≤ hi then { w0 with bad := some (2, 0, false) }
  else if lo % 4 ≠ 0 ∨ lo < 0x7E000 ∨ 0x7FFFF < hi then { w0 with bad := some (1, 0, false) }
  else
    let r := walkLinks s ecc s.hd.head[h.1].mask1 lo n 0
    { r with words := (a, e) :: r.words }

/-! ### Counts (R209, R210) -/

/-- Changes a section. -/
def setSect (i : Fin 32) (f : Sect → Sect) (s : State) : State :=
  { s with sc := { s.sc with sect := upd s.sc.sect i f } }

/-- A section with a new count in both registers. -/
def putCount (v : W16) (x : Sect) : Sect := { x with count := v, compl := ~~~v }

/-- A count is outside 0 to 2000 (R210). -/
def countOut (v : W16) : Bool := decide (v.toInt < 0) || decide (2000 < v.toInt)

/-- A count moved by one, saturating (R210). -/
def countMove (v : W16) (up : Bool) : W16 :=
  if up then (if v = 0x7FFF then v else v + 1) else (if v = 0x8000 then v else v - 1)

/-- One update of a walk; SC_ENTRIES counts each +1 while the section is PREPARED (R212). -/
def applyLink (inward : Bool) (s : State) (l : Fin 32 × Bool) : State :=
  let up := inward != l.2
  setSect l.1 (fun x => { putCount (countMove x.count up) x with
    entries := if up && x.st = .prepared then satInc x.entries else x.entries }) s

/-- The count anomaly of R210 on a section after a walk or a copy check. -/
def anomaly (hv : Option (Fin 32)) (s : State) (i : Fin 32) : State :=
  let x := s.sc.sect[i.1]
  if countOut x.count then
    let s := if x.outside then s else
      raiseRec (0x100 + 4 * i.1 + 1) x.count
        (setSect i (fun y => { y with outside := true, anom := satInc y.anom }) s)
    disturb i 6 hv s
  else setSect i (fun y => { y with outside := false }) s

/-! ### Walk faults and the refresh (R219 to R222) -/

/-- A tack refresh starts (R219, R529); the sections of every head are pending until it ends. -/
def refreshStart (s : State) : State :=
  if s.sc.refresh.isSome then s
  else secEvalAll none { s with sc := { s.sc with refresh := some s.now } }

/-- Lowest section of a mask. -/
def lowSect (m : W32) : Option (Fin 32) := allHeads.find? fun i => bitOf m i.1

/-- Data word of a walk fault (Table SC-9). -/
def walkWord (f : Nat × Nat × Bool) (h : Fin 32) (nomask : Bool) : W16 :=
  pack [(0, f.1), (4, h.1), (9, f.2.1), (14, b2n f.2.2), (15, b2n nomask)]

/-- A walk fault (R219, R222, R225). -/
def walkFault (h : Fin 32) (f : Nat × Nat × Bool) (s : State) : State :=
  let m := s.hd.head[h.1].mask1
  let w := walkWord f h (lowSect m).isNone
  let code := 0x100 + 4 * ((lowSect m).getD 0).1 + 3
  let s := { s with sc := { s.sc with walkFlt := satInc s.sc.walkFlt, lastFlt := w } }
  let s := disturbMask m 4 (some h) (raiseRec code w s)
  match s.sc.refreshed with
  | some r => if s.now < r + 60000000 then enterSafe 3 0x0001 s else refreshStart s
  | none => refreshStart s

/-- What the ECC found in a word of the tack region, which lies in SRAM bank 7 (R198, R518). -/
def tackEcc (s : State) (w : Nat × Ecc) : State :=
  let row : Byte := BitVec.ofNat 8 ((w.1 / 512) % 128)
  let s := if w.2 = .corrected then { s with sc := { s.sc with eccCor := satInc s.sc.eccCor } } else s
  eccFound 7 row w.2 s

/-- The walker runs: an entry waits, no refresh stands, and not in SAFE (R217, R219). -/
def walkerRuns (s : State) : Bool := imageRuns s && s.sys.mode != .safe && s.sc.refresh.isNone

/-- The applied part of a walk (R194, R195, R210): all updates, then the anomalies, then the states. -/
def walkApply (e : WEntry) (links : List (Fin 32 × Bool)) (s : State) : State :=
  let s := links.foldl (applyLink e.inward) s
  let s := links.foldl (fun s l => activity l.1 e.at_ s) s
  secEvalAll (some e.head) (links.foldl (fun s l => anomaly (some e.head) s l.1) s)

/-- SC_WALKMAX takes the length of a walk, which lies within 60 + 8n clocks (R197) and is otherwise open. -/
def walkTime (n : Nat) (s : State) : State :=
  let r := draw s
  let t := r.1.toNat % (61 + 8 * n)
  { r.2 with sc := { r.2.sc with walkMax := sat16 (max r.2.sc.walkMax.toNat t) } }

/-- WALK (R192, R194, R195). An entry of a head whose mask is being reloaded is applied to nothing (R182). -/
def execWalk (ecc : Vector Ecc 33) (s : State) : Result :=
  .next (
    if !walkerRuns s then s
    else match s.sc.fifo with
      | [] => s
      | e :: q =>
        let s := { s with sc := { s.sc with fifo := q } }
        if s.hd.head[e.head.1].reload then secEvalAll none s
        else
          let r := walkRead e.head ecc s
          let s := r.words.foldl tackEcc s
          match r.bad with
          | some f => walkFault e.head f s
          | none =>
            walkApply e r.links (walkTime r.links.length { s with sc := { s.sc with walks := s.sc.walks + 1 } }))

/-- The tack region as the image gives it (R190, R220). -/
def tackLoad (s : State) : State :=
  { s with sc := { s.sc with tack := memWriteList 0 [] 0x7E000 s.cfg.tack } }

/-- TACK_REFRESH_DONE (R220, R221, R458). -/
def execTackRefreshDone (imageReads crcOk : Bool) (s : State) : Result :=
  .next (
    if s.sc.refresh.isNone || s.sys.mode = .reset || clockSafe s then s
    else if imageReads && crcOk then
      let s := tackLoad s
      secEvalAll none (recovery 1 0 { s with sc := { s.sc with refresh := none, refreshed := some s.now } })
    else enterSafe 3 0x0001 { s with sc := { s.sc with refresh := none } })

/-- COUNT_COPY_MISMATCH (R209, Table SC-7): the registers read as given. Copies that differ are cause STORE; equal copies
outside 0 to 2000 are cause COUNT (Table SC-5). -/
def execCountCopyMismatch (i : Fin 32) (count compl : W16) (s : State) : Result :=
  .next (
    if !imageRuns s || clockSafe s || s.sc.sect[i.1].st = .disabled then s
    else
      let s := setSect i (fun x => { x with count := count, compl := compl }) s
      if compl = ~~~count then anomaly none s i
      else
        let s := { s with sc := { s.sc with cntErr := satInc s.sc.cntErr } }
        disturb i 7 none (raiseRec 0x1F5 (structWord 2 i.1) s))

/-! ### Section resets (R211 to R215) -/

/-- A bounding head is in FAULT. -/
def anyFault (i : Fin 32) (s : State) : Bool :=
  (boundingHeads i s).any fun h => s.hd.head[h.1].phase = .fault

/-- Every bounding head has been IDLE for 10 s (R214). -/
def idle10s (i : Fin 32) (s : State) : Bool :=
  (boundingHeads i s).all fun h =>
    s.hd.head[h.1].phase = .idle && (s.hd.head[h.1].idleSince.any fun t => decide (t + 10000000 ≤ s.now))

/-- Reason for which a preparatory reset is refused, 0 none (R212, Table SC-8). -/
def prepReason (i : Fin 32) (s : State) : Nat :=
  let st := s.sc.sect[i.1].st
  if !inService s then 1 else if st = .disabled then 7
  else if st ≠ .disturbed ∧ st ≠ .prepared then 2 else if anyFault i s then 5 else 0

/-- Reason for which a direct reset is refused, 0 none (R214, Table SC-8). -/
def directReason (i : Fin 32) (s : State) : Nat :=
  let st := s.sc.sect[i.1].st
  if !inService s then 1 else if st = .disabled then 7
  else if !bitOf s.cfg.section_[i.1] 1 then 3
  else if st ≠ .disturbed ∧ st ≠ .prepared then 2
  else if anyFault i s then 5 else if secPending i s then 6 else if !idle10s i s then 4 else 0

/-- STATUS carries the instance and its result (RACK, RSTEP). -/
def noteStep (o : ROrder) (step reason : Nat) (s : State) : State :=
  { s with tg := { s.tg with rack := o.rinst, rstep := BitVec.ofNat 8 (step + 8 * reason), rsect := some o.sect } }

/-- One reset order is applied (R211 to R215). -/
def applyOrder (s : State) (o : ROrder) : State :=
  let k2 := 0x100 + 4 * o.sect.1 + 2
  let reason := if o.direct then directReason o.sect s else prepReason o.sect s
  if reason ≠ 0 then
    let step := if o.direct then 6 else 2
    raiseRec k2 (stepWord step reason 0) (noteStep o step reason s)
  else
    let step := if o.direct then 5 else 1
    let s := raise k2 (stepWord step 0 0) (noteStep o step 0 s)
    let s := setSect o.sect (fun x => { putCount 0 x with
      outside := false, entries := if o.direct then x.entries else 0 }) s
    secSet o.sect (if o.direct then .clear else .prepared) 0 none s

/-- The orders waiting are applied in order of acceptance; outside service each is refused with reason MODE (R215, R217, Table
SC-6). -/
def applyOrders (s : State) : State :=
  let q := s.sc.orders
  secEvalAll none (q.foldl applyOrder { s with sc := { s.sc with orders := [] } })

/-- SECTION_RESET_APPLY (R211): at the next tick instant, before step 1 of that tick. -/
def execSectionResetApply (s : State) : Result :=
  .next (if s.sc.orders.isEmpty || s.sys.mode = .reset || clockSafe s then s else applyOrders (reachTick s))

end Sys2Proof.Machine
end

