-- ==== Sys2Proof/Machine/Berths.lean ====
section
/-! DEFINITION. The berths: standstill, DRP and the release gate (chapter 06).
The parameters are Table BR-1 (R226). Outside service DRP and release are false (R244); the collisions of Table BR-4 (R246) are settled
by the order of the terms in one tick, the failures of Table BR-5 (R248) by the operations below. -/

namespace Sys2Proof.Machine

open Sys2Proof

/-- BR_CFG.EN. -/
def berthOn (b : Fin 8) (s : State) : Bool := bitOf s.cfg.berth[b.1].cfg 15

/-- The platform section of a berth. -/
def berthSect (b : Fin 8) (s : State) : Fin 32 := ⟨fld s.cfg.berth[b.1].cfg 4 0 % 32, by omega⟩

/-- STILLT of a berth in µs (R231). -/
def stillTime (b : Fin 8) (s : State) : Nat := s.now - s.berth[b.1].still

/-- A stop-marker head passes: it stands and is not in FAULT. -/
def standsOn (h : Nat) (s : State) : Bool :=
  let x := s.hd.head[h % 32]'(by omega)
  x.standing && x.phase != .fault

/-- The six terms of R232: modeok, sectok, countok, stopok, quiet, stillok. -/
def drpTerms (b : Fin 8) (s : State) : List Bool :=
  let c := s.cfg.berth[b.1]
  let i := berthSect b s
  let x := s.sc.sect[i.1]
  [ berthOn b s && inService s,
    x.st = .occupied && !secPending i s,
    decide ((fld c.amin 10 0 : Int) ≤ x.count.toInt) && decide (x.count.toInt ≤ (fld c.amax 10 0 : Int)),
    (!bitOf c.stop 5 || standsOn (fld c.stop 4 0) s) && (!bitOf c.stop 13 || standsOn (fld c.stop 12 8) s),
    (boundingHeads i s).all fun h => !s.hd.head[h.1].busy || s.hd.head[h.1].standing,
    decide (100000 * fld c.tstill 8 0 ≤ stillTime b s) ]

/-- Code of the lowest failing term (R235, Table BR-3). -/
def lowTerm (l : List Bool) : Nat := (l.findIdx (fun x => !x)) + 1

/-- The permit bit latched (R238): 0 while the watchdog fault stands, in SAFE and while Cantle is held or halted. -/
def permitBit (b : Fin 8) (s : State) : Bool :=
  bitOf s.cs.permit b.1 && !s.cs.wdf && s.sys.mode != .safe && s.cs.state != .held && s.cs.state != .halted

/-- The debug withdrawal (R239, R649, R652). -/
def dbgWithdraw (b : Fin 8) (s : State) : Bool :=
  s.db.copyFault || bitOf s.db.wdraw b.1 || bitOf s.db.wdraw 8

/-- The berth enable latched (R237). -/
def berthEnable (b : Fin 8) (s : State) : Bool := s.tg.benFresh && bitOf s.tg.ben b.1

/-- BERTH record of a rise (R242). -/
def drpRise (s : State) (b : Fin 8) : State :=
  record 6 0xFFFF [BitVec.ofNat 8 b.1, 1, s.berth[b.1].lastw.setWidth 8, BitVec.ofNat 8 (b2n s.berth[b.1].release)] s

/-- Steps 1 to 3 of a tick for one berth (R231 to R239): no release while a stop sequence runs (R76). -/
def berthStep (s : State) (b : Fin 8) : State :=
  let terms := drpTerms b s
  let drp := terms.all id
  let old := s.berth[b.1].drp
  let en := berthEnable b s
  let pm := permitBit b s
  let wd := dbgWithdraw b s
  let rel := drp && en && pm && !wd && s.sys.stop.isNone
  let s := { s with berth := upd s.berth b fun x => { x with
    drp := drp, release := rel, terms := bitsOf 6 (fun i => terms.getD i false), enable := en, permit := pm, dbgw := wd,
    stillT := sat16 (stillTime b s / 10000) } }
  if old && !drp then drpFall (lowTerm terms) s b
  else if drp && !old then drpRise s b
  else s

/-- The berths' part of a tick; it does not run in RESET and PROVE (R244). -/
def berthsStep (s : State) : State :=
  if s.sys.mode = .reset || s.sys.mode = .prove then s else (List.finRange 8).foldl berthStep s

/-- The release of a door channel (R229, R240). -/
def chanRelease (c : Fin 16) (s : State) : Bool :=
  (List.finRange 8).any fun b => berthOn b s && bitOf s.cfg.berth[b.1].doors c.1 && s.berth[b.1].release

end Sys2Proof.Machine
end

