-- ==== Sys2Proof/Machine/Contacts.lean ====
section
/-! DEFINITION. The contact inputs, their pairs, the test-pulse sources and the faults they raise in the door channels
(chapter 07, R252 to R263). -/

namespace Sys2Proof.Machine

open Sys2Proof

/-! ### Access -/

/-- Changes a channel. -/
def setChan (c : Fin 16) (f : Chan → Chan) (s : State) : State :=
  { s with dc := { s.dc with chan := upd s.dc.chan c f } }

/-- Changes a contact. -/
def setContact (i : Fin 66) (f : Contact → Contact) (s : State) : State :=
  { s with dc := { s.dc with contact := upd s.dc.contact i f } }

/-- Changes the ESTOP pair. -/
def setEstop (f : Pair → Pair) (s : State) : State := { s with dc := { s.dc with estop := f s.dc.estop } }

/-- DC_CFG of a channel. -/
def chanCfg (c : Fin 16) (s : State) : W16 := s.cfg.chan[c.1].cfg

/-- DC_CFG.EN, OBEN and TACHEN. -/
def chanOn (c : Fin 16) (s : State) : Bool := bitOf (chanCfg c s) 0
def obUsed (c : Fin 16) (s : State) : Bool := bitOf (chanCfg c s) 9
def tachUsed (c : Fin 16) (s : State) : Bool := bitOf (chanCfg c s) 10

/-- DC_ESTOP.EN. -/
def estopOn (s : State) : Bool := bitOf s.cfg.estop 0

/-- Contact `k` (CLA, CLB, OBA, OBB) of a channel. -/
def contactOf (c : Fin 16) (k : Fin 4) : Fin 66 := ⟨4 * c.1 + k.1, by omega⟩

/-- The channel of a contact, none for the ESTOP inputs. -/
def contactChan (i : Fin 66) : Option (Fin 16) := if h : i.1 < 64 then some ⟨i.1 / 4, by omega⟩ else none

/-- A source number from two bits. -/
def srcIx (k : Nat) : Fin 4 := ⟨k % 4, by omega⟩

/-- The source that feeds a contact (R249, R260). -/
def sourceOf (i : Fin 66) (s : State) : Fin 4 :=
  match contactChan i with
  | some c => srcIx (fld (chanCfg c s) (2 * (i.1 % 4) + 2) (2 * (i.1 % 4) + 1))
  | none => if i.1 = 64 then srcIx (fld s.cfg.estop 2 1) else srcIx (fld s.cfg.estop 4 3)

/-- The contact is evaluated: its channel, obstacle pair or ESTOP is enabled (R251, R260). -/
def contactUsed (i : Fin 66) (s : State) : Bool :=
  match contactChan i with
  | some c => chanOn c s && (decide (i.1 % 4 < 2) || obUsed c s)
  | none => estopOn s

/-- Contact filter in samples of 10 µs: DC_TIME.FILT ms; 2 ms for ESTOP (R303). -/
def filtSamples (i : Fin 66) (s : State) : Nat :=
  match contactChan i with
  | some c => 100 * fld s.cfg.chan[c.1].time 4 0
  | none => 200

/-- The sources run: in CONFIGURE with an image and in service (R252). -/
def tpsRuns (s : State) : Bool := inService s || configImage s

/-- Time since the slot of a source in its period of 100 ms (R252). -/
def tpsPhase (n : Fin 4) (s : State) : Nat := (s.tstamp.toNat + 100000 - 25000 * n.1) % 100000

/-- The sources that may pulse. -/
def allSources : List (Fin 4) := List.finRange 4

/-- Length of a source's low pulse in µs (R252). -/
def pulseUs : Nat := 200

/-- The driven level of a source (R252): high but for its pulse while the sources run, and low while they do not. -/
def tpsLevel (n : Fin 4) (s : State) : Bool := tpsRuns s && decide (pulseUs ≤ tpsPhase n s)

/-- A blind window of a source stands (R253): its pulse and the 50 µs after it. -/
def blindSrc (n : Fin 4) (s : State) : Bool := tpsRuns s && decide (tpsPhase n s < pulseUs + 50)

/-! ### Faults of a channel (Table DC-8) -/

/-- Data word of k = 3 (Table DC-11). -/
def discWord (input kind tps : Nat) (cleared : Bool) : W16 := pack [(0, input), (4, kind), (8, tps), (15, b2n cleared)]

/-- Event k = 3 of a channel, with its record (Table DC-10). -/
def discEvent (c : Fin 16) (w : W16) (s : State) : State := raiseRec (0x180 + 5 * c.1 + 3) w s

/-- The status record of a channel in its 8 bytes (R289): flags, used cycles, used minutes. -/
def doorRecord (x : Chan) : BitVec 64 :=
  BitVec.ofNat 64 (b2n x.locked + 2 * b2n x.degraded + 4 * b2n x.lockSto + 256 * x.usedCyc.toNat + 65536 * x.usedMin.toNat)

/-- The status record is written (R289): the vault item changes. -/
def writeDoor (c : Fin 16) (s : State) : State :=
  { s with nv := { s.nv with vault := { s.nv.vault with doors := s.nv.vault.doors.set c.1 (doorRecord s.dc.chan[c.1]) } } }

/-- A lockout falls due (R288): `hard` for the STO outputs and the CL pair. A channel that is locked out already keeps the cause for
its unlock (R290). -/
def lockout (c : Fin 16) (hard sto source : Bool) (s : State) : State :=
  setChan c (fun x => { x with
    lockPend := x.lockPend || !x.locked, lockHard := x.lockHard || (hard && !x.locked), lockSto := x.lockSto || sto,
    lockSource := x.lockSource || source }) s

/-- A degraded fault of a channel stands. -/
def degStands (x : Chan) : Bool :=
  (x.ob.eval = .fault && !x.ob.bySource) || x.tachF || x.sto[0].deg || x.sto[1].deg || x.degResumed

/-- A channel becomes degraded (R286, R289); one that is locked out does not (R287). -/
def degSet (c : Fin 16) (s : State) : State :=
  if s.dc.chan[c.1].degraded || s.dc.chan[c.1].locked then s
  else
    setItem 4 c.1 (writeDoor c (setChan c (fun x => { x with degraded := true, nextMin := some (s.now + 60000000 - x.partUs) }) s))

/-- A channel is no longer degraded: its counts are kept (R286); bit 4 ends for it. -/
def degClear (c : Fin 16) (s : State) : State :=
  let x := s.dc.chan[c.1]
  if x.degraded then
    let part := match x.nextMin with
      | some n => 60000000 - (n - s.now)
      | none => 0
    let s := writeDoor c (setChan c (fun x => { x with degraded := false, nextMin := none, partUs := part }) s)
    clearUnit 4 c.1 s
  else s

/-- A degraded fault of kind `k` (0 OB pair, 1 tachometer, 2 STO): `before` tells whether another stood (Table DC-8). -/
def degFault (c : Fin 16) (k : Fin 3) (before : Bool) (s : State) : State :=
  let twice := s.dc.chan[c.1].degAt[k.1].any fun t => decide (s.now < t + 86400000000)
  let s := setChan c (fun x => { x with degAt := x.degAt.set k.1 (some s.now) }) s
  let s := degSet c s
  if before || twice then lockout c false (k = 2) false s else s

/-- A degraded fault has cleared; the channel stays degraded while another stands. -/
def degCheck (c : Fin 16) (s : State) : State := if degStands s.dc.chan[c.1] then s else degClear c s

/-! ### Pairs (Tables DC-2 and DC-3, R260) -/

/-- A check failure on a contact: KIND and TPS of its event, a source fault first. -/
def contactFault (i : Fin 66) (s : State) : Option (Nat × Nat) :=
  let x := s.dc.contact[i.1]
  let src := sourceOf i s
  if s.dc.tps[src.1].fault then some (4, src.1)
  else if x.darkFail then some (2, src.1)
  else if x.crossFail then some (3, (allSources.findIdx fun m => decide (2 ≤ x.crossN[m.1])) % 4)
  else none

/-- The first failure of two contacts. -/
def pairFault (i j : Fin 66) (s : State) : Option (Nat × Nat) := (contactFault i s).or (contactFault j s)

/-- The CL pair enters FAULT: a lockout fault (R285). -/
def clFault (c : Fin 16) (f : Nat × Nat) (s : State) : State :=
  let s := setChan c (fun x => { x with
    leftLock := x.leftLock || x.cl.eval = .good,
    cl := { x.cl with eval := .fault, kind := BitVec.ofNat 4 f.1, tps := BitVec.ofNat 2 f.2 } }) s
  discEvent c (discWord 0 f.1 f.2 false) (lockout c true false (f.1 = 4) s)

/-- The evaluation of a pair that agrees or differs, without a failure; `eq` for equal values, `good` for the good one. -/
def pairNext (p : Pair) (agree good : Bool) (t : Nat) : Pair :=
  if agree then { p with eval := if good then .good else .bad, since := none }
  else { p with eval := .transit, since := some (p.since.getD t) }

/-- Table DC-2 for a channel; a FAULT ends only by an unlock (R259). -/
def evalCl (c : Fin 16) (s : State) : State :=
  let a := s.dc.contact[(contactOf c 0).1].filt
  let b := s.dc.contact[(contactOf c 1).1].filt
  let p := s.dc.chan[c.1].cl
  if p.eval = .fault then setChan c (fun x => { x with cl := { p with since := if a = b then none else some (p.since.getD s.now) } }) s
  else match pairFault (contactOf c 0) (contactOf c 1) s with
    | some f => clFault c f s
    | none =>
      let s := setChan c (fun x => { x with cl := pairNext p (a = b) a s.now }) s
      if p.eval = .good && s.dc.chan[c.1].cl.eval != .good then setChan c (fun x => { x with leftLock := true }) s else s

/-- The dark checks of an OB pair are counted anew (R259). -/
def darkRestart (c : Fin 16) (s : State) : State :=
  setContact (contactOf c 2) (fun y => { y with darkN := 0 }) (setContact (contactOf c 3) (fun y => { y with darkN := 0 }) s)

/-- The OB pair enters FAULT: a lockout fault from a source, else a degraded fault. The second of R259 and its dark checks run from
here on (DEDUCED, log entry 109). -/
def obFault (c : Fin 16) (f : Nat × Nat) (s : State) : State :=
  let before := degStands s.dc.chan[c.1]
  let s := darkRestart c (setChan c (fun x => { x with ob := { x.ob with
    eval := .fault, bySource := decide (f.1 = 4), kind := BitVec.ofNat 4 f.1, tps := BitVec.ofNat 2 f.2,
    antiSince := x.ob.antiSince.map fun _ => s.now } }) s)
  let s := discEvent c (discWord 1 f.1 f.2 false) s
  if f.1 = 4 then lockout c false false true s else degFault c 0 before s

/-- Table DC-3 for a channel. -/
def evalOb (c : Fin 16) (s : State) : State :=
  let a := s.dc.contact[(contactOf c 2).1].filt
  let b := s.dc.contact[(contactOf c 3).1].filt
  let p := s.dc.chan[c.1].ob
  if !obUsed c s then setChan c (fun x => { x with ob := { eval := .good } }) s
  else
    let anti : Option Nat := if a = b then none else some (p.antiSince.getD s.now)
    let s := setChan c (fun x => { x with ob := { x.ob with antiSince := anti } }) s
    let s := if p.antiSince.isNone && anti.isSome then darkRestart c s else s
    match pairFault (contactOf c 2) (contactOf c 3) s with
    | some f => if p.eval = .fault && (p.bySource || f.1 != 4) then s else obFault c f s
    | none =>
      if p.eval = .fault then s
      else setChan c (fun x => { x with ob := pairNext x.ob (a != b) (a && !b) s.now }) s

/-- The ESTOP pair enters FAULT (Table DC-10: k = 3 on DC0). -/
def estopFault (f : Nat × Nat) (s : State) : State :=
  discEvent 0 (discWord 3 f.1 f.2 false)
    (setEstop (fun p => { p with eval := .fault, opened := false, kind := BitVec.ofNat 4 f.1, tps := BitVec.ofNat 2 f.2 }) s)

/-- The ESTOP pair (R260). -/
def evalEstop (s : State) : State :=
  let a := s.dc.contact[64].filt
  let b := s.dc.contact[65].filt
  let p := s.dc.estop
  if !estopOn s then s
  else match pairFault 64 65 s with
    | some f => if p.eval = .fault then s else estopFault f s
    | none =>
      if p.eval = .fault then
        if !a && !b then setEstop (fun q => { q with opened := true }) s
        else if a && b && p.opened then
          discEvent 0 (discWord 3 p.kind.toNat p.tps.toNat true) (setEstop (fun _ => { eval := .good }) s)
        else s
      else setEstop (fun q => pairNext q (a = b) a s.now) s

/-- ESTOP is active (R260). -/
def estopActive (s : State) : Bool :=
  estopOn s && (!s.dc.contact[64].filt || !s.dc.contact[65].filt || s.dc.estop.eval = .fault)

/-- The pair of a contact is evaluated again. -/
def evalContact (i : Fin 66) (s : State) : State :=
  match contactChan i with
  | some c => if i.1 % 4 < 2 then evalCl c s else evalOb c s
  | none => evalEstop s

/-! ### Sampling (R253, R255, R257) -/

/-- What one sample does to a contact: `blind` for its own window, `out` outside every other source's window. -/
def sampleContact (x : Contact) (v blind out : Bool) : Contact :=
  let run := if blind then x.run else if v != x.filt then x.run + 1 else 0
  let y := { x with raw := v, run := run }
  if blind || !out then y
  else match x.crossCand with
    | none => { y with pre := v }
    | some m => { y with pre := v, crossCand := none, crossN := upd x.crossN m fun k => if v then k + 1 else 0 }

/-- A cross-circuit to a source has been seen in 2 consecutive periods (R255). -/
def crossSeen (x : Contact) : Bool := allSources.any fun m => decide (2 ≤ x.crossN[m.1])

/-- One contact at a sample instant; a cross-circuit seen in 2 periods fails (R255). -/
def contactStep (levels : BitVec 66) (s : State) (i : Fin 66) : State :=
  if !contactUsed i s then s
  else
    let own := sourceOf i s
    let out := allSources.all fun m => m = own || !blindSrc m s
    let s := setContact i (fun x => sampleContact x (bitOf levels i.1) (blindSrc own s) out) s
    let x := s.dc.contact[i.1]
    if crossSeen x && !x.crossFail then
      evalContact i (setContact i (fun y => { y with crossFail := true })
        { s with dc := { s.dc with xcnt := satInc s.dc.xcnt } })
    else s

/-- Contacts are sampled: on an image, but for SAFE cause CLOCK. -/
def contactsRun (s : State) : Bool := imageRuns s && !clockSafe s

/-- CONTACT_SAMPLE (R253); one at a tick instant counts for the next tick (R311). -/
def execContactSample (levels : BitVec 66) (s : State) : Result :=
  .next (
    let s := reach 10 s.grid.contact s
    let s := noteLatch { s with grid := { s.grid with contact := some s.now } }
    if contactsRun s then (List.finRange 66).foldl (contactStep levels) s else s)

/-- CONTACT_FILTER_EXPIRY (R257). -/
def execContactFilterExpiry (i : Fin 66) (s : State) : Result :=
  .next (
    let x := s.dc.contact[i.1]
    if contactsRun s && contactUsed i s && decide (filtSamples i s ≤ x.run) && decide (0 < x.run) then
      evalContact i (setContact i (fun y => { y with filt := !y.filt, run := 0 }) s)
    else s)

/-- A pair has differed for more than its discrepancy time, in 10 ms units. -/
def pairLate (p : Pair) (units : Nat) (t : Nat) : Bool :=
  p.eval = .transit && (p.since.any fun f => decide (f + 10000 * units < t))

/-- KIND and TPS of a discrepancy time: the source of the pair's first input (Table DC-11). -/
def lateFault (i : Fin 66) (s : State) : Nat × Nat := (1, (sourceOf i s).1)

/-- PAIR_DISCREPANCY_TIMEOUT (R258, R260): pair 2c is CL, 2c + 1 is OB of channel c, and 32 is ESTOP. -/
def execPairDiscrepancyTimeout (i : Fin 33) (s : State) : Result :=
  .next (
    if !contactsRun s then s
    else if h : i.1 < 32 then
      let c : Fin 16 := ⟨i.1 / 2, by omega⟩
      let d := s.cfg.chan[c.1].disc
      if !chanOn c s then s
      else if i.1 % 2 = 0 then
        if pairLate s.dc.chan[c.1].cl (fld d 7 0) s.now then clFault c (lateFault (contactOf c 0) s) s else s
      else if pairLate s.dc.chan[c.1].ob (fld d 15 8) s.now then obFault c (lateFault (contactOf c 2) s) s else s
    else if estopOn s && pairLate s.dc.estop (fld s.cfg.estop 10 5) s.now then estopFault (lateFault 64 s) s else s)

/-- OB_PAIR_RECOVERY (R259). -/
def execObPairRecovery (c : Fin 16) (s : State) : Result :=
  .next (
    let p := s.dc.chan[c.1].ob
    if contactsRun s && p.eval = .fault && !p.bySource && (pairFault (contactOf c 2) (contactOf c 3) s).isNone &&
        (p.antiSince.any fun t => decide (t + 1000000 ≤ s.now)) &&
        decide (10 ≤ s.dc.contact[(contactOf c 2).1].darkN) && decide (10 ≤ s.dc.contact[(contactOf c 3).1].darkN) then
      let s := setChan c (fun x => { x with ob := { x.ob with eval := .good, since := none } }) s
      degCheck c (evalOb c (discEvent c (discWord 1 p.kind.toNat p.tps.toNat true) s))
    else s)

/-! ### Test-pulse sources (R252, R254, R256) -/

/-- Time up to a moment of a source's period: `d` after its slot. -/
def toPhase (n : Fin 4) (d : Nat) (s : State) : State :=
  advance ((100000 + d - tpsPhase n s) % 100000) s

/-- TPS_PULSE (R252): at the source's next slot it drops low; a source whose readback is stuck drops too. -/
def execTpsPulse (n : Fin 4) (s : State) : Result :=
  .next (
    if !tpsRuns s then s
    else
      let s := if s.dc.tps[n.1].pulseAt = some s.now then advance 100000 s else toPhase n 0 s
      { s with dc := { s.dc with tps := upd s.dc.tps n fun x => { x with pulseAt := some s.now } } })

/-- A period without the cross-circuit to a source breaks its run (R255). -/
def crossBreak (n : Fin 4) (y : Contact) : Contact :=
  let z := { y with crossN := upd y.crossN n fun _ => 0 }
  { z with crossFail := y.crossFail && crossSeen z }

/-- A pair in FAULT by a source. -/
def srcPair (n : Fin 4) (p : Pair) : Pair :=
  { p with eval := .fault, bySource := true, kind := 4, tps := BitVec.ofNat 2 n.1 }

/-- The dark check of one contact at 150 µs into a pulse (R254), or the first half of the cross-circuit check (R255). -/
def darkStep (n : Fin 4) (levels : BitVec 66) (s : State) (i : Fin 66) : State :=
  if !contactUsed i s then s
  else
    let v := bitOf levels i.1
    let x := s.dc.contact[i.1]
    if sourceOf i s = n then
      if v then
        let s := setContact i (fun y => { y with raw := v, darkFail := true, darkN := 0 }) s
        if x.darkFail then s else evalContact i { s with dc := { s.dc with xcnt := satInc s.dc.xcnt } }
      else evalContact i (setContact i (fun y => { y with raw := v, darkFail := false, dark := true, darkN := y.darkN + 1 }) s)
    else if !v && x.pre then setContact i (fun y => { y with raw := v, crossCand := some n }) s
    else setContact i (fun y => crossBreak n { y with raw := v }) s

/-- DARK_CHECK (R254): 150 µs into the pulse of a source. -/
def execDarkCheck (n : Fin 4) (levels : BitVec 66) (s : State) : Result :=
  .next (
    if !tpsRuns s || !contactsRun s then s
    else (List.finRange 66).foldl (darkStep n levels) (toPhase n 150 s))

/-- A source fault in one channel (Table DC-8, Table DC-10). -/
def sourceChan (n : Fin 4) (s : State) (c : Fin 16) : State :=
  let fed := fun k => decide (sourceOf (contactOf c k) s = n)
  if !chanOn c s then s
  else
    let cl := fed 0 || fed 1
    let ob := obUsed c s && (fed 2 || fed 3)
    if cl || ob then
      let s := discEvent c (discWord 4 4 n.1 false) s
      let s := if cl then lockout c true false true (setChan c (fun x => { x with cl := srcPair n x.cl }) s) else s
      if ob then lockout c false false true (setChan c (fun x => { x with ob := srcPair n x.ob }) s) else s
    else s

/-- The consequences of a latched source fault (R256, R796). -/
def sourceFaultApply (n : Fin 4) (s : State) : State :=
  evalEstop ((List.finRange 16).foldl (sourceChan n) s)

/-- A source fault is latched until reset (R256). -/
def sourceLatch (n : Fin 4) (s : State) : State :=
  { s with dc := { s.dc with tps := upd s.dc.tps n fun x => { x with fault := true } } }

/-- SOURCE_FAULT (R256): the readback has differed from the driven level, low while the sources do not run, for more than 50 µs. One
found before the image is taken over is applied at load step 5 (R796). -/
def execSourceFault (n : Fin 4) (s : State) : Result :=
  .next (
    if s.sys.mode = .reset || clockSafe s || s.dc.tps[n.1].fault then s
    else if imageTaken s then sourceFaultApply n (sourceLatch n s)
    else sourceLatch n s)

/-! ### Tachometer (R261 to R263) -/

/-- The tachometer of a channel is evaluated. -/
def tachRuns (c : Fin 16) (s : State) : Bool := contactsRun s && chanOn c s && tachUsed c s

/-- The tachometer timeout in µs. -/
def tachTimeout (c : Fin 16) (s : State) : Nat := 10000 * fld s.cfg.chan[c.1].time 15 8

/-- An edge in a channel: `lim` is the tachometer timeout. A run at more than 25 kHz begins with the first edge of its first short
period. -/
def tachEdge (lim t : Nat) (x : Chan) : Chan :=
  let q := t - x.edge.getD 0
  { x with
    edge := some t, period := if x.edge.isSome then q else 0, edges := x.edges + 1,
    edgesIn := x.edgesIn || (decide (x.edges = 0) && x.grantAt.any fun g => decide (t ≤ g + lim)),
    fastSince := if x.edge.isSome ∧ q < 40 then some (x.fastSince.getD (x.edge.getD t)) else none }

/-- TACH_EDGE (R261): an edge counts after a high and a low time of 10 µs each. -/
def execTachEdge (c : Fin 16) (highNs lowNs : Nat) (s : State) : Result :=
  .next (
    if tachRuns c s && decide (10000 ≤ highNs) && decide (10000 ≤ lowNs) then setChan c (tachEdge (tachTimeout c s) s.now) s
    else s)

/-- A tachometer fault (R262): its event, then a degraded fault unless one of the tachometer stands. -/
def tachFault (c : Fin 16) (kind : Nat) (s : State) : State :=
  let s := setChan c (fun x => { x with cycleOk := false }) s
  if s.dc.chan[c.1].tachF then s
  else
    let before := degStands s.dc.chan[c.1]
    degFault c 1 before (discEvent c (discWord 2 kind 0 false)
      (setChan c (fun x => { x with tachF := true, tachKind := BitVec.ofNat 4 kind }) s))

/-- Edges have come at more than 25 kHz for 1 ms, up to the last edge (R262). -/
def tachFast (x : Chan) : Bool := x.fastSince.any fun t => x.edge.any fun e => decide (t + 1000 ≤ e)

/-- TACH_TIMEOUT (R262). -/
def execTachTimeout (c : Fin 16) (s : State) : Result :=
  .next (
    let x := s.dc.chan[c.1]
    if !tachRuns c s then s
    else if tachFast x then
      tachFault c 5 (setChan c (fun y => { y with fastSince := none }) s)
    else if torqueOn x.state && x.leftLock && decide (x.edges = 0) &&
        (x.grantAt.any fun t => decide (t + tachTimeout c s ≤ s.now)) then tachFault c 6 s
    else s)

end Sys2Proof.Machine
end

