-- ==== Sys2Proof/Machine/Doors.lean ====
section
/-! DEFINITION. The door channels: state machine, safe stop, STO outputs, degraded mode, unlock and PSI (chapter 07).
A grant is the channel's own decision (R26, R27); ISOLATED is entered as R293 says; the collisions of Table DC-9 (R299) are settled by
the order of the evaluation, the failures of Table DC-10 (R300) by the operations below. -/

namespace Sys2Proof.Machine

open Sys2Proof

/-! ### Latched inputs -/

/-- Speed of a door in mm/s (R261). -/
def doorSpeed (c : Fin 16) (s : State) : Nat :=
  let x := s.dc.chan[c.1]
  if x.edges < 2 then 0
  else
    let d := max x.period (s.now - x.edge.getD s.now)
    if d = 0 then 0 else 1000 * fld s.cfg.chan[c.1].tscale 12 0 / d

/-- A request from its two bits (R264). -/
def reqOf (k : BitVec 2) : Req := if k = 0 then .hold else if k = 1 then .open_ else if k = 2 then .close else .stop

/-- Step 1 of a tick for a channel (R261, R264 to R266, R270): request, isolation, speed and release are latched. -/
def chanLatch (s : State) (c : Fin 16) : State :=
  let h := s.tg.held[c.1]
  let v := doorSpeed c s
  let rel := chanRelease c s
  let es := estopActive s
  setChan c (fun x =>
    let fresh := h.valid && h.fresh
    let req := if fresh then reqOf h.req else .stop
    { x with
      req := req, fresh := fresh, iso := if !h.valid then false else if fresh then h.iso else x.iso,
      speed := v, release := rel, armed := x.armed || (req = .hold && !es) }) s

/-- The obstacle pair counts as an obstacle (Table DC-3). -/
def obstacle (x : Chan) : Bool := x.ob.eval = .bad || x.ob.eval = .transit

/-- CLOSING is granted and goes on (R269): in degraded mode with an OB-pair fault only while the speed is at most VCREEP. -/
def creepOk (x : Chan) (cfg : ChanCfg) : Bool := !(x.degraded && x.ob.eval = .fault) || decide (x.speed ≤ fld cfg.vcreep 8 0)

/-- The stop condition of lowest code that holds for a moving channel, 0 none (Table DC-6, R269, R272). -/
def stopCause (c : Fin 16) (s : State) : Nat :=
  let x := s.dc.chan[c.1]
  let cfg := s.cfg.chan[c.1]
  if x.state = .opening && !x.release then 1
  else if obstacle x then 2
  else if x.req = .stop && x.fresh then 3
  else if estopActive s then 4
  else if decide (fld cfg.vmax 10 0 < x.speed) || (x.state = .closing && !creepOk x cfg) then 5
  else if !x.fresh then 6
  else if s.sys.stop.isSome then 7
  else if x.lockPend then 8
  else 0

/-! ### The ends of a stop (R275 to R278, Table DC-7) -/

/-- The CAN pair carries nothing: both controllers bus-off, or the pair lost. -/
def canGone (s : State) : Bool :=
  (s.ports.can[0].state = .busOff && s.ports.can[1].state = .busOff) || s.tg.pair[1].mode = .lost

/-- The speed is above the envelope of R275, compared exactly. -/
def violates (x : Chan) (cfg : ChanCfg) (tau : Nat) : Bool :=
  let tr := fld cfg.ramp 10 0
  let td := fld cfg.rdly 6 0
  let tol := fld cfg.vtol 7 0
  let v := x.speed
  if tau ≤ 1000 * td then decide (x.stopV + tol < v)
  else decide ((x.stopV : Int) * (1000 * tr - tau) < ((v : Int) - tol) * (1000 * (tr - td)))

/-- The stop uses the IMMEDIATE end (R276, R288). -/
def immediate (x : Chan) (cfg : ChanCfg) : Bool :=
  decide (fld cfg.ramp 10 0 = 0) || (x.degraded && x.tachF) || x.lockHard

/-- The end of STOPPING that applies at this tick, 0 none: VIOLATION outranks the others (Table DC-9). -/
def stopEnd (c : Fin 16) (s : State) : Nat :=
  let x := s.dc.chan[c.1]
  let cfg := s.cfg.chan[c.1]
  let tau := s.now - x.stopAt
  if violates x cfg tau then 0x12
  else if immediate x cfg then 0x14
  else if 3 ≤ x.stillN then 0x10
  else if 1000 * fld cfg.ramp 10 0 ≤ tau then 0x11
  else if !x.cmdSent && canGone s then 0x13
  else 0

/-- The rest state of a channel: CLOSED while its CL pair is LOCKED, else STOPPED. -/
def restState (x : Chan) : ChanState := if x.cl.eval = .good then .closed else .stopped

/-! ### Lockout, cycles and escalation (R271, R286 to R288) -/

/-- The channel enters LOCKED: the record says so, the degraded state ends and bit 5 stands (R287, R289, Table DC-10). -/
def enterLocked (c : Fin 16) (cause : Nat) (s : State) : State :=
  let old := chanCode s.dc.chan[c.1].state
  let s := eventRecord (0x180 + 5 * c.1) (pack [(0, 6), (4, old), (8, cause)]) (chanSet c .locked cause s)
  let s := setChan c (fun x => { x with locked := true, lockPend := false, lockHard := false }) (degClear c s)
  setItem 5 c.1 (writeDoor c s)

/-- The used cycles or minutes have reached their limit: the escalation of Table SY-9 (R287). -/
def degEscalate (c : Fin 16) (s : State) : State :=
  let x := s.dc.chan[c.1]
  let cfg := s.cfg.chan[c.1]
  if x.degraded && !x.lockPend &&
      (decide (fld cfg.degcyc 7 0 ≤ x.usedCyc.toNat) || decide (fld cfg.degtime 10 0 ≤ x.usedMin.toNat)) then
    let s := raise 0x1FE (pack [(0, 4), (4, 1), (8, c.1)]) s
    let s := record 8 0x1FE [4, 0x11, BitVec.ofNat 8 c.1] s
    setChan c (fun y => { y with lockPend := true }) s
  else s

/-- A tachometer fault clears after a door cycle in which every grant gave edges (R263), and a resumed degraded state with
it. -/
def cycleClears (c : Fin 16) (s : State) : State :=
  let x := s.dc.chan[c.1]
  let s := if x.tachF && x.cycleOk then
      discEvent c (discWord 2 x.tachKind.toNat 0 true) (setChan c (fun y => { y with tachF := false }) s) else s
  degCheck c (setChan c (fun y => { y with cycleOk := true, degResumed := false }) s)

/-- A door cycle (R271); while the channel is degraded it is a degraded door cycle as well (R286). -/
def doorCycle (c : Fin 16) (s : State) : State :=
  let s := setChan c (fun y => { y with cycles := y.cycles + 1 }) s
  let s := if s.dc.chan[c.1].degraded then
      degEscalate c (writeDoor c (setChan c (fun y => { y with usedCyc := satInc y.usedCyc }) s))
    else s
  cycleClears c s

/-- DEGRADED_MINUTE (R286, R287, R289). -/
def execDegradedMinute (c : Fin 16) (s : State) : Result :=
  .next (
    let x := s.dc.chan[c.1]
    if x.degraded && (x.nextMin.any fun t => decide (t ≤ s.now)) && s.sys.mode != .reset && !clockSafe s then
      let m := x.usedMin.toNat + 1
      degEscalate c (writeDoor c (setChan c (fun y => { y with
        usedMin := BitVec.ofNat 11 (min 2047 m), nextMin := y.nextMin.map (· + 60000000) }) s))
    else s)

/-! ### The state machine (Table DC-5) -/

/-- A grant of torque ends: one that gave no edge within the tachometer timeout spoils the cycle (R263). -/
def torqueEnd (x : Chan) : Chan := { x with cycleOk := x.cycleOk && x.edgesIn, grantAt := none }

/-- Torque is granted (R262): edges are counted anew. -/
def grant (c : Fin 16) (st : ChanState) (cause : Nat) (s : State) : State :=
  chanSet c st cause (setChan c (fun x => { x with
    grantAt := some s.now, edges := 0, edge := none, period := 0, leftLock := false, edgesIn := false, fastSince := none }) s)

/-- The channel leaves STOPPING by an end of Table DC-7. -/
def stopDone (c : Fin 16) (e : Nat) (s : State) : State :=
  let x := s.dc.chan[c.1]
  let k0 := 0x180 + 5 * c.1
  let s := setChan c torqueEnd s
  let s := if e = 0x12 then
      let w := pack [(0, min 2047 x.speed), (11, min 31 ((s.now - x.stopAt) / 10000))]
      raiseRec (k0 + 2) w { s with dc := { s.dc with viol := satInc s.dc.viol } }
    else s
  if x.lockPend then enterLocked c e s
  else
    let st := restState x
    let s := chanSet c st e s
    if e = 0x13 then eventRecord k0 (pack [(0, chanCode st), (4, 4), (8, e)]) s else s

/-- A stopping channel is checked against the ends of Table DC-7 at this tick. -/
def stopTick (c : Fin 16) (s : State) : State :=
  let cfg := s.cfg.chan[c.1]
  let s := setChan c (fun x => { x with
    stillN := if x.speed ≤ fld cfg.vtol 14 8 then x.stillN + 1 else 0 }) s
  match stopEnd c s with
  | 0 => s
  | e => stopDone c e s

/-- Entry to STOPPING (R270, R273, R274): a safe-stop demand clears ARMED, raises k = 1 and asks for a class-0 DOOR_CMD. -/
def enterStopping (c : Fin 16) (cause : Nat) (s : State) : State :=
  let demand := cause != 9
  let s := setChan c (fun x => { x with
    stopAt := s.now, stopV := x.speed, stopCause := BitVec.ofNat 4 (if demand then cause else 0), stillN := 0,
    cmdSent := !demand, cmdQueued := demand,
    armed := x.armed && !demand }) s
  let s := chanSet c .stopping cause s
  let x := s.dc.chan[c.1]
  let imm := immediate x s.cfg.chan[c.1] && !violates x s.cfg.chan[c.1] 0
  let s := if demand then
      let w := pack [(0, cause), (4, b2n imm), (5, min 2047 x.stopV)]
      raise (0x180 + 5 * c.1 + 1) w { s with dc := { s.dc with lastStop := w, lastStopCh := BitVec.ofNat 4 c.1 } }
    else s
  stopTick c s

/-- A grant from rest is possible (Table DC-5, R270). -/
def mayGrant (c : Fin 16) (s : State) : Bool :=
  let x := s.dc.chan[c.1]
  x.armed && x.fresh && !obstacle x && !estopActive s && !x.lockPend

/-- The rows of Table DC-5 for CLOSED and STOPPED. -/
def restRows (c : Fin 16) (s : State) : State :=
  let x := s.dc.chan[c.1]
  if x.lockPend then enterLocked c 0x17 s
  else if x.iso then chanSet c .isolated 0x15 s
  else if mayGrant c s && x.req = .open_ && x.release then grant c .opening 0x0A s
  else if mayGrant c s && x.req = .close && x.cl.eval != .good && creepOk x s.cfg.chan[c.1] then grant c .closing 0x0B s
  else if x.state = .closed && x.cl.eval != .good then chanSet c .stopped 0x0D s
  else if x.state = .stopped && x.cl.eval = .good then chanSet c .closed 0x0C s
  else s

/-- The rows of Table DC-5 for OPENING and CLOSING. -/
def moveRows (c : Fin 16) (s : State) : State :=
  let x := s.dc.chan[c.1]
  if x.state = .closing && x.cl.eval = .good then
    doorCycle c (chanSet c .closed 0x0C (setChan c torqueEnd s))
  else match stopCause c s with
    | 0 =>
      if x.req = .hold then enterStopping c 9 s
      else if x.state = .opening && x.req = .close && !obstacle x && creepOk x s.cfg.chan[c.1] then
        grant c .closing 0x0B (setChan c torqueEnd s)
      else if x.state = .closing && x.req = .open_ && x.release && !obstacle x then grant c .opening 0x0A (setChan c torqueEnd s)
      else s
    | k => enterStopping c k s

/-- The channel leaves INACTIVE (Table DC-5, R294). -/
def leaveInactive (c : Fin 16) (s : State) : State :=
  let x := s.dc.chan[c.1]
  let s := setContact (contactOf c 0) (fun y => { y with dark := false }) (setContact (contactOf c 1) (fun y => { y with dark := false }) s)
  if x.locked then enterLocked c 0x19 s else chanSet c (restState x) 0x19 s

/-! ### STO outputs (R268, R279 to R284) -/

/-- Changes an output. -/
def setSto (c : Fin 16) (o : Fin 2) (f : Sto → Sto) (s : State) : State :=
  setChan c (fun x => { x with sto := upd x.sto o f }) s

/-- Data word of k = 4 (Table DC-11). -/
def rbWord (o : Fin 2) (cmd : Bool) (check : Nat) (cleared : Bool) : W16 :=
  pack [(0, o.1), (1, b2n cmd), (2, check), (15, b2n cleared)]

/-- Event k = 4 with its record. -/
def rbEvent (c : Fin 16) (w : W16) (s : State) : State := raiseRec (0x180 + 5 * c.1 + 4) w s

/-- An output is stuck on or fails its dark pulse (Table DC-8): a degraded fault, or SAFE when both outputs fail. -/
def stoDeg (c : Fin 16) (o : Fin 2) (stuck : Bool) (s : State) : State :=
  let x := s.dc.chan[c.1]
  if x.sto[o.1].deg then setSto c o (fun y => { y with stuckOn := y.stuckOn || stuck }) s
  else
    let before := degStands x
    let s := setSto c o (fun y => { y with deg := true, stuckOn := stuck }) s
    if s.dc.chan[c.1].sto[0].deg && s.dc.chan[c.1].sto[1].deg then enterSafe 2 0x0007 s else degFault c 2 before s

/-- A readback mismatch of an output at 3 consecutive ticks (R280, R284). -/
def stoMismatch (c : Fin 16) (o : Fin 2) (cmd : Bool) (s : State) : State :=
  let s := rbEvent c (rbWord o cmd 0 false) { s with dc := { s.dc with rbErr := satInc s.dc.rbErr } }
  if cmd then lockout c true true false (setSto c o (fun y => { y with stuckOff := true }) s) else stoDeg c o true s

/-- A dark-pulse window stands: the 300 µs of the pulse and the 200 µs to regain on (R281, R282). -/
def darkWindow (x : Sto) (t : Nat) : Bool := x.darkAt.any fun d => decide (t < d + 500)

/-- One output at step 1 of a tick (R280). -/
def stoLatch (rb : Bool) (c : Fin 16) (o : Fin 2) (s : State) : State :=
  let y := s.dc.chan[c.1].sto[o.1]
  let diff := rb != y.on2
  let bad := if darkWindow y s.now then y.bad else if diff then y.bad + 1 else 0
  let s := setSto c o (fun y => { y with rb := rb, bad := bad }) s
  if bad = 3 && y.bad != 3 then stoMismatch c o y.on2 s else s

/-- The readbacks of a channel at step 1. -/
def stoLatchChan (i : TickInputs) (s : State) (c : Fin 16) : State :=
  if chanOn c s then stoLatch (bitOf i.srbb c.1) c 1 (stoLatch (bitOf i.srba c.1) c 0 s) else s

/-- Step 5 for a channel (R268): both outputs follow the state. -/
def stoDrive (x : Chan) : Chan :=
  let on := torqueOn x.state
  { x with sto := mapv (fun _ y => { y with on2 := y.on1, on1 := on, on := on }) x.sto }

/-- The slot of an output's dark pulse is now (R281), and the tick of that instant has been done, which may have commanded the output
off (Table DC-9). -/
def darkSlot (c : Fin 16) (o : Fin 2) (s : State) : Bool :=
  decide (s.tstamp.toNat % 10000000 = (2 * c.1 + o.1) * 312500) && s.grid.tick = some s.now

/-- STO_DARK_PULSE (R281, R282): at the output's slot, skipped while it is off; `offUs` and `onUs` are when the readback
shows off and on again. -/
def execStoDarkPulse (c : Fin 16) (outB : Bool) (offUs onUs : Nat) (s : State) : Result :=
  .next (
    let o : Fin 2 := if outB then 1 else 0
    if !inService s || !chanOn c s || !darkSlot c o s then s
    else
      let y := s.dc.chan[c.1].sto[o.1]
      if !y.on || y.darkAt = some s.now then s
      else
        let s := setSto c o (fun y => { y with darkAt := some s.now, rb := decide (onUs ≤ 200) }) s
        if 250 < offUs then
          if y.deg then s else stoDeg c o false (rbEvent c (rbWord o false 1 false) s)
        else if y.deg then
          degCheck c (rbEvent c (rbWord o false 1 true) (setSto c o (fun y => { y with deg := false, stuckOn := false }) s))
        else s)

/-! ### Unlock (R290 to R292) -/

/-- The CL pair of a channel has a fault of Table DC-8: a failure of one of its contacts, or values that have differed for more than
DCL. -/
def clPresent (c : Fin 16) (s : State) : Bool :=
  (pairFault (contactOf c 0) (contactOf c 1) s).isSome ||
    s.dc.chan[c.1].cl.since.any fun t => decide (t + 10000 * fld s.cfg.chan[c.1].disc 7 0 < s.now)

/-- A fault of Table DC-8 stands for a channel. -/
def faultPresent (c : Fin 16) (s : State) : Bool :=
  let x := s.dc.chan[c.1]
  clPresent c s || (obUsed c s && (x.ob.eval = .fault || (pairFault (contactOf c 2) (contactOf c 3) s).isSome)) ||
    x.tachF || x.sto[0].deg || x.sto[1].deg

/-- Conditions of R290 but for the stage test. -/
def unlockOk (c : Fin 16) (s : State) : Bool :=
  s.dc.chan[c.1].state = .locked && inService s && !faultPresent c s

/-- An unlock is refused (R292). -/
def unlockRefuse (c : Fin 16) (usb : Bool) (s : State) : State :=
  unlockRecord c usb false { s with dc := { s.dc with unlockRej := true } }

/-- Clearing of a stuck-off output, with its event (Table DC-11). -/
def stuckOffEnds (c : Fin 16) (s : State) (o : Fin 2) : State :=
  if s.dc.chan[c.1].sto[o.1].stuckOff then
    rbEvent c (rbWord o true 0 true) (setSto c o (fun y => { y with stuckOff := false }) s)
  else s

/-- A CL pair in FAULT is evaluated anew (R259), with its event (Table DC-11). -/
def clFaultEnds (c : Fin 16) (s : State) : State :=
  let p := s.dc.chan[c.1].cl
  if p.eval = .fault then
    evalCl c (discEvent c (discWord 0 p.kind.toNat p.tps.toNat true) (setChan c (fun x => { x with cl := { x.cl with eval := .bad } }) s))
  else s

/-- An accepted unlock (R291): the lockout's faults, the counts and the record are cleared, and the channel leaves LOCKED (R267);
bit 5 ends for it. -/
def unlockAccept (c : Fin 16) (usb : Bool) (s : State) : State :=
  let s := clFaultEnds c ((List.finRange 2).foldl (stuckOffEnds c) (degClear c s))
  let s := setChan c (fun x => { x with
    unlocking := none, locked := false, lockPend := false, lockHard := false, lockSto := false, lockSource := false,
    armed := false, degResumed := false, usedCyc := 0, usedMin := 0, partUs := 0, degAt := Vector.replicate 3 none }) s
  let s := unlockRecord c usb true (writeDoor c s)
  clearUnit 5 c.1 (chanSet c (restState s.dc.chan[c.1]) 0x18 s)

/-- An unlock request that no longer meets R290 at the tick that decides it is refused: a fault that arises in the tick of the request
wins (Table DC-9). -/
def unlockVoid (c : Fin 16) (s : State) : State :=
  match s.dc.chan[c.1].unlocking with
  | some usb => if unlockOk c s then s else unlockRefuse c usb (setChan c (fun x => { x with unlocking := none }) s)
  | none => s

/-- A request for this channel already waits. -/
def unlockWaits (c : Fin 16) (s : State) : Bool :=
  s.dc.chan[c.1].unlocking.isSome || s.dc.unlock.any fun u => u.chan = c

/-- An unlock request of R290 from a logged-in port. The next tick decides it, at step 4 (R267, Table DC-9; DEDUCED, log entry 110);
after a lockout with an STO cause the stage test runs first. -/
def unlockRequest (c : Fin 16) (usb : Bool) (s : State) : State :=
  if unlockWaits c s || !unlockOk c s then unlockRefuse c usb s
  else if s.dc.chan[c.1].lockSto then { s with dc := { s.dc with unlock := s.dc.unlock ++ [⟨c, usb, s.now⟩] } }
  else setChan c (fun x => { x with unlocking := some usb }) s

/-- A host-bus write of DC_UNLOCK, KEY 0x6C (R290). -/
def unlockWrite (v : W16) (s : State) : State :=
  if keyOf v = 0x6C then
    let c : Fin 16 := ⟨fld v 3 0 % 16, by omega⟩
    if s.nv.login[0].on then unlockRequest c false s else unlockRefuse c false s
  else s

/-- DC_UNLOCK (R290): a keyed write while the host bus is logged in; a write from USB is not applied (R714). -/
def execDcUnlock (p : Port) (v : W16) (s : State) : Result :=
  .next (if p = .usb then s else portWrite p 0x108 (unlockWrite v) s)

/-- UNLOCK_STAGE_TEST_DONE (R290): the oldest stage test that runs passes within 20 ms of its request, or the unlock is refused. -/
def execUnlockStageTestDone (pass : Bool) (s : State) : Result :=
  .next (
    match s.dc.unlock with
    | [] => s
    | u :: rest =>
      let s := { s with dc := { s.dc with unlock := rest } }
      if pass && decide (s.now ≤ u.start + 20000) && unlockOk u.chan s then
        setChan u.chan (fun x => { x with unlocking := some u.usb }) s
      else unlockRefuse u.chan u.usb s)

/-- Step 4 of a tick for a channel (R267): the first row of Table DC-5 that applies. -/
def chanStep (s : State) (c : Fin 16) : State :=
  let s := unlockVoid c s
  let x := s.dc.chan[c.1]
  if !chanOn c s then s
  else if x.state = .inactive then (if inService s then leaveInactive c s else s)
  else if !inService s && !torqueOn x.state then chanSet c .inactive 0x1A s
  else match x.state with
    | .closed | .stopped => restRows c s
    | .opening | .closing => moveRows c s
    | .stopping => stopTick c s
    | .isolated => if !x.iso then chanSet c (restState x) 0x16 s else s
    | .locked => match x.unlocking with
      | some usb => unlockAccept c usb s
      | none => s
    | .inactive => s

/-! ### PSI (R294 to R296) -/

/-- PSI term of a channel. -/
def psiTerm (c : Fin 16) (s : State) : Bool :=
  let x := s.dc.chan[c.1]
  (x.state = .closed || x.state = .locked || x.state = .isolated) && x.cl.eval = .good &&
    s.dc.contact[(contactOf c 0).1].dark && s.dc.contact[(contactOf c 1).1].dark

/-- PSI of a berth (R295); a disabled channel that BR_DOORS names takes no part (R251). -/
def psiBerth (b : Fin 8) (s : State) : Bool :=
  inService s && berthOn b s && !s.berth[b.1].release &&
    (List.finRange 16).all fun c => !bitOf s.cfg.berth[b.1].doors c.1 || !chanOn c s || psiTerm c s

/-- Steps 1 and 4 of a tick for every channel, from load step 5 on. -/
def doorsStep (s : State) : State :=
  if !imageRuns s then s else
  let s := (List.finRange 16).foldl (fun s c => if chanOn c s then chanLatch s c else s) s
  (List.finRange 16).foldl chanStep s

/-- Step 5 of a tick: outputs and PSI. -/
def doorsDrive (s : State) : State :=
  let s := { s with dc := { s.dc with chan := mapv (fun c x => { stoDrive x with psi := chanOn c s && psiTerm c s }) s.dc.chan } }
  { s with dc := { s.dc with
    psiB := bitsOf 8 (fun b => psiBerth ⟨b % 8, by omega⟩ s),
    psiAll := inService s && (List.finRange 16).all fun c => !chanOn c s || psiTerm c s } }

/-! ### Load step 5 (R289, R796) -/

/-- A channel resumes its counts, its degraded state and LOCKED from the status record (R289). -/
def chanResume (s : State) (c : Fin 16) : State :=
  let d := s.nv.vault.doors[c.1]
  let s := setChan c (fun x => { x with
    locked := bitOf d 0, degraded := bitOf d 1, degResumed := bitOf d 1, lockSto := bitOf d 2,
    usedCyc := (d >>> 8).setWidth 8, usedMin := (d >>> 16).setWidth 11,
    nextMin := if bitOf d 1 then some (s.now + 60000000) else none }) s
  let s := if bitOf d 1 then setItem 4 c.1 s else s
  if bitOf d 0 then setItem 5 c.1 s else s

/-- A stage that failed at PROVE is a lockout fault of its channel (Table DC-8). -/
def stageFailed (s : State) (c : Fin 16) : State :=
  if bitOf s.dc.stageFail c.1 then lockout c true true false s else s

/-- A lockout found at PROVE step 7 stands from load step 5: its torque is off, so that the mode is DEGRADED at entry
(R288, R289, Table SY-12). -/
def lockAtLoad (s : State) (c : Fin 16) : State :=
  if chanOn c s && s.dc.chan[c.1].lockPend then
    let s := writeDoor c (setChan c (fun x => { x with locked := true, lockPend := false, lockHard := false }) (degClear c s))
    setItem 5 c.1 s
  else s

/-- The pairs of an enabled channel, and ESTOP, are evaluated from load step 5 on (R258, R260). -/
def pairsLoad (s : State) : State :=
  evalEstop ((List.finRange 16).foldl (fun s c => if chanOn c s then evalOb c (evalCl c s) else s) s)

/-- Load step 5 for the doors: the records are resumed and the findings of PROVE step 7 applied (R796). -/
def doorsLoad (s : State) : State :=
  let s := (List.finRange 16).foldl (fun s c => if chanOn c s then stageFailed (chanResume s c) c else s) s
  let s := (List.finRange 66).foldl (fun s i =>
    if bitOf s.dc.darkFail i.1 && contactUsed i s then
      evalContact i (setContact i (fun y => { y with darkFail := true }) { s with dc := { s.dc with xcnt := satInc s.dc.xcnt } })
    else s) s
  let s := (List.finRange 4).foldl (fun s n => if s.dc.tps[n.1].fault then sourceFaultApply n s else s) s
  (List.finRange 16).foldl lockAtLoad (pairsLoad s)

end Sys2Proof.Machine
end

