-- ==== Sys2Proof/Machine/Telegrams.lean ====
section
/-! DEFINITION. The Scaos telegram layer (chapter 09): copy checks, pairing, single mode, sequence, freshness, content, and
building the telegrams the Darore sends.
Layout, types and payloads are Tables TG-1, TG-2 and TG-5 to TG-8 (R313, R314, R350); CK0 to CK3 check the copies (R320); an accepted
telegram takes effect at the next tick's step 1 (R305, R331); both ports go on sending (R349); the collisions of Table TG-9 (R354) are
settled by the order of the commands. -/

namespace Sys2Proof.Machine

open Sys2Proof

/-- Changes the telegram layer. -/
def setTg (f : Tg → Tg) (s : State) : State := { s with tg := f s.tg }

/-- Changes a pair. -/
def setPair (p : Fin 2) (f : NetPair → NetPair) (s : State) : State :=
  setTg (fun t => { t with pair := upd t.pair p f }) s

/-- Port of a pair's network: 0 ETHA, 1 ETHB, 2 CANA, 3 CANB. -/
def portIx (p x : Fin 2) : Fin 4 := ⟨2 * p.1 + x.1, by omega⟩
/-- Pair of a port. -/
def pairOf (q : Fin 4) : Fin 2 := ⟨q.1 / 2, by omega⟩
/-- Network of a port within its pair. -/
def netOf (q : Fin 4) : Fin 2 := ⟨q.1 % 2, by omega⟩

/-! ### Nodes and parameters (R315, R341) -/

/-- The Darore's own node ID. -/
def ownNode (s : State) : Byte := s.cfg.tg.node.setWidth 8

/-- Node ID of a peer: 0 the interlocking, 1 to 4 the door-controller slots. -/
def nodeOf (k : Fin 5) (s : State) : Byte :=
  match k.1 with
  | 0 => (s.cfg.tg.node >>> 8).setWidth 8
  | 1 => s.cfg.tg.cpeer0.setWidth 8
  | 2 => (s.cfg.tg.cpeer0 >>> 8).setWidth 8
  | 3 => s.cfg.tg.cpeer1.setWidth 8
  | _ => (s.cfg.tg.cpeer1 >>> 8).setWidth 8

/-- Peers of a pair (R317). -/
def peersOf (p : Fin 2) : List (Fin 5) := if p = 0 then [0] else [1, 2, 3, 4]

/-- Pair of a peer. -/
def peerPair (k : Fin 5) : Fin 2 := if k = 0 then 0 else 1

/-- The peer of a pair with a node ID in use. -/
def peerOf (p : Fin 2) (src : Byte) (s : State) : Option (Fin 5) :=
  if src = 0 then none else (peersOf p).find? fun k => nodeOf k s = src

/-- Channel mask of a door-controller peer. -/
def peerMask (k : Fin 5) (s : State) : W16 := if h : 0 < k.1 then s.cfg.tg.cmask[k.1 - 1] else 0

/-- Skew window W in µs. -/
def skewUs (p : Fin 2) (s : State) : Nat := 1000 * (if p = 0 then fld s.cfg.tg.skew 6 0 else fld s.cfg.tg.skew 14 8)
/-- t_fr in ms. -/
def freshMs (p : Fin 2) (s : State) : Nat := if p = 0 then fld s.cfg.tg.efresh 12 0 else fld s.cfg.tg.cfresh 9 0
/-- SEQWIN. -/
def seqWin (s : State) : Nat := fld s.cfg.tg.win 6 0
/-- AWIN. -/
def aliveWin (s : State) : Nat := fld s.cfg.tg.win 11 8

/-- The Darore's sender time (R322). -/
def senderTime (s : State) : W32 := BitVec.ofNat 32 (s.tstamp.toNat / 1000)

/-! ### Ports as the telegram layer sees them (R345, R368, R383) -/

/-- An Ethernet port that is down for a cause of Table NW-2; a port that has had fewer than 10 polls and no cause is neither
up nor down. -/
def ethDown (x : Fin 2) (s : State) : Bool := !s.ports.eth[x.1].up && s.ports.eth[x.1].cause != 0

/-- A CAN port is down (R383). -/
def canDown (x : Fin 2) (s : State) : Bool :=
  let c := s.ports.can[x.1]
  !(c.state = .active || c.state = .passive) || c.recovering || c.stb || c.exitAt.isSome

/-- A port is down. -/
def portDown (q : Fin 4) (s : State) : Bool := if pairOf q = 0 then ethDown (netOf q) s else canDown (netOf q) s

/-- A port is up (R368, R383). -/
def portUp (q : Fin 4) (s : State) : Bool :=
  if pairOf q = 0 then s.ports.eth[(netOf q).1].up else !canDown (netOf q) s

/-- Received copies are checked and accepted (R352, Table NW-4). -/
def tgReceives (s : State) : Bool :=
  imageTaken s && (inService s || s.sys.mode = .configure || (s.sys.mode = .safe && !clockSafe s))

/-! ### Fields of a telegram (Table TG-1) -/

/-- TYPE. -/
def tType (b : List Byte) : Nat := (b.getD 0 0).toNat % 16
/-- LEN. -/
def tLen (b : List Byte) : Nat := (b.getD 1 0).toNat
/-- SRC. -/
def tSrc (b : List Byte) : Byte := b.getD 2 0
/-- SEQ. -/
def tSeq (b : List Byte) : W32 := BitVec.ofNat 32 (beAt b 3 4)
/-- ALIVE. -/
def tAlive (b : List Byte) : Byte := b.getD 7 0
/-- TIME. -/
def tTime (b : List Byte) : W32 := BitVec.ofNat 32 (beAt b 8 4)
/-- ECHO of a telegram that carries content. -/
def tEcho (b : List Byte) : W32 := BitVec.ofNat 32 (beAt b 14 4)
/-- A payload byte. -/
def tPay (b : List Byte) (o : Nat) : Byte := b.getD (12 + o) 0

/-- The safety code towards a destination (R319). -/
def safetyCode (dest : Byte) (b : List Byte) : W32 := crc32c (dest :: b)

/-! ### Copy checks (Table TG-3) -/

/-- Type, direction, length, kind and reserved bits are those of Table TG-2. -/
def formatOk (p : Fin 2) (b : List Byte) : Bool :=
  if tType b = 5 then tLen b = 0
  else if p = 0 then
    tType b = 2 && tLen b = 12 && tPay b 0 = 0 && tPay b 1 = 0 && tPay b 11 = 0 && !bitOf (tPay b 10) 7 &&
      (tPay b 9 = 0 || decide ((tPay b 10).toNat / 32 % 4 = 1) || decide ((tPay b 10).toNat / 32 % 4 = 2))
  else tType b = 3 && tLen b = 14 && tPay b 0 = 1 && tPay b 1 = 0

/-- Reason of the first failing row of Table TG-3, 0 none. -/
def copyReason (p : Fin 2) (b : List Byte) (s : State) : Nat :=
  if b.length < 16 ∨ 48 < tLen b ∨ b.length < 16 + tLen b then 1
  else if (b.getD 0 0).toNat / 16 ≠ 1 then 2
  else if (peerOf p (tSrc b) s).isNone then 3
  else if !formatOk p b then 4
  else if safetyCode (ownNode s) (b.take (12 + tLen b)) ≠ BitVec.ofNat 32 (beAt b (12 + tLen b) 4) then 5
  else 0

/-! ### Events -/

/-- Code of a network event. -/
def netCode (q : Fin 4) (k : Nat) : Nat := 0x1D0 + 4 * q.1 + k

/-- A rejected copy (R328): at most one event per second of a port. -/
def rejectCopy (q : Fin 4) (reason : Nat) (b : List Byte) (s : State) : State :=
  let ev := limitOk 1000000 s.tg.k0At[q.1] s.now
  let s := setTg (fun t => { t with
    rxerr := upd t.rxerr q satInc, k0At := if ev then t.k0At.set q.1 (some s.now) else t.k0At }) s
  if ev then raise (netCode q 0) (pack [(0, reason), (4, tType b), (8, (tSrc b).toNat)]) s else s

/-- Data word of k = 2. -/
def faultData (kind type : Nat) (src : Byte) : W16 := pack [(0, kind), (4, type), (8, src.toNat)]

/-- A telegram fault: its event is limited to one per 100 ms of a port, its record, where Table TG-10 asks for one, is not. -/
def limitedFault (q : Fin 4) (kind type : Nat) (src : Byte) (rec : Bool) (s : State) : State :=
  let w := faultData kind type src
  let s :=
    if limitOk 100000 s.tg.k2At[q.1] s.now then
      raise (netCode q 2) w (setTg (fun t => { t with k2At := t.k2At.set q.1 (some s.now) }) s)
    else s
  if rec then eventRecord (netCode q 2) w s else s

/-- Event k = 1 (Table TG-11, R356): a safety reaction. -/
def netEvent (q : Fin 4) (what cause : Nat) (s : State) : State :=
  raiseAt (netCode q 1) (pack [(0, what), (4, cause)]) s.tstamp true s

/-! ### Freshness (R326, R337) -/

/-- Sender time of the remembered telegram that an ECHO names. -/
def echoTime (k : Fin 5) (e : W32) (s : State) : Option W32 := (s.tg.stream[k.1].sent.find? fun x => x.1 = e).map (·.2)

/-- An ECHO is fresh now (R337). -/
def echoFresh (k : Fin 5) (e : W32) (s : State) : Bool :=
  (echoTime k e s).any fun t => decide ((senderTime s - t).toNat < freshMs (peerPair k) s)

/-! ### Content (R342 to R344) -/

/-- A reset order of a used COMMAND (R343). -/
def resetOrder (b : List Byte) (s : State) : State :=
  let r := tPay b 9
  if r = 0 then s
  else if BitVec.ofNat 16 (beAt b 18 2) ≠ s.nv.vault.loadNo then raise (netCode 0 2) (faultData 0xA 2 (tSrc b)) s
  else if r = s.tg.rinst then s
  else
    let o : ROrder := { sect := ⟨(tPay b 10).toNat % 32, by omega⟩, direct := decide ((tPay b 10).toNat / 32 % 4 = 2), rinst := r }
    { s with tg := { s.tg with rinst := r }, sc := { s.sc with orders := s.sc.orders ++ [o] } }

/-- The enabled berths (R226). -/
def berthsOn (s : State) : Byte := bitsOf 8 fun b => bitOf (s.cfg.berth[b % 8]'(by omega)).cfg 15

/-- A used COMMAND (R342, R343): the bits of disabled berths are ignored. -/
def useCommand (b : List Byte) (s : State) : State :=
  let e := tEcho b
  resetOrder b (setTg (fun t => { t with
    benValid := true, ben := tPay b 8 &&& berthsOn s, benEcho := e, benTime := (echoTime 0 e s).getD 0, benFresh := true }) s)

/-- The held request of a channel after a used REQUEST that addresses it (R344). -/
def heldReq (k : Fin 5) (b : List Byte) (c : Nat) : HeldReq :=
  { valid := true, req := BitVec.ofNat 2 (beAt b 20 4 / 4 ^ c), iso := bitOf (BitVec.ofNat 16 (beAt b 24 2)) c,
    echo := tEcho b, peer := k, seq := tSeq b, fresh := true }

/-- A used DOOR_CMD of kind REQUEST (R344). -/
def useRequest (q : Fin 4) (k : Fin 5) (b : List Byte) (s : State) : State :=
  let m : W16 := BitVec.ofNat 16 (beAt b 18 2)
  let own := peerMask k s
  let held := mapv (fun c h => if bitOf m c.1 && bitOf own c.1 then heldReq k b c.1 else h) s.tg.held
  let s := setTg (fun t => { t with held := held }) s
  if m &&& ~~~own ≠ 0 then limitedFault q 8 3 (tSrc b) false s else s

/-- Content is acted on only in OPERATE and DEGRADED (R352); elsewhere a reset order is taken up to be refused with reason MODE
(R215, R217; DEDUCED, log entry 108). -/
def useContent (q : Fin 4) (k : Fin 5) (b : List Byte) (s : State) : State :=
  if !inService s then (if tType b = 2 then resetOrder b s else s)
  else if tType b = 2 then useCommand b s else if tType b = 3 then useRequest q k b s else s

/-! ### Loss and recovery (R345 to R348) -/

/-- Degraded item of a pair in single mode, and of a lost pair. -/
def singleItem (p : Fin 2) : Fin 10 := if p = 0 then 0 else 2
def lostItem (p : Fin 2) : Fin 10 := if p = 0 then 1 else 3

/-- The pair is lost (R347). -/
def pairLose (p : Fin 2) (cause : Nat) (s : State) : State :=
  let q := portIx p 0
  let s := setPair p (fun x => { x with mode := .lost, since := none, streak := 0 }) s
  let s := eventRecord (netCode q 1) (pack [(0, 3), (4, cause)]) (netEvent q 3 cause s)
  clearItem (singleItem p) (setItem (lostItem p) q.1 s)

/-- Good telegrams towards the recovery of a lost pair. -/
def pairStreak (p : Fin 2) (good : Bool) (s : State) : State :=
  setPair p (fun x => { x with streak := if good then x.streak + 1 else 0 }) s

/-- A lost pair recovers (R348). -/
def pairRecover (p : Fin 2) (s : State) : State :=
  let x := s.tg.pair[p.1]
  if x.mode = .lost && decide (10 ≤ x.streak) && inService s && portUp (portIx p 0) s && portUp (portIx p 1) s then
    let s := setPair p (fun x => { x with
      mode := .dual, streak := 0, mism := 0, miss := Vector.replicate 2 0, netLost := Vector.replicate 2 false }) s
    clearItem (lostItem p) (netEvent (portIx p 0) 4 0 (recovery 3 (portIx p 0).1 s))
  else s

/-- The source of a telegram is kept (R333, R336). -/
def setSource (k : Fin 5) (f : Source → Source) (s : State) : State :=
  setTg (fun t => { t with source := upd t.source k f }) s

/-- The telegram becomes its source's last one (R336). -/
def noteSource (k : Fin 5) (b : List Byte) (s : State) : State :=
  setSource k (fun _ => { sync := true, seq := tSeq b, alive := tAlive b, time := tTime b }) s

/-- The latest telegram accepted from a peer gives the SEQ that ECHO returns (R325). -/
def noteEcho (k : Fin 5) (b : List Byte) (s : State) : State :=
  setTg (fun t => { t with stream := upd t.stream k fun x => { x with echo := tSeq b } }) s

/-- A sequence, alive or time fault (R334, R336). -/
def seqFault (q : Fin 4) (kind : Nat) (b : List Byte) (s : State) : State :=
  limitedFault q kind (tType b) (tSrc b) true (setTg (fun t => { t with seqerr := satInc t.seqerr }) s)

/-- The streak goes on, a lost pair recovers when it is full, and content is used unless the pair is lost (R347, R348). -/
def finish (q : Fin 4) (k : Fin 5) (b : List Byte) (use : Bool) (s : State) : State :=
  let s := pairRecover (pairOf q) (pairStreak (pairOf q) true s)
  if use && s.tg.pair[(pairOf q).1].mode ≠ .lost then useContent q k b s else s

/-- A telegram whose ECHO is stale at acceptance is counted and reported (R338). -/
def staleFault (q : Fin 4) (b : List Byte) (s : State) : State :=
  limitedFault q 5 (tType b) (tSrc b) true (setTg (fun t => { t with stale := satInc t.stale }) s)

/-- A telegram in order (R336, R338). -/
def inOrder (q : Fin 4) (k : Fin 5) (b : List Byte) (s : State) : State :=
  let x := s.tg.source[k.1]
  let a := (tAlive b - x.alive).toNat
  let back := decide (2 ^ 31 ≤ (tTime b - x.time).toNat)
  let content := tType b != 5
  let fresh := echoFresh k (tEcho b) s
  let s := noteSource k b s
  let s := if aliveWin s < a then seqFault q 4 b s else s
  let s := if back then seqFault q 9 b s else s
  let s := if content && !fresh then staleFault q b s else s
  if aliveWin s < a || back then pairStreak (pairOf q) false s
  else finish q k b (content && decide (0 < a) && fresh) s

/-- The run of sequence faults that may resynchronise a source (R335): its length after this telegram. -/
def faultRun (k : Fin 5) (b : List Byte) (fresh : Bool) (s : State) : Nat :=
  let x := s.tg.source[k.1]
  let d := (tSeq b - x.seq).toNat
  if fresh && decide (seqWin s < d) && decide (d < 2 ^ 31) then
    (if 0 < x.faults ∧ tSeq b = x.faultSeq + 1 then x.faults + 1 else 1)
  else 0

/-- An accepted telegram meets the sequence check (R333 to R335). -/
def telegram (q : Fin 4) (k : Fin 5) (b : List Byte) (s : State) : State :=
  let x := s.tg.source[k.1]
  let fresh := tType b != 5 && echoFresh k (tEcho b) s
  if !x.sync then
    if fresh then finish q k b true (noteSource k b s)
    else finish q k b false (limitedFault q 0xB (tType b) (tSrc b) false s)
  else
    let d := (tSeq b - x.seq).toNat
    if d = 0 then finish q k b false (setSource k (fun y => { y with faults := 0 }) s)
    else if d ≤ seqWin s then inOrder q k b (setTg (fun t => { t with gap := satAdd t.gap (d - 1) }) s)
    else
      let n := faultRun k b fresh s
      if n = 3 then inOrder q k b (raise (netCode q 2) (faultData 7 (tType b) (tSrc b)) s)
      else
        let s := setSource k (fun y => { y with faults := n, faultSeq := tSeq b }) s
        pairStreak (pairOf q) false (seqFault q 3 b s)

/-! ### Acceptance (R329, R346, R348) -/

/-- Telegrams accepted lately that are still needed: those within W, and the newest 10. -/
def recentKeep (p : Fin 2) (s : State) (l : List Acc) : List Acc :=
  l.take 10 ++ (l.drop 10).filter fun a => decide (s.now ≤ a.at_ + skewUs p s)

/-- A telegram accepted within the last W has this source and SEQ. -/
def recentOf (p : Fin 2) (src : Byte) (seq : W32) (s : State) : Option Acc :=
  s.tg.pair[p.1].recent.find? fun a => a.src = src && a.seq = seq && decide (s.now ≤ a.at_ + skewUs p s)

/-- A telegram is accepted; one accepted at a tick instant takes effect at the next tick (R305, R331). -/
def accept (q : Fin 4) (b : List Byte) (seen : Bool) (s : State) : State :=
  let p := pairOf q
  let a : Acc := { src := tSrc b, seq := tSeq b, bytes := b, at_ := s.now, seen := seen }
  let s := setPair p (fun x => { x with
    recent := recentKeep p s (a :: x.recent), mism := 0,
    miss := if x.mode = .dual || x.mode = .lost then Vector.replicate 2 0 else x.miss.set (netOf q).1 0 }) (noteLatch s)
  match peerOf p (tSrc b) s with
  | some k => telegram q k b (noteEcho k b s)
  | none => s

/-- The held copies of a network are accepted at once when the other network is lost (Table TG-9). -/
def acceptHeld (p x : Fin 2) (s : State) : State :=
  let held := s.tg.pair[p.1].slots.filter fun c => c.net = x
  let s := setPair p (fun y => { y with slots := y.slots.filter fun c => c.net ≠ x }) s
  held.foldl (fun s c => accept (portIx p x) c.bytes false s) s

/-- Network `x` of a pair is lost (R345 to R347): event k = 1 of its port with its record (Table TG-10), and the pair goes single
or lost. An unused CAN pair is never evaluated for loss (R741). -/
def netLose (p x : Fin 2) (cause : Nat) (s : State) : State :=
  let y := s.tg.pair[p.1]
  if !inService s || y.netLost[x.1] || y.mode = .lost || (p = 1 && canUnused s) then s
  else
    let q := portIx p x
    let s := setPair p (fun y => { y with netLost := y.netLost.set x.1 true }) s
    let s := eventRecord (netCode q 1) (pack [(0, 1), (4, cause)]) (netEvent q 1 cause s)
    if y.mode = .dual then
      let s := setPair p (fun y => { y with
        mode := if x = 0 then .singleB else .singleA, since := some s.now,
        recent := y.recent.map fun a => { a with seen := false } }) s
      acceptHeld p (1 - x) (setItem (singleItem p) q.1 s)
    else pairLose p cause s

/-- A copy of network `x` is missing (R332, R345). -/
def missing (p x : Fin 2) (b : List Byte) (s : State) : State :=
  let q := portIx p x
  let s := setTg (fun t => { t with missCnt := upd t.missCnt q satInc }) s
  let s := limitedFault q 1 (tType b) (tSrc b) false (pairStreak p false s)
  let s := setPair p (fun y => { y with miss := upd y.miss x (· + 1) }) s
  if 3 ≤ s.tg.pair[p.1].miss[x.1] then netLose p x 1 s else s

/-- Two copies of one telegram differ (R329, R332, R347). -/
def mismatchCopy (q : Fin 4) (b : List Byte) (s : State) : State :=
  let p := pairOf q
  let s := setTg (fun t => { t with mismatch := satInc t.mismatch }) s
  let s := limitedFault q 2 (tType b) (tSrc b) true s
  let s := setPair p (fun y => { y with mism := y.mism + 1, streak := 0 }) s
  if 3 ≤ s.tg.pair[p.1].mism && inService s && s.tg.pair[p.1].mode ≠ .lost then pairLose p 3 s else s

/-- A held copy leaves its slot unpaired (R329). -/
def expireSlot (p : Fin 2) (c : Slot) (s : State) : State :=
  missing p (1 - c.net) c.bytes (setPair p (fun y => { y with slots := y.slots.erase c }) s)

/-- Every copy held for longer than W at an instant is freed. -/
def expireAll (p : Fin 2) (t : Nat) (s : State) : State :=
  (s.tg.pair[p.1].slots.filter fun c => decide (c.at_ + skewUs p s < t)).foldl (fun s c => expireSlot p c s) s

/-- A slot is free for a copy: with none free the oldest one expires first (R329). -/
def makeRoom (p : Fin 2) (s : State) : State :=
  match s.tg.pair[p.1].slots with
  | c :: rest => if 7 ≤ rest.length then expireSlot p c s else s
  | [] => s

/-- A copy is held. -/
def holdCopy (q : Fin 4) (b : List Byte) (s : State) : State :=
  let c : Slot := { net := netOf q, src := tSrc b, seq := tSeq b, bytes := b, at_ := s.now }
  setPair (pairOf q) (fun y => { y with slots := y.slots ++ [c] }) s

/-- The held copy of a telegram on a network, within W (R330). -/
def slotOf (p x : Fin 2) (b : List Byte) (s : State) : Option Slot :=
  s.tg.pair[p.1].slots.find? fun c => c.net = x && c.src = tSrc b && c.seq = tSeq b && decide (s.now ≤ c.at_ + skewUs p s)

/-- Ten consecutive telegrams have been seen on the lost network as well. -/
def tenSeen : Nat → List Acc → Bool
  | _, [] => false
  | n, a :: l => if a.seen then (if n = 9 then true else tenSeen (n + 1) l) else tenSeen 0 l

/-- The lost network of a single pair recovers (R348), unless the limit of its item expires at the next tick (Table SY-12a, log
entry 11). -/
def netRecover (p x : Fin 2) (s : State) : State :=
  if tenSeen 0 s.tg.pair[p.1].recent && inService s && portUp (portIx p x) s && !escalatesNext (singleItem p) s then
    let s := setPair p (fun y => { y with
      mode := .dual, since := none, miss := Vector.replicate 2 0, netLost := Vector.replicate 2 false }) s
    clearItem (singleItem p) (netEvent (portIx p x) 2 0 (recovery 3 (portIx p x).1 s))
  else s


/-- A checked copy on the serving network of a single pair (R346). -/
def copyServing (q : Fin 4) (b : List Byte) (s : State) : State :=
  let p := pairOf q
  let x := netOf q
  if (recentOf p (tSrc b) (tSeq b) s).isSome then s
  else match slotOf p (1 - x) b s with
    | some c =>
      let s := setPair p (fun y => { y with slots := y.slots.erase c }) s
      netRecover p (1 - x) (accept q b (decide (c.bytes = b)) s)
    | none => accept q b false s

/-- A checked copy on the lost network of a single pair: never accepted on its own, it counts towards recovery (R348). -/
def copyLost (q : Fin 4) (b : List Byte) (s : State) : State :=
  let p := pairOf q
  match recentOf p (tSrc b) (tSeq b) s with
  | some a =>
    let s := setPair p (fun y => { y with
      recent := y.recent.map fun z => if z = a then { z with seen := decide (a.bytes = b) } else z }) s
    netRecover p (netOf q) s
  | none => if (slotOf p (netOf q) b s).isSome then s else holdCopy q b (makeRoom p s)

/-- A checked copy of a pair in single mode. -/
def copySingle (q : Fin 4) (serving : Fin 2) (b : List Byte) (s : State) : State :=
  if netOf q = serving then copyServing q b s else copyLost q b s

/-- A checked copy that no slot and no late telegram meets takes a slot; when the early expiry that makes room for it turns the pair
single, it is a copy of a pair in single mode (R329, R346). -/
def copyHeld (q : Fin 4) (b : List Byte) (s : State) : State :=
  let s := makeRoom (pairOf q) s
  match s.tg.pair[(pairOf q).1].mode with
  | .dual | .lost => holdCopy q b s
  | .singleA => copySingle q 0 b s
  | .singleB => copySingle q 1 b s

/-- A checked copy in dual mode, and while the pair is lost (R329). -/
def copyDual (q : Fin 4) (b : List Byte) (s : State) : State :=
  let p := pairOf q
  if (recentOf p (tSrc b) (tSeq b) s).isSome then s
  else match slotOf p (1 - netOf q) b s with
    | some c =>
      let s := setPair p (fun y => { y with slots := y.slots.erase c }) s
      if c.bytes = b then accept q b true s else mismatchCopy q b s
    | none => if (slotOf p (netOf q) b s).isSome then s else copyHeld q b s

/-- A checked copy (R329, R346). -/
def copyChecked (q : Fin 4) (b : List Byte) (s : State) : State :=
  match s.tg.pair[(pairOf q).1].mode with
  | .dual | .lost => copyDual q b s
  | .singleA => copySingle q 0 b s
  | .singleB => copySingle q 1 b s

/-- A copy of a pair that meets an unequal copy of the other network mismatches. -/
def mismatches (q : Fin 4) (b : List Byte) (s : State) : Bool :=
  let y := s.tg.pair[(pairOf q).1]
  (y.mode = .dual || y.mode = .lost) && (recentOf (pairOf q) (tSrc b) (tSeq b) s).isNone &&
    (slotOf (pairOf q) (1 - netOf q) b s).any fun c => c.bytes != b

/-- A copy that passed Table TG-3. Copies that went missing earlier are counted first; one that goes missing at this instant comes
after a mismatch and before anything else (Table TG-9). -/
def copyGood (q : Fin 4) (b : List Byte) (s : State) : State :=
  let p := pairOf q
  if mismatches q b s then expireAll p s.now (copyChecked q b s) else copyChecked q b (expireAll p s.now s)

/-- A copy arrives at the telegram layer (R327, R329, R346). -/
def copyArrives (q : Fin 4) (frame : List Byte) (s : State) : State :=
  if !tgReceives s || (pairOf q = 1 && canUnused s) then s
  else
    let p := pairOf q
    let s := expireAll p (s.now - 1) s
    let b := frame.take (16 + min 48 (tLen frame))
    let s := tapOut (2 * p.1) { bytes := b, tag := [ownNode s] } s
    match copyReason p b s with
    | 0 => copyGood q b s
    | r => rejectCopy q r b (expireAll p s.now s)

/-- COPY_RECEIVE (R327). -/
def execCopyReceive (port : Fin 4) (bytes : List Byte) (s : State) : Result := .next (copyArrives port bytes s)

/-- SLOT_EXPIRY (R329): the held copy in this place of the queue, once held for longer than W. -/
def execSlotExpiry (pair : Fin 2) (slot : Fin 8) (s : State) : Result :=
  .next (
    match s.tg.pair[pair.1].slots[slot.1]? with
    | some c => if tgReceives s && decide (c.at_ + skewUs pair s < s.now) then expireSlot pair c s else s
    | none => s)

/-! ### Lapse (R339, R340) -/

/-- Event, record and count of a lapse, a safety reaction (R356). -/
def lapseEvent (q : Fin 4) (type : Nat) (src : Byte) (s : State) : State :=
  let w := faultData 6 type src
  eventRecord (netCode q 2) w
    (raiseAt (netCode q 2) w s.tstamp true (setTg (fun t => { t with stale := satInc t.stale }) s))

/-- The channels that hold a request of a peer which has gone stale. -/
def lapsing (k : Fin 5) (s : State) : List (Fin 16) :=
  (List.finRange 16).filter fun c =>
    s.tg.held[c.1].valid && s.tg.held[c.1].fresh && s.tg.held[c.1].peer = k && !echoFresh k s.tg.held[c.1].echo s

/-- Freshness of a peer's held content at step 1 of a tick: one lapse for each DOOR_CMD (R340), told apart by its SEQ. -/
def lapsePeer (s : State) (k : Fin 5) : State :=
  if k = 0 then
    if s.tg.benValid && s.tg.benFresh && !echoFresh 0 s.tg.benEcho s then
      lapseEvent 0 2 (nodeOf 0 s) (setTg (fun t => { t with benFresh := false }) s)
    else s
  else
    let l := lapsing k s
    let cmds := (l.map fun c => s.tg.held[c.1].seq).eraseDups
    let s := l.foldl (fun s c => setTg (fun t => { t with held := upd t.held c fun h => { h with fresh := false } }) s) s
    cmds.foldl (fun s _ => lapseEvent 2 3 (nodeOf k s) s) s

/-- Freshness of everything held (R339). -/
def lapseAll (s : State) : State := (List.finRange 5).foldl lapsePeer s

/-- LAPSE (R340): at the next tick instant. -/
def execLapse (peer : Fin 5) (s : State) : Result :=
  .next (if s.sys.mode = .reset || clockSafe s then s else lapsePeer (reachTick s) peer)

/-! ### Building (R321 to R325) -/

/-- Telegrams are sent (Table SY-11). -/
def tgSends (s : State) : Bool := imageTaken s && (inService s || (s.sys.mode = .safe && !clockSafe s))

/-- The mark of a stream is brought up to a SEQ that is a new multiple of 65,536 (R324); after a failed mark none is written
(R353). -/
def markStream (k : Fin 5) (s : State) : State :=
  let q := s.tg.stream[k.1].seq
  if q.toNat % 65536 = 0 ∧ s.nv.vault.marks[k.1] ≠ q ∧ ¬ s.tg.markBad then
    { s with nv := { s.nv with vault := { s.nv.vault with marks := s.nv.vault.marks.set k.1 q } } }
  else s

/-- Bytes of a telegram to a peer. -/
def tgBytes (k : Fin 5) (type : Nat) (pay : List Byte) (s : State) : List Byte :=
  let head := [BitVec.ofNat 8 (16 + type), BitVec.ofNat 8 pay.length, ownNode s] ++ bytesBE 4 s.tg.stream[k.1].seq.toNat ++
    [s.tg.pair[(peerPair k).1].alive] ++ bytesBE 4 (senderTime s).toNat ++ pay
  head ++ bytesBE 4 (safetyCode (nodeOf k s) head).toNat

/-- A telegram is built once (R321): its bytes, and the state with the stream moved on. -/
def build (k : Fin 5) (type : Nat) (pay : List Byte) (s : State) : List Byte × State :=
  let s := markStream k s
  let b := tgBytes k type pay s
  let e := (s.tg.stream[k.1].seq, senderTime s)
  (b, setTg (fun t => { t with stream := upd t.stream k fun x => { x with seq := x.seq + 1, sent := e :: x.sent.take 255 } }) s)

/-- FLAGS of Table TG-5. -/
def tgFlags (s : State) : Byte :=
  let e := s.tg.pair[0].mode
  let c := s.tg.pair[1].mode
  BitVec.ofNat 8 (modeCode s.sys.mode + 8 * b2n (s.sys.mode = .safe) + 16 * b2n (e = .singleA || e = .singleB) +
    32 * b2n (c = .singleA || c = .singleB) + 64 * b2n (c = .lost))

/-- A 16-bit map of the channels. -/
def chanMap (f : Fin 16 → Bool) : W16 := bitsOf 16 fun i => f ⟨i % 16, by omega⟩
/-- An 8-bit map of the berths. -/
def berthMap (f : Fin 8 → Bool) : Byte := bitsOf 8 fun i => f ⟨i % 8, by omega⟩

/-- DRP of every berth. -/
def drpMap (s : State) : Byte := berthMap fun b => s.berth[b.1].drp
/-- Release of every berth. -/
def relMap (s : State) : Byte := berthMap fun b => s.berth[b.1].release
/-- Channels with torque granted. -/
def torqueMap (s : State) : W16 := chanMap fun c => torqueOn s.dc.chan[c.1].state
/-- LOCKED channels. -/
def lockMap (s : State) : W16 := chanMap fun c => s.dc.chan[c.1].state = .locked

/-- STATUS payload (Table TG-5). -/
def statusPay (s : State) : List Byte :=
  [tgFlags s, 0] ++ bytesBE 4 s.tg.stream[0].echo.toNat ++ bytesBE 2 s.nv.vault.loadNo.toNat ++
  (List.finRange 16).map (fun i => BitVec.ofNat 8 (16 * secCode s.sc.sect[2 * i.1].st + secCode s.sc.sect[2 * i.1 + 1].st)) ++
  [drpMap s, relMap s, s.dc.psiB, BitVec.ofNat 8 (b2n s.dc.psiAll), s.tg.rack, s.tg.rstep] ++
  bytesBE 2 (torqueMap s).toNat ++ bytesBE 2 (lockMap s).toNat ++ bytesBE 2 s.sys.degsrc.toNat

/-- A 64-bit field with four bits for each channel of a mask. -/
def chanNibbles (m : W16) (f : Fin 16 → Nat) : Nat :=
  (List.finRange 16).foldl (fun a c => a + if bitOf m c.1 then f c * 16 ^ c.1 else 0) 0

/-- DOOR_STAT payload (Table TG-8, R351). -/
def doorStatPay (k : Fin 5) (s : State) : List Byte :=
  let m := peerMask k s
  let w := fun (f : Fin 16 → Bool) => bytesBE 2 (chanMap (fun c => bitOf m c.1 && f c)).toNat
  [tgFlags s, 0] ++ bytesBE 4 s.tg.stream[k.1].echo.toNat ++ bytesBE 2 m.toNat ++
  bytesBE 8 (chanNibbles m fun c => chanCode s.dc.chan[c.1].state) ++
  w (fun c => s.dc.chan[c.1].release) ++ w (fun c => s.dc.chan[c.1].armed) ++ w (fun c => s.dc.chan[c.1].degraded) ++
  w (fun c => s.dc.chan[c.1].psi) ++ w (fun c => torqueOn s.dc.chan[c.1].state)

/-- STOPDEMAND payload (Table TG-7). -/
def stopPay (k : Fin 5) (m : W16) (s : State) : List Byte :=
  [2, 0] ++ bytesBE 4 s.tg.stream[k.1].echo.toNat ++ bytesBE 2 m.toNat ++
  bytesBE 8 (chanNibbles m fun c => s.dc.chan[c.1].stopCause.toNat)

end Sys2Proof.Machine
end

