-- ==== Sys2Proof/Machine/Ports.lean ====
section
/-! DEFINITION. The Ethernet and CAN FD ports (chapter 10).
The collisions of Table NW-5 (R385) are settled by the order of the commands, the failures of Table NW-6 (R386) by the operations below. -/

namespace Sys2Proof.Machine

open Sys2Proof

/-- Changes an Ethernet port. -/
def setEth (x : Fin 2) (f : Eth → Eth) (s : State) : State :=
  { s with ports := { s.ports with eth := upd s.ports.eth x f } }

/-- Changes a CAN controller. -/
def setCan (x : Fin 2) (f : Can → Can) (s : State) : State :=
  { s with ports := { s.ports with can := upd s.ports.can x f } }

/-! ### Port-state events (Table NW-7) -/

/-- Data word of k = 3. -/
def portWord (what cause detail : Nat) : W16 := pack [(0, what), (4, cause), (8, min 255 detail)]

/-- Place of a limited WHAT: 3, 4 and 7 each have a limit of their own (R387, worked case of Table NW-8: PASSIVE and WITHDRAWN within
1 ms on one port are both raised; log entry 52). -/
def whatIx (what : Nat) : Fin 3 := if what = 3 then 0 else if what = 4 then 1 else 2

/-- Last event of a limited WHAT of a port. -/
def portEvAt (q : Fin 4) (what : Nat) (s : State) : Option Nat :=
  if pairOf q = 0 then s.ports.eth[(netOf q).1].evAt[(whatIx what).1] else s.ports.can[(netOf q).1].evAt[(whatIx what).1]

/-- Event k = 3 (R387): WHAT 3, 4 and 7 come at most once per 100 ms of a port, and WHAT 2, 5 and 8 are safety reactions. -/
def portEvent (q : Fin 4) (what cause detail : Nat) (s : State) : State :=
  if what = 3 ∨ what = 4 ∨ what = 7 then
    if limitOk 100000 (portEvAt q what s) s.now then
      let s := if pairOf q = 0 then setEth (netOf q) (fun e => { e with evAt := upd e.evAt (whatIx what) fun _ => some s.now }) s
        else setCan (netOf q) (fun c => { c with evAt := upd c.evAt (whatIx what) fun _ => some s.now }) s
      raise (netCode q 3) (portWord what cause detail) s
    else s
  else raiseAt (netCode q 3) (portWord what cause detail) s.tstamp (what = 2 || what = 5 || what = 8) s

/-- Copies are withdrawn. -/
def withdrawn (q : Fin 4) (cause n : Nat) (s : State) : State :=
  if n = 0 then s
  else
    let s := if pairOf q = 1 then setCan (netOf q) (fun c => { c with wdr := satAdd c.wdr n }) s else s
    portEvent q 7 cause n s

/-! ### Ethernet (R359 to R370) -/

/-- The six octets of three address words, first octet in the low byte of the first word. -/
def macBytes (v : Vector W16 3) : List Byte := v.toList.flatMap fun w => bytesLE 2 w.toNat

/-- Reception runs (Table NW-4). -/
def ethReceives (s : State) : Bool := inService s || s.sys.mode = .configure || (s.sys.mode = .safe && !clockSafe s)

/-- The EtherType follows the addresses, or the one tag with the VID of EN_VLAN (R362). -/
def etherOk (o : List Byte) (s : State) : Bool :=
  let v := s.cfg.en.vlan
  if bitOf v 15 then
    beAt o 12 2 = 0x8100 && beAt o 14 2 % 4096 = fld v 11 0 && beAt o 16 2 = s.cfg.en.etype.toNat
  else beAt o 12 2 = s.cfg.en.etype.toNat

/-- The address filter of R362. -/
def macOk (o : List Byte) (s : State) : Bool :=
  let d := slice o 0 6
  d = macBytes s.cfg.en.mac || (d = macBytes s.cfg.en.dmac && bitOf (d.getD 0 0) 0)

/-- ETH_FRAME_RECEIVE (R362, R363): a bad frame is dropped, a frame for others is ignored. -/
def execEthFrameReceive (port : Fin 2) (frame : EthFrame) (s : State) : Result :=
  .next (
    let o := frame.octets
    if !ethReceives s then s
    else if !frame.fcsOk || frame.rxer || decide (o.length < 60) || decide (1518 < o.length) then
      setEth port (fun e => { e with drop := satInc e.drop }) s
    else if macOk o s && etherOk o s then
      copyArrives (portIx 0 port) (o.drop (if bitOf s.cfg.en.vlan 15 then 18 else 14)) s
    else s)

/-- The frame of a copy (Table NW-1), padding and FCS included. -/
def ethWire (b : List Byte) (s : State) : List Byte :=
  let v := s.cfg.en.vlan
  let tag := if bitOf v 15 then [0x81, 0x00] ++ bytesBE 2 (fld v 14 12 * 8192 + fld v 11 0) else []
  let f := macBytes s.cfg.en.dmac ++ macBytes s.cfg.en.mac ++ tag ++ bytesBE 2 s.cfg.en.etype.toNat ++ padTo 46 b
  f ++ bytesLE 4 (crcOf .crc32 f).toNat

/-- A port takes copies: it is up, or has just started. -/
def ethTakes (x : Fin 2) (s : State) : Bool :=
  s.ports.eth[x.1].up || (s.ports.eth[x.1].cause = 0 && decide (s.ports.eth[x.1].polls < 10))

/-- A copy is queued on an Ethernet port (R364, R369). -/
def ethQueue (b : List Byte) (x : Fin 2) (s : State) : State :=
  if !ethTakes x s then s
  else
    let f := ethWire b s
    let e := s.ports.eth[x.1]
    if e.sending.isNone then setEth x (fun e => { e with sending := some f }) s
    else
      let s := setEth x (fun e => { e with waiting := some f }) s
      if e.waiting.isSome then withdrawn (portIx 0 x) 3 1 s else s

/-- ETH_TRANSMIT_DONE (R365): the port becomes idle or takes its waiting copy. -/
def execEthTransmitDone (port : Fin 2) (s : State) : Result :=
  .next (if clockSafe s then s else setEth port (fun e => { e with sending := e.waiting, waiting := none }) s)

/-- MDIO runs (Table NW-4). -/
def mdioRuns (s : State) : Bool := s.ports.mdioOn && s.sys.mode != .reset && s.sys.mode != .prove && !clockSafe s

/-- An Ethernet port goes down (R369): its copies are withdrawn, and its network is lost (R345). -/
def ethGoesDown (x : Fin 2) (cause : Nat) (s : State) : State :=
  let e := s.ports.eth[x.1]
  let was := e.up || e.cause = 0
  let n := b2n e.waiting.isSome + b2n e.sending.isSome
  let s := setEth x (fun e => { e with up := false, cause := BitVec.ofNat 4 cause, waiting := none, sending := none }) s
  if was then
    let w := portWord 2 cause e.reg1.toNat
    let s := eventRecord (netCode (portIx 0 x) 3) w (portEvent (portIx 0 x) 2 cause e.reg1.toNat s)
    netLose 0 x 2 (withdrawn (portIx 0 x) 2 n s)
  else s

/-- An Ethernet port comes up; after a link loss it has recovered (Table EV-7). -/
def ethGoesUp (x : Fin 2) (s : State) : State :=
  let e := s.ports.eth[x.1]
  let s := if e.cause = 0 then s else recovery 4 x.1 s
  portEvent (portIx 0 x) 1 0 e.reg1.toNat (setEth x (fun e => { e with up := true, cause := 0 }) s)

/-- What a poll shows; one that reads 0xFFFF is unanswered: it is not a good poll, and the link fields stay. -/
def pollEth (reg1 reg5 : W16) (answered : Bool) (e : Eth) : Eth :=
  if answered && reg1 != 0xFFFF then
    let link := bitOf reg1 2
    let an := bitOf reg1 5
    let fd := bitOf reg5 8
    { e with
      link := link, anDone := an, fd100 := fd, mdioOk := true, reg1 := reg1.setWidth 8, ffs := 0,
      good := if link && an && fd then e.good + 1 else 0, polls := e.polls + 1 }
  else { e with mdioOk := false, reg1 := 0xFF, ffs := e.ffs + 1, good := 0, polls := e.polls + 1 }

/-- Cause of Table NW-2 that a poll shows, 0 none. -/
def pollCause (e : Eth) : Nat :=
  if e.mdioOk && !e.link then 1 else if 3 ≤ e.ffs then 2 else if e.anDone && !e.fd100 then 3 else 0

/-- The poll of a port is due: 10 ms have passed since the one before (R367). -/
def pollDue (port : Fin 2) (s : State) : Bool := limitOk 10000 s.ports.eth[port.1].pollAt s.now

/-- The reads of a poll on MDIO (R367): registers 1 and 5 of the port's PHY. -/
def pollFrames (port : Fin 2) (s : State) : List MdioFrame := [⟨phyAddr port s, 1, none⟩, ⟨phyAddr port s, 5, none⟩]

/-- MDIO_POLL (R367, R368): in CONFIGURE the port stays down with cause STANDBY. -/
def execMdioPoll (port : Fin 2) (reg1 reg5 : W16) (answered : Bool) (s : State) : Result :=
  .next (
    if !mdioRuns s || !pollDue port s then s
    else
      let s := { s with ports := { s.ports with mdioOut := pollFrames port s } }
      let s := setEth port (fun e => pollEth reg1 reg5 answered { e with pollAt := some s.now }) s
      let e := s.ports.eth[port.1]
      if e.cause = 5 then s
      else match pollCause e with
        | 0 => if !e.up && decide (10 ≤ e.good) then ethGoesUp port s else s
        | c => ethGoesDown port c s)

/-- PORT_START (R367): autonegotiation is restarted through MDIO, and polling begins. -/
def execPortStart (s : State) : Result :=
  .next (
    if s.sys.mode = .reset || clockSafe s || !(imageTaken s || ethReceives s) then s else mdioStart s)

/-- A write of EN_MDIOCMD, KEY 0x4D (R370): a read of the PHY's register. -/
def mdioRequest (value : W16) (s : State) : State :=
  if keyOf value = 0x4D then
    let x : Fin 2 := if bitOf value 5 then 1 else 0
    let r := BitVec.ofNat 5 (fld value 4 0)
    { s with ports := { s.ports with mdioRead := some (x, r), mdioOut := [⟨phyAddr x s, r, none⟩] } }
  else s

/-- MDIO_READ_REQUEST (R370): EN_MDIOCMD with KEY 0x4D. -/
def execMdioReadRequest (p : Port) (value : W16) (s : State) : Result := .next (portWrite p 0x17E (mdioRequest value) s)

/-- MDIO_READ_DONE (R370). -/
def execMdioReadDone (answered : Bool) (data : W16) (s : State) : Result :=
  .next (
    if s.ports.mdioRead.isNone || !mdioRuns s then s
    else { s with ports := { s.ports with mdioRead := none, mdioData := if answered then data else 0xFFFF } })

/-! ### CAN FD (R371 to R383) -/

/-- The controller takes part in the bus. -/
def canRuns (x : Fin 2) (s : State) : Bool :=
  let c := s.ports.can[x.1]
  (c.state = .active || c.state = .passive) && !c.recovering && c.exitAt.isNone && !c.stb

/-- The waiting copy with the lowest identifier; copies with the same one go in the order in which they were queued (R377). -/
def canNext (q : List CanTx) : Option CanTx := q.find? fun t => q.all fun u => decide (t.ident.toNat ≤ u.ident.toNat)

/-- The smallest CAN FD data length that holds `n` bytes (R375). -/
def canLen (n : Nat) : Nat := ([8, 12, 16, 20, 24, 32, 48, 64].find? fun k => decide (n ≤ k)).getD 64

/-- The data field of a copy: bytes after the telegram are 0xCC (R375). -/
def canData (b : List Byte) : List Byte := b ++ List.replicate (canLen b.length - b.length) 0xCC

/-- The copy of a telegram for the CAN controllers (R372, R374, R375): class 0 for a stop demand, class 2 for a DOOR_STAT, with the
Darore's own node ID. -/
def canCopy (stop : Bool) (slot : Fin 4) (chans : W16) (b : List Byte) (s : State) : CanTx :=
  { stop := stop, slot := slot, ident := BitVec.ofNat 11 ((if stop then 0 else 512) + (ownNode s).toNat), brs := bitOf s.cfg.cn.ctl 1,
    bytes := canData b, chans := chans, at_ := s.now }

/-- An idle controller begins its next transmission. -/
def canStart (x : Fin 2) (s : State) : State :=
  let c := s.ports.can[x.1]
  if c.sending.isSome || !canRuns x s then s
  else match canNext c.queue with
    | some t => setCan x (fun c => { c with sending := some t, queue := c.queue.erase t }) s
    | none => s

/-- A copy is queued on a controller (R377, R378, R380). -/
def canQueue (t : CanTx) (x : Fin 2) (s : State) : State :=
  let q := portIx 1 x
  if canDown x s then s
  else
    let old := s.ports.can[x.1].queue
    let stat := old.filter fun y => !y.stop && !t.stop && y.slot = t.slot
    let stops := old.filter fun y => y.stop
    let drop := if t.stop && decide (16 ≤ stops.length) then stops.take 1 else stat
    let s := setCan x (fun c => { c with queue := drop.foldl (fun l y => l.erase y) old ++ [t] }) s
    canStart x (withdrawn q (if t.stop then 4 else 3) drop.length s)

/-- Bus-offs in the last 60 s. -/
def boffCount (c : Can) (t : Nat) : Nat := (c.boffAt.filter fun b => decide (t < b + 60000000)).length

/-- Bus-off (R380, R381): every copy is withdrawn, and the third within 60 s holds the controller off. -/
def busOff (x : Fin 2) (s : State) : State :=
  let q := portIx 1 x
  let c := s.ports.can[x.1]
  let n := c.queue.length + b2n c.sending.isSome
  let s := setCan x (fun c => { c with
    state := .busOff, queue := [], sending := none, boff := satInc c.boff,
    boffAt := (c.boffAt.filter fun b => decide (s.now < b + 60000000)) ++ [s.now] }) s
  let s := eventRecord (netCode q 3) (portWord 5 0 255) (portEvent q 5 0 255 s)
  let s := netLose 1 x 2 (withdrawn q 1 n s)
  let k := boffCount s.ports.can[x.1] s.now
  if 3 ≤ k then
    let s := setCan x (fun c => { c with holdoff := true }) s
    eventRecord (netCode q 3) (portWord 8 0 k) (portEvent q 8 0 k s)
  else if bitOf s.cfg.cn.ctl 0 then setCan x (fun c => { c with recovering := true }) s
  else s

/-- The error state that the counters give (R379, ISO 11898-1). -/
def canConfine (x : Fin 2) (s : State) : State :=
  let c := s.ports.can[x.1]
  let q := portIx 1 x
  if 255 < c.tec then busOff x s
  else
    let passive := decide (127 < c.tec) || decide (127 < c.rec_)
    if passive && c.state = .active then portEvent q 3 0 c.tec (setCan x (fun c => { c with state := .passive }) s)
    else if !passive && c.state = .passive then portEvent q 4 0 c.tec (setCan x (fun c => { c with state := .active }) s)
    else s

/-- The transmitter's error is one of the two exceptions of ISO 11898-1: an error-passive transmitter that finds no acknowledgement and
no dominant bit in its passive error flag, and a stuff error during arbitration before a recessive bit read back dominant. -/
def errExempt (e : CanErr) (c : Can) : Bool := (e.lec = 3 && c.state = .passive && !e.dominant) || (e.lec = 1 && e.arb)

/-- The counters after an error (R379, ISO 11898-1): 8 for a transmitter; for a receiver 1, or 8 when it reads dominant after its error
flag or has a bit error in an active error or overload flag. -/
def errCount (e : CanErr) (c : Can) : Can :=
  if e.tx then { c with lec := e.lec, tec := if errExempt e c then c.tec else c.tec + 8 }
  else { c with lec := e.lec, rec_ := c.rec_ + (if e.eight then 8 else 1) }

/-- CAN_ERROR (R379): the copy in transmission is offered again with the others. -/
def execCanError (ctl : Fin 2) (e : CanErr) (s : State) : Result :=
  .next (
    if !canRuns ctl s then s
    else
      let s := setCan ctl (fun c => { errCount e c with
        queue := if e.tx then c.sending.toList ++ c.queue else c.queue, sending := if e.tx then none else c.sending }) s
      canStart ctl (canConfine ctl s))

/-- A stop demand counts as sent for the stops it named (R278). -/
def stopSent (t : CanTx) (s : State) : State :=
  { s with dc := { s.dc with chan := mapv (fun c x =>
      if t.stop && bitOf t.chans c.1 && x.stopAt = t.at_ then { x with cmdSent := true } else x) s.dc.chan } }

/-- CAN_TRANSMIT_DONE (R278, R379). -/
def execCanTransmitDone (ctl : Fin 2) (s : State) : Result :=
  .next (
    if !canRuns ctl s then s
    else match s.ports.can[ctl.1].sending with
      | none => s
      | some t =>
        let s := setCan ctl (fun c => { c with sending := none, tec := c.tec - 1 }) s
        canStart ctl (canConfine ctl (stopSent t s)))

/-- The receive error counter after a good frame (ISO 11898-1): above 127 it becomes a value of 119 to 127 that is left open. -/
def recGood (x : Fin 2) (s : State) : State :=
  if 127 < s.ports.can[x.1].rec_ then
    let r := draw s
    setCan x (fun c => { c with rec_ := 119 + r.1.toNat % 9 }) r.2
  else setCan x (fun c => { c with rec_ := c.rec_ - 1 }) s

/-- A door controller in use has this node ID (R315). -/
def doorNode (node : Byte) (s : State) : Bool := (peerOf 1 node s).isSome

/-- The second stage of R376: the frame is one of the two kinds that a door controller sends. -/
def canKind (f : CanFrame) : Bool :=
  let cls := f.ident.toNat / 256
  let type := (f.data.getD 0 0).toNat % 16
  !f.classic && decide (16 ≤ f.data.length) && ((cls = 1 && type = 3) || (cls = 7 && type = 5)) &&
    f.ident.setWidth 8 = f.data.getD 2 0

/-- CAN_FRAME_RECEIVE (R376). -/
def execCanFrameReceive (ctl : Fin 2) (frame : CanFrame) (s : State) : Result :=
  .next (
    if !canRuns ctl s then s
    else
      let s := canConfine ctl (recGood ctl s)
      if frame.remote || frame.ext || !doorNode (frame.ident.setWidth 8) s then s
      else if !canKind frame then setCan ctl (fun c => { c with drop := satInc c.drop }) s
      else copyArrives (portIx 1 ctl) frame.data s)

/-- BUS_OFF_RECOVERY_DONE (R381). -/
def execBusOffRecoveryDone (ctl : Fin 2) (s : State) : Result :=
  .next (
    let c := s.ports.can[ctl.1]
    if c.state = .busOff && c.recovering then
      let s := setCan ctl (fun c => { c with state := .active, recovering := false, tec := 0, rec_ := 0 }) s
      portEvent (portIx 1 ctl) 6 0 (boffCount c s.now) (recovery 4 (portIx 1 ctl).1 s)
    else s)

/-- A bus-off controller starts its recovery (R382). -/
def canRecover (x : Fin 2) (s : State) : State :=
  if s.ports.can[x.1].state = .busOff then setCan x (fun c => { c with recovering := true, holdoff := false }) s else s

/-- A write of CN_RECOVER, KEY 0xB5 (R382). -/
def recoverWrite (value : W16) (s : State) : State :=
  if keyOf value = 0xB5 then
    let s := if bitOf value 0 then canRecover 0 s else s
    if bitOf value 1 then canRecover 1 s else s
  else s

/-- CAN_RECOVER (R382): KEY 0xB5; no login. -/
def execCanRecover (p : Port) (value : W16) (s : State) : Result := .next (portWrite p 0x18F (recoverWrite value) s)

/-- STANDBY_EXIT (R768, R383): 50 µs after CANx_STB fell, the controllers take part in the bus and the ports are up. -/
def execStandbyExit (s : State) : Result :=
  .next (
    let done := fun (x : Fin 2) (s : State) =>
      if s.ports.can[x.1].exitAt.any (fun t => decide (t ≤ s.now)) then
        canStart x (portEvent (portIx 1 x) 1 0 0 (setCan x (fun c => { c with exitAt := none }) s))
      else s
    done 1 (done 0 s))

/-! ### Transmit cycles (R357) and stop demands (R323) -/

/-- Cycle of a pair in µs. -/
def cycleUs (p : Fin 2) (s : State) : Nat :=
  1000 * (if p = 0 then fld s.cfg.en.cycle 9 0 else fld s.cfg.cn.cycle 6 0)

/-- A transmit cycle of a pair begins at this tick. -/
def cycleHere (p : Fin 2) (s : State) : Bool :=
  tgSends s && decide (0 < cycleUs p s) && decide (s.tstamp.toNat % cycleUs p s = 0)

/-- The payload of the telegram that a cycle sends to a peer. -/
def cyclePay (k : Fin 5) (s : State) : List Byte := if k = 0 then statusPay s else doorStatPay k s

/-- A tick at which a cycle begins advances the alive counter (R322), and the payloads take the values of its step 6 (R351). -/
def cycleTick (p : Fin 2) (s : State) : State :=
  if cycleHere p s then
    setTg (fun t => { t with pay := mapv (fun k l => if peerPair k = p then cyclePay k s else l) t.pay })
      (setPair p (fun x => { x with alive := x.alive + 1 }) s)
  else s

/-- The cycle of this tick is due: the tick has been done and the cycle not. -/
def cycleDue (p : Fin 2) (s : State) : Bool :=
  cycleHere p s && s.grid.tick = some s.now && s.tg.cycleAt[p.1] != some s.now

/-- A cycle has been served. -/
def cycleMark (p : Fin 2) (s : State) : State := setTg (fun t => { t with cycleAt := t.cycleAt.set p.1 (some s.now) }) s

/-- A built telegram as its tap delivers it: TAP1 or TAP3 (Table CK-3, R399). -/
def sendBlock (u : Unsent) (s : State) : Block := { bytes := u.bytes, tag := [nodeOf u.peer s] }
def sendTap (u : Unsent) : Nat := 2 * (peerPair u.peer).1 + 1

/-- A built telegram passes its tap and goes to both ports of its pair (R321). -/
def sendNow (s : State) (u : Unsent) : State :=
  let s := tapOut (sendTap u) (sendBlock u s) s
  match u.can with
  | none => ethQueue u.bytes 1 (ethQueue u.bytes 0 s)
  | some t => canQueue t 1 (canQueue t 0 s)

/-- A stream's mark is in NVM, or cannot be written (R324, R353). -/
def markWritten (k : Fin 5) (s : State) : Bool := s.tg.markBad || decide (s.nv.stored.marks[k.1] = s.nv.vault.marks[k.1])

/-- A telegram is sent once the mark of its stream is written (R324) and the units on its tap have room (R398); the telegrams of a
stream stay in order. -/
def sendStep (s : State) (u : Unsent) : State :=
  if markWritten u.peer s && tapRoom (sendTap u) (sendBlock u s) s && s.tg.unsent.all (fun w => w.peer ≠ u.peer) then sendNow s u
  else setTg (fun t => { t with unsent := t.unsent ++ [u] }) s

/-- The telegrams that have waited are sent where they can be. -/
def sendWaiting (s : State) : State := s.tg.unsent.foldl sendStep (setTg (fun t => { t with unsent := [] }) s)

/-- A new telegram follows those that wait. -/
def sendTelegram (u : Unsent) (s : State) : State := sendStep (sendWaiting s) u

/-- ETHERNET_CYCLE (R323, R357): a STATUS on both Ethernet ports. -/
def execEthernetCycle (s : State) : Result :=
  .next (
    if cycleDue 0 s then
      let r := build 0 1 s.tg.pay[0] (cycleMark 0 s)
      sendTelegram ⟨0, r.1, none⟩ r.2
    else s)

/-- The DOOR_STAT of one door controller. -/
def sendStat (s : State) (n : Fin 4) : State :=
  let k : Fin 5 := ⟨n.1 + 1, by omega⟩
  if nodeOf k s = 0 then s
  else
    let r := build k 4 s.tg.pay[k.1] s
    sendTelegram ⟨k, r.1, some (canCopy false n 0 r.1 s)⟩ r.2

/-- CAN_CYCLE (R323, R357): a DOOR_STAT to each door controller in use on both controllers. -/
def execCanCycle (s : State) : Result :=
  .next (if cycleDue 1 s then (List.finRange 4).foldl sendStat (cycleMark 1 s) else s)

/-- Step 6 of a tick: one stop-demand DOOR_CMD to each door controller with a channel that entered STOPPING on demand. -/
def sendStop (s : State) (n : Fin 4) : State :=
  let k : Fin 5 := ⟨n.1 + 1, by omega⟩
  let m := chanMap fun c => bitOf (peerMask k s) c.1 && s.dc.chan[c.1].cmdQueued
  if nodeOf k s = 0 ∨ m = 0 then s
  else
    let r := build k 3 (stopPay k m s) s
    sendTelegram ⟨k, r.1, some (canCopy true n m r.1 s)⟩ r.2

/-- The stop demands of this tick. -/
def sendStops (s : State) : State :=
  let s := if tgSends s then (List.finRange 4).foldl sendStop (sendWaiting s) else s
  { s with dc := { s.dc with chan := mapv (fun _ x => { x with cmdQueued := false }) s.dc.chan } }

/-! ### Mode changes (R352, R384) -/

/-- At entry to OPERATE or DEGRADED every pair starts in dual mode, and an Ethernet port that is already down is lost at once.
The CAN controllers leave standby at this entry (Table NW-4), so they come up 50 µs later and their networks are not lost. -/
def pairsEnter (s : State) : State :=
  let fresh := fun (_ : Fin 2) (x : NetPair) => ({ x with
    mode := .dual, miss := Vector.replicate 2 0, mism := 0, netLost := Vector.replicate 2 false, streak := 0, since := none } : NetPair)
  let s := setTg (fun t => { t with pair := mapv fresh t.pair }) s
  canOn ((List.finRange 2).foldl (fun s x => if ethDown x s then netLose 0 x 2 s else s) s)

/-- A CAN controller goes off and its transceiver stands by (Table NW-4): waiting copies are withdrawn, and a port that was up
goes down with cause STANDBY (R383). -/
def canStandby (x : Fin 2) (s : State) : State :=
  let c := s.ports.can[x.1]
  let q := portIx 1 x
  let t := setCan x (fun c => { canOff c with wdr := c.wdr }) s
  let t := withdrawn q 2 (c.queue.length + b2n c.sending.isSome) t
  if canDown x s then t else portEvent q 2 5 0 t

/-- At entry to CONFIGURE the Ethernet ports stand by and the CAN controllers go off. -/
def portsStandby (s : State) : State :=
  canStandby 1 (canStandby 0 (ethGoesDown 1 5 (ethGoesDown 0 5 s)))

end Sys2Proof.Machine
end

