-- ==== Sys2Proof/Machine/Events.lean ====
section
/-! DEFINITION. The event fabric, the rings and the host interrupts (chapter 12).
Codes are those of Table EV-2 (R432), entries and markers those of Tables EV-4 and EV-5 (R441, R442). No producer waits (R453), each
ring keeps the order of its entries (R455 to R457), a recovery raises no output and holds no write back (R460, R461); the collisions of
Table EV-8 (R464) are settled by the order of the commands. -/

namespace Sys2Proof.Machine

open Sys2Proof

/-- Changes the event system. -/
def setEv (f : Ev → Ev) (s : State) : State := { s with ev := f s.ev }

/-- Changes a ring. -/
def setRing (n : Fin 8) (f : Ring → Ring) (s : State) : State := setEv (fun e => { e with rings := upd e.rings n f }) s

/-! ### Routes (R433, R434, Table EV-3) -/

/-- Built-in class of a code. The class of a mismatch of CK4 to CK7 follows the unit's owner. -/
def defaultClass (code : Nat) (s : State) : Nat :=
  if code < 0x100 then (if code % 8 < 6 then 1 else 2)
  else if code < 0x180 then (if code % 2 = 0 then 3 else 4)
  else if code < 0x1D0 then (let k := (code - 0x180) % 5; if k = 0 ∨ k = 3 then 5 else 6)
  else if code < 0x1E0 then 7
  else if code < 0x1E4 then 0
  else if h : code < 0x1E8 then
    (let o := ckOwner (s.ck[code - 0x1E0]'(by omega)); if o = 1 then 2 else if o = 2 then 9 else 0)
  else if code < 0x1F0 then 8
  else if code < 0x1F8 then 2
  else if code < 0x1FC then 10
  else if code = 0x1FD then 2
  else 4

/-- Built-in class words, as EV_CLASS shows them. -/
def defaultClassWord (c : Nat) : W16 :=
  match c with
  | 1 => 0x09
  | 2 => 0x0D
  | 3 => 0x0A
  | 4 => 0x08
  | 5 => 0x0B
  | 6 => 0x1B
  | 7 => 0x2C
  | 8 => 0x1D
  | 9 => 0x0E
  | 10 => 0x2E
  | _ => 0

/-- The routes in force: the loaded ones unless the built-in ones apply (R434, R465). -/
def routes (s : State) : Option EventCfg := if s.ev.routeDefault then none else s.ev.route

/-- Class of a code. -/
def classOf (code : Nat) (s : State) : Nat :=
  match routes s with
  | some r => (r.codes.getD code 0).toNat % 32
  | none => defaultClass code s

/-- Class word of a class. -/
def classWord (c : Nat) (s : State) : W16 :=
  match routes s with
  | some r => r.cls.getD c 0
  | none => defaultClassWord c

/-- A ring from a number. -/
def ringIx (k : Nat) : Fin 8 := ⟨k % 8, by omega⟩

/-- Ring of a class word, when the class is enabled. -/
def classRing (w : W16) : Option (Fin 8) := if bitOf w 3 then some (ringIx (fld w 2 0)) else none

/-- A class copies an event to Q0 (R433). -/
def classCopies (w : W16) (sr : Bool) : Bool := fld w 5 4 = 1 || (fld w 5 4 = 2 && sr)

/-- Codes that their raising chapter marks as safety reactions in some case. -/
def everMarked (code : Nat) : Bool :=
  (decide (0x1D0 ≤ code) && decide (code < 0x1E0) && code % 4 != 0) || code = 0x1F8 || code = 0x1FB

/-! ### Writing a ring (R443 to R446, R459) -/

/-- Entries a ring can hold. -/
def depthOf (r : Ring) : Nat := if r.depth = 0 ∨ 9 < r.depth.toNat then 0 else 2 ^ (r.depth.toNat + 3)

/-- An entry takes the next place of a ring. -/
def ringPush (e : Entry) (r : Ring) : Ring :=
  { r with q := r.q ++ [e], wix := BitVec.ofNat 16 ((r.wix.toNat + 1) % depthOf r) }

/-- The OVERFLOW marker of a loss at `ts`. -/
def overflowMarker (n : W16) (ts : W32) (t : Nat) : Entry := { code := 1, marker := true, data := n, ts := ts, at_ := t }

/-- The newest entry's DATA counts one more loss, saturating. -/
def bumpLast : List Entry → List Entry
  | [] => []
  | [e] => [{ e with data := satInc e.data }]
  | e :: e' :: l => e :: bumpLast (e' :: l)

/-- A loss of Q1 to Q7 at time `t` (R445). OVF tells of a loss since it was last cleared, so each loss sets it. -/
def ringLoss (ts : W32) (t : Nat) (r : Ring) : Ring :=
  let r := { r with drop := r.drop + 1, ovf := true }
  if r.episode then { r with q := bumpLast r.q } else { ringPush (overflowMarker 1 ts t) r with episode := true }

/-- An entry arrives at Q1 to Q7 at time `t` (R445). -/
def ringPut (ts : W32) (t : Nat) (e : Entry) (r : Ring) : Ring :=
  if depthOf r = 0 then { r with drop := r.drop + 1 }
  else if r.q.length + 1 < depthOf r then { ringPush e r with episode := false }
  else ringLoss ts t r

/-- Q0 makes room by removing its oldest entry (R446). -/
def q0Room (ts : W32) (r : Ring) : Ring :=
  if r.q.length + 1 < depthOf r then r
  else { r with
    q := r.q.tail, drop := r.drop + 1, ovf := true, removed := satInc r.removed,
    removedTs := if r.removed = 0 then ts else r.removedTs }

/-- An entry arrives at Q0 (R446). -/
def q0Put (ts : W32) (e : Entry) (r : Ring) : Ring :=
  if depthOf r = 0 then { r with drop := r.drop + 1 } else ringPush e (q0Room ts r)

/-- Pending RECOVERY markers are written while there is room (R459). -/
def ringFlush : Nat → Ring → Ring
  | 0, r => r
  | n + 1, r =>
    match r.pend with
    | [] => r
    | e :: rest =>
      if r.q.length + 1 < depthOf r then ringFlush n { ringPush e r with pend := rest, episode := false } else r

/-- A RECOVERY marker arrives at a ring of Q1 to Q7 (R459). -/
def markerPut (ts : W32) (e : Entry) (r : Ring) : Ring :=
  if depthOf r = 0 then r
  else if r.pend.isEmpty && decide (r.q.length + 1 < depthOf r) then { ringPush e r with episode := false }
  else if r.pend.length < 4 then { r with pend := r.pend ++ [e] }
  else ringLoss ts e.at_ r

/-- Word 0 of an entry (Table EV-4). -/
def entryWord (e : Entry) : W16 :=
  pack [(0, e.code.toNat), (9, b2n e.marker), (10, b2n e.sr), (11, b2n e.lg), (12, b2n e.unl), (13, b2n e.sl), (14, b2n e.cp), (15, 1)]

/-- The 8 bytes of an entry as TAP6 carries them. -/
def entryBytes (e : Entry) : List Byte :=
  bytesBE 2 (entryWord e).toNat ++ bytesBE 2 e.data.toNat ++ bytesBE 2 (word0 e.ts).toNat ++ bytesBE 2 (word1 e.ts).toNat

/-- The low 32 bits of TSTAMP. -/
def ts32 (s : State) : W32 := s.tstamp.setWidth 32

/-- An entry is written to a ring; Q0 feeds TAP6. -/
def ringWrite (n : Fin 8) (e : Entry) (s : State) : State :=
  if n = 0 then
    let tag := bytesBE 2 s.ev.rings[0].wix.toNat
    let stored := depthOf s.ev.rings[0] != 0
    let s := setRing 0 (q0Put (ts32 s) e) s
    if stored then tapOut 6 { bytes := entryBytes e, tag := tag } s else s
  else setRing n (fun r => ringPut (ts32 s) s.now e (ringFlush 4 r)) s

/-- A RECOVERY marker is written to a ring. -/
def markerWrite (e : Entry) (s : State) (n : Fin 8) : State :=
  if n = 0 then (if depthOf s.ev.rings[0] = 0 then s else ringWrite 0 e s) else setRing n (markerPut (ts32 s) e) s

/-! ### Affected rings (R458, Table EV-7) -/

/-- A code belongs to the unit of a recovery. -/
def recoveryCode (kind unit code : Nat) (s : State) : Bool :=
  match kind with
  | 1 => decide (0x100 ≤ code) && decide (code < 0x180)
  | 2 => decide (code / 8 = unit) ||
      (decide (0x100 ≤ code) && decide (code < 0x180) && bitOf (s.cfg.head[unit % 32]'(by omega)).mask1 ((code - 0x100) / 4))
  | 3 | 4 => decide (0x1D0 + 4 * unit ≤ code) && decide (code < 0x1D4 + 4 * unit)
  | 5 => code = 0x1F6
  | 6 => classRing (classWord (classOf code s) s) = some (ringIx unit)
  | 7 => true
  | _ => false

/-- A ring is affected by a recovery. -/
def affected (kind unit : Nat) (s : State) (n : Fin 8) : Bool :=
  (kind = 5 && n = 7) || (kind = 6 && n = ringIx unit) ||
    (List.range 512).any fun code =>
      recoveryCode kind unit code s &&
        (let w := classWord (classOf code s) s
         classRing w = some n || (n = 0 && classCopies w (everMarked code)))

/-! ### The fabric (R437) -/

/-- Routes an event to its ring and to Q0 (R433). -/
def routeEvent (code : BitVec 9) (data : W16) (ts : TStamp) (sr sl : Bool) (s : State) : State :=
  let w := classWord (classOf code.toNat s) s
  let e : Entry := { code := code, sr := sr, sl := sl, data := data, ts := ts.setWidth 32, at_ := s.now }
  let s := match classRing w with
    | some n => ringWrite n e s
    | none => s
  if classCopies w sr then ringWrite 0 { e with cp := true } s else s

/-- An item of the fabric is written. -/
def fabricItem (x : FabItem) (s : State) : State :=
  match x with
  | .event code data ts sr sl => routeEvent code data ts sr sl s
  | .mirror code data ts unl sl =>
    ringWrite 7 { code := code, lg := true, unl := unl, sl := sl, data := data, ts := ts.setWidth 32, at_ := s.now } s
  | .recovery kind unit ts =>
    let d : W16 := BitVec.ofNat 16 (kind.toNat + 256 * unit.toNat)
    let e : Entry := { code := 2, marker := true, data := d, ts := ts.setWidth 32, at_ := s.now }
    ((List.finRange 8).filter (affected kind.toNat unit.toNat s)).foldl (markerWrite e) s

/-- RECOVERY markers at the head of the fabric take no write clock of their own: they are written with the entry behind
them. -/
def fabricWrite : List FabItem → State → State
  | [], s => setEv (fun e => { e with fabric := [] }) s
  | x :: rest, s =>
    match x with
    | .recovery _ _ _ => fabricWrite rest (fabricItem x s)
    | _ => setEv (fun e => { e with fabric := rest }) (fabricItem x s)

/-! ### Interrupts (R450, R451) -/

/-- Threshold code of a ring. -/
def ringThr (n : Fin 8) (s : State) : Nat :=
  if n.1 < 4 then fld s.ev.ithr0 (4 * n.1 + 3) (4 * n.1) else fld s.ev.ithr1 (4 * n.1 - 13) (4 * n.1 - 16)

/-- The oldest entry has waited for EV_ITIME. -/
def ringAged (n : Fin 8) (s : State) : Bool :=
  s.ev.itime != 0 && (s.ev.rings[n.1].q.head?.any fun e => decide (e.at_ + 1000 * s.ev.itime.toNat ≤ s.now))

/-- A ring has its interrupt condition (R450). -/
def ringCond (n : Fin 8) (s : State) : Bool :=
  let t := ringThr n s
  bitOf s.ev.ien n.1 &&
    ((decide (t < 13) && decide (2 ^ t ≤ s.ev.rings[n.1].q.length)) || s.ev.rings[n.1].ovf || ringAged n s)

/-- HIRQA# and HIRQB# follow the conditions (R451). -/
def irqUpdate (s : State) : State :=
  let on := fun (b : Bool) => (List.finRange 8).any fun n => bitOf s.ev.irqsel n.1 == b && ringCond n s
  setEv (fun e => { e with hirqa := !on false, hirqb := !on true }) s

/-- EVENT_FABRIC_WRITE (R437, R462, R465): one entry; entries wait while the route table reloads. -/
def execEventFabricWrite (s : State) : Result :=
  .next (
    if s.sys.mode = .reset || clockSafe s || s.ev.routeBusy.any (fun t => decide (s.now < t)) then s
    else irqUpdate (fabricWrite s.ev.fabric (setEv (fun e => { e with routeBusy := none }) s)))

/-- RING_AGE_EXPIRY (R450): the condition of the oldest entry's age reaches the pins. -/
def execRingAgeExpiry (n : Fin 8) (s : State) : Result :=
  .next (if s.sys.mode != .reset && ringAged n s then irqUpdate s else s)

/-! ### Popping (R447 to R449) -/

/-- SRAM byte address of the oldest entry of a ring (R443). -/
def ringAddr (n : Fin 8) (s : State) : Nat :=
  let r := s.ev.rings[n.1]
  0x8000 * n.1 + 8 * ((r.wix.toNat + depthOf r - r.q.length % (depthOf r + 1)) % max 1 (depthOf r))

/-- SRAM bank of a byte address. -/
def bankOf (a : Nat) : Fin 10 := ⟨a / 65536 % 8, by omega⟩
/-- Row of a byte address within its bank. -/
def rowOfAddr (a : Nat) : Byte := BitVec.ofNat 8 (a / 512 % 128)

/-- The DAMAGED marker. -/
def damagedMarker (s : State) : Entry := { code := 3, marker := true, data := 0, ts := ts32 s, at_ := s.now }

/-- A damaged entry is counted, reported and recorded (R449, Table EV-9). -/
def damaged (a : Nat) (s : State) : State :=
  eventRecord 0x1F0 (rowWord 2 (bankOf a) (rowOfAddr a))
    (eccUncorrectable (bankOf a) (rowOfAddr a) (setEv (fun e => { e with ecc := e.ecc + 1 }) s))

/-- The words of a pop: word 0 is the data read, and words 1 to 3 are latched. -/
def popOut (p : Port) (n : Fin 8) (w0 d : W16) (ts : W32) (s : State) : State :=
  portData p w0 (setRing n (fun r => { r with d1 := d, d2 := word0 ts, d3 := word1 ts }) s)

/-- The oldest entry leaves its ring. -/
def ringPopped (r : Ring) : Ring := ringFlush 4 { r with q := r.q.tail, episode := r.episode && !r.q.tail.isEmpty }

/-- A pop of ring `n` from the host bus. -/
def ringPop (p : Port) (n : Fin 8) (ecc : Ecc) (s : State) : State :=
  let r := s.ev.rings[n.1]
  if n = 0 ∧ r.removed ≠ 0 then
    let m := overflowMarker r.removed r.removedTs s.now
    popOut p n (entryWord m) m.data m.ts (setRing n (fun r => { r with removed := 0 }) s)
  else match r.q with
    | [] => popOut p n 0 0 0 s
    | e :: _ =>
      let a := ringAddr n s
      let s := setRing n ringPopped s
      if ecc = .uncorrectable then
        let m := damagedMarker s
        popOut p n (entryWord m) m.data m.ts (damaged a s)
      else popOut p n (entryWord e) e.data e.ts (eccFound (bankOf a) (rowOfAddr a) ecc s)

/-- RING_POP (R447, R448): from USB it returns 0 and changes nothing; in RESET every read returns 0 (R64). -/
def execRingPop (p : Port) (n : Fin 8) (ecc : Ecc) (s : State) (cycle : ReadCycle := {}) : Result :=
  .next (readCycle p cycle (fun s =>
    if p = .usb || s.sys.mode = .reset then portData p 0 s
    else irqUpdate (ringPop p n ecc s)) s)

/-! ### Failures (R465, Table EV-9) -/

/-- ROUTE_TABLE_MISMATCH (R465): the table reloads within 1 ms; a second mismatch within 60 s puts the built-in routes in force
until reset. -/
def execRouteTableMismatch (s : State) : Result :=
  .next (
    if s.sys.mode = .reset || clockSafe s then s
    else
      let second := s.ev.routeBad.any fun t => decide (s.now < t + 60000000)
      let r := draw s
      let til := s.now + r.1.toNat % 1001
      let s := setEv (fun e => { e with
        routeBad := some s.now, routeDefault := e.routeDefault || second, routeBusy := if second then none else some til }) r.2
      raiseRec 0x1F5 (structWord 3 0) s)

/-- RING_CONTROL_MISMATCH (R465): the ring is emptied and its entries count as dropped. -/
def execRingControlMismatch (n : Fin 8) (s : State) : Result :=
  .next (
    if s.sys.mode = .reset || clockSafe s then s
    else
      let s := setRing n (fun r => { r with
        q := [], pend := [], drop := r.drop + BitVec.ofNat 16 r.q.length, episode := false, removed := 0, wix := 0 }) s
      irqUpdate (raiseRec 0x1F5 (structWord 4 n.1) (recovery 6 n.1 s)))

/-! ### Load step 3 (R463) -/

/-- A ring takes a new depth at time `t`. -/
def ringDepth (n : Fin 8) (d : BitVec 4) (ts : W32) (t : Nat) (r : Ring) : Ring :=
  let e := { r with depth := d, q := [], wix := 0, episode := false }
  if depthOf e = 0 then { e with drop := r.drop + BitVec.ofNat 16 r.q.length, pend := [], removed := 0 }
  else if n = 0 then r.q.foldl (fun r x => q0Put ts x r) e
  else
    let f := r.q.foldl (fun r x => ringPut ts t x r) e
    ringFlush 4 { f with episode := f.episode || (r.episode && decide (r.q.length < depthOf e)) }

/-- Depth code of a ring in the image's EVENT record. -/
def depthCode (c : EventCfg) (n : Fin 8) : BitVec 4 :=
  BitVec.ofNat 4 (if n.1 < 4 then fld c.depth0 (4 * n.1 + 3) (4 * n.1) else fld c.depth1 (4 * n.1 - 13) (4 * n.1 - 16))

/-- Routes and depths come from the image. -/
def ringsLoad (s : State) : State :=
  match s.cfg.event with
  | none => s
  | some c =>
    irqUpdate (setEv (fun e => { e with
      route := some c, rings := mapv (fun n r => ringDepth n (depthCode c n) (ts32 s) s.now r) e.rings }) s)

end Sys2Proof.Machine
end

