-- ==== Sys2Proof/Machine/CantleScan.lean ====
section
/-! DEFINITION. The scan cycle, the interval timer, the mailbox and the host control of Cantle (chapter 15). -/

namespace Sys2Proof.Machine

open Sys2Proof

/-! ### Words shared with the registers -/

/-- Code of a pair mode (TG_PSTAT). -/
def pmodeCode : PMode → Nat
  | .dual => 0
  | .singleA => 1
  | .singleB => 2
  | .lost => 3

/-- TG_PSTAT. -/
def pstatWord (s : State) : W16 :=
  pack ([(0, pmodeCode s.tg.pair[0].mode), (2, pmodeCode s.tg.pair[1].mode)] ++
    (List.finRange 5).map fun k => (4 + k.1, b2n s.tg.source[k.1].sync))

/-- TG_BEN. -/
def benWord (s : State) : W16 := pack [(0, s.tg.ben.toNat), (8, b2n s.tg.benFresh)]

/-- Code of a Cantle state (Table CS-7). -/
def csCode : CsState → Nat
  | .held => 0
  | .running => 1
  | .waitScan => 2
  | .waitD => 3
  | .halted => 4

/-! ### The scan image (Table CS-3) -/

/-- A 32-bit map of the heads. -/
def headMap (f : Head → Bool) (s : State) : W32 := bitsOf 32 fun i => f (s.hd.head[i % 32]'(by omega))

/-- A 32-bit map of the sections. -/
def sectMap (f : Sect → Bool) (s : State) : W32 := bitsOf 32 fun i => f (s.sc.sect[i % 32]'(by omega))

/-- Byte of a berth in the scan image. -/
def berthImage (b : Berth) : Byte := BitVec.ofNat 8 (b2n b.drp + 2 * b.terms.toNat + 128 * b2n b.enable)

/-- Two four-bit codes in a byte, the first low. -/
def twoNibbles (lo hi : Nat) : Byte := BitVec.ofNat 8 (lo + 16 * hi)

/-- The fields of Table CS-3 from byte 8 on (R554). -/
def imageTail (s : State) : List Byte :=
  [BitVec.ofNat 8 (modeCode s.sys.mode), BitVec.ofNat 8 (b2n s.cs.wdf)] ++ bytesLE 2 s.sys.degsrc.toNat ++
  bytesLE 4 (headMap (·.busy) s).toNat ++ bytesLE 4 (headMap (·.standing) s).toNat ++
  bytesLE 4 (headMap (fun h => h.phase = .fault) s).toNat ++
  bytesLE 4 (sectMap (fun x => x.st = .clear) s).toNat ++
  (List.finRange 16).map (fun i => twoNibbles (secCode s.sc.sect[2 * i.1].st) (secCode s.sc.sect[2 * i.1 + 1].st)) ++
  (List.finRange 32).flatMap (fun i => bytesLE 2 s.sc.sect[i.1].count.toNat) ++
  (List.finRange 8).map (fun b => berthImage s.berth[b.1]) ++
  [relMap s, berthMap fun b => s.berth[b.1].permit, berthMap fun b => s.berth[b.1].dbgw, s.dc.psiB,
   BitVec.ofNat 8 (b2n s.dc.psiAll + 2 * b2n (estopActive s)),
   bitsOf 8 fun i => decide (i < 4) && (s.dc.tps[i % 4]'(by omega)).fault] ++
  bytesLE 2 (torqueMap s).toNat ++ bytesLE 2 (chanMap fun c => s.dc.chan[c.1].cl.eval = .good).toNat ++
  bytesLE 2 (chanMap fun c => s.dc.chan[c.1].degraded).toNat ++ bytesLE 2 (lockMap s).toNat ++
  bytesLE 2 (chanMap fun c => s.dc.chan[c.1].state = .isolated).toNat ++
  (List.finRange 8).map (fun i => twoNibbles (chanCode s.dc.chan[2 * i.1].state) (chanCode s.dc.chan[2 * i.1 + 1].state)) ++
  bytesLE 2 (pstatWord s).toNat ++ bytesLE 2 (benWord s).toNat

/-- The scan image of this tick. -/
def scanImage (s : State) : Vector Byte 144 :=
  let l := bytesLE 4 s.tstamp.toNat ++ bytesLE 4 s.cs.scanno.toNat ++ imageTail s
  vec fun i => l.getD i.1 0

/-- An image with the scan number and the late-scan flag of the scan that begins. -/
def markImage (img : Vector Byte 144) (n : W32) (late : Bool) : Vector Byte 144 :=
  let b := bytesLE 4 n.toNat
  vec fun i =>
    if 4 ≤ i.1 ∧ i.1 < 8 then b.getD (i.1 - 4) 0
    else if i.1 = 9 then putBit img[i.1] 1 late
    else img[i.1]

/-- An image with the watchdog fault and SY_DEGSRC as the scan logic, which acts at the same step 6, leaves them (R550, R554). -/
def imageFlags (img : Vector Byte 144) (s : State) : Vector Byte 144 :=
  let b := bytesLE 2 s.sys.degsrc.toNat
  vec fun i =>
    if i.1 = 9 then putBit img[i.1] 0 s.cs.wdf
    else if i.1 = 10 ∨ i.1 = 11 then b.getD (i.1 - 10) 0
    else img[i.1]

/-- The image is latched into the window under a scan number and delivered as the TAP7 block (R551). -/
def scanLatch (img : Vector Byte 144) (n : W32) (late : Bool) (s : State) : State :=
  let w := markImage img n late
  tapOut 7 { bytes := w.toList } (setCs (fun c => { c with window := w, scanno := n }) s)

/-! ### Scan starts (R549 to R553, R567 to R569) -/

/-- TSCAN in µs and WDLIM. -/
def tscanUs (s : State) : Nat := 1000 * fld s.cfg.seqr.cfg 6 0
def wdLimit (s : State) : Nat := fld s.cfg.seqr.cfg 10 8

/-- This instant is a scan start not yet acted on: a done tick, the first one of the service or one on the grid (R550). -/
def scanDue (s : State) : Bool :=
  inService s && s.grid.tick = some s.now && s.cs.scanAt != s.now &&
    (!s.cs.scanned || s.tstamp.toNat % tscanUs s = 0)

/-- The image of a tick that is a scan start is kept for the scan logic (R550, R554). -/
def keepImage (s : State) : State := if scanDue s then setCs (fun c => { c with image := scanImage s }) s else s

/-- The watchdog fault clears (R568). -/
def wdClear (s : State) : State :=
  clearItem 7 (raise 0x1F8 (wdWord 3 0) (setCs (fun c => { c with wdf := false }) s))

/-- An on-time scan begins with the image of this tick and number `n`. -/
def scanBegin (n : W32) (s : State) : State :=
  let s := if s.cs.wdf && s.cs.onTime && s.cs.reached then wdClear s else s
  let wait := s.cs.state = .waitScan
  let hl0 := s.cs.hl
  let s := scanLatch (imageFlags s.cs.image s) n false (setCs (fun c => { c with
    onTime := true, reached := false, late := false, scanAt := s.now, first := false, scanned := true }) s)
  if wait then boundary hl0 none (stepPc (setCs (fun c => { c with state := .running }) s)) else s

/-- An overrun (R551, R567): the image of this scan start is kept for the late scan that may follow (R552). -/
def scanOverrun (s : State) : State :=
  let n := s.cs.ovcnt.toNat + 1
  let s := ipendSet 0 (setCs (fun c => { c with
    overrun := satInc c.overrun, ovcnt := satInc c.ovcnt, onTime := false, scanAt := s.now, scanned := true }) s)
  let s :=
    if wdLimit s ≤ n then (if s.cs.wdf then s else wdFault 2 n s)
    else if limitOk 1000000 s.cs.ovAt s.now then
      raise 0x1F8 (wdWord 1 n) (setCs (fun c => { c with ovAt := some s.now }) s)
    else s
  setCs (fun c => { c with image := imageFlags c.image s }) s

/-- Cantle has been started and its first scan is to come (R549, R572). -/
def firstScan (s : State) : Bool :=
  s.cs.first && s.cs.state != .held && s.cs.state != .halted

/-- SCAN_START (R549 to R551): scan number 0 is the first scan's (Table CS-3). -/
def execScanStart (s : State) : Result :=
  .next (
    if !scanDue s then s
    else if firstScan s then scanBegin 0 s
    else if s.cs.state = .waitScan then scanBegin (s.cs.scanno + 1) s
    else scanOverrun s)

/-- SCANW (R552, R553, R605): a late scan begins at once after overruns, but not at a scan start yet to be acted on; else Cantle
waits, and the PC stays. -/
def execScanw (rsv : Bool) (s : State) : Result :=
  .next (atX (fun s =>
    if rsv ∨ s.cs.hl then illegal s
    else if s.cs.ovcnt ≠ 0 ∧ !scanDue s then
      complete 1 (fun s => scanLatch s.cs.image (s.cs.scanno + 1) true
        (setCs (fun c => { c with ovcnt := 0, late := true, onTime := false }) s)) s
    else
      let t := (s.now - s.cs.scanAt) / 10
      clocks 1 (setCs (fun c => { c with
        state := .waitScan, ovcnt := 0, late := false, reached := c.reached || c.onTime,
        scanMax := if c.onTime ∧ ¬ c.reached ∧ c.scanMax < sat16 t then sat16 t else c.scanMax }) s)) s)

/-! ### Starting and stopping (R548, R549, R572) -/

/-- Both memories as the loaded program gives them (R548). -/
def programImem (s : State) : List Host.Cell :=
  memWriteList 0xFF [] 0 ((List.range s.cfg.seqr.ilen.toNat).map fun a => progInstr a s)
def programDmem (s : State) : List Host.Cell :=
  memWriteList 0 [] 0 ((List.range s.cfg.seqr.dlen.toNat).map fun a => progData a s)

/-- Both memories are loaded from the program bank (R548). -/
def cantleMemories (s : State) : State :=
  { s with cs := { s.cs with imem := programImem s, dmem := programDmem s } }

/-- Cantle starts at ENTRY (R549). -/
def cantleStart (s : State) : State :=
  setCs (fun c => { c with
    state := .running, stalled := false, g := Vector.replicate 16 0, pc := s.cfg.seqr.entry, ie := false, hl := false,
    retpc := 0, tkind := 0, taddr := 0, lstart := 0, lend := 0, lcount := 0, cycle := 0,
    ien := 0, ipend := 0, timer := 0, timerAt := none, permit := 0, first := true, restart := none,
    ovcnt := 0, late := false, onTime := false, reached := false }) s

/-- A CS_CTL write (R572): accepted from the logged-in host bus in OPERATE or DEGRADED with the key, else REJ. -/
def csControl (p : Port) (v : W16) (s : State) : State :=
  let cmd := fld v 3 0
  if p = .bus ∧ keyOf v = 0x5C ∧ s.nv.login[0].on ∧ inService s ∧ (cmd = 1 ∨ cmd = 2) then
    if cmd = 1 then
      let s := setCs (fun c => { c with restart := none }) s
      if s.cs.state = .halted then s else cantleHalted 0xFF s
    else setCs (fun c => { c with permit := 0, restart := some s.now }) (cantleStop .held s)
  else setCs (fun c => { c with rej := true }) s

/-- CANTLE_HALT (R572). -/
def execCantleHalt (p : Port) (value : W16) (s : State) : Result := .next (portWrite p 0x1E1 (csControl p value) s)
/-- CANTLE_RESTART (R572). -/
def execCantleRestart (p : Port) (value : W16) (s : State) : Result := .next (portWrite p 0x1E1 (csControl p value) s)

/-- CANTLE_RELOAD_DONE (R572): Cantle runs as R549 states, with its first scan at the next scan start. -/
def execCantleReloadDone (s : State) : Result :=
  .next (
    if s.cs.restart.isNone || !inService s then s
    else raise 0x1F8 (wdWord 5 0) (setDb (fun d => { d with patched := false }) (cantleStart (cantleMemories s))))

/-- CANTLE_TIMER_EXPIRY (R558, R647). -/
def execCantleTimerExpiry (s : State) : Result :=
  .next (
    match s.cs.timerAt with
    | none => s
    | some t =>
      if s.cs.timer = 0 || frozen 0 s || decide (s.now < t) then s
      else ipendSet 7 (setCs (fun c => { c with timerAt := some (t + c.timer.toNat) }) s))

/-- INSTRUCTION_REWRITE_DONE (R543, R544): the row of the word at PC is rewritten and the word fetched again. -/
def execInstructionRewriteDone (readsGood : Bool) (s : State) : Result :=
  .next (
    if s.cs.state ≠ .running then s
    else
      let row := s.cs.pc.toNat / 512
      let s := setCs (fun c => { c with imecc := satInc c.imecc }) s
      let s := rewriteImem row (eccUncorrectable 8 (BitVec.ofNat 8 row) s)
      if readsGood then s else enterSafe 3 0x0007 s)

/-! ### The mailbox (R570, R571, Table CS-8) -/

/-- Data word of 0x1FA (Table CS-10). -/
def mailWord (kind len : Nat) : W16 := pack [(0, kind), (4, len)]

/-- The message bytes of `n` words (R570). -/
def mailBytes (v : Vector W16 4) (n : Nat) : List Byte := (v.toList.take n).flatMap fun w => bytesLE 2 w.toNat

/-- A length of 1 to 4. -/
def mailLen (n : Nat) : Bool := decide (1 ≤ n) && decide (n ≤ 4)

/-- The host fills the inbox, or is refused. -/
def mailSend (n : Nat) (s : State) : State :=
  if s.cs.inFull || !mailLen n then raise 0x1FA (mailWord 3 n) (setCs (fun c => { c with refused := true }) s)
  else
    let s := ipendSet 5 (setCs (fun c => { c with inFull := true, inLen := BitVec.ofNat 3 n }) s)
    raise 0x1FA (mailWord 1 n) (tapOut 9 { bytes := mailBytes s.cs.mbin n } s)

/-- Firmware posts a message, or the post is ignored. -/
def mailPost (n : Nat) (s : State) : State :=
  if s.cs.outFull || !mailLen n then raise 0x1FA (mailWord 4 n) s
  else
    let s := setCs (fun c => { c with outFull := true, outLen := BitVec.ofNat 3 n }) s
    raise 0x1FA (mailWord 2 n) (tapOut 10 { bytes := mailBytes s.cs.mbout n } s)

/-- The host takes the outbox message. -/
def mailTake (s : State) : State :=
  if s.cs.outFull then ipendSet 6 (setCs (fun c => { c with outFull := false, outLen := 0 }) s) else s

/-- MAILBOX_SEND (R570, R571). -/
def execMailboxSend (p : Port) (value : W16) (s : State) : Result :=
  .next (portWrite p 0x1F4 (mailSend (fld value 2 0)) s)

/-- A write of CS_MBACK (R570). -/
def mailAck (value : W16) (s : State) : State := if bitOf value 0 then mailTake s else s

/-- MAILBOX_ACK (R570). -/
def execMailboxAck (p : Port) (value : W16) (s : State) : Result := .next (portWrite p 0x1FA (mailAck value) s)

end Sys2Proof.Machine
end

