-- ==== Sys2Proof/Machine/Debug.lean ====
section
/-! DEFINITION. The debug port: sessions, run control, access in WAITD, the withdrawal and the terminal (chapter 17).
The port reaches Cantle's memories in WAITD and the debug registers, nothing else (R46, R47); a freeze holds nothing but Cantle (R648).
Modes follow Table DB-6 (R653), collisions Table DB-7 (R654), failures Table DB-8 (R655). -/

namespace Sys2Proof.Machine

open Sys2Proof

/-! ### Frames (R618, R619) -/

/-- W of a header. -/
def hdrWrite (h : Byte) : Bool := bitOf h 7
/-- REG of a header. -/
def hdrReg (h : Byte) : Nat := h.toNat / 2 % 64
/-- The number of ones in a header is odd. -/
def hdrOdd (h : Byte) : Bool := ((List.range 8).filter fun k => bitOf h k).length % 2 = 1

/-- The header of an access of a register: W, REG, and P making the number of ones odd. -/
def dbHeader (write : Bool) (reg : Nat) : Byte :=
  let h : Byte := BitVec.ofNat 8 (128 * b2n write + 2 * (reg % 64))
  if hdrOdd h then h else h + 1

/-- CHK of a frame: the CRC-8 over HDR and the four DATA bytes, the most significant first (R618, R619). -/
def dbChk (hdr : Byte) (data : W32) : Byte := crc8 (hdr :: bytesBE 4 data.toNat)

/-- A frame as received is valid: the header is odd, and a write's CHK is right (R620). -/
def frameOk (f : DbFrame) : Bool := hdrOdd f.hdr && (!hdrWrite f.hdr || f.chk = dbChk f.hdr f.data)

/-! ### Answers (R613 to R621) -/

/-- The answer to a frame, with the DATA and CHK it carries. -/
def dbAnswer (r : Resp) (v : W32) (chk : Byte) (s : State) : State := setDb (fun d => { d with resp := r, data := v, chk := chk }) s

/-- OK to a read of a register, with its value. -/
def dbData (reg : Nat) (v : W32) (s : State) : State := dbAnswer .ok v (dbChk (dbHeader false reg) v) s

/-- OK without data. -/
def dbOk (s : State) : State := dbAnswer .ok 0 0 s
/-- REJECT: no effect. -/
def dbReject (s : State) : State := dbAnswer .reject 0 0 s

/-- The port is silent in RESET and under SAFE cause CLOCK (Table DB-6). -/
def dbSilent (s : State) : Bool := s.sys.mode = .reset || clockSafe s

/-- A session is open on the other wire (R616). -/
def otherWire (w : Wire) (s : State) : Bool := s.db.session.any fun x => x != w

/-- The session is open on this wire. -/
def onWire (w : Wire) (s : State) : Bool := s.db.session = some w

/-- A valid frame on a wire (R615, R616, R620): it keeps the session alive, and ends a partial one-wire frame. -/
def dbFrameIn (w : Wire) (f : State → State) (s : State) : State :=
  if dbSilent s || otherWire w s then dbAnswer .silent 0 0 s
  else
    f (setDb (fun d => { d with
      lastFrame := if d.session = some w then s.now else d.lastFrame,
      partial_ := if w = .rstd then [] else d.partial_ }) s)

/-- An access that needs a session (R613). -/
def dbInSession (w : Wire) (f : State → State) (s : State) : State :=
  dbFrameIn w (fun s => if onWire w s then f s else dbReject s) s

/-! ### DB_CTL (R614, R615, R631, R633) -/

/-- INFO of an OPENED event. -/
def wireInfo : Wire → Nat
  | .dio => 1
  | .rstd => 2

/-- A session opens, with its event. -/
def sessionBegin (w : Wire) (s : State) : State :=
  if s.db.session.isSome then s
  else
    raise 0x1FB (dbWord 1 (wireInfo w) 0)
      (setDb (fun d => { d with session := some w, lastFrame := s.now, wire := decide (w = .rstd) }) s)

/-- A session ends by command. -/
def sessionStop (s : State) : State :=
  if s.db.session.isNone then s else raise 0x1FB (dbWord 2 1 0) (sessionEnd s)

/-- STOP (R627, R633, Table DB-7): at once at a boundary with HL = 0, else at the next one. -/
def dbStop (s : State) : State :=
  if s.cs.state = .running ∧ ¬ s.cs.hl ∧ monOn s then
    match bpAt s.cs.pc s with
    | some n => monStop 2 n.1 s
    | none => monStop 1 0 s
  else setDb (fun d => { d with stopReq := true }) s

/-- The thread leaves the stop (R631, R632); a handler that runs while it is stopped runs on. -/
def dbGo (step : Bool) (s : State) : State :=
  let s := if s.db.inh then s else setCs (fun c => { c with pc := s.db.pc, state := .running }) s
  setDb (fun d => { d with mon := false, inh := false, skipBp := true, stepping := step }) s

/-- RESUME, with its event at most once per 100 ms (R656). -/
def dbResume (s : State) : State :=
  let ev := limitOk 100000 s.db.resumeAt s.now
  let s := dbGo false s
  if ev then raise 0x1FB (dbWord 4 0 0) (setDb (fun d => { d with resumeAt := some s.now }) s) else s

/-- The command bits of DB_CTL. -/
inductive DbCmd where
  | none | stop | resume | step | several
  deriving DecidableEq, Repr

/-- The command a DB_CTL value carries. -/
def dbCmd (v : W32) : DbCmd :=
  match bitOf v 8, bitOf v 9, bitOf v 10 with
  | false, false, false => .none
  | true, false, false => .stop
  | false, true, false => .resume
  | false, false, true => .step
  | _, _, _ => .several

/-- Cantle is held or halted. -/
def cantleOff (s : State) : Bool := s.cs.state = .held || s.cs.state = .halted

/-- A command is refused (R633); a write of several at once is refused too. -/
def dbCmdRefused (v : W32) (s : State) : Bool :=
  match dbCmd v with
  | .none => false
  | .stop => cantleOff s || s.db.mon
  | .resume | .step => cantleOff s || !s.db.mon
  | .several => true

/-- The command of a DB_CTL write. -/
def dbCmdDo (v : W32) (s : State) : State :=
  match dbCmd v with
  | .stop => dbStop s
  | .resume => dbResume s
  | .step => dbGo true s
  | _ => s

/-- A write of DB_CTL (R614, R615, R626, R631, R633). -/
def ctlWrite (w : Wire) (v : W32) (s : State) : State :=
  if v.toNat / 2 ^ 24 ≠ 0xA5 then dbReject s
  else if !bitOf v 0 then dbOk (sessionStop s)
  else if dbCmdRefused v s then dbReject s
  else dbOk (dbCmdDo v (setDb (fun d => { d with monEn := bitOf v 1 }) (sessionBegin w s)))

/-- A DB_CTL write frame. -/
def ctlFrame (w : Wire) (v : W32) (s : State) : Result := .next (dbFrameIn w (ctlWrite w v) s)

/-- SESSION_OPEN (R614). -/
def execSessionOpen (wire : Wire) (value : W32) (s : State) : Result := ctlFrame wire value s
/-- SESSION_CLOSE (R615). -/
def execSessionClose (wire : Wire) (value : W32) (s : State) : Result := ctlFrame wire value s
/-- DEBUG_STOP (R627). -/
def execDebugStop (wire : Wire) (value : W32) (s : State) : Result := ctlFrame wire value s
/-- DEBUG_RESUME (R631). -/
def execDebugResume (wire : Wire) (value : W32) (s : State) : Result := ctlFrame wire value s
/-- DEBUG_STEP (R631). -/
def execDebugStep (wire : Wire) (value : W32) (s : State) : Result := ctlFrame wire value s

/-- SESSION_TIMEOUT (R615, Table DB-8). -/
def execSessionTimeout (s : State) : Result :=
  .next (
    if s.db.session.isNone || dbSilent s || decide (s.now < s.db.lastFrame + 10000000) then s
    else raiseRec 0x1FB (dbWord 2 2 0) (sessionEnd s))

/-- DEBUG_FRAME_RESET (R622, R624): a partial frame ends. -/
def execDebugFrameReset (wire : Wire) (s : State) : Result :=
  .next (if wire = .rstd then setDb (fun d => { d with partial_ := [] }) s else s)

/-! ### Access in WAITD (R639 to R643) -/

/-- An accepted write of a register or of memory (R643). -/
def dbWritten (space : Nat) (s : State) : State :=
  let s := setDb (fun d => { d with patched := true }) s
  let s :=
    if limitOk 100000 s.db.writeAt s.now then
      raise 0x1FB (dbWord 6 space 0) (setDb (fun d => { d with writeAt := some s.now }) s)
    else s
  eventRecord 0x1FB (dbWord 6 space 0) s

/-- A write is not allowed (R639, R640). -/
def dbWriteBarred (s : State) : Bool := s.cs.state != .waitD || (inService s && !bitOf s.db.wdraw 8)

/-- DB_GDATA. -/
def gdataAccess (write : Bool) (v : W32) (s : State) : State :=
  if write then
    if dbWriteBarred s then dbReject s else dbOk (dbWritten 0 (setG s.db.gsel v s))
  else if s.cs.state ≠ .waitD then dbReject s
  else dbData 5 (gr s.db.gsel s) s

/-- The aligned word address of DB_MADDR. -/
def maWord (s : State) : Nat := s.db.maddr.toNat / 4 * 4

/-- Size of the selected space. -/
def maSize (s : State) : Nat := if s.db.mspace then 0x10000 else 0x8000

/-- Area of the selected space (Table ST-10). -/
def maArea (s : State) : Fin 10 := if s.db.mspace then 8 else 9

/-- The word at DB_MADDR. -/
def maRead (s : State) : W32 :=
  if s.db.mspace then memRead32 0xFF s.cs.imem (maWord s) else memRead32 0 s.cs.dmem (maWord s)

/-- The word at DB_MADDR takes a value. -/
def maWrite (v : W32) (s : State) : State :=
  if s.db.mspace then setCs (fun c => { c with imem := memWrite32 0xFF c.imem (maWord s) v }) s
  else setCs (fun c => { c with dmem := memWrite32 0 c.dmem (maWord s) v }) s

/-- DB_MADDR advances after a write with INC = 1, wrapping within its space (R641). -/
def maNext (s : State) : State :=
  if s.db.minc then setDb (fun d => { d with maddr := BitVec.ofNat 20 ((maWord s + 4) % maSize s) }) s else s

/-- DB_MDATA (R641, R642): an uncorrectable word reads a free value. -/
def mdataAccess (write : Bool) (v : W32) (ecc : Ecc) (s : State) : State :=
  if write then
    if dbWriteBarred s || decide (maSize s ≤ s.db.maddr.toNat) then dbReject s
    else if !s.db.mspace && ckblkHolds (maWord s) s then dbAnswer .busy 0 0 s
    else dbOk (dbWritten (b2n s.db.mspace) (maNext (maWrite v s)))
  else if s.cs.state ≠ .waitD ∨ maSize s ≤ s.db.maddr.toNat then dbReject s
  else
    let s := eccFound (maArea s) (BitVec.ofNat 8 (maWord s / 512)) ecc s
    if ecc = .uncorrectable then
      let r := draw s
      dbData 7 (r.1.setWidth 32) r.2
    else dbData 7 (maRead s) s

/-- DEBUG_REGISTER_ACCESS (R639, R640). -/
def execDebugRegisterAccess (wire : Wire) (write : Bool) (value : W32) (s : State) : Result :=
  .next (dbInSession wire (gdataAccess write value) s)

/-- DEBUG_MEMORY_ACCESS (R641). -/
def execDebugMemoryAccess (wire : Wire) (write : Bool) (value : W32) (ecc : Ecc) (s : State) : Result :=
  .next (dbInSession wire (mdataAccess write value ecc) s)

/-! ### The withdrawal (R649 to R652) -/

/-- DETAIL of a WITHDRAW event: berths withdrawn. -/
def withdrawMap (w : BitVec 9) : Nat := if bitOf w 8 then 0xFF else w.toNat % 256

/-- DB_WDRAW takes a value in both copies; a change raises its event, marked, with a record (R651). -/
def wdrawWrite (v : BitVec 9) (s : State) : State :=
  if s.db.wdraw = v then s
  else
    let s := noteLatch (setDb (fun d => { d with wdraw := v, wdrawC := ~~~v }) s)
    let w := dbWord 5 (b2n (bitOf v 8)) (withdrawMap v)
    eventRecord 0x1FB w (raiseAt 0x1FB w s.tstamp true s)

/-- DEBUG_WITHDRAW (R649). -/
def execDebugWithdraw (wire : Wire) (value : W32) (s : State) : Result :=
  .next (dbInSession wire (fun s => dbOk (wdrawWrite (value.setWidth 9) s)) s)

/-- WITHDRAW_COPY_MISMATCH (R652): it stands until reset. -/
def execWithdrawCopyMismatch (s : State) : Result :=
  .next (
    if s.db.copyFault || s.sys.mode = .reset then s
    else raiseRec 0x1FB (dbWord 7 0 0) (setDb (fun d => { d with copyFault := true }) s))

/-! ### The terminal (R646) -/

/-- A read of DB_VTOUT: the oldest character, VALID and LOST. -/
def vtRead (s : State) : State :=
  let lost : W32 := if s.db.lost then 0x200 else 0
  match s.db.vtOut with
  | [] => dbData 0x1C lost (setDb (fun d => { d with lost := false }) s)
  | c :: q => dbData 0x1C (c.setWidth 32 + 0x100 + lost) (setDb (fun d => { d with vtOut := q, lost := false }) s)

/-- A write of DB_VTIN. -/
def vtWrite (v : W32) (s : State) : State :=
  if s.db.vtIn.length < 16 then dbOk (setDb (fun d => { d with vtIn := d.vtIn ++ [v.setWidth 8] }) s)
  else dbReject (termEvent 9 s)

/-- VT_OUTPUT_READ (R646). -/
def execVtOutputRead (wire : Wire) (s : State) : Result := .next (dbInSession wire vtRead s)
/-- VT_INPUT_WRITE (R646). -/
def execVtInputWrite (wire : Wire) (value : W32) (s : State) : Result := .next (dbInSession wire (vtWrite value) s)

/-! ### The other registers -/

/-- A 32-bit word from (lowest bit, value) pairs. -/
def pack32 (l : List (Nat × Nat)) : W32 := BitVec.ofNat 32 (l.foldl (fun a p => a + p.2 * 2 ^ p.1) 0)

/-- DB_STAT. -/
def dbStat (s : State) : W32 :=
  pack32 [(0, csCode s.cs.state), (3, b2n s.db.mon), (4, b2n s.db.inh), (5, b2n (s.cs.state = .waitD)), (6, b2n s.db.patched),
    (7, b2n s.db.wire), (8, s.db.reason.toNat), (12, s.db.unit.toNat), (16, s.db.brkCode.toNat), (24, modeCode s.sys.mode)]

/-- DB_MADDR. -/
def dbMaddr (s : State) : W32 := pack32 [(0, s.db.maddr.toNat), (30, b2n s.db.minc), (31, b2n s.db.mspace)]

/-- Comparator of a register of four. -/
def cmpIx (k : Nat) : Fin 4 := ⟨k % 4, by omega⟩

/-- A register without a side effect; an unlisted one and a write-only field read 0 (R621). -/
def dbRead (reg : Nat) (s : State) : W32 :=
  if reg = 0 then 0x00016416
  else if reg = 1 then pack32 [(0, b2n s.db.session.isSome), (1, b2n s.db.monEn)]
  else if reg = 2 then dbStat s
  else if reg = 3 then s.db.pc.setWidth 32
  else if reg = 4 then s.db.gsel.setWidth 32
  else if reg = 6 then dbMaddr s
  else if 8 ≤ reg ∧ reg < 12 then s.db.ibp[(cmpIx reg).1]
  else if 12 ≤ reg ∧ reg < 16 then s.db.wa[(cmpIx reg).1]
  else if 16 ≤ reg ∧ reg < 20 then s.db.wv[(cmpIx reg).1]
  else if 20 ≤ reg ∧ reg < 24 then s.db.wm[(cmpIx reg).1]
  else if reg = 0x18 then s.db.whaddr.setWidth 32
  else if reg = 0x19 then s.db.whval
  else if reg = 0x1A then s.db.wdraw.setWidth 32
  else if reg = 0x1B then s.db.freeze.setWidth 32
  else if reg = 0x1D then pack32 [(8, b2n (decide (16 ≤ s.db.vtIn.length)))]
  else if reg = 0x1E then s.db.missed.setWidth 32
  else if reg = 0x1F then s.db.stops.setWidth 32
  else if reg = 0x20 then s.db.ferr.setWidth 32
  else 0

/-- The written bits of a comparator register. -/
def ibpMask (v : W32) : W32 := v &&& 0x0000FFFD
def waMask (v : W32) : W32 := v &&& 0xE00FFFFC

/-- A write of a register without a side effect; any other is ignored (R621). -/
def dbWrite (reg : Nat) (v : W32) (d : Db) : Db :=
  if reg = 4 then { d with gsel := v.setWidth 4 }
  else if reg = 6 then { d with maddr := v.setWidth 20, minc := bitOf v 30, mspace := bitOf v 31 }
  else if 8 ≤ reg ∧ reg < 12 then { d with ibp := upd d.ibp (cmpIx reg) fun _ => ibpMask v }
  else if 12 ≤ reg ∧ reg < 16 then { d with wa := upd d.wa (cmpIx reg) fun _ => waMask v }
  else if 16 ≤ reg ∧ reg < 20 then { d with wv := upd d.wv (cmpIx reg) fun _ => v }
  else if 20 ≤ reg ∧ reg < 24 then { d with wm := upd d.wm (cmpIx reg) fun _ => v }
  else if reg = 0x1B then { d with freeze := v.setWidth 6 }
  else d

/-- A write access of a session to any register but DB_CTL. -/
def dbWriteReg (reg : Nat) (v : W32) (s : State) : State :=
  if reg = 5 then gdataAccess true v s
  else if reg = 7 then mdataAccess true v .good s
  else if reg = 0x1A then dbOk (wdrawWrite (v.setWidth 9) s)
  else if reg = 0x1D then vtWrite v s
  else dbOk (setDb (dbWrite reg v) s)

/-- A read access of a session. -/
def dbReadReg (reg : Nat) (s : State) : State :=
  if reg = 5 then gdataAccess false 0 s
  else if reg = 7 then mdataAccess false 0 .good s
  else if reg = 0x1C then vtRead s
  else dbData reg (dbRead reg s) s

/-- An access outside a session (R613): reads of DB_ID only. -/
def dbReadAny (w : Wire) (reg : Nat) (s : State) : State :=
  if onWire w s then dbReadReg reg s else if reg = 0 then dbData 0 (dbRead 0 s) s else dbReject s

/-- A frame with an error is not answered and counted, whichever wire it is on (R620); the port counts nothing where it is
silent. -/
def dbBadFrame (w : Wire) (s : State) : State :=
  if dbSilent s then dbAnswer .silent 0 0 s
  else dbAnswer .silent 0 0 (setDb (fun d => { d with
    ferr := satInc d.ferr, partial_ := if w = .rstd then [] else d.partial_ }) s)

/-- DEBUG_FRAME (R618 to R621). -/
def execDebugFrame (f : DbFrame) (s : State) : Result :=
  .next (
    let reg := hdrReg f.hdr
    if !frameOk f then dbBadFrame f.wire s
    else if hdrWrite f.hdr then
      if reg = 1 then dbFrameIn f.wire (ctlWrite f.wire f.data) s
      else dbInSession f.wire (dbWriteReg reg f.data) s
    else dbFrameIn f.wire (dbReadAny f.wire reg) s)

end Sys2Proof.Machine
end

