-- ==== Sys2Proof/Machine/Ledger.lean ====
section
/-! DEFINITION. The ledger, the change log's partition, retirement and loss, the fault cells, and fetching (chapter 13).
The spare sectors are divided as R467 says; failures act as Table LV-11 says (R509). -/

namespace Sys2Proof.Machine

open Sys2Proof

/-! ### Layouts (Tables LV-6 and LV-7) -/

/-- A ledger record's bytes but for its CRC. -/
def lrecBody (r : LRec) : List Byte :=
  bytesLE 4 r.lseq.toNat ++ bytesLE 2 r.loadNo.toNat ++ bytesLE 6 r.time.toNat ++
  [r.type, BitVec.ofNat 8 (b2n r.gap + 2 * b2n r.fc)] ++ bytesLE 2 r.code.toNat ++ (padTo 12 r.data).take 12

/-- A ledger record's 32 bytes. -/
def lrecBytes (r : LRec) : List Byte := lrecBody r ++ bytesLE 4 (crc32c (lrecBody r)).toNat

/-- A change-log entry's bytes before STATE, and after it up to the CRC. -/
def centHead (e : CEnt) : List Byte := bytesLE 4 e.cseq.toNat ++ [e.origin]
def centTail (e : CEnt) : List Byte :=
  [e.type, e.banks] ++ bytesLE 2 e.loadNo.toNat ++ bytesLE 6 e.time.toNat ++ bytesLE 4 e.code.toNat ++
  bytesLE 4 e.oldCode.toNat ++ bytesLE 4 e.imageId.toNat ++ bytesLE 4 e.length.toNat ++ bytesLE 4 e.pcrc.toNat ++
  List.replicate 24 0

/-- A change-log entry's 64 bytes (R493). -/
def centBytes (e : CEnt) : List Byte :=
  centHead e ++ [e.state] ++ centTail e ++ bytesLE 4 (crc32c (centHead e ++ centTail e)).toNat

/-- Bytes as 16-bit words, low byte first (R678). -/
def wordsOf : List Byte → List W16
  | a :: b :: l => (b.setWidth 16 <<< 8 ||| a.setWidth 16) :: wordsOf l
  | [a] => [a.setWidth 16]
  | [] => []

/-! ### Partitions (R466, R495, R500): 188 ledger sectors of 511 records, 6 change-log sectors of 255 entries -/

/-- Slots of a sector, sectors, first NVM sector, spares, first spare and item of SY_DEGSRC of a partition. -/
def partCap (clog : Bool) : Nat := if clog then 255 else 511
def partLen (clog : Bool) : Nat := if clog then 6 else 188
def partBase (clog : Bool) : Nat := if clog then 60 else 68
def partSpares (clog : Bool) : Nat := if clog then 4 else 8
def partSpare0 (clog : Bool) : Nat := if clog then 8 else 0
def partItem (clog : Bool) : Fin 10 := if clog then 9 else 8

/-- Slots used of the sector being filled. -/
def slotCount {α : Type} (cap : Nat) (p : Part α) : Nat := p.recs.length + p.fill - p.full * cap

/-- There is room for one more item: in the sector being filled, or in the erased one ahead. -/
def partRoom {α : Type} (cap : Nat) (p : Part α) : Bool := decide (slotCount cap p < cap) || p.ahead

/-- The partition with one more item. -/
def partPut {α : Type} (cap n : Nat) (x : α) (p : Part α) : Part α :=
  if slotCount cap p < cap then { p with recs := p.recs ++ [x] }
  else { p with recs := p.recs ++ [x], full := p.full + 1, cur := (p.cur + 1) % n, ahead := false }

/-- The partition after the erase ahead (R500): the oldest sector goes once every other one is in use. -/
def partErased {α : Type} (cap n : Nat) (p : Part α) : Part α :=
  if n ≤ p.full + 1 then
    { p with recs := p.recs.drop (cap - p.fill), fill := p.fill - cap, full := p.full - 1, ahead := true }
  else { p with ahead := true }

/-- A sector has been erased (Table ST-6). -/
def partWorn {α : Type} (p : Part α) : Part α := { p with erases := p.erases + 1 }

/-- Place among the retained items of the first one of a sector, if it is retained. -/
def sectorFirst {α : Type} (cap n idx : Nat) (p : Part α) : Option α :=
  let d := (p.cur + n - idx % n) % n
  if d ≤ p.full ∧ p.fill ≤ (p.full - d) * cap then p.recs[(p.full - d) * cap - p.fill]? else none

/-- Whether a partition is lost, retiring, has an erased sector ahead, its sector being filled, and its spares used. -/
def partLost (clog : Bool) (s : State) : Bool := if clog then s.nv.clog.lost.isSome else s.nv.ledger.lost.isSome
def partRetiring (clog : Bool) (s : State) : Bool := if clog then s.nv.clog.retiring.isSome else s.nv.ledger.retiring.isSome
def partAhead (clog : Bool) (s : State) : Bool := if clog then s.nv.clog.ahead else s.nv.ledger.ahead
def partCur (clog : Bool) (s : State) : Nat := if clog then s.nv.clog.cur else s.nv.ledger.cur
def partUsed (clog : Bool) (s : State) : Nat := if clog then s.nv.clog.retired.length else s.nv.ledger.retired.length

/-- The retirement in progress is of a weak sector. -/
def partWeak (clog : Bool) (s : State) : Bool := if clog then s.nv.clog.weak else s.nv.ledger.weak

/-- Changes a partition's fields that do not depend on what it holds. -/
def setPart (clog : Bool) (f : {α : Type} → Part α → Part α) (s : State) : State :=
  if clog then setNv (fun v => { v with clog := f v.clog }) s else setNv (fun v => { v with ledger := f v.ledger }) s

/-! ### Loss (R502, R503) -/

/-- Cause byte of a LOST record. -/
def lossCode : LossCause → Nat
  | .noSpare => 1
  | .engine => 2

/-- Data of a LOST record (Table LV-8). -/
def lostData (clog : Bool) (cause : LossCause) (idx : Nat) (s : State) : List Byte :=
  let seq : W32 := if clog then s.nv.cseq + 1 else ((s.nv.queue.head?.map (·.1.lseq)).getD s.nv.lseq)
  [BitVec.ofNat 8 (1 + b2n clog), BitVec.ofNat 8 (lossCode cause)] ++
    bytesLE 2 (partBase clog + idx % partLen clog) ++ bytesLE 4 seq.toNat

/-- A record counted and mirrored as unlogged, without a cell of its own. -/
def unlogged (r : LRec) (s : State) : State := mirror r true (setNv (fun v => { v with unlogged := satInc v.unlogged }) s)

/-- The records that wait when the ledger is lost go unlogged, oldest first. -/
def drainQueue : List (LRec × Nat) → State → State
  | [], s => s
  | (r, _) :: q, s => drainQueue q (recordLost r s)

/-- The partition is marked lost, and its item's header minutes start anew (R504). -/
def markLost (clog : Bool) (cause : LossCause) (s : State) : State :=
  let k : Fin 2 := if clog then 1 else 0
  setNv (fun v => { v with hdrMin := v.hdrMin.set k.1 0, hdrEsc := v.hdrEsc.set k.1 false })
    (setPart clog (fun p => { p with lost := some cause, retiring := none, again := false, weak := false }) s)

/-- The LOST record of the first loss goes into fault cell 0; a write that fails while the ledger is lost is a cause of SAFE
(Table LV-11). -/
def firstCell (r : LRec) (s : State) : State :=
  if s.nv.cellsBad then setNv (fun v => { v with cellFail := v.cellFail || v.ledger.lost.isSome }) s else cellPut 0 r s

/-- The LOST record is queued like any other (R497, R498): with the ledger lost it goes unlogged, after the records that wait. -/
def lostRecord (first : Bool) (r : LRec) (s : State) : State :=
  if s.nv.ledger.lost.isSome then
    let s := drainQueue s.nv.queue (setNv (fun v => { v with queue := [] }) s)
    if first then unlogged r s else recordLost r s
  else queueRec r s

/-- A partition is lost: LOST, the cell, the event, and from then on the records. Cell 0 keeps the first loss only; a later loss is a
record like any other. -/
def lose (clog : Bool) (cause : LossCause) (idx : Nat) (s : State) : State :=
  if partLost clog s then s
  else
    let r := mkRec 0x0E 0x1F6 (lostData clog cause idx s) s.tstamp s
    let first := s.nv.cells[0].isNone
    let s := setNv (fun v => { v with lseq := v.lseq + 1 }) (markLost clog cause s)
    let s := if first then firstCell r s else s
    setItem (partItem clog) 0 (lostRecord first r (raise 0x1F6 (ledgerWord (3 + b2n clog) (b2n clog) 0) s))

/-! ### Retirement (R501) -/

/-- A sector is to be retired, `weak` when it can still be read: onto the lowest free spare, else the partition is lost. -/
def retireStart (clog : Bool) (idx : Nat) (again weak : Bool) (s : State) : State :=
  if partUsed clog s < partSpares clog then
    setPart clog (fun p => { p with retiring := some idx, again := again, weak := weak }) s
  else lose clog .noSpare idx s

/-- First LSEQ or CSEQ of a sector, if it holds one: a sector being filled whose first item is just failing starts with it. -/
def retireFirst (clog : Bool) (idx : Nat) (s : State) : Option W32 :=
  if clog then
    ((sectorFirst 255 6 idx s.nv.clog).map (·.cseq)).or (if idx = s.nv.clog.cur then some (s.nv.cseq + 1) else none)
  else
    ((sectorFirst 511 188 idx s.nv.ledger).map (·.lseq)).or
      (if idx = s.nv.ledger.cur then s.nv.queue.head?.map (·.1.lseq) else none)

/-- Data of a RETIRE record. Where the spec does not fix what a sector that is not being filled still holds, the first number
and the count of unreadable records are free. -/
def retireData (clog : Bool) (idx spare : Nat) (s : State) : List Byte × State :=
  let head := [BitVec.ofNat 8 (1 + b2n clog), BitVec.ofNat 8 spare] ++ bytesLE 2 (partBase clog + idx % partLen clog)
  if idx = partCur clog s ∧ (retireFirst clog idx s).isSome then
    (head ++ bytesLE 4 ((retireFirst clog idx s).getD 0).toNat ++ [0], s)
  else
    let r := draw s
    let first := (retireFirst clog idx s).getD (r.1.setWidth 32)
    (head ++ bytesLE 4 first.toNat ++ [(if partWeak clog s then (0 : Byte) else (r.1 >>> 32).setWidth 8)], r.2)

/-- A retirement ends: the spare takes the sector's place, which is entered in the stitch map (R523), a RETIRE record is queued
and 0x1F6 is raised. -/
def retireEnd (clog : Bool) (idx : Nat) (s : State) : State :=
  let spare := partSpare0 clog + partUsed clog s
  let d := retireData clog idx spare s
  let cause := if partWeak clog s then 8 else 9
  let s := mapAppend 3 cause (partBase clog + idx % partLen clog) spare
    (setPart clog (fun p => { p with retired := p.retired ++ [(idx, spare)], retiring := none, again := false, weak := false }) d.2)
  raise 0x1F6 (ledgerWord 1 (b2n clog) spare) (record 0x0C 0x1F6 d.1 s)

/-! ### Appending (R498, R499, R507) -/

/-- NVM byte address of the slot last used in the ledger sector being filled. -/
def ledgerAddr (s : State) : Nat :=
  16384 * (68 + s.nv.ledger.cur) + 32 + 32 * (slotCount 511 s.nv.ledger - 1)

/-- A record is written into the ledger: mirrored (R440), and delivered as the TAP4 block. -/
def ledgerWrite (r : LRec) (since : Nat) (s : State) : State :=
  let r := { r with gap := r.gap || s.nv.gapNext }
  let t := sat16 ((s.now - since) / 10)
  let s := setNv (fun v => { v with
    ledger := partPut 511 188 r v.ledger, gapNext := false, appMax := if v.appMax < t then t else v.appMax }) s
  tapOut 4 { bytes := lrecBytes r, tag := bytesBE 3 (ledgerAddr s) } (mirror r false s)

/-- Appends are attempted: not in RESET, and in PROVE once step 5 has checked the ledger (R507). -/
def appendRuns (s : State) : Bool :=
  s.sys.mode != .reset && (s.sys.mode != .prove || s.sys.nvmReady) && s.nv.ledger.lost.isNone && s.nv.ledger.retiring.isNone &&
    partRoom 511 s.nv.ledger

/-- The record appended next, with what stays queued: under SAFE cause CLOCK only the SAFE record (R507). -/
def appendNext (s : State) : Option ((LRec × Nat) × List (LRec × Nat)) :=
  if clockSafe s then
    (s.nv.queue.find? fun x => x.1.type = 4).map fun x => (x, s.nv.queue.erase x)
  else match s.nv.queue with
    | [] => none
    | x :: q => some (x, q)

/-- LEDGER_APPEND (R499, R501, R507). -/
def execLedgerAppend (ok : Bool) (s : State) : Result :=
  .next (
    if !appendRuns s then s
    else match appendNext s with
      | none => s
      | some (x, q) =>
        if ok then ledgerWrite x.1 x.2 (setNv (fun v => { v with queue := q }) s)
        else if clockSafe s then setNv (fun v => { v with queue := q }) s
        else retireStart false s.nv.ledger.cur true false s)

/-- The record whose readback failed is written again before the retirement ends (R501). -/
def writeAgain (s : State) : State :=
  match s.nv.queue with
  | [] => s
  | x :: q => if partRoom 511 s.nv.ledger then ledgerWrite x.1 x.2 (setNv (fun v => { v with queue := q }) s) else s

/-- RETIREMENT_DONE (R501): the ledger's before the change log's (Table LV-9). Its RECOVERY marker comes before the event of the
retirement (R458). -/
def execRetirementDone (s : State) : Result :=
  .next (
    if s.sys.mode = .reset || clockSafe s then s
    else match s.nv.ledger.retiring, s.nv.clog.retiring with
      | some i, _ =>
        retireEnd false i (recovery 5 0 (if s.nv.ledger.again then writeAgain s else s))
      | none, some i => retireEnd true i s
      | none, none => s)

/-- APPEND_ENGINE_TIMEOUT (R502, R503). -/
def execAppendEngineTimeout (clog : Bool) (s : State) : Result :=
  .next (
    if s.sys.mode = .reset || clockSafe s || (s.sys.mode = .prove && !s.sys.nvmReady) then s
    else lose clog .engine (partCur clog s) s)

/-- ERASE_AHEAD (R495, R500, R501): a failed erase retires the sector. -/
def execEraseAhead (clog ok : Bool) (s : State) : Result :=
  .next (
    if s.sys.mode = .reset || clockSafe s || partLost clog s || partRetiring clog s || partAhead clog s then s
    else if ok then setPart clog (fun p => partWorn (partErased (partCap clog) (partLen clog) p)) s
    else retireStart clog ((partCur clog s + 1) % partLen clog) false false s)

/-! ### The change log (R493, R495, R503) -/

/-- NVM byte address of the slot last used in the change-log sector being filled. -/
def clogAddr (s : State) : Nat := 16384 * (60 + s.nv.clog.cur) + 64 + 64 * (slotCount 255 s.nv.clog - 1)

/-- An entry takes the next slot, with a fresh CSEQ, and is delivered as the TAP5 block. -/
def clogPut (e : CEnt) (s : State) : State :=
  let e := { e with cseq := s.nv.cseq + 1 }
  let s := setNv (fun v => { v with cseq := v.cseq + 1, clog := partPut 255 6 e v.clog }) s
  tapOut 5 { bytes := centBytes e, tag := bytesBE 3 (clogAddr s) } s

/-- An entry is written and read back, with a fresh CSEQ; a readback that fails retires the sector at once, which the command
waits for (R501). -/
def clogWrite (e : CEnt) (ok : Bool) (s : State) : Option State :=
  if s.nv.clog.lost.isSome then none
  else
    let s := if ok then s else retireStart true s.nv.clog.cur false false s
    if s.nv.clog.lost.isSome then none
    else
      let s := match s.nv.clog.retiring with
        | some i => retireEnd true i s
        | none => s
      let s := if partRoom 255 s.nv.clog then s else setPart true (fun p => partWorn (partErased 255 6 p)) s
      some (clogPut e s)

/-- The state after a change-log write that may have lost the partition. -/
def clogFailed (ok : Bool) (s : State) : State :=
  if s.nv.clog.lost.isSome || ok then s else retireStart true s.nv.clog.cur false false s

/-! ### The fault-cell header (R504) -/

/-- Minutes that an item of Table SY-9 has stood, those before a reset included. -/
def itemMinutes (i : Fin 10) (s : State) : Nat :=
  s.sys.deg[i.1].before + (match s.sys.deg[i.1].start with
    | some t => (s.now - t) / 60000000
    | none => 0)

/-- The header entry of items 8 and 9. -/
def minuteStep (s : State) (k : Fin 2) : State :=
  let i : Fin 10 := if k = 0 then 8 else 9
  let m := sat16 (itemMinutes i s)
  if bitOf s.sys.degsrc i.1 ∧ s.nv.hdrMin[k.1] < m then setNv (fun v => { v with hdrMin := v.hdrMin.set k.1 m }) s else s

/-- FAULT_CELL_MINUTE (R504): the header is written at the whole minute, `ok` when the store can be written. -/
def execFaultCellMinute (ok : Bool) (s : State) : Result :=
  .next (
    if s.sys.mode = .reset || clockSafe s then s
    else
      let s := (List.finRange 2).foldl minuteStep s
      setNv (fun v => { v with cellsBad := !ok, cellFail := v.cellFail || (!ok && v.ledger.lost.isSome) }) s)

/-! ### Fetching (R496, R468, R493, R678) -/

/-- A number of free words. -/
def drawWords : Nat → State → List W16 × State
  | 0, s => ([], s)
  | n + 1, s =>
    let r := draw s
    let t := drawWords n r.2
    (r.1.setWidth 16 :: t.1, t.2)

/-- A fetch ends with its result and its words. -/
def fetched (res : Nat) (ws : List W16) (s : State) : State :=
  setNv (fun v => { v with ready := true, res := BitVec.ofNat 3 res, rdata := ws }) s

/-- The item whose number LG_RSEL gives. -/
def fetchSel (s : State) : W32 := join32 s.nv.rsel0 s.nv.rsel1

/-- A fetch of an item by its number: not yet written above the newest, overwritten when no longer retained, and with a wrong
CRC of `n` words whose content is open. -/
def fetchItem {α : Type} (num : α → W32) (bytes : α → List Byte) (n : Nat) (p : Part α) (crcOk : Bool) (s : State) : State :=
  match p.recs.find? fun x => num x = fetchSel s with
  | some x =>
    if crcOk then fetched 0 (wordsOf (bytes x)) s
    else
      let r := drawWords n s
      fetched 3 r.1 r.2
  | none =>
    match p.recs.getLast? with
    | none => fetched 1 [] s
    | some y => fetched (if (num y).toNat < (fetchSel s).toNat then 1 else 2) [] s

/-- A ledger record is fetched. -/
def fetchLedger (crcOk : Bool) (s : State) : State := fetchItem (·.lseq) lrecBytes 16 s.nv.ledger crcOk s

/-- A change-log entry is fetched. -/
def fetchClog (crcOk : Bool) (s : State) : State := fetchItem (·.cseq) centBytes 32 s.nv.clog crcOk s

/-- FETCH_LEDGER_RECORD (R496). -/
def execFetchLedgerRecord (p : Port) (crcOk : Bool) (s : State) : Result := .next (portWrite p 0x1C9 (fetchLedger crcOk) s)

/-- The cell a number names; a number above 15 names none. -/
def cellAt (n : Nat) (s : State) : Option LRec := if h : n < 16 then s.nv.cells[n] else none

/-- A fault cell is fetched by the majority of its copies; a copy that disagrees is rewritten (R468, Table LV-11). -/
def fetchCell (agree : Bool) (s : State) : State :=
  let n := (fetchSel s).toNat
  let s := if agree || 16 ≤ n then s else raiseRec 0x1F6 (ledgerWord 5 0 n) s
  match cellAt n s with
  | some r => fetched 0 (wordsOf (lrecBytes r)) s
  | none => fetched 4 [] s

/-- FETCH_FAULT_CELL (R468). -/
def execFetchFaultCell (p : Port) (agree : Bool) (s : State) : Result := .next (portWrite p 0x1C9 (fetchCell agree) s)

/-- FETCH_CHANGE_LOG_ENTRY (R493). -/
def execFetchChangeLogEntry (p : Port) (crcOk : Bool) (s : State) : Result :=
  .next (portWrite p 0x1C9 (fetchClog crcOk) s)

/-- A read of LG_RDATA (R678): the next word, 0 after the last; in RESET every read returns 0 (R64). -/
def rdataRead (p : Port) (s : State) : State :=
  if s.sys.mode = .reset then portData p 0 s
  else match s.nv.rdata with
    | [] => portData p 0 s
    | w :: q => portData p w (setNv (fun v => { v with rdata := q }) s)

/-- LG_RDATA_READ (R678). -/
def execLgRdataRead (p : Port) (s : State) (cycle : ReadCycle := {}) : Result := .next (readCycle p cycle (rdataRead p) s)

/-- A write of LG_FCCLR, KEY 0x3E (R505). -/
def cellsClear (p : Fin 2) (value : W16) (s : State) : State :=
  if keyOf value = 0x3E ∧ s.nv.login[p.1].on ∧ s.nv.ledger.lost.isNone ∧ s.nv.clog.lost.isNone then
    setNv (fun v => { v with cells := Vector.replicate 16 none, cellNext := 1 }) s
  else s

/-- FAULT_CELL_CLEAR (R505). -/
def execFaultCellClear (p : Port) (value : W16) (s : State) : Result := .next (portWrite p 0x1CF (cellsClear p.ix value) s)

end Sys2Proof.Machine
end

