-- ==== Sys2Proof/Machine/Vault.lean ====
section
/-! DEFINITION. Vault records, login, passwords and staging (chapter 13). -/

namespace Sys2Proof.Machine

open Sys2Proof

/-! ### Vault records (R470 to R472) -/

/-- Changes the working vault items. -/
def setVault (f : Vault → Vault) (s : State) : State := setNv (fun v => { v with vault := f v.vault }) s

/-- Place of a vault sector in the pool 52 to 59. -/
def poolIx (k : Nat) : Fin 8 := ⟨k % 8, by omega⟩

/-- The vault is written: not in RESET nor under SAFE cause CLOCK (R507), and in PROVE once step 5 has read it. -/
def vaultRuns (s : State) : Bool :=
  s.sys.mode != .reset && !clockSafe s && (s.sys.mode != .prove || s.sys.nvmReady)

/-- The next erased page (R471): 64 pages in each sector of the pair; the sector entered has been erased, and after each 20,000
erases a wear move is due (R472). -/
def pageNext (v : Nv) : Nv :=
  let p := (v.page + 1) % 128
  if p % 64 = 0 then
    let i := poolIx (v.pair - 52 + p / 64)
    let w := upd v.wear i (· + 1)
    { v with page := p, wear := w, moveDue := v.moveDue || w[i.1] % 20000 = 0 }
  else { v with page := p }

/-- A vault record is written and read back good. -/
def vaultStored (v : Nv) : Nv := { pageNext v with stored := v.vault, gen := v.gen + 1, pageFails := 0 }

/-- SAFE because no vault record can be written (Table LV-11, R353): no further sequence mark is written. -/
def vaultDead (s : State) : State :=
  enterSafe 3 0x0004 { s with
    nv := { s.nv with vault := { s.nv.vault with marks := s.nv.stored.marks } }, tg := { s.tg with markBad := true } }

/-- A page fails its readback: the same content goes to the following page (R471), and when every page of the pair has failed in
a row no record can be written, which is one cause of SAFE however often it is found again. -/
def vaultFailed (s : State) : State :=
  let s := setNv (fun v => { pageNext v with pageFails := v.pageFails + 1 }) s
  if 128 ≤ s.nv.pageFails && !s.tg.markBad then vaultDead (setNv (fun v => { v with pageFails := 0 }) s) else s

/-- VAULT_WRITE (R471); a mark written by it lets the telegrams go that waited for it (R324). -/
def execVaultWrite (ok : Bool) (s : State) : Result :=
  .next (
    if !vaultRuns s || s.nv.vault = s.nv.stored then s
    else if ok then sendWaiting (setNv vaultStored s) else vaultFailed s)

/-- VAULT_WEAR_MOVE (R472, Table LV-9): the pair moves on, wrapping from 59 to 52, and the old pair is erased last. -/
def execVaultWearMove (s : State) : Result :=
  .next (
    if !vaultRuns s || !s.nv.moveDue || s.nv.vault ≠ s.nv.stored || !s.nv.queue.isEmpty || s.nv.ledger.retiring.isSome ||
        s.nv.clog.retiring.isSome then s
    else setNv (fun v =>
      let i := poolIx (v.pair - 52)
      let j := poolIx (v.pair - 51)
      { v with pair := if 58 ≤ v.pair then 52 else v.pair + 2, page := 0, moveDue := false,
               wear := upd (upd v.wear i (· + 1)) j (· + 1) }) s)

/-! ### The current image as the banks hold it -/

/-- Bytes of a configuration bank. -/
def bankBytes (b o n : Nat) (s : State) : List Byte := memReadList 0xFF s.nv.mem (confBase b + o) n

/-- LENGTH of the image in a bank. -/
def bankLen (b : Nat) (s : State) : Nat := natLE (bankBytes b 8 4 s)

/-- The check code of a bank's image (R476): its trailer; 0xFFFFFFFF while the bank holds no image. -/
def bankCode (b : Nat) (s : State) : W32 :=
  let n := bankLen b s
  if 20 ≤ n ∧ n ≤ 262144 then BitVec.ofNat 32 (natLE (bankBytes b (n - 4) 4 s)) else 0xFFFFFFFF

/-- IMAGEID of a bank's image: the first four bytes of DEVICE, the first record. -/
def bankImageId (b : Nat) (s : State) : W32 := BitVec.ofNat 32 (natLE (bankBytes b 20 4 s))

/-- The current banks. -/
def curBank (s : State) : Nat := b2n s.nv.vault.bank
def curProg (s : State) : Nat := b2n s.nv.vault.pbank

/-! ### Login (R477 to R482) -/

/-- Changes a port's login. -/
def setLogin (p : Fin 2) (f : Login → Login) (s : State) : State := setNv (fun v => { v with login := upd v.login p f }) s

/-- An ACCESS record (Table LV-8). -/
def access (p : Fin 2) (kind mins : Nat) (s : State) : State :=
  record 0x0A 0xFFFF ([BitVec.ofNat 8 (p.1 + 1), BitVec.ofNat 8 kind] ++ bytesLE 2 mins ++ [0]) s

/-- Two characters into a password buffer (R482). -/
def pwWord (v : W16) (b : PwBuf) : PwBuf :=
  if 16 ≤ b.words ∨ b.ended then b
  else
    let lo : Byte := v.setWidth 8
    let hi : Byte := (v >>> 8).setWidth 8
    if lo = 0 then { b with words := b.words + 1, ended := true }
    else if hi = 0 then { chars := b.chars ++ [lo], words := b.words + 1, ended := true }
    else { chars := b.chars ++ [lo, hi], words := b.words + 1, ended := false }

/-- A port's password buffer is cleared. -/
def pwClear (p : Fin 2) (s : State) : State := setLogin p (fun l => { l with pw := {} }) s

/-- A write of CV_PWD (R482). -/
def pwWrite (p : Fin 2) (value : W16) (s : State) : State := setLogin p (fun l => { l with pw := pwWord value l.pw }) s

/-- PASSWORD_BUFFER_WRITE (R482). -/
def execPasswordBufferWrite (p : Port) (value : W16) (s : State) : Result := .next (portWrite p 0x1A3 (pwWrite p.ix value) s)

/-- An uppercase hex digit. -/
def hexDigit (n : Nat) : Byte := BitVec.ofNat 8 (if n < 10 then 48 + n else 55 + n)

/-- The factory password (R478). -/
def factoryPw (uid : BitVec 64) : List Byte :=
  (List.range 16).map fun i => hexDigit (uid.toNat / 16 ^ (15 - i) % 16)

/-- The factory password stands. -/
def defPwd (v : Vault) : Bool := v.hash = List.replicate 32 0

/-- A password is right (R477 to R479). -/
def pwRight (chars : List Byte) (s : State) : Bool :=
  if defPwd s.nv.vault then chars = factoryPw s.sys.uid else sha256 (s.nv.vault.salt ++ chars) = s.nv.vault.hash

/-- Lock minutes that have run out since the last one counted (R480). -/
def lockTick (s : State) : State :=
  match s.nv.lockNext with
  | none => s
  | some t =>
    if s.now < t then s
    else
      let m := (s.now - t) / 60000000 + 1
      let rest := BitVec.ofNat 16 (s.nv.vault.lockMin.toNat - m)
      setNv (fun v => { v with
        vault := { v.vault with lockMin := rest }, lockNext := if rest = 0 then none else some (t + 60000000 * m) }) s

/-- A wrong password; the fifth in a row locks login on both ports. -/
def wrongPw (p : Fin 2) (s : State) : State :=
  let s := access p 2 0 (setVault (fun v => { v with wrong := v.wrong + 1 }) s)
  if s.nv.vault.wrong.toNat < 5 then s
  else
    let k := satInc s.nv.vault.k
    let mins := 10 * 2 ^ (min k.toNat 8 - 1)
    access p 3 mins
      (setNv (fun v => { v with
        vault := { v.vault with wrong := 0, k := k, lockMin := BitVec.ofNat 16 mins }, lockNext := some (s.now + 60000000) }) s)

/-- What LOGIN does: refused without a count while locked. -/
def loginDo (p : Fin 2) (s : State) : State :=
  let s := lockTick s
  let chars := s.nv.login[p.1].pw.chars
  let s := pwClear p s
  if s.nv.vault.lockMin ≠ 0 then s
  else if pwRight chars s then
    access p 1 0 (setVault (fun v => { v with wrong := 0, k := 0 }) (setLogin p (fun l => { l with on := true, last := s.now }) s))
  else wrongPw p s

/-- A CV_CMD write with its key; any other key ignores it. -/
def cvCommand (p : Port) (key : Byte) (f : State → State) (s : State) : Result :=
  .next (portWrite p 0x1A4 (fun s => if key = 0xC7 then f s else s) s)

/-- LOGIN (R479, R480). -/
def execLogin (p : Port) (key : Byte) (s : State) : Result := cvCommand p key (loginDo p.ix) s

/-- LOGOUT (R479, R482). -/
def execLogout (p : Port) (key : Byte) (s : State) : Result := cvCommand p key (endLogin p.ix 1) s

/-- LOGIN_TIMEOUT (R479). -/
def execLoginTimeout (p : Port) (s : State) : Result :=
  .next (
    let l := s.nv.login[p.ix.1]
    if l.on && decide (l.last + 900000000 ≤ s.now) then endLogin p.ix 2 s else s)

/-- LOGIN_LOCK_EXPIRY (R480): minutes run whenever the Darore is out of RESET. -/
def execLoginLockExpiry (s : State) : Result := .next (if s.sys.mode = .reset then s else lockTick s)

/-! ### Setting a password (R477, R481) -/

/-- A buffer of 8 to 32 valid characters. -/
def pwValid (l : List Byte) : Bool :=
  decide (8 ≤ l.length) && decide (l.length ≤ 32) && l.all fun c => decide (0x20 ≤ c.toNat) && decide (c.toNat ≤ 0x7E)

/-- BANKS of a change-log entry (Table LV-6). -/
def banksByte (newBank newProg : Nat) (s : State) : Byte :=
  BitVec.ofNat 8 (newBank + 2 * newProg + 16 * curBank s + 32 * curProg s)

/-- The PASSWORD entry (R481, R493): the current image's identity, length and program. -/
def pwEntry (p : Fin 2) (s : State) : CEnt :=
  { cseq := 0, origin := BitVec.ofNat 8 (p.1 + 1), state := 0x0F, type := 2, banks := banksByte (curBank s) (curProg s) s,
    loadNo := s.nv.vault.loadNo, time := s.tstamp, code := 0, oldCode := bankCode (curBank s) s,
    imageId := bankImageId (curBank s) s, length := BitVec.ofNat 32 (bankLen (curBank s) s), pcrc := s.cfg.progCrc }

/-- The new password takes effect: a free salt and the hash, in a vault record written at once. -/
def pwStore (chars : List Byte) (vaultOk : Bool) (s : State) : State :=
  let salt := (Config.freeSalt s.free).take 16
  let s := setVault (fun v => { v with salt := salt, hash := sha256 (salt ++ chars) }) { s with free := s.free + 1 }
  if vaultOk then setNv vaultStored s else vaultDead s

/-- What SETPWD does. -/
def setpwdDo (p : Fin 2) (entryOk vaultOk : Bool) (s : State) : State :=
  let chars := s.nv.login[p.1].pw.chars
  let s := pwClear p s
  if !s.nv.login[p.1].on then setResult 0x10 p 0 0 s
  else if !pwValid chars then setResult 0x26 p 0 0 s
  else match clogWrite (pwEntry p s) entryOk s with
    | none => setResult 0x28 p 0 0 (clogFailed entryOk s)
    | some s => endLogin (1 - p) 4 (access p 5 0 (pwStore chars vaultOk s))

/-- SETPWD (R481). -/
def execSetpwd (p : Port) (key : Byte) (entryOk vaultOk : Bool) (s : State) : Result :=
  cvCommand p key (setpwdDo p.ix entryOk vaultOk) s

/-! ### Staging (R483 to R487) -/

/-- The mode allows staging (R483). -/
def stageMode (s : State) : Bool := inService s || s.sys.mode = .configure

/-- CV_SSTAT.LAST. -/
def setLast (k : Nat) (s : State) : State := setNv (fun v => { v with sLast := BitVec.ofNat 3 k }) s

/-- What CLEARSTAGE does (R484). -/
def clearstageDo (p : Fin 2) (s : State) : State :=
  if s.nv.erasing || s.nv.commit.isSome then setLast 4 s
  else if !s.nv.login[p.1].on || !stageMode s then setLast 5 s
  else access p 6 0 (setNv (fun v => { v with erasing := true, prep := false, dirD := [], dirP := [] }) s)

/-- CLEARSTAGE (R484). -/
def execClearstage (p : Port) (key : Byte) (s : State) : Result := cvCommand p key (clearstageDo p.ix) s

/-- First bytes of the staging banks (R483). -/
def stageConf (s : State) : Nat := confBase (1 - curBank s)
def stageProg (s : State) : Nat := progBase (1 - curProg s)

/-- CLEARSTAGE_DONE (R484): both staging banks are erased and prepared. -/
def execClearstageDone (s : State) : Result :=
  .next (
    if !s.nv.erasing || s.sys.mode = .reset || clockSafe s then s
    else
      let m := memErase s.nv.mem (stageConf s) (stageConf s + 262144)
      setNv (fun v => { v with mem := memErase m (stageProg s) (stageProg s + 98304), erasing := false, prep := true, stageBad := false }) s)

/-- A write of CV_SSEL (R485). -/
def chunkOpen (value : W16) (s : State) : State :=
  setNv (fun v => { v with ssel := value &&& 0x83FF, chunk := { opened := true } }) { s with hb := { s.hb with chunkBy := 0 } }

/-- CHUNK_OPEN (R485). -/
def execChunkOpen (p : Port) (value : W16) (s : State) : Result := .next (portWrite p 0x1A5 (chunkOpen value) s)

/-- One word into the open chunk; words after the 128th are ignored (R485). -/
def chunkWord (p : Fin 2) (w : W16) (s : State) : State :=
  if s.nv.chunk.opened ∧ s.nv.chunk.words.length < 128 then
    setNv (fun v => { v with chunk := { v.chunk with words := v.chunk.words ++ [w] } })
      { s with hb := { s.hb with chunkBy := putBit s.hb.chunkBy p.1 true } }
  else s

/-- CHUNK_DATA (R485). -/
def execChunkData (p : Port) (value : W16) (s : State) : Result := .next (portWrite p 0x1A6 (chunkWord p.ix value) s)

/-- The chunk is PROGRAM, not DRCF; its index; the bytes of its words. -/
def chunkProg (s : State) : Bool := bitOf s.nv.ssel 15
def chunkIx (s : State) : Nat := fld s.nv.ssel 9 0
def chunkBytes (s : State) : List Byte := s.nv.chunk.words.flatMap fun w => bytesLE 2 w.toNat

/-- The chunk is in the directory already. -/
def chunkStaged (s : State) : Bool := if chunkProg s then s.nv.dirP.contains (chunkIx s) else s.nv.dirD.contains (chunkIx s)

/-- LAST of a completed chunk (R486): the reasons in the order of that rule, 1 when it is stored; a completion with no chunk open
is a short one. -/
def chunkLast (p : Fin 2) (crc : W32) (nvmOk : Bool) (s : State) : Nat :=
  if !s.nv.chunk.opened || decide (s.nv.chunk.words.length < 128) then 2
  else if crc32c (chunkBytes s) ≠ crc then 2
  else if (if chunkProg s then 383 else 1023) < chunkIx s then 3
  else if chunkStaged s then 3
  else if !s.nv.prep || s.nv.commit.isSome then 4
  else if !s.nv.login[p.1].on || !stageMode s then 5
  else if nvmOk then 1 else 6

/-- The chunk is written and marked staged. -/
def chunkStore (s : State) : State :=
  let base := if chunkProg s then stageProg s else stageConf s
  let m := memWriteList 0xFF s.nv.mem (base + 256 * chunkIx s) (chunkBytes s)
  let i := chunkIx s
  if chunkProg s then setNv (fun v => { v with mem := m, dirP := v.dirP ++ [i] }) s
  else setNv (fun v => { v with mem := m, dirD := v.dirD ++ [i] }) s

/-- HB_STAT.MIXCHUNK at the completion of a chunk (R687). -/
def mixNote (s : State) : State :=
  if s.hb.chunkBy = 0 then s else { s with hb := { s.hb with mixChunk := s.hb.chunkBy = 3 } }

/-- What completing a chunk does. -/
def chunkEnd (p : Fin 2) (hi : W16) (nvmOk : Bool) (s : State) : State :=
  let k := chunkLast p (join32 s.nv.scrc0 hi) nvmOk s
  let s := setLast k (if k = 1 then chunkStore s else s)
  setNv (fun v => { v with chunk := { v.chunk with opened := false } }) (mixNote s)

/-- CHUNK_COMPLETE (R486). -/
def execChunkComplete (p : Port) (value : W16) (nvmOk : Bool) (s : State) : Result :=
  .next (portWrite p 0x1A8 (chunkEnd p.ix value nvmOk) s)

end Sys2Proof.Machine
end

