-- ==== Sys2Proof/Machine/Drcf.lean ====
section
/-! DEFINITION. The DRCF image: its records and the configuration it describes (chapter 13). -/

namespace Sys2Proof.Machine

open Sys2Proof

/-- A record of an image (R474): its value, and whether its pad bytes are 0. -/
structure Rec where
  tag : Nat
  index : Nat
  vlen : Nat
  val : List Byte
  pad : Bool
  deriving DecidableEq, Repr

/-- The records of a byte string, and the header of a record that the bytes cut short. -/
def readRecs : Nat → List Byte → List Rec × Option (Nat × Nat)
  | 0, _ => ([], none)
  | n + 1, l =>
    if l.isEmpty then ([], none)
    else
      let tag := leAt l 0 1
      let index := leAt l 1 1
      let vlen := leAt l 2 2
      let full := (vlen + 3) / 4 * 4
      if l.length < 4 + full then ([], some (tag, index))
      else
        let body := l.drop 4
        let r : Rec := { tag := tag, index := index, vlen := vlen, val := body.take vlen, pad := ((body.take full).drop vlen).all (· = 0) }
        let rest := readRecs n (body.drop full)
        (r :: rest.1, rest.2)

/-- The records of an image of LENGTH bytes (R473). -/
def imageRecs (img : List Byte) : List Rec × Option (Nat × Nat) :=
  readRecs img.length ((img.take (img.length - 4)).drop 16)

/-- Word `k` of a value. -/
def Rec.w (r : Rec) (k : Nat) : W16 := BitVec.ofNat 16 (leAt r.val (2 * k) 2)

/-- Number of `n` bytes at an offset of a value. -/
def Rec.n (r : Rec) (o n : Nat) : Nat := leAt r.val o n

/-- A table entry set by a record's index; an index without an entry changes nothing. -/
def putAt {α : Type} {n : Nat} (v : Vector α n) (i : Nat) (x : α) : Vector α n := if h : i < n then v.set i x else v

/-- Values of the records (Table LV-3). -/
def inputOf (r : Rec) : InputCfg := { icfg := r.w 0, ith := r.w 1, ihy := r.w 2, inom := r.w 3 }
def headCfgOf (r : Rec) : HeadCfg :=
  { cfg := r.w 0, pfilt := r.w 1, tstand := r.w 2, dsys := r.w 3, vmax := r.w 4,
    mask1 := join32 (r.w 5) (r.w 6), mask2 := join32 (r.w 7) (r.w 8) }
def berthOf (r : Rec) : BerthCfg :=
  { cfg := r.w 0, amin := r.w 1, amax := r.w 2, stop := r.w 3, tstill := r.w 4, doors := r.w 5 }
def chanOf (r : Rec) : ChanCfg :=
  { cfg := r.w 0, time := r.w 1, disc := r.w 2, ramp := r.w 3, rdly := r.w 4, vmax := r.w 5, vtol := r.w 6, vcreep := r.w 7,
    tscale := r.w 8, degcyc := r.w 9, degtime := r.w 10 }
def tgOf (r : Rec) : TgCfg :=
  { node := r.w 0, cpeer0 := r.w 1, cpeer1 := r.w 2, cmask := vec fun i => r.w (3 + i.1), skew := r.w 7, win := r.w 8,
    efresh := r.w 9, cfresh := r.w 10, eslim := r.w 11, cslim := r.w 12 }
def enOf (r : Rec) : EnCfg :=
  { phy := r.w 0, etype := r.w 1, mac := vec fun i => r.w (2 + i.1), dmac := vec fun i => r.w (5 + i.1), vlan := r.w 8, cycle := r.w 9 }
def cnOf (r : Rec) : CnCfg := { ctl := r.w 0, cycle := r.w 1, nbt := r.w 2, dbt := r.w 3, sjw := r.w 4, tdc := r.w 5 }
def checkOf (r : Rec) : CkCfg := { cfg := r.w 0, par := r.w 1, exp := join32 (r.w 2) (r.w 3) }
def eventOf (r : Rec) : EventCfg :=
  { depth0 := r.w 0, depth1 := r.w 1, cls := (List.range 32).map fun i => r.w (2 + i), codes := slice r.val 68 512 }
def seqrOf (r : Rec) : SeqCfg :=
  { ilen := BitVec.ofNat 32 (r.n 0 4), dlen := BitVec.ofNat 32 (r.n 4 4), entry := r.w 4, vbase := r.w 5,
    cfg := pack [(0, r.n 12 1 % 128), (8, r.n 13 1 % 8)] }

/-- What a record puts into the configuration. -/
def imagePut (c : Image) (r : Rec) : Image :=
  if r.tag = 0x01 then { c with imageId := BitVec.ofNat 32 (r.n 0 4), site := r.val.drop 4 }
  else if r.tag = 0x02 then { c with input := putAt c.input r.index (inputOf r) }
  else if r.tag = 0x03 then { c with head := putAt c.head r.index (headCfgOf r) }
  else if r.tag = 0x04 then { c with tack := r.val }
  else if r.tag = 0x05 then { c with section_ := putAt c.section_ r.index (r.w 0) }
  else if r.tag = 0x06 then { c with berth := putAt c.berth r.index (berthOf r) }
  else if r.tag = 0x07 then { c with chan := putAt c.chan r.index (chanOf r) }
  else if r.tag = 0x08 then { c with estop := r.w 0 }
  else if r.tag = 0x09 then { c with tg := tgOf r }
  else if r.tag = 0x0A then { c with en := enOf r }
  else if r.tag = 0x0B then { c with cn := cnOf r }
  else if r.tag = 0x0C then { c with ck := putAt c.ck (r.index - 4) (checkOf r) }
  else if r.tag = 0x0D then { c with event := some (eventOf r) }
  else if r.tag = 0x0E then { c with ledger := r.w 0 }
  else if r.tag = 0x0F then
    { c with progBank := r.w 0, progLen := BitVec.ofNat 32 (r.n 2 4), progCrc := BitVec.ofNat 32 (r.n 6 4) }
  else if r.tag = 0x10 then { c with seqr := seqrOf r }
  else c

/-- The configuration of an image (R475). -/
def imageOf (img : List Byte) : Image := (imageRecs img).1.foldl imagePut {}

/-- The image of a bank, as far as its LENGTH lies within the bank. -/
def bankImage (b : Nat) (s : State) : List Byte := bankBytes b 0 (min (bankLen b s) 262144) s

/-- MAGIC, FORMAT, PART and LENGTH of an image as given (R473). -/
def headerOk (img : List Byte) : Bool :=
  (img.take 4 = [0x44, 0x52, 0x43, 0x46]) && leAt img 4 2 = 0x0001 && leAt img 6 2 = 0x6416 &&
    leAt img 8 4 = img.length && decide (20 ≤ img.length) && leAt img 14 2 = 0

/-- The trailer of an image, and the CRC-32C it must equal. -/
def trailerOf (img : List Byte) : W32 := BitVec.ofNat 32 (leAt img (img.length - 4) 4)
def imageCrc (img : List Byte) : W32 := crc32c (img.take (img.length - 4))

/-- The PROGREF record of an image: bank, length and CRC (Table LV-3). -/
def progRef (img : List Byte) : Option (Nat × Nat × W32) :=
  ((imageRecs img).1.find? fun r => r.tag = 0x0F).map fun r => (r.n 0 2, r.n 2 4, BitVec.ofNat 32 (r.n 6 4))

end Sys2Proof.Machine
end

