-- ==== Sys2Proof/Machine/CommitRules.lean ====
section
/-! DEFINITION. The structure of an image and the commit rules of every chapter (R490). A rule is a test that must hold, with the
TAG and INDEX that CV_RESREC names when it does not. -/

namespace Sys2Proof.Machine

open Sys2Proof

/-- A rule: whether it holds, and the record it names. -/
abbrev Rule := Bool × Nat × Nat

/-- Lies in a range. -/
def within (v lo hi : Nat) : Bool := decide (lo ≤ v) && decide (v ≤ hi)

/-- A word as a number has no bit outside a mask. -/
def noBits (w mask : W16) : Bool := w &&& ~~~mask = 0

/-! ### Structure (R474, Table LV-5: ORDER before MISSING) -/

/-- The indexes and the length that Table LV-3 gives a TAG; the length of TACK follows its own NLTOT. -/
def recForm (r : Rec) : Option (Nat × Nat × Nat) :=
  match r.tag with
  | 0x01 => some (0, 0, 36)
  | 0x02 => some (0, 63, 8)
  | 0x03 => some (0, 31, 18)
  | 0x04 => some (0, 0, 144 + 4 * (r.n 4 2 % 512))
  | 0x05 => some (0, 31, 2)
  | 0x06 => some (0, 7, 12)
  | 0x07 => some (0, 15, 22)
  | 0x08 => some (0, 0, 2)
  | 0x09 => some (0, 0, 26)
  | 0x0A => some (0, 0, 20)
  | 0x0B => some (0, 0, 12)
  | 0x0C => some (4, 7, 8)
  | 0x0D => some (0, 0, 580)
  | 0x0E => some (0, 0, 2)
  | 0x0F => some (0, 0, 10)
  | 0x10 => some (0, 0, 16)
  | _ => none

/-- A record's header, length and padding are right. -/
def recOk (r : Rec) : Bool :=
  match recForm r with
  | none => false
  | some (lo, hi, len) => within r.index lo hi && r.vlen = len && r.pad

/-- The first record whose header, padding or position is wrong. -/
def orderFault (last : Option Nat) : List Rec → Option (Nat × Nat)
  | [] => none
  | r :: rs =>
    let k := 256 * r.tag + r.index
    if !recOk r || last.any (fun l => decide (k ≤ l)) then some (r.tag, r.index) else orderFault (some k) rs

/-- The structure fails ORDER, naming a record; a wrong NREC or a remainder names none. -/
def structFault (img : List Byte) : Option (Nat × Nat) :=
  let p := imageRecs img
  ((orderFault none p.1).or p.2).or (if leAt img 12 2 = p.1.length && img.length % 4 = 0 then none else some (0, 0))

/-- The first required record absent. -/
def missingTag (rs : List Rec) : Option Nat :=
  [0x01, 0x04, 0x09, 0x0A, 0x0B, 0x0F, 0x10].find? fun t => !rs.any fun r => r.tag = t

/-! ### Lanes and heads (R103, R106, R110, R111, R154, R162, R173, R176, R184) -/

/-- Rules of an INPUT record. -/
def inputRules (x : InputCfg) : List Bool :=
  let mode := fld x.icfg 1 0
  let th := x.ith.toNat
  let hy := x.ihy.toNat
  [noBits x.icfg 0x0007, mode != 3] ++
  (if mode = 1 then
    [within th 200 2400, within hy 5 200, x.inom == 0, if bitOf x.icfg 2 then decide (110 + hy ≤ th) else decide (th + hy ≤ 2400)]
  else if mode = 2 then
    [within th 50 1800, within hy 5 300, within x.inom.toNat 200 2000, decide (th + hy < x.inom.toNat)]
  else [])

/-- A head of an image is enabled; its inputs. -/
def hOn (x : HeadCfg) : Bool := bitOf x.cfg 15
def hInA (x : HeadCfg) : Nat := fld x.cfg 5 0
def hInB (x : HeadCfg) : Nat := fld x.cfg 11 6

/-- A head binds an input. -/
def binds (x : HeadCfg) (n : Nat) : Bool := hOn x && (hInA x = n || hInB x = n)

/-- The mode of an input in an image. -/
def modeOf (c : Image) (n : Nat) : Nat := fld (c.input[n % 64]'(by omega)).icfg 1 0

/-- Rules of the HEAD record of head `h`; a rule across two heads falls due at the later one. -/
def headRules (c : Image) (h : Fin 32) : List Bool :=
  let x := c.head[h.1]
  [noBits x.cfg 0x8FFF, x.mask2 == ~~~x.mask1] ++
  (if hOn x then
    [hInA x != hInB x, hInA x / 8 != hInB x / 8, modeOf c (hInA x) != 0, modeOf c (hInB x) != 0,
     (List.finRange 32).all (fun k => !(decide (k.1 < h.1)) || (!binds c.head[k.1] (hInA x) && !binds c.head[k.1] (hInB x))),
     within x.pfilt.toNat 5 100, within x.tstand.toNat 50 1000, within x.dsys.toNat 10 400, within x.vmax.toNat 10 400]
  else [])

/-! ### Tack table and sections (R154, R184, R189) -/

/-- A word of the tack region by walker byte address. -/
def tkWord (c : Image) (a : Nat) : W32 := BitVec.ofNat 32 (leAt c.tack (a - 0x7E000) 4)

/-- Total link words; a head's directory word, its pointer and its count of links. -/
def tkTotal (c : Image) : Nat := leAt c.tack 4 2 % 512
def tkDir (c : Image) (h : Nat) : W32 := tkWord c (0x7E010 + 4 * h)
def tkPtr (c : Image) (h : Nat) : Nat := (tkDir c h).toNat % 2 ^ 20
def tkLinks (c : Image) (h : Nat) : Nat := (tkDir c h).toNat / 2 ^ 20 % 64
def tkLink (c : Image) (h k : Nat) : W32 := tkWord c (tkPtr c h + 4 * k)

/-- Every link word of the table (R189). -/
def tkAll (c : Image) : List W32 := (List.range (tkTotal c)).map fun k => tkWord c (0x7E090 + 4 * k)

/-- The sections a head links to. -/
def tkSects (c : Image) (h : Nat) : List Nat := (List.range (tkLinks c h)).map fun k => (tkLink c h k).toNat % 32

/-- The header fields (Table SC-1). -/
def tkHeader (c : Image) : Bool :=
  tkWord c 0x7E000 = 0x00017AC5 && decide (tkTotal c ≤ 256) && (leAt c.tack 4 4 = tkTotal c) &&
    tkWord c 0x7E008 = crc32c (c.tack.drop 16) && tkWord c 0x7E00C = 0

/-- A directory word and the place of its links. -/
def tkDirOk (c : Image) (h : Nat) : Bool :=
  let n := tkLinks c h
  let p := tkPtr c h
  ((tkDir c h).toNat / 2 ^ 26 = h) && decide (n ≤ 32) &&
    (if n = 0 then p = 0 else p % 4 = 0 && decide (0x7E090 ≤ p) && decide (p + 4 * n ≤ 0x7E090 + 4 * tkTotal c))

/-- Two heads' links do not overlap. -/
def tkApart (c : Image) (h k : Nat) : Bool :=
  tkLinks c h = 0 || tkLinks c k = 0 || decide (tkPtr c h + 4 * tkLinks c h ≤ tkPtr c k) ||
    decide (tkPtr c k + 4 * tkLinks c k ≤ tkPtr c h)

/-- A link word's reserved bits and check (Table SC-3). -/
def tkLinkOk (w : W32) : Bool := (word1 w = ~~~(word0 w)) && noBits (word0 w) 0x003F

/-- Every head of the table, as numbers. -/
def hs : List Nat := List.range 32

/-- The rules that name the TACK record and fall due at it. -/
def tackRules (c : Image) : List Bool :=
  [tkHeader c, hs.all (tkDirOk c), hs.all (fun h => hs.all fun k => decide (k ≤ h) || tkApart c h k),
   (tkAll c).all tkLinkOk,
   hs.all fun h => decide ((tkSects c h).Nodup)]

/-- The head of an image. -/
def hCfg (c : Image) (h : Nat) : HeadCfg := c.head[h % 32]'(by omega)

/-- A section's configuration word. -/
def sCfg (c : Image) (i : Nat) : W16 := c.section_[i % 32]'(by omega)

/-- Some link word names a section. -/
def tkNames (c : Image) (i : Nat) : Bool := (tkAll c).any fun w => decide (w.toNat % 32 = i)

/-- The rules at the TACK record: its own, then those of each head it names (R154, R184), then links to sections that have no
record. -/
def tackAll (c : Image) (rs : List Rec) : List Rule :=
  (tackRules c).map (fun b => (b, 4, 0)) ++
  hs.flatMap (fun h =>
    [(tkLinks c h = 0 || hOn (hCfg c h), 3, h), ((tkSects c h).all (fun i => bitOf (hCfg c h).mask1 i), 3, h)]) ++
  hs.map fun i => (!tkNames c i || rs.any (fun r => r.tag = 5 && r.index = i), 4, 0)

/-- The rules at the SECTION record of section `i`: its own, then those that name the TACK record. -/
def sectionRules (c : Image) (i : Nat) : List Rule :=
  [(noBits (sCfg c i) 0x0003, 5, i), (!tkNames c i || bitOf (sCfg c i) 0, 4, 0),
   (!bitOf (sCfg c i) 0 || hs.any (fun h => hOn (hCfg c h) && bitOf (hCfg c h).mask1 i), 4, 0)]

/-! ### Berths (R227, R228) -/

/-- A berth of an image. -/
def bCfg (c : Image) (b : Nat) : BerthCfg := c.berth[b % 8]'(by omega)

/-- A stop-marker head passes. -/
def stopOk (c : Image) (sect h : Nat) : Bool := hOn (hCfg c h) && bitOf (hCfg c h).mask1 sect

/-- A valid stop-marker head of any berth is enabled, else the head's record is named (R154; taken before R227, log entry 69). -/
def stopRules (c : Image) (b : Nat) : List Rule :=
  let x := bCfg c b
  [(!bitOf x.stop 5 || hOn (hCfg c (fld x.stop 4 0)), 3, fld x.stop 4 0),
   (!bitOf x.stop 13 || hOn (hCfg c (fld x.stop 12 8)), 3, fld x.stop 12 8)]

/-- Rules of a BERTH record. -/
def berthRules (c : Image) (b : Nat) : List Bool :=
  let x := bCfg c b
  let sect := fld x.cfg 4 0
  let v0 := bitOf x.stop 5
  let v1 := bitOf x.stop 13
  let s0 := fld x.stop 4 0
  let s1 := fld x.stop 12 8
  [noBits x.cfg 0x801F] ++
  (if bitOf x.cfg 15 then
    [noBits x.stop 0x3F3F, bitOf (sCfg c sect) 0, within x.amin.toNat 1 2000, within x.amax.toNat x.amin.toNat 2000,
     v0 || v1, !(v0 && v1 && s0 = s1), !v0 || stopOk c sect s0, !v1 || stopOk c sect s1, within x.tstill.toNat 5 300,
     (List.range 8).all fun k => !(decide (k < b)) || (bCfg c k).doors &&& x.doors = 0]
  else [x.doors == 0])

/-! ### Door channels and ESTOP (R250, R260) -/

/-- A channel of an image. -/
def cCfg (c : Image) (k : Nat) : ChanCfg := c.chan[k % 16]'(by omega)

/-- Rules of a CHANNEL record. -/
def chanRules (x : ChanCfg) : List Bool :=
  let tach := bitOf x.cfg 10
  let ramp := x.ramp.toNat
  let vm := x.vmax.toNat
  let p := x.tscale.toNat
  [noBits x.cfg 0x07FF, decide (x.degcyc.toNat < 256)] ++
  (if bitOf x.cfg 0 then
    [noBits x.time 0xFF1F, within (fld x.time 4 0) 1 20, within (fld x.time 15 8) 5 200, within (fld x.disc 7 0) 1 50,
     within (fld x.disc 15 8) 1 50, decide (ramp ≤ 2000), decide (x.rdly.toNat ≤ 100), within vm 50 1500,
     noBits x.vtol 0x7FFF, within (fld x.vtol 7 0) 10 200, within (fld x.vtol 14 8) 5 100, within x.vcreep.toNat 50 300,
     within p 10 5000, within x.degcyc.toNat 1 255, within x.degtime.toNat 1 1440,
     fld x.cfg 2 1 != fld x.cfg 4 3, !bitOf x.cfg 9 || fld x.cfg 6 5 != fld x.cfg 8 7,
     ramp == 0 || tach, ramp == 0 || decide (x.rdly.toNat < ramp), decide (x.vcreep.toNat ≤ vm), decide (1000 * vm ≤ 20000 * p)]
  else [])

/-- Rules of the ESTOP record. -/
def estopRules (w : W16) : List Bool :=
  [noBits w 0x07FF] ++
  (if bitOf w 0 then [fld w 2 1 != fld w 4 3, within (fld w 10 5) 1 50] else [])

/-! ### Telegrams and ports (R316, Table TG-4, R358, R373) -/

/-- Node IDs of the door-controller slots, and the masks of those in use. -/
def slotIds (t : TgCfg) : List Nat := [fld t.cpeer0 7 0, fld t.cpeer0 15 8, fld t.cpeer1 7 0, fld t.cpeer1 15 8]
def usedMasks (t : TgCfg) : List W16 := ((slotIds t).zip t.cmask.toList).filterMap fun x => if x.1 = 0 then none else some x.2

/-- Node IDs in use. -/
def usedIds (t : TgCfg) : List Nat := [fld t.node 7 0, fld t.node 15 8] ++ (slotIds t).filter (· ≠ 0)

/-- No two masks of a list share a bit. -/
def apart : List W16 → Bool
  | [] => true
  | m :: l => l.all (fun k => m &&& k = 0) && apart l

/-- Rules of the TELEGRAM record. -/
def tgRules (c : Image) : List Bool :=
  let t := c.tg
  let all : W16 := (usedMasks t).foldl (· ||| ·) 0
  [(usedIds t).all (fun i => i ≠ 0 && i ≠ 0xFF), decide ((usedIds t).Nodup), apart (usedMasks t),
   (List.range 16).all (fun k => !bitOf (cCfg c k).cfg 0 || bitOf all k),
   noBits t.skew 0x7F7F, within (fld t.skew 6 0) 1 100, within (fld t.skew 14 8) 1 100,
   noBits t.win 0x0F7F, within (fld t.win 6 0) 1 64, within (fld t.win 11 8) 1 15,
   within t.efresh.toNat 100 5000, within t.cfresh.toNat 20 1000, within t.eslim.toNat 1 1440, within t.cslim.toNat 1 1440]

/-- A freshness time against its cycle and skew window (Table TG-4). -/
def freshOk (t cycle w : Nat) : Bool := decide (cycle + w ≤ t) && decide (t ≤ 200 * cycle)

/-- Rules at the ETHERNET record; the freshness rule names the TELEGRAM record. -/
def enRules (c : Image) : List Rule :=
  let e := c.en
  [noBits e.phy 0x03FF, !bitOf e.vlan 15 || within (fld e.vlan 11 0) 1 4094, within e.cycle.toNat 50 1000].map (fun b => (b, 0x0A, 0)) ++
  [(freshOk c.tg.efresh.toNat e.cycle.toNat (fld c.tg.skew 6 0), 9, 0)]

/-- CAN clocks of a nominal and of a data bit (R372). -/
def nomClocks (n : CnCfg) : Nat := (fld n.nbt 3 0 + 1) * (1 + (fld n.nbt 10 4 + 1) + (fld n.nbt 15 11 + 1))
def dataClocks (n : CnCfg) : Nat := (fld n.dbt 3 0 + 1) * (1 + (fld n.dbt 8 4 + 1) + (fld n.dbt 12 9 + 1))

/-- Rules at the CAN record; the freshness rule names the TELEGRAM record. -/
def cnRules (c : Image) : List Rule :=
  let n := c.cn
  [noBits n.ctl 0x0007, within n.cycle.toNat 10 100, within (fld n.nbt 10 4) 1 127, noBits n.dbt 0x1FFF, noBits n.sjw 0x0F1F,
   noBits n.tdc 0x007F, within (nomClocks n) 40 320, decide (dataClocks n ≤ nomClocks n), decide (8 ≤ dataClocks n),
   decide (fld n.sjw 4 0 ≤ fld n.nbt 15 11), decide (fld n.sjw 11 8 ≤ fld n.dbt 12 9),
   decide (40 ≤ dataClocks n) || bitOf n.ctl 2].map (fun b => (b, 0x0B, 0)) ++
  [(freshOk c.tg.cfresh.toNat n.cycle.toNat (fld c.tg.skew 14 8), 9, 0)]

/-! ### Check units, events, ledger and sequencer (R394, R435, R547) -/

/-- Taps whose blocks carry a tag (Table CK-3). -/
def tagTap (t : Nat) : Bool := decide (t ≤ 6)

/-- Rules of a CHECK record. -/
def checkRules (k : CkCfg) : List Bool :=
  let own := fld k.cfg 1 0
  let pre := fld k.cfg 3 2
  let tap := fld k.cfg 7 4
  let fold := fld k.cfg 9 8
  let cmp := fld k.cfg 11 10
  [own ≠ 3, pre ≠ 3, cmp ≠ 3, decide (tap ≤ 11), noBits k.par 0x3FFF,
   own = 1 || (k.cfg &&& 0xFFF0 = 0 && k.par = 0), fold ≠ 2 || tagTap tap,
   !(cmp = 1 && pre = 2) || decide (k.exp.toNat < 65536)]

/-- Rules of the EVENT record: Q0 holds at least 64 entries, no copy goes from Q0 to Q0, and no reserved code or bit. -/
def eventRules (e : EventCfg) : List Bool :=
  let d := fun (w : W16) (i : Nat) => fld w (4 * i + 3) (4 * i)
  [(List.range 4).all (fun i => decide (d e.depth0 i ≤ 9) && decide (d e.depth1 i ≤ 9)), decide (3 ≤ d e.depth0 0),
   e.cls.all (fun w => noBits w 0x003F && fld w 5 4 ≠ 3 && !(fld w 2 0 = 0 && fld w 5 4 ≠ 0)),
   e.codes.all fun b => decide (b.toNat < 32)]

/-- Rules of the LEDGER record. -/
def ledgerRules (w : W16) : List Bool := [noBits w 0x01FF, within (fld w 7 0) 1 168]

/-- Rules of the SEQUENCER record (Table CS-2, R547). -/
def seqrRules (c : Image) (r : Rec) : List Bool :=
  let il := r.n 0 4
  let dl := r.n 4 4
  let entry := r.n 8 2
  let vb := r.n 10 2
  [within il 4 65536, il % 4 = 0, decide (dl ≤ 32768), dl % 4 = 0, entry % 4 = 0, decide (entry < il),
   vb % 256 = 0, decide (vb + 144 ≤ il), within (r.n 12 1) 1 100, within (r.n 13 1) 1 4, r.n 14 2 = 0,
   il + dl = c.progLen.toNat]

/-! ### The field rules in image order (R490) -/

/-- Rules that name the record itself. -/
def own (r : Rec) (l : List Bool) : List Rule := l.map fun b => (b, r.tag, r.index)

/-- The rules that fall due at a record. -/
def rulesAt (c : Image) (rs : List Rec) (r : Rec) : List Rule :=
  match r.tag with
  | 0x02 => own r (inputRules (c.input[r.index % 64]'(by omega)))
  | 0x03 => own r (headRules c ⟨r.index % 32, by omega⟩)
  | 0x04 => tackAll c rs
  | 0x05 => sectionRules c r.index
  | 0x06 => stopRules c r.index ++ own r (berthRules c r.index)
  | 0x07 => own r (chanRules (cCfg c r.index))
  | 0x08 => own r (estopRules c.estop)
  | 0x09 => own r (tgRules c)
  | 0x0A => enRules c
  | 0x0B => cnRules c
  | 0x0C => own r (checkRules (checkOf r))
  | 0x0D => own r (eventRules (eventOf r))
  | 0x0E => own r (ledgerRules c.ledger)
  | 0x10 => own r (seqrRules c r)
  | _ => []

/-- The first rule that fails, by the record it names. -/
def firstFault (c : Image) (rs : List Rec) : Option (Nat × Nat) :=
  ((rs.flatMap (rulesAt c rs)).find? fun x => !x.1).map (·.2)

end Sys2Proof.Machine
end

