-- ==== Sys2Proof/Machine/Commit.lean ====
section
/-! DEFINITION. The commit of a staged image (chapter 13): a COMMIT starts it, and the safety tick takes each of its steps.
A commit alone changes what the next load takes (R28, R492), with its origin only (R44); the collisions of Table LV-10 (R508) are settled
by the order of the commands. -/

namespace Sys2Proof.Machine

open Sys2Proof

/-- The staged DRCF bytes, `n` of them; LENGTH of the staged image. -/
def stagedConf (n : Nat) (s : State) : List Byte := memReadList 0xFF s.nv.mem (stageConf s) n
def stagedLen (s : State) : Nat := leAt (stagedConf 12 s) 8 4

/-- The staged PROGRAM bytes. -/
def stagedProg (n : Nat) (s : State) : List Byte := memReadList 0xFF s.nv.mem (stageProg s) n

/-- The chunks of a directory cover the first `n` bytes of a bank. -/
def covers (dir : List Nat) (n : Nat) : Bool := (List.range ((n + 255) / 256)).all fun k => dir.contains k

/-- The DRCF chunks staged cover the image (R488). -/
def confCovered (s : State) : Bool :=
  s.nv.dirD.contains 0 && decide (stagedLen s ≤ 262144) && covers s.nv.dirD (stagedLen s)

/-- Why a COMMIT command is refused while no commit runs, none when it starts (R488). -/
def commitRefused (p : Fin 2) (s : State) : Option Nat :=
  if s.sys.mode ≠ .configure then some 0x11
  else if !s.nv.login[p.1].on then some 0x10
  else if defPwd s.nv.vault then some 0x12
  else if s.nv.ledger.lost.isSome || s.nv.clog.lost.isSome then some 0x13
  else if !confCovered s then some 0x20
  else none

/-- PROGREF passes (R491). -/
def progPasses (c : Image) (s : State) : Bool :=
  let bank := c.progBank.toNat
  let n := c.progLen.toNat
  if bank = curProg s then
    s.nv.dirP.isEmpty && (progRef (bankImage (curBank s) s)).any fun x => x.2.1 = n && x.2.2 = c.progCrc
  else
    bank = 1 - curProg s && n % 4 = 0 && decide (n ≤ 98304) && covers s.nv.dirP n && crc32c (stagedProg n s) = c.progCrc

/-- Result, TAG and INDEX of a failure of step 2 (Table LV-4). -/
def headerFault (img : List Byte) (code : W32) (s : State) : Option (Nat × Nat × Nat) :=
  if !headerOk img then some (0x21, 0, 0)
  else if s.nv.stageBad ∨ trailerOf img ≠ imageCrc img then some (0x22, 0, 0)
  else if code ≠ trailerOf img then some (0x23, 0, 0)
  else none

/-- Result, TAG and INDEX of a failure of step 3 (R490): the structure, then the records present, then the fields. -/
def recordFault (img : List Byte) : Option (Nat × Nat × Nat) :=
  match structFault img with
  | some x => some (0x24, x)
  | none =>
    let rs := (imageRecs img).1
    match missingTag rs with
    | some t => some (0x25, t, 0)
    | none => (firstFault (imageOf img) rs).map fun x => (0x26, x)

/-- Result, TAG and INDEX of a failure of step 4 (R491). -/
def programFault (img : List Byte) (s : State) : Option (Nat × Nat × Nat) :=
  if progPasses (imageOf img) s then none else some (0x27, 0x0F, 0)

/-- The PENDING entry of a commit (Table LV-6). -/
def commitEntry (p : Fin 2) (c : Image) (code : W32) (len : Nat) (s : State) : CEnt :=
  { cseq := 0, origin := BitVec.ofNat 8 (p.1 + 1), state := 0x3F, type := 1,
    banks := banksByte (1 - curBank s) c.progBank.toNat s, loadNo := s.nv.vault.loadNo, time := s.tstamp, code := code,
    oldCode := bankCode (curBank s) s, imageId := c.imageId, length := BitVec.ofNat 32 len, pcrc := c.progCrc }

/-- STATE of the entry of a commit, whose CRC does not cover it. -/
def entryState (cseq : W32) (st : Byte) (l : List CEnt) : List CEnt :=
  l.map fun e => if e.cseq = cseq then { e with state := st } else e

/-- The commit goes on with its next step. -/
def commitNext (r : CommitRun) (s : State) : State := setNv (fun v => { v with commit := some { r with step := r.step + 1 } }) s

/-- The commit ends with a failure, or goes on. -/
def commitCheck (r : CommitRun) (x : Option (Nat × Nat × Nat)) (s : State) : State :=
  match x with
  | none => commitNext r s
  | some y => commitEnd r.port r.code y.1 y.2.1 y.2.2 0xFFFFFFFF s

/-- Step 4; a ledger or change log lost by then refuses the commit (Table LV-10). -/
def commitProgram (r : CommitRun) (img : List Byte) (s : State) : State :=
  commitCheck r (match programFault img s with
    | some x => some x
    | none => if s.nv.ledger.lost.isSome || s.nv.clog.lost.isSome then some (0x13, 0, 0) else none) s

/-- Step 5: the PENDING entry is written and read back. A readback that fails retires the sector, which holds the commit, and the
entry is written again when the retirement has ended (R501). -/
def commitLog (r : CommitRun) (img : List Byte) (s : State) : State :=
  let s := if r.f.entryOk then s else retireStart true s.nv.clog.cur false false s
  if s.nv.clog.retiring.isSome then setNv (fun v => { v with commit := some { r with f := { r.f with entryOk := true } } }) s
  else match clogWrite (commitEntry r.port (imageOf img) r.code img.length s) true s with
    | none => commitEnd r.port r.code 0x28 0 0 0xFFFFFFFF s
    | some s => commitNext { r with cseq := s.nv.cseq } { s with um := { s.um with comSeq := s.nv.cseq, comCode := r.code } }

/-- Step 6: the vault record names the new banks; SAFE when it cannot be written (Table LV-11). -/
def commitBanks (r : CommitRun) (img : List Byte) (s : State) : State :=
  if r.f.vaultOk then
    commitNext r (setNv vaultStored (setVault (fun v => { v with bank := !v.bank, pbank := (imageOf img).progBank = 1 }) s))
  else vaultDead (commitEnd r.port r.code 0x28 0 0 r.cseq s)

/-- Step 7: the entry is DONE, and the staging directory is emptied. -/
def commitFinish (r : CommitRun) (s : State) : State :=
  commitEnd r.port r.code 0x02 0 0 r.cseq (setNv (fun v => { v with
    clog := { v.clog with recs := entryState r.cseq 0x0F v.clog.recs }, dirD := [], dirP := [], prep := false, stageBad := false }) s)

/-- The step of Table LV-4 in progress ends. -/
def commitStep (r : CommitRun) (s : State) : State :=
  let img := stagedConf (stagedLen s) s
  match r.step with
  | 2 => commitCheck r (headerFault img r.code s) s
  | 3 => commitCheck r (recordFault img) s
  | 4 => commitProgram r img s
  | 5 => commitLog r img s
  | 6 => commitBanks r img s
  | _ => commitFinish r s

/-- The step in progress, where it ends at this instant or before; a change-log retirement holds it (R501). -/
def commitDue (s : State) : Option CommitRun :=
  if s.nv.clog.retiring.isSome then none
  else s.nv.commit.filter fun r => decide (r.start + r.f.ends.getD (r.step - 2) 0 ≤ s.now)

/-- A commit that runs takes every step that is due (R489). -/
def commitTick (s : State) : State :=
  (List.range 6).foldl (fun s _ => match commitDue s with
    | some r => commitStep r s
    | none => s) s

/-- What COMMIT does (R488): step 1, or a refusal; while a commit runs only the record of the refusal is made. -/
def commitDo (p : Fin 2) (f : CommitFindings) (s : State) : State :=
  let code := s.nv.code
  if s.nv.commit.isSome then commitRecord p code 0x01 0xFFFFFFFF s
  else match commitRefused p s with
    | some r => commitEnd p code r 0 0 0xFFFFFFFF s
    | none => setResult 0x01 p 0 0 (setNv (fun v => { v with commit := some { port := p, code := code, start := s.now, f := f } }) s)

/-- COMMIT_IMAGE (R488, R489). -/
def execCommitImage (p : Port) (key : Byte) (f : CommitFindings) (s : State) : Result := cvCommand p key (commitDo p.ix f) s

end Sys2Proof.Machine
end

