-- ==== Sys2Proof/Machine/Burnish.lean ====
section
/-! DEFINITION. Burnishing, the NVM read-verify and telemetry (chapter 14). -/

namespace Sys2Proof.Machine

open Sys2Proof

/-! ### Burnishing (R526 to R529) -/

/-- Changes a burnisher: 0 SRAM, 1 Cantle memories. -/
def setBurn (k : Fin 2) (f : Burnish → Burnish) (s : State) : State :=
  setSt (fun x => { x with burn := upd x.burn k f }) s

/-- Burnishing runs: in PROVE from the end of step 4, then in every mode but RESET, and not under SAFE cause CLOCK (R534). -/
def burnRuns (s : State) : Bool :=
  s.sys.mode != .reset && !clockSafe s && (s.sys.mode != .prove || decide (4 < s.sys.proveStep.toNat))

/-- Words of a burnisher's memory (R526). -/
def burnWords (k : Fin 2) : Nat := if k = 0 then 131072 else 24576

/-- Area and row of a burnished word. -/
def burnArea (k : Fin 2) (w : Nat) : Fin 10 := if k = 0 then bankOf (4 * w) else if w < 16384 then 8 else 9
def burnRow (k : Fin 2) (w : Nat) : Byte :=
  if k = 0 then rowOfAddr (4 * w) else BitVec.ofNat 8 ((if w < 16384 then w else w - 16384) / 128)

/-- The slot's word is passed: the pass goes on, or ends and the next one begins. -/
def burnNext (k : Fin 2) (s : State) : State :=
  setBurn k (fun b =>
    if b.next + 1 < burnWords k then { b with next := b.next + 1 }
    else { next := 0, start := s.now, dur := (s.now - b.start) / 1000, reported := false }) s

/-- Place in a ring of the entry that holds an SRAM byte address of the ring region, if it is in use. -/
def entryAt (n : Fin 8) (a : Nat) (s : State) : Option Nat :=
  let d := max 1 (depthOf s.ev.rings[n.1])
  let slot := a % 0x8000 / 8
  let old := ringAddr n s % 0x8000 / 8
  let i := (slot + d - old) % d
  if slot < d ∧ i < s.ev.rings[n.1].q.length then some i else none

/-- An uncorrectable SRAM word goes to its owner (R529). -/
def sramUnc (a : Nat) (s : State) : State :=
  let unc := eccUncorrectable (bankOf a) (rowOfAddr a)
  if 0x7E000 ≤ a then refreshStart (unc s)
  else if a < 0x40000 then
    let n := ringIx (a / 0x8000)
    match entryAt n a s with
    | some i => damaged a (setRing n (fun r => { r with q := r.q.set i (damagedMarker s) }) s)
    | none => unc s
  else unc s

/-- An uncorrectable Cantle word (R529). -/
def cantleUnc (w : Nat) (s : State) : State :=
  let s := eccUncorrectable (burnArea 1 w) (burnRow 1 w) s
  if w < 16384 then rewriteImem (w / 128) s else s

/-- One word of a burnisher. -/
def burnWord (k : Fin 2) (ecc : Ecc) (rewriteOk : Bool) (s : State) : State :=
  let w := s.st.burn[k.1].next
  match ecc with
  | .good => s
  | .corrected =>
    let s := eccCorrected (burnArea k w) (burnRow k w) s
    if rewriteOk then s else stitchRow (burnArea k w) (burnRow k w) 4 s
  | .uncorrectable => if k = 0 then sramUnc (4 * w) s else cantleUnc w s

/-- BURNISH_READ (R526, R527, R529): an SRAM slot every 5 µs, a Cantle slot every 20 µs. -/
def execBurnishRead (cantle : Bool) (ecc : Ecc) (rewriteOk : Bool) (s : State) : Result :=
  .next (
    if !burnRuns s then s
    else if cantle then
      let s := reach 20 s.grid.burnCantle s
      burnNext 1 (burnWord 1 ecc rewriteOk { s with grid := { s.grid with burnCantle := some s.now } })
    else
      let s := reach 5 s.grid.burnSram s
      burnNext 0 (burnWord 0 ecc rewriteOk { s with grid := { s.grid with burnSram := some s.now } }))

/-- Data word of 0x1F4 (Table ST-10). -/
def overWord (area units : Nat) : W16 := pack [(0, area), (2, min 16383 units)]

/-- BURNISH_OVERRUN (R528, R530): a burnish pass of 4 s, or a read-verify pass of 24 h; each pass is reported once. -/
def execBurnishOverrun (area : Fin 3) (s : State) : Result :=
  .next (
    if !burnRuns s then s
    else if h : area.1 < 2 then
      let b := s.st.burn[area.1]
      if b.reported ∨ s.now < b.start + 4000000 then s
      else
        let s := setSt (fun x => { x with overrun := true }) (setBurn ⟨area.1, h⟩ (fun b => { b with reported := true }) s)
        raiseRec 0x1F4 (overWord area.1 ((s.now - b.start - 4000000) / 10000)) s
    else
      let v := s.st.verify
      if !verifyBusy v || v.reported || decide (s.now < v.start + 86400000000) then s
      else
        let s := setSt (fun x => { x with overrun := true, verify := { x.verify with reported := true } }) s
        raiseRec 0x1F4 (overWord 2 ((s.now - v.start - 86400000000) / 60000000)) s)

/-! ### Read-verify (R522, R530) -/

/-- A sector holds a byte that is not erased. -/
def sectorFilled (k : Nat) (s : State) : Bool :=
  s.nv.mem.any fun c => decide (16384 * k ≤ c.1) && decide (c.1 < 16384 * (k + 1))

/-- A sector of a partition is in use: it is being filled or full. -/
def partHolds {α : Type} (n idx : Nat) (p : Part α) : Bool := decide ((p.cur + n - idx) % n ≤ p.full)

/-- A sector is in use (R530): reserved and erased ones are skipped. -/
def sectorUsed (s : State) (k : Nat) : Bool :=
  if k < 44 then sectorFilled k s
  else if k = 50 ∨ k = 51 then true
  else if 52 ≤ k ∧ k < 60 then decide (k = s.nv.pair) || decide (k = s.nv.pair + 1)
  else if 60 ≤ k ∧ k < 66 then partHolds 6 (k - 60) s.nv.clog
  else if 68 ≤ k then partHolds 188 (k - 68) s.nv.ledger
  else false

/-- The next sector in use from a number on. -/
def nextSector (lo : Nat) (s : State) : Option Nat := ((List.range 256).drop lo).find? (sectorUsed s)

/-- Read-verify reads: it runs from load step 6 on, in every mode but RESET and SAFE cause CLOCK (R534). -/
def verifyRuns (s : State) : Bool :=
  s.st.verify.run && s.sys.mode != .reset && s.sys.mode != .prove && !clockSafe s

/-- Data word of 0x1F1 (Table ST-10). -/
def sectWord (kind spare sector : Nat) : W16 := pack [(0, kind), (4, spare), (8, sector)]

/-- A sector of the current configuration or program bank: its structure code (Table ST-9). -/
def currentBank (k : Nat) (s : State) : Option W16 :=
  if k < 32 then if k / 16 = curBank s then some 5 else none
  else if k < 44 then if (k - 32) / 6 = curProg s then some 6 else none
  else none

/-- A sector of a staging bank. -/
def stagingBank (k : Nat) (s : State) : Bool := decide (k < 44) && (currentBank k s).isNone

/-- The lowest free spare of SP12 to SP15. -/
def freeSpare4 (s : State) : Option (Fin 4) := (List.finRange 4).find? fun k => s.st.nvmSpare[k.1].isNone

/-- Free spares of SP12 to SP15. -/
def nvmFree (s : State) : Nat := ((List.finRange 4).filter fun k => s.st.nvmSpare[k.1].isNone).length

/-- The pool SP12 to SP15 first reaches its low mark (R524). -/
def nvmLow (sector : Nat) (s : State) : State :=
  if nvmFree s ≤ 1 ∧ ¬ bitOf s.st.low 10 then
    raiseRec 0x1F1 (sectWord 5 0xF sector) (setSt (fun x => { x with low := putBit x.low 10 true }) s)
  else s

/-- A stitch is due and SP12 to SP15 are used up (Table ST-4). -/
def sectorNoSpare (sector : Nat) (s : State) : State :=
  let s := raiseRec 0x1F1 (sectWord 4 0xF sector) s
  if 52 ≤ sector then setNv (fun v => { v with moveDue := true }) s
  else if stagingBank sector s then setNv (fun v => { v with stageBad := true }) s
  else s

/-- A sector is stitched onto the lowest free spare (R522), unless a spare has taken its place already; in SAFE stitching
stops (R534). -/
def stitchSector (sector cause : Nat) (s : State) : State :=
  if s.sys.mode = .safe || s.st.nvmSpare.toList.contains (some (BitVec.ofNat 8 sector)) then s
  else match freeSpare4 s with
    | none => sectorNoSpare sector s
    | some k =>
      let s := setSt (fun x => { x with nvmSpare := x.nvmSpare.set k.1 (some (BitVec.ofNat 8 sector)) }) s
      let s := raise 0x1F1 (sectWord 3 (12 + k.1) sector) s
      nvmLow sector (recordStitch 3 cause sector (12 + k.1) 0x1F1 s)

/-- A failed sector of a staging bank spoils what is staged (Table LV-11). -/
def stagingFailed (sector : Nat) (s : State) : State :=
  if stagingBank sector s then
    eventRecord 0x1F1 (sectWord 2 0xF sector) (setNv (fun v => { v with stageBad := true }) s)
  else s

/-- A weak or failed sector is handled by its partition (R522, R530). -/
def sectorBad (sector : Nat) (failed : Bool) (s : State) : State :=
  let s := raise 0x1F1 (sectWord (if failed then 2 else 1) 0xF sector) s
  if 68 ≤ sector then
    if s.nv.ledger.lost.isSome || s.nv.ledger.retiring.isSome then s else retireStart false (sector - 68) false (!failed) s
  else if 60 ≤ sector then
    if s.nv.clog.lost.isSome || s.nv.clog.retiring.isSome then s else retireStart true (sector - 60) false (!failed) s
  else if sector = 50 ∨ sector = 51 then
    let c : Fin 2 := if sector = 50 then 0 else 1
    raise 0x1F2 (mapWord 2 c s) (setCopy c (fun x => { x with written := s.st.entries.length, ok := true }) s)
  else match currentBank sector s, failed && inService s with
    | some code, true => enterSafe 4 code s
    | _, _ => stitchSector sector (if failed then 9 else 8) (if failed then stagingFailed sector s else s)

/-- The pass goes on to the next sector 2 min later; after the last one it is complete, and the next pass begins 24 h after this
one began. -/
def verifyNext (k : Nat) (s : State) : State :=
  let more := (nextSector (k + 1) s).isSome
  setSt (fun x =>
    let v := { x.verify with sector := BitVec.ofNat 8 k }
    { x with verify :=
      if more then { v with next := k + 1, due := s.now + 120000000 }
      else { v with next := 0, done := some s.now, due := max (s.now + 120000000) (v.start + 86400000000) } }) s

/-- READ_VERIFY (R530): the next sector in use, when its time has come. -/
def execReadVerify (r : Margin) (s : State) : Result :=
  .next (
    if !verifyRuns s || decide (s.now < s.st.verify.due) then s
    else match nextSector s.st.verify.next s with
      | none => s
      | some k =>
        let s := if s.st.verify.next = 0 then
          setSt (fun x => { x with verify := { x.verify with start := s.now, reported := false } }) s else s
        let s := verifyNext k s
        match r with
        | .good => s
        | .weak => sectorBad k false s
        | .failed => sectorBad k true s)

/-! ### Telemetry (R531 to R533) -/

/-- Smallest and largest number of a list with a first element. -/
def maxOf (l : List Nat) : Nat := l.foldl max 0

/-- Item 8: the highest erase count of a vault, ledger or change-log sector, in units of 16 cycles; a partition's sectors are
erased in turn. -/
def wearItem (s : State) : Nat :=
  maxOf [maxOf s.nv.wear.toList, (s.nv.ledger.erases + 187) / 188, (s.nv.clog.erases + 5) / 6] / 16

/-- Item 9: lanes whose last proving was DRIFT. -/
def driftLanes (s : State) : Nat := (s.wf.lane.toList.filter fun l => l.result = .drift).length

/-- Item 10: the largest WF_ICALERR of the serving lanes. -/
def calItem (s : State) : Nat :=
  maxOf ((List.finRange 64).map fun n => mag (s.wf.lane[(servingLane n s).1]'(servingLane n s).2).calErr)

/-- Item 13, which is open until a pass has been completed. -/
def verifyItem (s : State) : W16 × State :=
  match s.st.verify.done with
  | some t => (sat16 ((s.now - t) / 60000000), s)
  | none => let r := draw s; (r.1.setWidth 16, r.2)

/-- A sample set of Table ST-6. -/
def telemSet (temp : W16) (mv : Vector W16 4) (s : State) : Vector W16 16 × State :=
  let v := verifyItem s
  let l : List W16 :=
    [temp, BitVec.ofInt 16 (s.st.tmax.getD 0), BitVec.ofInt 16 (s.st.tmin.getD 0), mv[0], mv[1], mv[2], mv[3],
     sat16 (s.tstamp.toNat / 3600000000), sat16 (wearItem s), sat16 (driftLanes s), sat16 (calItem s),
     sat16 s.st.burn[0].dur, sat16 s.st.burn[1].dur, v.1, s.st.tempWarns, s.st.supplyWarns]
  (vec fun i => l.getD i.1 0, v.2)

/-- Data word of 0x1F7 (Table ST-10). -/
def telemWord (item : Nat) (normal : Bool) (value : Byte) : W16 := pack [(0, item), (4, b2n normal), (8, value.toNat)]

/-- The temperature warning (R533), with the value in whole °C. -/
def tempStep (temp : W16) (s : State) : State :=
  let deg : Byte := BitVec.ofInt 8 (temp.toInt / 2)
  if !s.st.hot && decide (210 ≤ temp.toInt) then
    raiseRec 0x1F7 (telemWord 1 false deg) (setSt (fun x => { x with hot := true, tempWarns := satInc x.tempWarns }) s)
  else if s.st.hot && decide (temp.toInt < 200) then
    raise 0x1F7 (telemWord 1 true deg) (setSt (fun x => { x with hot := false }) s)
  else s

/-- Operating range and nominal value of a supply in mV (Table EL-2). -/
def supplyLow (k : Fin 4) : Nat := if k = 0 then 1050 else if k = 1 then 1710 else 3135
def supplyHigh (k : Fin 4) : Nat := if k = 0 then 1150 else if k = 1 then 1890 else 3465
def supplyNom (k : Fin 4) : Nat := if k = 0 then 1100 else if k = 1 then 1800 else 3300

/-- Deviation from the nominal value in 0.1 V, rounded away from zero. -/
def supplyDev (k : Fin 4) (mv : W16) : Byte :=
  let d : Int := (mv.toNat : Int) - (supplyNom k : Int)
  let n := (d.natAbs + 99) / 100
  BitVec.ofInt 8 (if d < 0 then -(n : Int) else n)

/-- The warning of one supply (R533): 3 samples in a row out of its range, then 3 back in it. -/
def supplyStep (mv : Vector W16 4) (s : State) (k : Fin 4) : State :=
  let v := mv[k.1]
  let bad := decide (v.toNat < supplyLow k) || decide (supplyHigh k < v.toNat)
  let w := s.st.supply[k.1]
  let w' : SupWarn := { w with out := if bad then w.out + 1 else 0, back := if bad then 0 else w.back + 1 }
  let put (x : SupWarn) (s : State) : State := setSt (fun y => { y with supply := y.supply.set k.1 x }) s
  if bad && !w.warn && decide (3 ≤ w'.out) then
    raiseRec 0x1F7 (telemWord (3 + k.1) false (supplyDev k v))
      (setSt (fun y => { y with supplyWarns := satInc y.supplyWarns }) (put { w' with warn := true } s))
  else if !bad && w.warn && decide (3 ≤ w'.back) then
    raise 0x1F7 (telemWord (3 + k.1) true (supplyDev k v)) (put { w' with warn := false } s)
  else put w' s

/-- The extreme temperatures since reset. -/
def extremes (temp : W16) (s : State) : State :=
  setSt (fun x => { x with
    tmax := some (match x.tmax with | some t => if t < temp.toInt then temp.toInt else t | none => temp.toInt),
    tmin := some (match x.tmin with | some t => if temp.toInt < t then temp.toInt else t | none => temp.toInt) }) s

/-- TELEMETRY_SAMPLE (R531, R533). -/
def execTelemetrySample (temp : W16) (mv : Vector W16 4) (s : State) : Result :=
  .next (
    if s.sys.mode = .reset || clockSafe s then s
    else
      let s := reach 10000 s.grid.telem s
      let s := extremes temp { s with grid := { s.grid with telem := some s.now } }
      let s := (List.finRange 4).foldl (supplyStep mv) (tempStep temp s)
      let r := telemSet temp mv s
      setSt (fun x => { x with shadow := r.1, current := r.1 }) r.2)

/-- A write of ST_TSEL (R532): the current set is latched and an item selected. -/
def telemSelect (value : W16) (s : State) : State := setSt (fun x => { x with latched := x.current, tsel := value.setWidth 8 }) s

/-- TELEMETRY_SELECT (R532). -/
def execTelemetrySelect (p : Port) (value : W16) (s : State) : Result := .next (portWrite p 0x1DE (telemSelect value) s)

/-- The selected item of the latched set; items 16 to 255 read 0. -/
def telemItem (s : State) : W16 := s.st.latched.toList.getD s.st.tsel.toNat 0

/-- A read of ST_TDATA (R532): in RESET every read returns 0 (R64). -/
def telemRead (p : Port) (s : State) : State :=
  if s.sys.mode = .reset then portData p 0 s
  else portData p (telemItem s) (setSt (fun x => { x with tsel := x.tsel + 1 }) s)

/-- TELEMETRY_READ (R532). -/
def execTelemetryRead (p : Port) (s : State) (cycle : ReadCycle := {}) : Result := .next (readCycle p cycle (telemRead p) s)

end Sys2Proof.Machine
end

