-- ==== Sys2Proof/Machine/Resets.lean ====
section
/-! DEFINITION. Resets, what survives them, and the requests for CONFIGURE, restart and reset (chapter 02). -/

namespace Sys2Proof.Machine

open Sys2Proof

/-- Changes the mode logic. -/
def setSys (f : Sys → Sys) (s : State) : State := { s with sys := f s.sys }

/-! ### What a reset keeps -/

/-- Field entries of the stitch map that a copy holds (R515). -/
def entriesKept (s : State) : Nat :=
  max (if s.st.copies[0].ok then s.st.copies[0].written else 0) (if s.st.copies[1].ok then s.st.copies[1].written else 0)

/-- A stitch whose entry no copy holds is forgotten: its spare is free again. -/
def entryUndo (s : State) (e : MEntry) : State :=
  let item := e.item.toNat
  let spare := e.spare.toNat
  if e.kind = 2 then
    setSt (fun x => { x with sramUsed := upd x.sramUsed ⟨item / 128 % 8, by omega⟩ (· - 1) }) s
  else if e.kind = 4 then
    setSt (fun x => { x with cantUsed := upd x.cantUsed (if item < 128 then 0 else 1) (· - 1) }) s
  else if e.kind = 3 then
    if 12 ≤ spare then setSt (fun x => { x with nvmSpare := x.nvmSpare.set ((spare - 12) % 4) none (by omega) }) s
    else setPart (decide (8 ≤ spare)) (fun p => { p with retired := p.retired.filter (·.2 ≠ spare) }) s
  else s

/-- A row stitch under way loses its spare again. -/
def jobUndo (s : State) (j : RowJob) : State :=
  setSt (fun x =>
    if h : j.area.1 < 8 then { x with sramUsed := upd x.sramUsed ⟨j.area.1, h⟩ (· - 1) }
    else { x with cantUsed := upd x.cantUsed (if j.area.1 = 8 then 0 else 1) (· - 1) }) s

/-- The stitches of the first `n` entries only. -/
def mapCut (n : Nat) (s : State) : State :=
  setSt (fun x => { x with entries := x.entries.take n }) ((s.st.entries.drop n).foldl entryUndo s)

/-- The state with only the stitches that a map copy holds. -/
def mapKept (s : State) : State := mapCut (entriesKept s) (setSt (fun x => { x with jobs := [] }) (s.st.jobs.foldl jobUndo s))

/-- What the stitching block keeps: the map, the spares it uses, and the rows that still wait for one (Table ST-4). -/
def stKept (x : St) : St :=
  { fact := x.fact, entries := x.entries, copies := x.copies, sramUsed := x.sramUsed, cantUsed := x.cantUsed,
    nvmSpare := x.nvmSpare, noSpare := x.noSpare }

/-- A lane group with only its factory stitch (R146). -/
def groupKept (x : Group) : Group :=
  if x.fact then { spare := .serving, pos := x.pos, spareServes := true, out := putBit 0 x.pos.1 true, fact := true } else {}

/-- A lane entry of the map in its group (R133, R134). -/
def laneEntry (v : Vector Group 8) (e : MEntry) : Vector Group 8 :=
  let g : Fin 8 := ⟨e.item.toNat / 9 % 8, by omega⟩
  let p : Fin 8 := ⟨e.item.toNat % 9 % 8, by omega⟩
  if e.kind = 1 then upd v g fun x => { x with spare := .serving, pos := p, spareServes := true, out := putBit x.out p.1 true }
  else if e.kind = 5 then upd v g fun x => { x with spare := .faulted, spareServes := false }
  else v

/-- The lanes after a reset: the factory stitches, and nothing else (R511). -/
def wfKept (s : State) : Wf := { group := mapv (fun _ x => groupKept x) s.wf.group }

/-- The lanes with the stitches of the map, in entry order (R511). -/
def mapLanes (s : State) : State := { s with wf := { s.wf with group := s.st.entries.foldl laneEntry s.wf.group } }

/-- A partition of NVM after a reset. -/
def partKept {α : Type} (p : Part α) : Part α := { p with retiring := none, again := false, weak := false }

/-- The LSEQ after the highest one in use (R496). -/
def nextLseq (v : Nv) : W32 :=
  let up := fun (a : W32) (r : LRec) => if a.toNat ≤ r.lseq.toNat then r.lseq + 1 else a
  (v.cells.toList.filterMap id).foldl up (v.ledger.recs.getLast?.toList.foldl up 0)

/-- What NVM keeps: the banks, the current vault record, both logs, the fault cells and their header. -/
def nvKept (v : Nv) : Nv :=
  { mem := v.mem, vault := v.stored, stored := v.stored, gen := v.gen, page := v.page, pair := v.pair, wear := v.wear,
    moveDue := v.moveDue, ledger := partKept v.ledger, clog := partKept v.clog, cseq := v.cseq, lseq := nextLseq v,
    cells := v.cells, cellNext := v.cellNext, hdrMin := v.hdrMin, hdrEsc := v.hdrEsc, unlogged := v.unlogged }

/-! ### Entering RESET (R56, Table SY-3, R87) -/

/-- RESET is entered, or goes on with one more source: every output is off, and all that a reset does not keep is at its reset
value. -/
def enterReset (bits : W16) (off : Bool) (s : State) : State :=
  if s.sys.mode = .reset then
    setSys (fun y => { y with rstPend := y.rstPend ||| bits, offLevel := y.offLevel || off }) s
  else
    let s := mapKept s
    { ({} : State) with
      now := s.now, tsRun := false, free := s.free, pending := s.pending,
      sys := { mode := .reset, rstCause := s.sys.rstCause, rstPend := bits, offLevel := off, uid := s.sys.uid },
      nv := nvKept s.nv, st := stKept s.st, wf := wfKept s, um := { vbus := s.um.vbus } }

/-- POWER_ON_RESET (R56): a supply rises from below its off level. -/
def execPowerOnReset (s : State) : Result := .next (enterReset 0x0001 true s)

/-- BROWN_OUT (R56, R750): a dip shorter than 0.5 µs is none, one of 2 µs or more is one, and between them it is open. -/
def execBrownOut (supply : BitVec 4) (durNs : Nat) (belowOff : Bool) (s : State) : Result :=
  .next (
    if supply = 0 ∨ durNs < 500 then s
    else
      let bits : W16 := 0x0002 ||| (supply.setWidth 16 <<< 8)
      if 2000 ≤ durNs then enterReset bits belowOff s
      else
        let r := drawBit s
        if r.1 then enterReset bits belowOff r.2 else r.2)

/-! ### RSTD# pulses (R60, R61, R623) -/

/-- Classes of Table SY-4. -/
inductive PulseClass where
  | filtered | symbol | ignored | reset
  deriving DecidableEq, Repr

/-- Class by width in ns. -/
def pulseClass (w : Nat) : PulseClass :=
  if w < 500 then .filtered else if w < 4000 then .symbol else if w < 50000 then .ignored else .reset

/-- The class of the other side for a width within 5% of a class boundary. -/
def otherClass (w : Nat) : Option PulseClass :=
  if 475 ≤ w ∧ w ≤ 525 then some (if w < 500 then .symbol else .filtered)
  else if 3800 ≤ w ∧ w ≤ 4200 then some (if w < 4000 then .ignored else .symbol)
  else if 47500 ≤ w ∧ w ≤ 52500 then some (if w < 50000 then .reset else .ignored)
  else none

/-- An invalid one-wire symbol: the partial frame is discarded and counted (Table DB-3). -/
def symbolBad (s : State) : State := setDb (fun d => { d with partial_ := [], ferr := satInc d.ferr }) s

/-- A one-wire bit; a frame takes 51 symbols. -/
def symbolBit (b : Bool) (s : State) : State :=
  setDb (fun d => { d with partial_ := if 51 ≤ d.partial_.length then [b] else b :: d.partial_ }) s

/-- A debug symbol of Table DB-3; outside the widths that table gives, it is open whether the pulse still counts. -/
def symbol (w : Nat) (s : State) : State :=
  if dbSilent s then s
  else if w < 600 ∨ 3600 < w then
    let r := drawBit s
    if r.1 then symbolBit (decide (3600 < w)) r.2 else symbolBad r.2
  else if w < 1400 then symbolBit false s
  else if w < 2200 then symbolBad s
  else symbolBit true s

/-- What a pulse of a class does (Table SY-4). -/
def pulse (c : PulseClass) (w : Nat) (s : State) : State :=
  match c with
  | .filtered => s
  | .symbol => symbol w s
  | .ignored => if s.sys.mode = .reset then s else setSys (fun y => { y with rstdIgn := satInc y.rstdIgn }) s
  | .reset => enterReset 0x0004 false s

/-- RSTD_LOW_PULSE (R60, R61). -/
def execRstdLowPulse (widthNs : Nat) (s : State) : Result :=
  .next (
    match otherClass widthNs with
    | none => pulse (pulseClass widthNs) widthNs s
    | some c =>
      let r := drawBit s
      pulse (if r.1 then c else pulseClass widthNs) widthNs r.2)

/-! ### Leaving RESET (Table SY-5, R65 to R68) -/

/-- SY_RSTCAUSE at the end of RESET. -/
def resetCause (bootsel : BitVec 2) (y : Sys) : W16 :=
  (if y.offLevel then 0x0001 else y.rstCause ||| y.rstPend) ||| (if 2 ≤ bootsel.toNat then 0x0020 else 0)

/-- Steps 3 and 4 of Table SY-5, and login locks run again (R480). -/
def resetEnds (bootsel : BitVec 2) (s : State) : State :=
  let s := setSys (fun y => { y with
    mode := .prove, bootsel := bootsel, rstCause := resetCause bootsel y, rstPend := 0, offLevel := false }) s
  usbConnect (setNv (fun v => { v with lockNext := if v.vault.lockMin = 0 then none else some (s.now + 60000000) }) s)

/-- RESET_EXIT (R65): once no source is active. -/
def execResetExit (bootsel sources : BitVec 2) (s : State) : Result :=
  .next (
    if s.sys.mode ≠ .reset ∨ sources ≠ 0 then s
    else { resetEnds bootsel s with tstamp := 0, tsRun := true })

/-- PLL_LOCK_TIMEOUT (R66): 5 ms after RESET exit began, SAFE without PROVE; TSTAMP stays at 0. -/
def execPllLockTimeout (bootsel : BitVec 2) (s : State) : Result :=
  .next (
    if s.sys.mode ≠ .reset then s
    else
      let s := resetEnds bootsel (advance 5000 { s with tstamp := 0, tsRun := false })
      enterSafe 1 0x0003 (setSys (fun y => { y with lock := false }) s))

/-! ### Requests (R57 to R59, R75, R78) -/

/-- A request is rejected. -/
def reqReject (s : State) : State := setSys (fun y => { y with reqRej := true }) s

/-- A host reset request (R58, R59). -/
def resetRequest (s : State) : State :=
  match s.sys.mode with
  | .reset => s
  | .prove => reqReject s
  | .configure | .safe => enterReset 0x0008 false s
  | .operate | .degraded =>
    if s.nv.login[0].on && s.sys.stop.isNone then setSys (fun y => { y with stop := some .resetHost }) s else reqReject s

/-- A write of SY_RESETREQ (R57). -/
def resetKey (v : W16) (s : State) : State :=
  let first := s.sys.keyAt
  if v = 0x52A7 then setSys (fun y => { y with keyAt := some s.now }) s
  else
    let s := setSys (fun y => { y with keyAt := none }) s
    if v = 0x0C9E ∧ (first.any fun t => decide (s.now ≤ t + 1000)) then resetRequest s else s

/-- HOST_RESET_REQUEST (R57); a write from USB is not applied (R714). -/
def execHostResetRequest (p : Port) (value : W16) (s : State) : Result :=
  .next (if p = .usb then s else portWrite p 0x008 (resetKey value) s)

/-- A request for CONFIGURE (R75). -/
def configureAsk (s : State) : State :=
  if inService s && s.nv.login[0].on && s.sys.stop.isNone then setSys (fun y => { y with stop := some .configure }) s
  else reqReject s

/-- CONFIGURE_REQUEST (R75); a write from USB is not applied (R714). -/
def execConfigureRequest (p : Port) (s : State) : Result := .next (if p = .usb then s else portWrite p 0x007 configureAsk s)

/-- A request for a restart from CONFIGURE (R78). -/
def restartAsk (s : State) : State :=
  if s.sys.mode = .configure ∧ s.nv.login[0].on then enterReset 0x0008 false s else reqReject s

/-- RESTART_REQUEST (R78); a write from USB is not applied (R714). -/
def execRestartRequest (p : Port) (s : State) : Result := .next (if p = .usb then s else portWrite p 0x007 restartAsk s)

end Sys2Proof.Machine
end

