-- ==== Sys2Proof/Machine/Prove.lean ====
section
/-! DEFINITION. PROVE and the configuration load (chapter 02). -/

namespace Sys2Proof.Machine

open Sys2Proof

/-! ### PROVE (Tables SY-7 and SY-12) -/

/-- SY_PROVE. -/
def proveWord (y : Sys) : W16 :=
  pack [(0, y.proveStep.toNat), (4, b2n y.provePass), (5, b2n y.proveFail), (8, y.proveDetail.toNat)]

/-- Latest end of a PROVE step, in µs of TSTAMP (Table SY-7). -/
def proveLimit (k : Nat) : Nat :=
  [2000, 7000, 257000, 457000, 857000, 1457000, 1757000, 1767000, 1769000].getD (k - 1) 1769000

/-- The PROVE record (Table LV-8). -/
def proveRecord (failing : Nat) (s : State) : State :=
  record 1 0xFFFF (bytesLE 2 s.sys.rstCause.toNat ++ [s.sys.bootsel.setWidth 8, BitVec.ofNat 8 failing] ++
    bytesLE 2 (proveWord s.sys).toNat ++ bytesLE 2 s.sys.proveTime.toNat) s

/-- Step `k` of PROVE runs when the steps before it have run, unless PROVE has ended in SAFE (Table SY-12a); it is reached at
its time. SY_PROVE.STEP shows it until it completes, then the step in progress (R71). -/
def proveStep (f : ProveFindings) (upTo k : Nat) (g : State → State) (s : State) : State :=
  if s.sys.mode != .prove || decide (upTo < k) || decide (s.sys.proveDone.toNat + 1 ≠ k) then s
  else
    let t := min (f.ends.getD (k - 1) (proveLimit k)) (proveLimit k)
    let s := g (advance (t - s.tstamp.toNat) (setSys (fun y => { y with proveStep := BitVec.ofNat 4 k }) s))
    if s.sys.mode = .prove then
      setSys (fun y => { y with proveDone := BitVec.ofNat 4 k, proveStep := BitVec.ofNat 4 (min 9 (k + 1)) }) s
    else s

/-- PROVE fails at a step with SAFE cause PROVE. -/
def proveFails (k unit : Nat) (s : State) : State :=
  let s := setSys (fun y => { y with proveFail := true, proveDetail := BitVec.ofNat 8 unit }) s
  enterSafe 5 (BitVec.ofNat 16 k) (proveRecord k s)

/-- A failure of a unit that PROVE survives. DESIGN CHOICE (log entry 15): of several, the first one's step and unit are kept for
SY_PROVE and the record. -/
def proveSurvives (k : Nat) (unit : Nat) (s : State) : State :=
  if s.sys.proveBad != 0 then s
  else setSys (fun y => { y with proveBad := BitVec.ofNat 4 k, proveDetail := BitVec.ofNat 8 unit }) s

/-- Step 1 (R90, Table SY-12). -/
def proveClock (code : BitVec 3) (s : State) : State :=
  if code = 0 then s
  else
    let s := setSys (fun y => { y with monOk := false, proveFail := true, lock := y.lock && code != 3 }) s
    enterSafe 1 (code.setWidth 16) (raise 0x1FF s.sys.clkDev s)

/-- Both copies hold every entry. -/
def mapsEqual (s : State) : State :=
  setSt (fun x => { x with copies := mapv (fun _ _ => { written := x.entries.length, ok := true }) x.copies, single := false }) s

/-- A pool's bit of ST_LOW, as the map leaves it (R524). -/
def lowBits (s : State) : W16 :=
  bitsOf 16 fun i =>
    if h : i < 10 then decide (poolSize ⟨i, h⟩ - poolUsed ⟨i, h⟩ s ≤ lowMark ⟨i, h⟩) else i = 10 && decide (nvmFree s ≤ 1)

/-- A copy is valid as PROVE reads it (R513). -/
def copyValid (m : MapFind) (c : Fin 2) (s : State) : Bool :=
  s.st.copies[c.1].ok && (match m with
    | .valid => true
    | .oneInvalid x => x != c
    | .noMap => false)

/-- The first `n` entries are the map: its stitches apply, in entry order, and both copies hold it (R511, R514). -/
def mapApply (n : Nat) (s : State) : State :=
  let s := mapLanes (mapCut n s)
  setSt (fun x => { x with low := lowBits s }) (mapsEqual s)

/-- The map is that of one copy, and the other one is brought up to it, with its event and record. -/
def mapFrom (n : Nat) (other : Fin 2) (s : State) : State :=
  let s := mapApply n s
  raiseRec 0x1F2 (mapWord 1 other s) s

/-- Step 2: the copies of the stitch map are resolved (Table ST-3). With no map, SAFE; the spec gives its event no kind. -/
def proveMaps (m : MapFind) (s : State) : State :=
  let a := s.st.copies[0].written
  let b := s.st.copies[1].written
  match copyValid m 0 s, copyValid m 1 s with
  | true, true => if a = b then mapApply a s else if a < b then mapFrom b 0 s else mapFrom a 1 s
  | true, false => mapFrom a 1 s
  | false, true => mapFrom b 0 s
  | false, false =>
    let r := draw s
    let s := setSt (fun x => { x with copies := mapv (fun _ _ => { ok := false, dead := true }) x.copies }) r.2
    proveFails 2 0 (raise 0x1F2 (r.1.setWidth 16 &&& 0x001F) s)

/-- A row that fails its march test takes the lowest free spare, and a spare that fails its own test is marked used (R521);
none when the pool is used up. -/
def proveSpare (area : Fin 10) (row : Byte) : Nat → State → Option State
  | bad, s =>
    if poolSize area ≤ poolUsed area s then none
    else
      let k := spareNo area (poolUsed area s)
      let s := recordStitch (rowResource area) 1 (rowItem area row) k 0x1F0
        (raise 0x1F0 (rowWord 3 area row) (lowCheck area row (useSpare area s)))
      match bad with
      | 0 => some s
      | n + 1 => proveSpare area row n s

/-- One row that fails its march test. -/
def proveRow (s : State) (r : RowFind) : State :=
  if s.sys.mode != .prove then s
  else match proveSpare r.area r.row r.badSpares s with
    | some s => s
    | none => proveFails 4 r.area.1 (raise 0x1F0 (rowWord 4 r.area r.row) s)

/-- Burnishing runs from the end of step 4 (R534): its first passes start. -/
def burnStart (s : State) : State := setSt (fun x => { x with burn := mapv (fun _ b => { b with start := s.now }) x.burn }) s

/-- Step 4: the march tests. A row whose stitch found no spare in service fails here (Table ST-4). -/
def proveRows (rows : List RowFind) (s : State) : State :=
  match s.st.noSpare.find? fun x => x.1 != 9 with
  | some x => proveFails 4 x.1.1 (raise 0x1F0 (rowWord 4 x.1 x.2) s)
  | none => burnStart (rows.foldl proveRow s)

/-- A change-log entry still PENDING is DONE when the vault names its banks, else ABORTED (R494). -/
def settleEntry (v : Vault) (e : CEnt) : CEnt :=
  if e.state = 0x3F then
    { e with state := if bitOf e.banks 0 = v.bank ∧ bitOf e.banks 1 = v.pbank then 0x0F else 0x00 }
  else e

/-- A fault cell becomes a ledger record again, with FC and a new LSEQ (R505). -/
def cellAgain (s : State) (r : LRec) : State :=
  queueRec { r with lseq := s.nv.lseq, fc := true, gap := false } (setNv (fun v => { v with lseq := v.lseq + 1 }) s)

/-- The cells in use are appended, with the CELLS record after them. DESIGN CHOICE (log entry 111): while the ledger stays lost they
cannot be appended, and only the CELLS record is made, unlogged. -/
def cellsAgain (s : State) : State :=
  let cells := s.nv.cells.toList.filterMap id
  record 0x0D 0xFFFF (BitVec.ofNat 8 cells.length :: bytesLE 4 s.nv.unlogged.toNat)
    (if s.nv.ledger.lost.isSome then s else cells.foldl cellAgain s)

/-- A lost partition can be written again: the loss was an engine fault, and the engine answers (R505). -/
def canRestore (l : Option LossCause) (engine : Bool) : Bool := l = some .engine && engine

/-- A partition has been restored: its event, and its item clears. -/
def partBack (clog : Bool) (s : State) : State := clearItem (partItem clog) (raise 0x1F6 (ledgerWord 6 (b2n clog) 0) s)

/-- The partitions that can be written again: LOST and CLLOST clear, the cells are appended, and the items clear (R505). -/
def restoreParts (ledger clog : Bool) (s : State) : State :=
  if !ledger && !clog then s
  else
    let s := if ledger then setPart false (fun p => { p with lost := none }) s else s
    let s := cellsAgain (if clog then setPart true (fun p => { p with lost := none }) s else s)
    let s := if ledger then partBack false s else s
    if clog then partBack true s else s

/-- The item of a partition that stays lost stands, with its elapsed minutes and its escalation flag (R504, R505). -/
def lossStands (clog : Bool) (s : State) : State :=
  let k : Fin 2 := if clog then 1 else 0
  let s := setItem (partItem clog) 0 s
  setSys (fun y => { y with deg := upd y.deg (partItem clog) fun d =>
    { d with before := s.nv.hdrMin[k.1].toNat, escalated := s.nv.hdrEsc[k.1] } }) s

/-- Step 5 for a partition that has not been restored (R501, R502, R505, Table SY-12). -/
def provePart (clog engine bad : Bool) (s : State) : State :=
  if partLost clog s then lossStands clog s
  else if !engine then lose clog .engine (partCur clog s) s
  else if bad then retireStart clog (partCur clog s) false false s
  else s

/-- Step 5: the NVM is verified; banks that cannot be read lead to CONFIGURE without an image. -/
def proveNvm (f : ProveFindings) (s : State) : State :=
  let s := setNv (fun v => { v with clog := { v.clog with recs := v.clog.recs.map (settleEntry v.vault) } }) s
  let s := restoreParts (canRestore s.nv.ledger.lost f.ledgerEngine) (canRestore s.nv.clog.lost f.clogEngine) s
  let s := provePart true f.clogEngine f.clogBad (provePart false f.ledgerEngine f.ledgerBad s)
  let s := if f.banks then s else setSys (fun y => { y with noImg := true }) (proveSurvives 5 0 s)
  setSys (fun y => { y with nvmReady := true }) s

/-- An unstitchable lane or a drifting one is reported for its input; a failing one faults it (Table WF-10). -/
def laneUnspared (n : Fin 64) (lane : Nat) (fail : Bool) (s : State) : State :=
  if fail then laneFault n 5 false (raiseFault n 5 (proveSurvives 6 lane s)) else laneFault n 6 false s

/-- Step 6 for a home lane (R122, R148); a stitched-out lane is proved, and serves nothing that its result could change. -/
def proveHome (f : ProveFindings) (g : Fin 8) (s : State) (p : Fin 8) : State :=
  let l := homeLane g p
  let s := laneProved l f.lanes[l.1] s
  if bitOf s.wf.group[g.1].out p.1 then s
  else
    let res := classify f.lanes[l.1]
    if res = .pass then s
    else if s.wf.group[g.1].spare = .free then permanentStitch g p (if res = .fail then 6 else 5) s
    else laneUnspared (inputAt g p) l.1 (decide (res = .fail)) s

/-- Step 6 for a group: its spare, then its home lanes. -/
def proveGroup (f : ProveFindings) (s : State) (g : Fin 8) : State :=
  let l := spareLane g
  let res := classify f.lanes[l.1]
  let s := laneProved l f.lanes[l.1] s
  let s := match s.wf.group[g.1].spare with
    | .free => if res = .fail then faultSpare g s else s
    | .serving =>
      if res = .pass then s else laneUnspared (inputAt g s.wf.group[g.1].pos) l.1 (decide (res = .fail)) s
    | _ => s
  (List.finRange 8).foldl (proveHome f g) s

/-- Step 6: the lane faults name the heads of the current bank's image, which is not loaded yet. -/
def proveLanes (f : ProveFindings) (s : State) : State :=
  let img := bankImage (curBank s) s
  let old := s.cfg
  let s := if !s.sys.noImg ∧ headerOk img then { s with cfg := imageOf img } else s
  { (List.finRange 8).foldl (proveGroup f) s with cfg := old }

/-- A failing stage of an output raises the readback mismatch of its channel (Tables SY-12 and DC-11); the commanded level
of the event is that of the switch under test. -/
def proveStage (bits cmd : BitVec 32) (s : State) (k : Fin 32) : State :=
  let c : Fin 16 := ⟨k.1 / 2, by omega⟩
  let o : Fin 2 := ⟨k.1 % 2, by omega⟩
  if bitOf bits k.1 then rbEvent c (rbWord o (bitOf cmd k.1) 2 false) s else s

/-- Step 7: a failing stage is reported at once; a source fault is latched, and its consequences and those of
the inputs wait for load step 5 (R796). -/
def proveDoors (f : ProveFindings) (s : State) : State :=
  let s := (List.finRange 32).foldl (proveStage f.stages f.stageCmd) s
  let bad := bitsOf 16 fun c => bitOf f.stages (2 * c) || bitOf f.stages (2 * c + 1)
  let s := { s with dc := { s.dc with stageFail := bad, darkFail := f.closed } }
  let s := (List.finRange 4).foldl (fun s n => if bitOf f.sources n.1 then sourceLatch n s else s) s
  match (List.finRange 16).find? fun c => bitOf bad c.1 with
  | some c => proveSurvives 7 c.1 s
  | none => if f.sources = 0 ∧ f.closed = 0 then s else proveSurvives 7 0 s

/-- One failing check unit: out of service, with its event. -/
def proveUnit (bits : Byte) (s : State) (n : Fin 8) : State :=
  if bitOf bits n.1 then raise (0x1E8 + n.1) (faultWord 5 true) (setCk n (fun u => { u with disabled := true }) s) else s

/-- Step 8: CK0 to CK3 are needed. -/
def proveUnits (bits : Byte) (s : State) : State :=
  let s := (List.finRange 8).foldl (proveUnit bits) s
  match (List.finRange 8).find? fun n => bitOf bits n.1 with
  | none => setCkTested s
  | some n => if n.1 < 4 then proveFails 8 n.1 s else setCkTested (proveSurvives 8 n.1 s)
where
  /-- The units have been tested at this instant (R425). -/
  setCkTested (s : State) : State := { s with ck := mapv (fun _ u => { u with lastTest := s.now }) s.ck }

/-- Step 9 and the path of Table SY-6. -/
def proveEnds (s : State) : State :=
  let load := s.sys.bootsel = 0 ∧ !s.sys.noImg
  let s := setSys (fun y => { y with
    provePass := true, proveTime := sat16 (s.tstamp.toNat / 1000), loadDue := y.loadDue || decide load,
    loadFrom := if load then s.now else y.loadFrom, pendMode := if load then y.pendMode else some .configure }) s
  proveRecord s.sys.proveBad.toNat s

/-- PROVE (R69 to R71, R94): the nine steps in order, those not yet run up to step `upTo`. -/
def execProve (upTo : Fin 10) (f : ProveFindings) (s : State) : Result :=
  .next (
    if s.sys.mode != .prove || s.sys.provePass then s
    else
      let n := upTo.1
      let s := proveStep f n 1 (proveClock f.clock) s
      let s := proveStep f n 2 (proveMaps f.maps) s
      let s := proveStep f n 3 (fun s => if f.bist then s else proveFails 3 0 s) s
      let s := proveStep f n 4 (proveRows f.rows) s
      let s := proveStep f n 5 (proveNvm f) s
      let s := proveStep f n 6 (proveLanes f) s
      let s := proveStep f n 7 (proveDoors f) s
      let s := proveStep f n 8 (proveUnits f.ck) s
      proveStep f n 9 proveEnds s)

/-! ### The configuration load (Table SY-8) -/

/-- The LOAD record (Table LV-8); of a bank that cannot be read, the check code and the IMAGEID are open. -/
def loadRecord (reads : Bool) (s : State) : State :=
  let b := curBank s
  let r := draw s
  let s := if reads then s else r.2
  let code := if reads then bankCode b s else r.1.setWidth 32
  let ident := if reads then bankImageId b s else (r.1 >>> 32).setWidth 32
  record 2 0xFFFF ([BitVec.ofNat 8 b, s.sys.lstep.setWidth 8] ++ bytesLE 4 code.toNat ++ bytesLE 4 ident.toNat) s

/-- Step 1 or 2 fails: no fall-back, CONFIGURE without an image (R73). -/
def loadFails (k : Nat) (reads : Bool) (s : State) : State :=
  loadRecord reads (setSys (fun y => { y with
    lstep := BitVec.ofNat 3 k, noImg := true, loadDue := false, pendMode := some .configure }) s)

/-- Step 2: the program image against the CRC that the DRCF records. -/
def programOk (c : Image) (s : State) : Bool :=
  let n := c.progLen.toNat
  decide (c.progBank.toNat < 2) && decide (n ≤ 98304) &&
    crc32c (memReadList 0xFF s.nv.mem (progBase c.progBank.toNat) n) = c.progCrc

/-- A unit CK4 to CK7 takes its record (R390, R393). -/
def unitLoad (k : CkCfg) (u : Ck) : Ck := 
  { u with cfg := k.cfg, par := k.par, exp := ckMask (presetOf (fld k.cfg 3 2)) k.exp }

/-- A head takes both copies of its section mask (R182). -/
def masksLoad (c : HeadCfg) (x : Head) : Head := { x with mask1 := c.mask1, mask2 := c.mask2 }

/-- Step 3: the RI fields, section masks, check units, routes, ring depths, tack table and Cantle memories. -/
def loadFields (c : Image) (s : State) : State :=
  let s := { s with cfg := c, ck := mapv (fun n u =>
    if n.1 < 4 then u else unitLoad (c.ck[(n.1 - 4) % 4]'(by omega)) u) s.ck }
  let s := { s with hd := { s.hd with head := mapv (fun h x => masksLoad c.head[h.1] x) s.hd.head } }
  let s := tackLoad { s with sc := { s.sc with tackValid := true, nltot := BitVec.ofNat 9 (tkTotal c) } }
  setDb (fun d => { d with patched := false }) (cantleMemories (ringsLoad s))

/-- A stream goes on 65,536 above its mark, which is the new mark (R324). -/
def streamLoad (s : State) (k : Fin 5) : State :=
  if nodeOf k s = 0 then s
  else
    let q := s.nv.vault.marks[k.1] + 65536
    let s := setVault (fun v => { v with marks := v.marks.set k.1 q }) s
    setTg (fun t => { t with stream := t.stream.set k.1 { seq := q } }) s

/-- A head starts (R168); one with a faulted input is in FAULT from its first sample on. -/
def headLoad (s : State) (h : Fin 32) : State :=
  if headOn h s then
    let bad := s.wf.input[(inputIx (headInA h s)).1].faulty || s.wf.input[(inputIx (headInB h s)).1].faulty
    let s := setHead h (fun x => { x with phase := if bad then .fault else .idle, idleSince := some s.now, changed := s.now,
                                          busy := bad, started := bad }) s
    if bad then headFault h s else s
  else s

/-- A section enters DISTURBED with cause INIT (R216). -/
def sectLoad (s : State) (i : Fin 32) : State :=
  if bitOf s.cfg.section_[i.1] 0 then secSet i .disturbed 1 none s else s

/-- The standstill timers and the inputs' quiet times start (Table BR-2, R135). -/
def timersLoad (s : State) : State :=
  { s with
    berth := mapv (fun _ b => { b with still := s.now }) s.berth,
    wf := { s.wf with input := mapv (fun _ x => { x with lastDet := some s.now }) s.wf.input } }

/-- Step 5 but for its vault records: streams, sections, heads, berths, door channels and ports. -/
def loadUnits (s : State) : State :=
  let s := allHeads.foldl sectLoad ((List.finRange 5).foldl streamLoad s)
  ethOn (doorsLoad (allHeads.foldl headLoad (timersLoad s)))

/-- The vault record with the load number, and the one with the marks (R324, R343). -/
def loadStored (ok : Bool) (s : State) : State := if ok then setNv vaultStored s else vaultDead s

/-- The item whose applied escalation under STRICT ends the load in SAFE (R504). -/
def strictItem (s : State) : Option (Fin 10) :=
  if bitOf s.cfg.ledger 8 then
    [(8 : Fin 10), 9].find? fun i => bitOf s.sys.degsrc i.1 && s.sys.deg[i.1].escalated
  else none

/-- Step 6: the load is complete, Cantle starts, and the mode changes at the next tick. -/
def loadEnds (s : State) : State :=
  let s := setSys (fun y => { y with loaded := true, loadDue := false, pendMode := some .operate }) s
  let s := recovery 7 0 (loadRecord true s)
  let s := setSt (fun x => { x with verify := { run := true, start := s.now, due := s.now + 120000000 } }) s
  match strictItem s with
  | some i => enterSafe 6 (BitVec.ofNat 16 i.1) s
  | none => cantleStart s

/-- Latest end of a load step, in µs after the end of PROVE step 9 (Table SY-8). -/
def loadLimit (k : Nat) : Nat := [20000, 60000, 140000, 180000, 200000, 220000].getD (k - 1) 220000

/-- Step `k` of the load runs when the steps before it have run, while the load is due. -/
def loadStep (f : LoadFindings) (upTo k : Nat) (g : State → State) (s : State) : State :=
  if s.sys.mode != .prove || !s.sys.loadDue || decide (upTo < k) || decide (s.sys.loadDone.toNat + 1 ≠ k) then s
  else
    let t := min (f.ends.getD (k - 1) (loadLimit k)) (loadLimit k)
    g (setSys (fun y => { y with loadDone := BitVec.ofNat 3 k }) (advance (s.sys.loadFrom + t - s.now) s))

/-- The image in the current bank. -/
def loadedImage (s : State) : Image := imageOf (bankImage (curBank s) s)

/-- Step 1: the bank is read and its CRC-32C, part number and format version are checked. -/
def loadBank (reads : Bool) (s : State) : State :=
  let img := bankImage (curBank s) s
  if !reads || !headerOk img || decide (trailerOf img ≠ imageCrc img) then loadFails 1 reads s else s

/-- Structure codes of Table ST-9 for what load step 3 loads. -/
def loadedCode : LoadStruct → W16
  | .fields => 0x0009
  | .masks => 0x0002
  | .tack => 0x0001
  | .cantle => 0x0007

/-- Step 4: a readback mismatch reloads the structure once, and a second one ends in SAFE with its code (R74, R83, R537). -/
def loadReadback (f : LoadFindings) (s : State) : State :=
  if f.mismatch1 && f.mismatch2 then enterSafe 3 (loadedCode f.mismatchOf) (setSys (fun y => { y with lstep := 4 }) s) else s

/-- Step 5: the load number, the units, and the sequence marks. -/
def loadStart (f : LoadFindings) (s : State) : State :=
  let s := loadStored f.vaultOk (setVault (fun v => { v with loadNo := v.loadNo + 1 }) s)
  if s.sys.mode != .prove then s else loadStored f.marksOk (loadUnits s)

/-- CONFIGURATION_LOAD (R72 to R74, R94): the load steps not yet run up to step `upTo`. -/
def execConfigurationLoad (upTo : Fin 7) (f : LoadFindings) (s : State) : Result :=
  .next (
    let n := upTo.1
    let s := loadStep f n 1 (loadBank f.bankReads) s
    let s := loadStep f n 2 (fun s => if !f.progReads || !programOk (loadedImage s) s then loadFails 2 true s else s) s
    let s := loadStep f n 3 (fun s => loadFields (loadedImage s) s) s
    let s := loadStep f n 4 (loadReadback f) s
    let s := loadStep f n 5 (loadStart f) s
    loadStep f n 6 loadEnds s)

end Sys2Proof.Machine
end

