-- ==== Sys2Proof/Machine/Ticks.lean ====
section
/-! DEFINITION. The safety tick, the stop sequence, the degraded timers and the monitors (chapters 01 and 02).
The six steps run in the order of Table PF-2, each with the results of the ones before and none waiting for a queue, a network or a
port (R23, R24, R48, R50, R51); the safe state is Table PF-5 (R32); what falls together is settled by that order (R93), and the
failures of Table PF-7 act through the chapters' own operations (R30, R52). -/

namespace Sys2Proof.Machine

open Sys2Proof

/-! ### Mode changes (R54, R89, R95) -/

/-- A mode change with its event and record. -/
def modeChange (new : Mode) (s : State) : State :=
  let old := s.sys.mode
  if old = new then s
  else
    let s := setSys (fun y => { y with mode := new }) s
    record 3 0x1FC [BitVec.ofNat 8 (modeCode new), BitVec.ofNat 8 (modeCode old), 0] (raise 0x1FC (modeWord new old 0) s)

/-- OPERATE, or DEGRADED while an item stands (R79). -/
def serviceMode (s : State) : Mode := if s.sys.degsrc = 0 then .operate else .degraded

/-- The level of LIFE that R88 gives for this instant. DESIGN CHOICE (log entry 102): at a service entry within the first 500 µs of
a millisecond LIFE is high at once. -/
def lifeLevel (s : State) : Bool := inService s && decide (s.tstamp.toNat % 1000 < 500)

/-- SAFE# and LIFE as the mode drives them (R88, R89). -/
def drivePins (s : State) : State := setSys (fun y => { y with safeHi := inService s, lifeHi := lifeLevel s }) s

/-- The service outputs that CONFIGURE does not have end (Table SY-11, R88, R89). -/
def configOutputs (s : State) : State :=
  let s := drpFalls s
  { s with
    sys := { s.sys with safeHi := false, lifeHi := false },
    berth := mapv (fun _ b => { b with drp := false, release := false }) s.berth,
    dc := { s.dc with psiB := 0, psiAll := false, chan := mapv (fun _ c => { c with psi := false, release := false }) s.dc.chan } }

/-- CONFIGURE is entered from service (R76, R216, R384, Table CS-7). -/
def toConfigure (s : State) : State :=
  let s := modeChange .configure (setSys (fun y => { y with stop := none }) s)
  let s := disturbAll (configOutputs s)
  let s := setCs (fun c => { c with permit := 0, onTime := false, restart := none }) s
  portsStandby (cantleStop .held s)

/-- A waiting mode change takes effect at step 1 of a tick (R54). -/
def modeStep (s : State) : State :=
  match s.sys.pendMode with
  | some .operate =>
    let s := setSys (fun y => { y with pendMode := none }) s
    pairsEnter (modeChange (serviceMode s) s)
  | some m => modeChange m (setSys (fun y => { y with pendMode := none }) s)
  | none => if inService s then modeChange (serviceMode s) s else s

/-! ### Degraded timers (R80, R81) -/

/-- A timer may start: those of bits 8 and 9 do not run in PROVE before load step 5 (R504). -/
def timerRuns (i : Fin 10) (s : State) : Bool := i.1 < 8 || s.sys.mode != .prove || loadRuns s

/-- The timer of an item that stands starts at this tick (R80). -/
def timerStart (s : State) (i : Fin 10) : State :=
  if i != 4 && bitOf s.sys.degsrc i.1 && s.sys.deg[i.1].start.isNone && timerRuns i s then
    setSys (fun y => { y with deg := upd y.deg i fun d => { d with start := some s.now } }) s
  else s

/-- An item's timer has reached its limit and its escalation has not been applied (R80, R504). -/
def timerDue (i : Fin 10) (s : State) : Bool := timerDueAt i s.now s

/-- Action of an escalation (Table SY-13). -/
def escAction (i : Fin 10) (s : State) : Nat := if i.1 < 8 then 2 else if bitOf s.cfg.ledger 8 then 4 else 3

/-- An escalation with its event and record (R81). -/
def escalate (i : Fin 10) (s : State) : State :=
  let u := s.sys.deg[i.1].unit
  let a := escAction i s
  let s := raise 0x1FE (pack [(0, i.1), (4, a), (8, u.toNat)]) s
  let s := record 8 0x1FE [BitVec.ofNat 8 i.1, BitVec.ofNat 8 (0x10 + a), u] s
  if i = 0 then pairLose 0 4 s
  else if i = 2 then pairLose 1 4 s
  else
    let k : Fin 2 := if i = 8 then 0 else 1
    let s := setSys (fun y => { y with deg := upd y.deg i fun d => { d with escalated := true } }) s
    let s := setNv (fun v => { v with hdrEsc := v.hdrEsc.set k.1 true }) s
    if a = 4 then enterSafe 6 (BitVec.ofNat 16 i.1) s else s

/-- DEGRADED_TIMER_EXPIRY (R80, R81): at the first tick instant at or past the limit, in every mode in which ticks run (R504). -/
def execDegradedTimerExpiry (item : Fin 10) (s : State) : Result :=
  .next (
    if s.sys.mode = .reset || clockSafe s then s
    else
      let s := reachTick s
      if timerDue item s then escalate item s else s)

/-! ### The stop sequence (R59, R76) -/

/-- 1 ms has passed since the status stage of an accepted RESET_DEVICE (R719). -/
def usbDue (s : State) : Bool := s.um.resetAt.any fun t => decide (t ≤ s.now)

/-- Every STO output is off, and no channel is in a state that drives one. -/
def stoAllOff (s : State) : Bool :=
  (List.finRange 16).all fun c =>
    !torqueOn s.dc.chan[c.1].state && !s.dc.chan[c.1].sto[0].on && !s.dc.chan[c.1].sto[1].on

/-- STOP_SEQUENCE_COMPLETE (R76): at the first tick instant at which every STO output is off. -/
def execStopSequenceComplete (s : State) : Result :=
  .next (
    match s.sys.stop with
    | none => s
    | some g =>
      let s := reachTick s
      if !stoAllOff s then s
      else match g with
        | .configure => toConfigure s
        | .resetHost => enterReset 0x0008 false s
        | .resetUsb => if usbDue s then enterReset 0x0010 false s else s)

/-! ### The safety tick (R22, Table PF-2) -/

/-- The tick record of TAP11 (Table CK-4). -/
def tickRecord (s : State) : List Byte :=
  let on := chanMap fun c => s.dc.chan[c.1].sto[0].on && s.dc.chan[c.1].sto[1].on
  bytesLE 4 s.tstamp.toNat ++ bytesLE 2 on.toNat ++
    [drpMap s, relMap s, s.dc.psiB, BitVec.ofNat 8 (b2n s.dc.psiAll), BitVec.ofNat 8 (modeCode s.sys.mode)] ++
    bytesLE 2 s.sys.degsrc.toNat ++ [0, 0, 0]

/-- A reset that USB requested falls due (R719): at the end of a stop sequence where one runs. -/
def usbReset (s : State) : State :=
  if usbDue s && (s.sys.mode = .configure || s.sys.mode = .safe) then enterReset 0x0010 false s else s

/-- Step 1: the mode, the orders and requests that wait, the timers, and what is latched (R22, R54, R80, R211, R280, R339). -/
def tickLatch (i : TickInputs) (s : State) : State :=
  let s := (List.finRange 10).foldl timerStart (modeStep s)
  let s := if s.sc.orders.isEmpty then s else applyOrders s
  (List.finRange 16).foldl (stoLatchChan i) (lapseAll s)

/-- Diagnostics of the tick (R247, R795), and a fault-cell write that failed (Table LV-11). -/
def tickDiag (i : TickInputs) (s : State) : State :=
  let s := if s.nv.cellFail then enterSafe 3 0x0008 (setNv (fun v => { v with cellFail := false }) s) else s
  let s := if i.diag = 0 then s else enterSafe 2 i.diag s
  if i.mismatch then enterSafe 2 0x0006 s else s

/-- Steps 2 to 6 (R49: after a SAFE decision they give the values of Table PF-5). -/
def tickSteps (s : State) : State :=
  let s := doorsDrive (doorsStep (berthsStep s))
  let s := drivePins (tapOut 11 { bytes := tickRecord s } s)
  sendStops (cycleTick 1 (cycleTick 0 s))

/-- SAFETY_TICK (R22). -/
def execSafetyTick (i : TickInputs) (s : State) : Result :=
  .next (
    if s.sys.mode = .reset || clockSafe s then s
    else
      let s := reachTick s
      let s := usbReset (commitTick { s with grid := { s.grid with tick := some s.now } })
      if s.sys.mode = .reset then s else keepImage (tickSteps (tickDiag i (tickLatch i s))))

/-! ### The monitors (R83, R90, R91) -/

/-- SY_CLKDEV of a window count (R91). -/
def clockDev (refCount : Nat) : W16 := tdivW16 ((refCount : Int) - 50000) 5

/-- The finding of a window, 0 none, with the precedence of R90. -/
def clockFinding (refCount sysCount : Nat) (lock : Bool) : Nat :=
  if refCount < 49000 ∨ 51000 < refCount then 1
  else if sysCount < 196000 ∨ 204000 < sysCount then 2
  else if !lock then 3
  else 0

/-- The deviation is 1.00% or more, exactly (R91). -/
def clockWarn (d : W16) : Bool := decide (100 ≤ mag d)

/-- CLOCK_WINDOW (R90, R91): the end of a window of 1 ms. -/
def execClockWindow (refCount sysCount : Nat) (lock : Bool) (s : State) : Result :=
  .next (
    if s.sys.mode = .reset || clockSafe s then s
    else
      let s := reach 1000 s.grid.window s
      let d := clockDev refCount
      let w := clockWarn d
      let was := s.sys.warn
      let s := { s with grid := { s.grid with window := some s.now } }
      let s := setSys (fun y => { y with clkDev := d, warn := w, lock := lock }) s
      let s := if w != was then raise 0x1FF d s else s
      match clockFinding refCount sysCount lock with
      | 0 => s
      | k => enterSafe 1 (BitVec.ofNat 16 k) s)

/-- One sample of a pin: consecutive samples that differ from the driven level, and the level read. -/
def pinSample (driven high : Bool) (p : PinRb) : PinRb :=
  { diff := if driven != high then p.diff + 1 else 0, high := high }

/-- PIN_READBACK_SAMPLE (R83, PINRB): every 10 µs; the third differing sample in a row is the cause. Under SAFE cause CLOCK only
the levels read are kept (SY_OUTSTAT). -/
def execPinReadbackSample (safeHigh lifeHigh : Bool) (s : State) : Result :=
  .next (
    if s.sys.mode = .reset then s
    else if clockSafe s then
      setSys (fun y => { y with safeRb := pinSample y.safeHi safeHigh y.safeRb, lifeRb := pinSample y.lifeHi lifeHigh y.lifeRb,
                                lifeAct := false }) s
    else
      let s := reach 10 s.grid.pin s
      let s := drivePins { s with grid := { s.grid with pin := some s.now } }
      let a := pinSample s.sys.safeHi safeHigh s.sys.safeRb
      let b := pinSample s.sys.lifeHi lifeHigh s.sys.lifeRb
      let moved := lifeHigh != s.sys.lifeRb.high
      let s := setSys (fun y => { y with safeRb := a, lifeRb := b, lifeAct := inService s && (y.lifeAct || moved) }) s
      let s := if a.diff = 3 then enterSafe 8 0x0001 s else s
      if b.diff = 3 then enterSafe 8 0x0002 s else s)

/-- TEMPERATURE_SAFE (R83, TEMP): the junction temperature now, in whole °C; above 115 °C for 10 ms is the cause, and it is
counted once. -/
def execTemperatureSafe (degC : W16) (s : State) : Result :=
  .next (
    if s.sys.mode = .reset || clockSafe s then s
    else if degC.toInt ≤ 115 then setSys (fun y => { y with hotSince := none, hotDone := false }) s
    else match s.sys.hotSince with
      | none => setSys (fun y => { y with hotSince := some s.now }) s
      | some t =>
        if s.sys.hotDone ∨ s.now < t + 10000 then s
        else enterSafe 7 degC (setSys (fun y => { y with hotDone := true }) s))

end Sys2Proof.Machine
end

