-- ==== Sys2Proof/Machine/Flags.lean ====
section
/-! DEFINITION. What every word of the host register map reads (chapter 19 with the register tables of the owning chapters): the
status and flag words computed from the state, the window words of the selected unit, and the snapshots of RS groups.
Every word of the map belongs to one block (R692); the words of Table RM-20 are held once for each port and kept until a reset (R697,
R698, R701). -/

namespace Sys2Proof.Machine

open Sys2Proof

/-! ### Values read from NVM -/

/-- A value read from NVM: 0 until PROVE step 5 completes (R693). -/
def nvmWord (w : W16) (s : State) : W16 := if s.sys.nvmReady then w else 0
def nvmBit (b : Bool) (s : State) : Bool := s.sys.nvmReady && b

/-! ### SY: modes, reset and start-up (chapter 02) -/

/-- SY_MODE. -/
def modeWordReg (y : Sys) : W16 := pack [(0, modeCode y.mode), (3, b2n y.stop.isSome), (4, b2n y.reqRej)]

/-- SY_CFGSTAT. -/
def cfgStat (s : State) : W16 :=
  pack [(0, b2n (nvmBit s.nv.vault.bank s)), (1, b2n s.sys.loaded), (2, b2n s.sys.noImg), (3, s.sys.lstep.toNat)]

/-- Microseconds to a device-level item's escalation (R80, R82), for a standing item with a limit not yet applied. -/
def itemLeft (i : Fin 10) (s : State) : Option Nat :=
  if bitOf s.sys.degsrc i.1 && !s.sys.deg[i.1].escalated then
    (itemLimit i s).map fun l =>
      l - (60000000 * s.sys.deg[i.1].before + (match s.sys.deg[i.1].start with
        | some t => s.now - t
        | none => 0))
  else none

/-- The timed escalations that stand: microseconds left, item, unit. Those of bit 4 are the degraded channels', whose time left is
their limit less DC_DEGUSED, in whole minutes (R82). -/
def timedItems (s : State) : List (Nat × Nat × Nat) :=
  ((List.finRange 10).filterMap fun i => (itemLeft i s).map fun m => (m, i.1, s.sys.deg[i.1].unit.toNat)) ++
  (List.finRange 16).filterMap fun c =>
    if s.dc.chan[c.1].degraded then
      some (60000000 * (fld s.cfg.chan[c.1].degtime 10 0 - s.dc.chan[c.1].usedMin.toNat), 4, c.1) else none

/-- The earliest of them. DESIGN CHOICE (log entry 103): of several that fall at the same microsecond, the lowest item and unit. -/
def earliest : List (Nat × Nat × Nat) → Option (Nat × Nat × Nat)
  | [] => none
  | x :: l =>
    match earliest l with
    | some y => if y.1 < x.1 then some y else some x
    | none => some x

/-- SY_DEGNEXT (R82). -/
def degNext (s : State) : W16 :=
  match earliest (timedItems s) with
  | some x => sat16 (x.1 / 60000000)
  | none => 0xFFFF

/-- SY_DEGITEM.CYCLEFT (R82). -/
def cycleLeft (s : State) : Nat :=
  ((List.finRange 16).filter fun c => s.dc.chan[c.1].degraded).foldl
    (fun a c =>
      let n := min 14 (fld s.cfg.chan[c.1].degcyc 7 0 - s.dc.chan[c.1].usedCyc.toNat)
      min a n) 15

/-- SY_DEGITEM (R82). -/
def degItemWord (s : State) : W16 :=
  match earliest (timedItems s) with
  | some x => pack [(0, x.2.1), (4, cycleLeft s), (8, x.2.2 % 256)]
  | none => pack [(0, 15), (4, cycleLeft s)]

def syWord (a : Nat) (s : State) : W16 :=
  match a with
  | 0x000 => 0x6416
  | 0x001 => 0x0100
  | 0x002 => word0 s.sys.uid
  | 0x003 => word1 s.sys.uid
  | 0x004 => word2 s.sys.uid
  | 0x005 => word3 s.sys.uid
  | 0x006 => modeWordReg s.sys
  | 0x009 => s.sys.rstCause
  | 0x00A => proveWord s.sys
  | 0x00B => s.sys.proveTime
  | 0x00C => cfgStat s
  | 0x00D => pack [(0, s.sys.cause.toNat), (8, s.sys.more.toNat)]
  | 0x00E => s.sys.info
  | 0x00F => s.sys.degsrc.setWidth 16
  | 0x010 => degNext s
  | 0x011 => degItemWord s
  | 0x012 => word0 s.tstamp
  | 0x013 => word1 s.tstamp
  | 0x014 => word2 s.tstamp
  | 0x016 => s.sys.clkDev
  | 0x017 => pack [(0, b2n s.sys.lock), (1, b2n s.sys.monOk), (2, b2n s.sys.warn)]
  | 0x018 => pack [(0, b2n s.sys.safeRb.high), (1, b2n s.sys.lifeAct)]
  | 0x019 => s.sys.rstdIgn
  | 0x01A => s.sys.bootsel.setWidth 16
  | _ => 0

/-! ### HB: host bus (chapter 18) -/

/-- HB_OWNER as a port sees it. -/
def ownerWord (p : Port) (s : State) : W16 :=
  pack [(0, s.hb.owner.toNat), (2, b2n (s.hb.owner.toNat = p.ix.1 + 1)), (3, b2n s.hb.port[p.ix].denied), (8, s.hb.tag.toNat)]

/-- HB_STAT. -/
def hbStat (s : State) : W16 :=
  pack [(0, b2n (clockSafe s)), (1, b2n s.hb.mixChunk), (2, s.hb.lastProt.toNat), (4, b2n s.hb.lastPort)]

def hbWord (p : Port) (a : Nat) (s : State) : W16 :=
  match a with
  | 0x030 => ownerWord p s
  | 0x032 => s.hb.port[p.ix].scratch
  | 0x033 => ~~~ s.hb.port[p.ix].scratch
  | 0x034 => hbStat s
  | 0x035 => s.hb.holds
  | 0x036 => s.hb.protErr
  | 0x037 => s.hb.xwr
  | 0x038 => s.hb.wrBus
  | 0x039 => s.hb.wrUsb
  | _ => 0

/-! ### EV: events and rings (chapter 12) -/

/-- EV_QnSTAT. -/
def ringStat (r : Ring) : W16 :=
  pack [(0, r.q.length % 8192), (13, b2n r.ovf), (14, b2n (depthOf r != 0)), (15, b2n (!r.pend.isEmpty))]

/-- EV_DEPTH0 and EV_DEPTH1: the depth codes of four rings from `lo`. -/
def depthWord (lo : Nat) (s : State) : W16 :=
  pack ((List.range 4).map fun k => (4 * k, s.ev.rings[ringIx (lo + k)].depth.toNat))

/-- EV_SUM. -/
def sumWord (s : State) : W16 :=
  bitsOf 16 fun i =>
    if i < 8 then !s.ev.rings[ringIx i].q.isEmpty else ringCond (ringIx i) s

/-- EV_QnD1 to EV_QnD3; the pop itself is a command, and USB reads 0 (R448, R696). -/
def popWord (p : Port) (a : Nat) (s : State) : W16 :=
  if p = .usb then 0
  else
    let r := s.ev.rings[ringIx ((a - 0x40) / 4)]
    match a % 4 with
    | 1 => r.d1
    | 2 => r.d2
    | 3 => r.d3
    | _ => 0

def evWord (p : Port) (a : Nat) (s : State) : W16 :=
  let sel := s.hb.port[p.ix].sel
  if a < 0x60 then popWord p a s
  else if a < 0x68 then ringStat s.ev.rings[ringIx (a - 0x60)]
  else if a < 0x70 then s.ev.rings[ringIx (a - 0x68)].drop
  else match a with
    | 0x070 => depthWord 0 s
    | 0x071 => depthWord 4 s
    | 0x072 => s.ev.ien.setWidth 16
    | 0x073 => s.ev.irqsel.setWidth 16
    | 0x074 => s.ev.ithr0
    | 0x075 => s.ev.ithr1
    | 0x076 => s.ev.itime.setWidth 16
    | 0x077 => sumWord s
    | 0x078 => sel.rsel
    | 0x079 => BitVec.ofNat 16 (classOf (fld sel.rsel 8 0) s)
    | 0x07A => sel.csel
    | 0x07B => classWord (fld sel.csel 4 0) s
    | 0x07C => s.ev.srcDrop
    | 0x07D => s.ev.lastSl.setWidth 16
    | 0x07E => s.ev.ecc
    | _ => 0

/-! ### WF: lanes (chapter 03) -/

/-- Code of a spare state (Table WF-1). -/
def spareCode : Spare → Nat
  | .free => 0
  | .shadow => 1
  | .serving => 2
  | .faulted => 3

/-- Code of a proving result. -/
def resultCode : ProveRes → Nat
  | .none => 0
  | .pass => 1
  | .drift => 2
  | .fail => 3

/-- WF_ISTAT. -/
def istatWord (n : Fin 64) (s : State) : W16 :=
  let x := s.wf.input[n.1]
  pack [(0, b2n x.last.det), (1, b2n x.last.fault), (2, b2n x.prior), (3, b2n (blindAt x s.now)),
        (4, if inputOn n s then x.fault.toNat else 0), (8, (servingLane n s).1)]

/-- WF_IPROVE: AGE in seconds since the last completed proving. -/
def iproveWord (n : Fin 64) (s : State) : W16 :=
  let l := s.wf.lane[(servingLane n s).1]
  let age := match l.provedAt with
    | some t => (s.now - t) / 1000000
    | none => 0
  pack [(0, min 0x3FFF age), (14, resultCode l.result)]

/-- Position of the lane that a proving measures, 8 the spare, 15 for none (Tables WF-6 and WF-8). DESIGN CHOICE (log entry 107): of
several provings in bursts, the one of the lowest input. -/
def provPos (x : Group) : Nat :=
  match x.phase with
  | .settle1 _ | .agree1 _ _ | .homeTest _ | .settle2 _ | .agree2 _ _ => x.pos.1
  | .disFirst sp _ | .disSecond sp _ => if sp then 8 else x.pos.1
  | .direct _ => 8
  | .check _ _ _ | .waitStitch _ | .disSwap _ => 15
  | .idle =>
    match (List.finRange 8).find? fun p => bitOf x.under p.1 with
    | some p => if bitOf x.out p.1 then 8 else p.1
    | none => 15

/-- WF_GRPg: a group without a working spare proves in bursts. SPAREPOS reads its reset value while the spare neither shadows
nor serves a position. -/
def grpWord (x : Group) : W16 :=
  pack [(0, spareCode x.spare), (2, if x.spare = .free || x.spare = .faulted then 0 else x.pos.1), (5, b2n x.fact), (6, b2n (x.spare = .serving || x.spare = .faulted)),
        (7, b2n x.groupFault), (8, provPos x)]

/-- Groups whose spare is in a state. -/
def sparesIn (k : Spare) (s : State) : Nat := (s.wf.group.toList.filter fun x => x.spare = k).length

/-- WF_FAULTn: bit per input with a fault. -/
def faultMap (s : State) : BitVec 64 :=
  bitsOf 64 fun i => inputOn ⟨i % 64, by omega⟩ s && (s.wf.input[i % 64]'(by omega)).faulty

def wfWord (sel : W16) (a : Nat) (s : State) : W16 :=
  let n := inputSel sel
  let c := s.cfg.input[n.1]
  let x := s.wf.input[n.1]
  match a with
  | 0x080 => sel
  | 0x081 => c.icfg
  | 0x082 => c.ith
  | 0x083 => c.ihy
  | 0x084 => c.inom
  | 0x085 => x.val.setWidth 16
  | 0x086 => x.idc.setWidth 16
  | 0x087 => x.freq.setWidth 16
  | 0x088 => istatWord n s
  | 0x089 => iproveWord n s
  | 0x08A => s.wf.lane[(servingLane n s).1].calErr
  | 0x098 => pack [(0, sparesIn .free s), (4, sparesIn .serving s), (8, sparesIn .faulted s)]
  | 0x099 => s.wf.aborts
  | 0x09A => word0 (faultMap s)
  | 0x09B => word1 (faultMap s)
  | 0x09C => word2 (faultMap s)
  | 0x09D => word3 (faultMap s)
  | 0x09F => s.wf.disagree
  | _ => if 0x090 ≤ a ∧ a < 0x098 then grpWord s.wf.group[ringIx (a - 0x90)] else 0

/-! ### HD: heads (chapter 04) -/

/-- HD_STAT. -/
def headStat (x : Head) : W16 :=
  let v := x.v && (x.phase = .enter || x.phase = .both || x.phase = .leave)
  pack [(0, phaseCode x.phase), (3, b2n x.e), (4, b2n x.busy), (5, b2n x.standing), (6, b2n (x.phase = .fault)), (7, b2n v),
        (8, b2n x.da), (9, b2n x.db)]

/-- HD_IDLET (R164). -/
def idleTime (x : Head) (t : Nat) : W16 :=
  match x.idleSince with
  | some u => sat16 ((t - u) / 100000)
  | none => 0

def hdWord (sel : W16) (a : Nat) (s : State) : W16 :=
  let h := headSel sel
  let c := s.cfg.head[h.1]
  let x := s.hd.head[h.1]
  match a with
  | 0x0A0 => sel
  | 0x0A1 => c.cfg
  | 0x0A2 => c.pfilt
  | 0x0A3 => c.tstand
  | 0x0A4 => c.dsys
  | 0x0A5 => c.vmax
  | 0x0A6 => headStat x
  | 0x0A7 => x.speed.setWidth 16
  | 0x0A8 => word0 x.cin
  | 0x0A9 => word1 x.cin
  | 0x0AA => word0 x.cout
  | 0x0AB => word1 x.cout
  | 0x0AC => x.rocks
  | 0x0AD => x.dist
  | 0x0AE => x.seqerr
  | 0x0AF => idleTime x s.now
  | 0x0B0 => word0 x.mask1
  | 0x0B1 => word1 x.mask1
  | 0x0B2 => word0 x.mask2
  | 0x0B3 => word1 x.mask2
  | 0x0B8 => word0 (headMap (·.busy) s)
  | 0x0B9 => word1 (headMap (·.busy) s)
  | 0x0BA => word0 (headMap (fun h => h.phase = .fault) s)
  | 0x0BB => word1 (headMap (fun h => h.phase = .fault) s)
  | 0x0BC => word0 (headMap (·.standing) s)
  | 0x0BD => word1 (headMap (·.standing) s)
  | 0x0BE => s.hd.maskErr
  | _ => 0

/-! ### SC: sections (chapter 05) -/

/-- The heads that bound a section, as a map (R201). -/
def boundMap (i : Fin 32) (s : State) : W32 := bitsOf 32 fun h => bounds ⟨h % 32, by omega⟩ i s

/-- SC_STAT: the flags of a section that does not run read 0 (R700). -/
def sectStat (i : Fin 32) (s : State) : W16 :=
  let x := s.sc.sect[i.1]
  let on := x.st != .disabled
  pack [(0, secCode x.st), (4, x.cause.toNat), (8, b2n (on && anyBusy i s)), (9, b2n (on && allIdle i s)),
        (10, b2n (on && secPending i s))]

/-- SC_TACK. -/
def tackStat (s : State) : W16 :=
  pack [(0, b2n s.sc.tackValid), (1, b2n s.sc.refresh.isSome), (2, s.sc.nltot.toNat)]

def scWord (sel : W16) (a : Nat) (s : State) : W16 :=
  let i := sectSel sel
  let x := s.sc.sect[i.1]
  match a with
  | 0x0C0 => sel
  | 0x0C1 => s.cfg.section_[i.1]
  | 0x0C2 => sectStat i s
  | 0x0C3 => x.count
  | 0x0C4 => x.entries
  | 0x0C5 => x.anom
  | 0x0C6 => word0 (boundMap i s)
  | 0x0C7 => word1 (boundMap i s)
  | 0x0D0 => word0 (sectMap (fun x => x.st = .clear) s)
  | 0x0D1 => word1 (sectMap (fun x => x.st = .clear) s)
  | 0x0D2 => word0 (sectMap (fun x => x.st = .disturbed) s)
  | 0x0D3 => word1 (sectMap (fun x => x.st = .disturbed) s)
  | 0x0D4 => pack [(0, s.sc.fifo.length % 128), (8, s.sc.peak % 128)]
  | 0x0D5 => word0 s.sc.walks
  | 0x0D6 => word1 s.sc.walks
  | 0x0D7 => s.sc.walkFlt
  | 0x0D8 => s.sc.lastFlt
  | 0x0D9 => s.sc.eccCor
  | 0x0DA => tackStat s
  | 0x0DB => s.sc.walkMax
  | 0x0DC => s.sc.cntErr
  | _ => 0

/-! ### BR: berths (chapter 06) -/

/-- BR_STAT. -/
def berthStat (x : Berth) : W16 :=
  pack [(0, b2n x.drp), (1, x.terms.toNat), (8, b2n x.enable), (9, b2n x.permit), (10, b2n x.dbgw), (11, b2n x.release),
        (12, x.lastw.toNat)]

def brWord (sel : W16) (a : Nat) (s : State) : W16 :=
  let b := berthSel sel
  let c := s.cfg.berth[b.1]
  let x := s.berth[b.1]
  match a with
  | 0x0E0 => sel
  | 0x0E1 => c.cfg
  | 0x0E2 => c.amin
  | 0x0E3 => c.amax
  | 0x0E4 => c.stop
  | 0x0E5 => c.tstill
  | 0x0E6 => c.doors
  | 0x0E7 => berthStat x
  | 0x0E8 => x.stillT
  | 0x0E9 => x.wdcnt
  | 0x0EA => word0 x.lastwAt
  | 0x0EB => word1 x.lastwAt
  | 0x0EC => pack [(0, (drpMap s).toNat), (8, (relMap s).toNat)]
  | 0x0ED => pack [(0, (berthMap fun b => s.berth[b.1].enable).toNat), (8, (berthMap fun b => s.berth[b.1].permit).toNat)]
  | _ => 0

/-! ### DC: door channels (chapter 07) -/

/-- A channel's status record as NVM holds it (R289, R693): 0 until PROVE step 5 completes. -/
def doorNv (c : Fin 16) (s : State) : BitVec 64 := if s.sys.nvmReady then s.nv.vault.doors[c.1] else 0

/-- DC_STAT. -/
def chanStat (c : Fin 16) (s : State) : W16 :=
  let x := s.dc.chan[c.1]
  pack [(0, chanCode x.state), (3, b2n (bitOf (doorNv c s) 1)), (4, b2n x.armed), (5, b2n x.sto[0].on), (6, b2n x.sto[1].on),
        (7, b2n x.sto[0].rb), (8, b2n x.sto[1].rb), (9, x.cause.toNat), (14, b2n x.release), (15, b2n x.psi)]

/-- Codes of a pair's evaluation (DC_IN). -/
def evalCode : PairEval → Nat
  | .good => 0
  | .bad => 1
  | .transit => 2
  | .fault => 3

/-- Code of a request. -/
def reqCode : Req → Nat
  | .hold => 0
  | .open_ => 1
  | .close => 2
  | .stop => 3

/-- DC_IN. -/
def chanIn (c : Fin 16) (s : State) : W16 :=
  let x := s.dc.chan[c.1]
  pack ((List.finRange 4).map (fun k => (k.1, b2n s.dc.contact[(contactOf c k).1].filt)) ++
    [(4, evalCode x.cl.eval), (6, evalCode x.ob.eval), (8, reqCode x.req), (10, b2n x.fresh), (11, b2n x.iso), (12, b2n x.tachF),
     (13, b2n (x.sto[0].deg || x.sto[1].deg))])

/-- DC_ESTOP. -/
def estopWord (s : State) : W16 :=
  (s.cfg.estop &&& 0x07FF) ||| pack [(11, b2n (estopActive s)), (12, b2n (s.dc.estop.eval = .fault))]

/-- DC_TPS. -/
def tpsWord (s : State) : W16 :=
  pack [(0, if tpsRuns s then 15 else 0), (4, (bitsOf 4 fun n => (s.dc.tps[n % 4]'(by omega)).fault).toNat)]

def dcWord (sel : W16) (a : Nat) (s : State) : W16 :=
  let c := chanSel sel
  let k := s.cfg.chan[c.1]
  match a with
  | 0x0F0 => sel
  | 0x0F1 => k.cfg
  | 0x0F2 => k.time
  | 0x0F3 => k.disc
  | 0x0F4 => k.ramp
  | 0x0F5 => k.rdly
  | 0x0F6 => k.vmax
  | 0x0F7 => k.vtol
  | 0x0F8 => k.vcreep
  | 0x0F9 => k.tscale
  | 0x0FA => pack [(0, fld k.degcyc 7 0), (8, ((doorNv c s >>> 8).setWidth 8 : Byte).toNat)]
  | 0x0FB => k.degtime
  | 0x0FC => ((doorNv c s >>> 16).setWidth 11 : BitVec 11).setWidth 16
  | 0x0FD => chanStat c s
  | 0x0FE => chanIn c s
  | 0x0FF => BitVec.ofNat 16 (min 2047 s.dc.chan[c.1].speed)
  | 0x100 => estopWord s
  | 0x101 => tpsWord s
  | 0x102 => torqueMap s
  | 0x103 => chanMap fun c => s.dc.chan[c.1].cl.eval = .good
  | 0x104 => pack [(0, s.dc.psiB.toNat), (8, b2n s.dc.psiAll)]
  | 0x105 => chanMap fun c => bitOf (doorNv c s) 1
  | 0x106 => chanMap fun c => bitOf (doorNv c s) 0
  | 0x107 => chanMap fun c => s.dc.chan[c.1].state = .isolated
  | 0x109 => pack [(0, b2n s.dc.unlockRej), (1, b2n !s.dc.unlock.isEmpty)]
  | 0x10A => s.dc.lastStop
  | 0x10B => s.dc.lastStopCh.setWidth 16
  | 0x10C => s.dc.viol
  | 0x10D => s.dc.rbErr
  | 0x10E => s.dc.xcnt
  | _ => 0

/-! ### CK: check units (chapter 11) -/

/-- CKn_STAT.STATE. -/
def ckState (u : Ck) (t : Nat) : Nat :=
  if u.disabled then 3 else if ckTesting u t then 2
  else if u.feed.isSome || !u.ops.isEmpty || !u.fifo.isEmpty then 1 else 0

/-- CKn_STAT. -/
def ckStat (u : Ck) (t : Nat) : W16 :=
  pack [(0, ckState u t), (2, ckLevel u), (8, b2n u.mis), (9, b2n u.spec.isSome), (10, b2n u.held), (11, b2n u.overdue),
        (12, u.lastk.toNat)]

/-- Bytes that a CKBLK has fed at an instant: a word each Cantle clock after the first two (R406; DEDUCED, log entry 97). -/
def feedDone (f : Feed) (t : Nat) : Nat := min f.bytes.length (4 * (100 * (t - f.start) - 2) - f.addr % 4)

/-- CKn_VAL (R395, R419): the committed raw value of a coprocessor unit with the progress of its CKBLK, or the snapshot while an
uncommitted operation stands; the last result of a snoop unit; 0 of a unit that is OFF. -/
def ckVal (u : Ck) (t : Nat) : W32 :=
  if ckOwner u = 2 then
    match u.spec, u.feed with
    | some p, _ => p.raw
    | none, some f => crcFeed (ckPreset u) u.raw (f.bytes.take (feedDone f t))
    | none, none => u.raw
  else if ckOwner u = 1 then u.val else 0

def ckWord (a : Nat) (s : State) : W16 :=
  let u := s.ck[ringIx ((a - 0x110) / 8)]
  match a % 8 with
  | 0 => u.cfg
  | 1 => u.par
  | 2 => word0 (ckVal u s.now)
  | 3 => word1 (ckVal u s.now)
  | 4 => word0 u.exp
  | 5 => word1 u.exp
  | 6 => ckStat u s.now
  | _ => u.cnt

/-! ### TG: telegrams (chapter 09) -/

/-- TG_ESREM and TG_CSREM: minutes left of a pair in single mode. -/
def singleLeft (p : Fin 2) (s : State) : W16 :=
  match s.tg.pair[p.1].mode with
  | .singleA | .singleB =>
    (match itemLeft (singleItem p) s with
      | some m => sat16 (m / 60000000)
      | none => 0xFFFF)
  | _ => 0xFFFF

/-- TG_EAGE. -/
def enableAge (s : State) : W16 := if s.tg.benValid then sat16 (senderTime s - s.tg.benTime).toNat else 0xFFFF

/-- An entry of a table of four ports. -/
def port4 (v : Vector W16 4) (k : Nat) : W16 := v[k % 4]'(by omega)

def tgWord (a : Nat) (s : State) : W16 :=
  let c := s.cfg.tg
  match a with
  | 0x150 => c.node
  | 0x151 => c.cpeer0
  | 0x152 => c.cpeer1
  | 0x157 => c.skew
  | 0x158 => c.win
  | 0x159 => c.efresh
  | 0x15A => c.cfresh
  | 0x15B => c.eslim
  | 0x15C => c.cslim
  | 0x15D => pstatWord s
  | 0x15E => singleLeft 0 s
  | 0x15F => singleLeft 1 s
  | 0x160 => benWord s
  | 0x161 => enableAge s
  | 0x162 => pack [(0, s.tg.rack.toNat), (8, s.tg.rstep.toNat)]
  | 0x163 => nvmWord s.nv.vault.loadNo s
  | 0x16C => s.tg.mismatch
  | 0x16D => s.tg.seqerr
  | 0x16E => s.tg.stale
  | 0x16F => s.tg.gap
  | _ =>
    if a < 0x157 then port4 c.cmask (a - 0x153)
    else if a < 0x168 then port4 s.tg.rxerr (a - 0x164) else port4 s.tg.missCnt (a - 0x168)

/-! ### EN and CN: ports (chapter 10) -/

/-- EN_STATA, EN_STATB. -/
def ethStat (e : Eth) : W16 :=
  pack [(0, b2n e.up), (1, b2n e.link), (2, b2n e.anDone), (3, b2n e.fd100), (4, b2n e.mdioOk), (8, e.cause.toNat)]

/-- Code of a CAN error state. -/
def canCode : CanState → Nat
  | .active => 0
  | .passive => 1
  | .busOff => 2
  | .off => 3

/-- CN_STATA, CN_STATB. -/
def canStat (x : Fin 2) (s : State) : W16 :=
  let c := s.ports.can[x.1]
  pack [(0, canCode c.state), (2, b2n (!canDown x s)), (3, b2n c.holdoff), (4, b2n c.stb), (5, c.lec.toNat)]

/-- CN_ERRA, CN_ERRB. -/
def canErrs (c : Can) : W16 := pack [(0, min 255 c.tec), (8, min 255 c.rec_)]

def enWord (a : Nat) (s : State) : W16 :=
  match a with
  | 0x170 => s.cfg.en.phy
  | 0x171 => s.cfg.en.etype
  | 0x172 => s.cfg.en.mac[0]
  | 0x173 => s.cfg.en.mac[1]
  | 0x174 => s.cfg.en.mac[2]
  | 0x175 => s.cfg.en.dmac[0]
  | 0x176 => s.cfg.en.dmac[1]
  | 0x177 => s.cfg.en.dmac[2]
  | 0x178 => s.cfg.en.vlan
  | 0x179 => s.cfg.en.cycle
  | 0x17A => ethStat s.ports.eth[0]
  | 0x17B => ethStat s.ports.eth[1]
  | 0x17C => s.ports.eth[0].drop
  | 0x17D => s.ports.eth[1].drop
  | 0x17F => s.ports.mdioData
  | _ => 0

def cnWord (a : Nat) (s : State) : W16 :=
  match a with
  | 0x180 => s.cfg.cn.ctl
  | 0x181 => s.cfg.cn.cycle
  | 0x182 => s.cfg.cn.nbt
  | 0x183 => s.cfg.cn.dbt
  | 0x184 => s.cfg.cn.sjw
  | 0x185 => s.cfg.cn.tdc
  | 0x186 => canStat 0 s
  | 0x187 => canStat 1 s
  | 0x188 => canErrs s.ports.can[0]
  | 0x189 => canErrs s.ports.can[1]
  | 0x18A => s.ports.can[0].boff
  | 0x18B => s.ports.can[1].boff
  | 0x18C => s.ports.can[0].drop
  | 0x18D => s.ports.can[1].drop
  | 0x18E => pack [(0, s.ports.can[0].wdr.toNat), (8, s.ports.can[1].wdr.toNat)]
  | _ => 0

/-! ### UM: USB maintenance port (chapter 20) -/

/-- Code of UM_STAT.STATE. -/
def ustateCode : UState → Nat
  | .disconnected => 0
  | .default_ => 1
  | .addressed => 2
  | .configured => 3

/-- UM_STAT; a request's writes end with its command, so BUSY reads 0. -/
def umStat (s : State) : W16 :=
  pack [(0, ustateCode s.um.state), (2, b2n s.um.vbus), (3, b2n s.um.suspend), (4, b2n s.nv.login[1].on), (5, b2n s.um.download.isSome)]

/-- UM_LASTREQ. The frame number of UM_FRAME comes with SOF packets, which no command brings: it is a free value. -/
def lastReqWord (s : State) : W16 := pack [(0, s.um.lastReq.toNat), (8, s.um.lastRes.toNat)]

def umWord (a : Nat) (s : State) : W16 :=
  match a with
  | 0x190 => umStat s
  | 0x191 => s.um.addr.setWidth 16
  | 0x192 => if s.um.sof then ((Config.freeWord s.free).setWidth 11 : BitVec 11).setWidth 16 else 0
  | 0x193 => s.um.reqCnt
  | 0x194 => s.um.stalls
  | 0x195 => s.um.busRst
  | 0x196 => s.um.aborts
  | 0x197 => lastReqWord s
  | _ => 0

/-! ### CV and LG: vault and ledger (chapter 13) -/

/-- CV_STAT. -/
def cvStat (s : State) : W16 :=
  pack [(0, b2n s.nv.login[0].on), (1, b2n s.nv.login[1].on), (2, b2n (nvmBit (s.nv.vault.lockMin != 0) s)),
        (3, b2n (nvmBit (defPwd s.nv.vault) s)), (4, b2n s.nv.commit.isSome), (5, b2n (nvmBit s.nv.vault.bank s)), (6, b2n (nvmBit s.nv.vault.pbank s))]

/-- CV_SSTAT: the words of a completed chunk stay shown until the next CV_SSEL. -/
def sstatWord (s : State) : W16 :=
  let n := s.nv.chunk.words.length
  pack [(0, b2n s.nv.chunk.opened), (1, min 127 n), (8, b2n (128 ≤ n)), (9, s.nv.sLast.toNat), (12, b2n s.nv.erasing),
        (13, b2n s.nv.prep)]

/-- Oldest LSEQ retained; with no record retained the spec states no value. -/
def oldSeq (s : State) : W32 :=
  match s.nv.ledger.recs.head? with
  | some r => r.lseq
  | none => (Config.freeWord s.free).setWidth 32

def cvWord (a : Nat) (s : State) : W16 :=
  match a with
  | 0x1A0 => cvStat s
  | 0x1A1 => nvmWord s.nv.vault.lockMin s
  | 0x1A2 => nvmWord (pack [(0, s.nv.vault.wrong.toNat % 8), (4, min 15 s.nv.vault.k.toNat)]) s
  | 0x1A5 => s.nv.ssel
  | 0x1A9 => sstatWord s
  | 0x1AA => BitVec.ofNat 16 s.nv.dirD.length
  | 0x1AB => BitVec.ofNat 16 s.nv.dirP.length
  | 0x1AC => word0 s.nv.code
  | 0x1AD => word1 s.nv.code
  | 0x1AE => pack [(0, s.nv.result.toNat), (8, s.nv.origin.toNat)]
  | 0x1AF => pack [(0, s.nv.resTag.toNat), (8, s.nv.resIndex.toNat)]
  | 0x1B0 => nvmWord (word0 (bankCode (curBank s) s)) s
  | 0x1B1 => nvmWord (word1 (bankCode (curBank s) s)) s
  | 0x1B2 => nvmWord (word0 (bankImageId (curBank s) s)) s
  | 0x1B3 => nvmWord (word1 (bankImageId (curBank s) s)) s
  | 0x1B4 => nvmWord (word0 s.nv.cseq) s
  | 0x1B5 => nvmWord (word1 s.nv.cseq) s
  | _ => 0

/-- LG_STAT. -/
def lgStat (s : State) : W16 :=
  pack [(0, b2n s.nv.ledger.lost.isSome), (1, b2n s.nv.clog.lost.isSome),
        (2, b2n (s.nv.ledger.retiring.isSome || s.nv.clog.retiring.isSome)), (4, 8 - s.nv.ledger.retired.length),
        (8, 4 - s.nv.clog.retired.length), (11, (s.nv.cells.toList.filter (·.isSome)).length)]

def lgWord (a : Nat) (s : State) : W16 :=
  match a with
  | 0x1C0 => nvmWord (lgStat s) s
  | 0x1C1 => s.cfg.ledger
  | 0x1C2 => nvmWord (word0 s.nv.lseq) s
  | 0x1C3 => nvmWord (word1 s.nv.lseq) s
  | 0x1C4 => nvmWord (word0 (oldSeq s)) s
  | 0x1C5 => nvmWord (word1 (oldSeq s)) s
  | 0x1C6 => pack [(0, s.nv.queue.length % 64), (8, s.nv.qPeak % 64)]
  | 0x1C7 => s.nv.qDrop
  | 0x1C8 => nvmWord s.nv.unlogged s
  | 0x1CA => s.nv.rsel0
  | 0x1CB => s.nv.rsel1
  | 0x1CC => pack [(0, b2n s.nv.ready), (1, s.nv.res.toNat)]
  | 0x1CE => s.nv.appMax
  | _ => 0

/-! ### ST: stitching (chapter 14) -/

/-- Free spares of an area's pool. -/
def poolFree (area : Fin 10) (s : State) : Nat := poolSize area - poolUsed area s

/-- The field map has been read: PROVE step 2 is over (R511). -/
def mapRead (s : State) : Bool := decide (2 ≤ s.sys.proveDone.toNat)

/-- Field entries of an area's rows. -/
def fieldRows (area : Fin 10) (s : State) : Nat :=
  (s.st.entries.filter fun e => e.kind.toNat = rowResource area &&
    (if area.1 < 8 then decide (e.item.toNat / 128 = area.1) else decide (e.item.toNat < 128) == decide (area.1 = 8))).length

/-- Free spares of an area as the registers report them: the fused ones until the field map has been read. -/
def freeShown (area : Fin 10) (s : State) : Nat := if mapRead s then poolFree area s else poolFree area s + fieldRows area s

/-- An SRAM bank as an area. -/
def bankArea (b : Nat) : Fin 10 := ⟨b % 8, by omega⟩

def stWord (a : Nat) (s : State) : W16 :=
  match a with
  | 0x1D0 => pack [(0, b2n (mapRead s && s.st.copies[0].ok)), (1, b2n (mapRead s && s.st.copies[1].ok)), (2, b2n s.st.single)]
  | 0x1D1 => if mapRead s then BitVec.ofNat 16 s.st.entries.length else 0
  | 0x1D2 => s.st.fact
  | 0x1D7 => pack [(0, freeShown 8 s), (4, freeShown 9 s)]
  | 0x1D8 => bitsOf 16 fun k => decide (k < 4) && (!mapRead s || (s.st.nvmSpare[k % 4]'(by omega)).isNone)
  | 0x1D9 => s.st.low
  | 0x1DA => s.st.eccCor
  | 0x1DB => s.st.eccUnc
  | 0x1DC => s.st.lastErr
  | 0x1DD => pack [(0, b2n (verifyBusy s.st.verify)), (1, b2n s.st.overrun), (8, s.st.verify.sector.toNat)]
  | _ =>
    if 0x1D3 ≤ a ∧ a < 0x1D7 then
      pack [(0, freeShown (bankArea (2 * (a - 0x1D3))) s), (8, freeShown (bankArea (2 * (a - 0x1D3) + 1)) s)]
    else 0

/-! ### CS: the Cantle sequencer (chapter 15) -/

/-- CS_STAT. -/
def csStat (c : Cs) : W16 :=
  pack [(0, csCode c.state), (3, b2n c.wdf), (4, b2n c.hl), (5, b2n c.ie), (6, b2n c.late), (7, b2n c.rej), (8, c.ovcnt.toNat)]

/-- CS_MBSTAT. -/
def mbStat (c : Cs) : W16 := pack [(0, b2n c.inFull), (1, b2n c.outFull), (2, b2n c.refused), (3, c.outLen.toNat)]

def csWord (a : Nat) (s : State) : W16 :=
  match a with
  | 0x1E0 => csStat s.cs
  | 0x1E2 => s.cfg.seqr.cfg
  | 0x1E3 => s.cfg.seqr.entry
  | 0x1E4 => s.cfg.seqr.vbase
  | 0x1E5 => pack [(0, s.cs.permit.toNat % 256), (8, (berthMap fun b => s.berth[b.1].permit).toNat)]
  | 0x1E6 => word0 s.cs.scanno
  | 0x1E7 => word1 s.cs.scanno
  | 0x1E8 => s.cs.scanMax
  | 0x1E9 => s.cs.overrun
  | 0x1EA => s.cs.excCnt
  | 0x1EB => s.cs.lastExc.setWidth 16
  | 0x1EC => s.cs.excPc
  | 0x1ED => word0 s.cs.excAddr
  | 0x1EE => word1 s.cs.excAddr
  | 0x1EF => s.cs.imecc
  | 0x1F5 => mbStat s.cs
  | 0x1F6 => s.cs.mbout[0]
  | 0x1F7 => s.cs.mbout[1]
  | 0x1F8 => s.cs.mbout[2]
  | 0x1F9 => s.cs.mbout[3]
  | _ => 0

/-! ### The whole map -/

/-- The value a word holds as a port sees it (Table RM-1): WO and reserved words hold 0. Upper words of RS groups give their
current value. -/
def liveWord (p : Port) (a : Nat) (s : State) : W16 :=
  let sel := s.hb.port[p.ix].sel
  if a < 0x030 then syWord a s
  else if a < 0x040 then hbWord p a s
  else if a < 0x080 then evWord p a s
  else if a < 0x0A0 then wfWord sel.wf a s
  else if a < 0x0C0 then hdWord sel.hd a s
  else if a < 0x0E0 then scWord sel.sc a s
  else if a < 0x0F0 then brWord sel.br a s
  else if a < 0x110 then dcWord sel.dc a s
  else if a < 0x150 then ckWord a s
  else if a < 0x170 then tgWord a s
  else if a < 0x180 then enWord a s
  else if a < 0x190 then cnWord a s
  else if a < 0x1A0 then umWord a s
  else if a < 0x1C0 then cvWord a s
  else if a < 0x1D0 then lgWord a s
  else if a < 0x1E0 then stWord a s
  else csWord a s

/-- Upper words of the RS group whose lowest word is `a` (Table HB-5), 0 for a word that is none. -/
def rsUpper (a : Nat) : Nat :=
  if a = 0x012 then 2
  else if a = 0x09A then 3
  else if a = 0x0A8 ∨ a = 0x0AA ∨ a = 0x0B8 ∨ a = 0x0BA ∨ a = 0x0BC ∨ a = 0x0C6 ∨ a = 0x0D0 ∨ a = 0x0D2 ∨ a = 0x0D5 ∨ a = 0x0EA ∨
    a = 0x1B0 ∨ a = 0x1B2 ∨ a = 0x1B4 ∨ a = 0x1C2 ∨ a = 0x1C4 ∨ a = 0x1E6 ∨ a = 0x1ED then 1
  else if 0x110 ≤ a ∧ a < 0x150 ∧ a % 8 = 2 then 1
  else 0

/-- An upper word of an RS group. -/
def isUpper (a : Nat) : Bool :=
  decide (1 ≤ a) && (decide (1 ≤ rsUpper (a - 1)) || (decide (2 ≤ a) && decide (2 ≤ rsUpper (a - 2))) ||
    (decide (3 ≤ a) && decide (3 ≤ rsUpper (a - 3))))

/-- The value of a read without a side effect: an upper word returns the port's snapshot (R675); in RESET every read
returns 0 (R669). -/
def readWord (p : Port) (a : Nat) (s : State) : W16 :=
  if s.sys.mode = .reset then 0 else if isUpper a then snapGet p a s else liveWord p a s

/-- The upper words of a group are latched into the port's snapshot (R674). -/
def latchUpper (p : Port) (a : Nat) : Nat → State → State
  | 0, s => s
  | k + 1, s => latchUpper p a k (snapPut p (a + k + 1) (liveWord p (a + k + 1) s) s)

/-- The value of a word read is one the spec leaves open. -/
def openWord (a : Nat) (s : State) : Bool :=
  ((a = 0x1C4 || a = 0x1C5) && s.nv.ledger.recs.isEmpty) || (a = 0x192 && s.um.sof)

/-- A read by a port of a word other than an RP register (R674 to R676): the data and the latched upper words. -/
def readSnap (p : Port) (a : Nat) (s : State) : State :=
  if s.sys.mode = .reset then portData p 0 s
  else
    let s := latchUpper p a (rsUpper a) (portData p (readWord p a s) s)
    if openWord a s then { s with free := s.free + 1 } else s

end Sys2Proof.Machine
end

