-- ==== Sys2Proof/Machine/CantleMem.lean ====
section
/-! DEFINITION. Loads and stores of Cantle (chapters 15 and 16): the data address space of Table CS-1 and its exceptions. -/

namespace Sys2Proof.Machine

open Sys2Proof

/-! ### The address space (Table CS-1) -/

/-- Words of the safety I/O window above the scan image. -/
def ioWord (a : Nat) : Bool :=
  a = 0xF0100 || a = 0xF0104 || a = 0xF0108 || a = 0xF0110 || a = 0xF0114 || a = 0xF0118 ||
  (decide (0xF0120 ≤ a) && decide (a ≤ 0xF0130)) || (decide (0xF0140 ≤ a) && decide (a ≤ 0xF0150))

/-- An aligned address names a location. -/
def located (a : Nat) : Bool :=
  decide (a < 0x8000) || (decide (0xF0000 ≤ a) && decide (a < 0xF0090)) || ioWord a ||
  (decide (0xFF000 ≤ a) && decide (a ≤ 0xFF7FC))

/-- Data memory. -/
def inDmem (a : Nat) : Bool := decide (a < 0x8000)

/-- The ADDRESS conditions of R587 for an access of `n` bytes at an effective address. -/
def addressFault (e : W32) (n : Nat) : Bool :=
  decide (0x100000 ≤ e.toNat) || decide (e.toNat % n ≠ 0) || (!inDmem e.toNat && decide (n ≠ 4)) || !located e.toNat

/-- Locations that accept loads only (R541, Table CI-6). -/
def loadsOnly (a : Nat) : Bool :=
  (decide (0xF0000 ≤ a) && decide (a < 0xF0090)) || a = 0xF0104 || a = 0xF0108 || (decide (0xF0120 ≤ a) && decide (a < 0xF0130)) ||
  decide (0xFF000 ≤ a)

/-- Clocks of an access by its address class (Table CI-5). -/
def accessClocks (a : Nat) : Nat := if a < 0x8000 then 1 else if a < 0xFF000 then 2 else 3

/-- A permit word that PERMIT accepts (R555). -/
def permitOk (v : W32) : Bool := word1 v = 0 && fld (word0 v) 15 8 = 255 - fld (word0 v) 7 0

/-! ### Words of the aperture -/

/-- An entry of a mailbox. -/
def box4 (v : Vector W16 4) (k : Nat) : W16 := v[k % 4]'(by omega)

/-- A word of the safety I/O window as a load returns it (Table CI-6). -/
def ioRead (a : Nat) (s : State) : W32 :=
  if a < 0xF0090 then BitVec.ofNat 32 (leAt s.cs.window.toList (a - 0xF0000) 4)
  else if a = 0xF0100 then s.cs.permit
  else if a = 0xF0104 then s.cs.scanno
  else if a = 0xF0108 then s.tstamp.setWidth 32
  else if a = 0xF0110 then s.cs.ien.setWidth 32
  else if a = 0xF0114 then s.cs.ipend.setWidth 32
  else if a = 0xF0118 then s.cs.timer
  else if a < 0xF0130 then (box4 s.cs.mbin ((a - 0xF0120) / 4)).setWidth 32
  else if a = 0xF0130 then BitVec.ofNat 32 (b2n s.cs.inFull + 2 * s.cs.inLen.toNat)
  else if a < 0xF0150 then (box4 s.cs.mbout ((a - 0xF0140) / 4)).setWidth 32
  else BitVec.ofNat 32 (b2n s.cs.outFull)

/-- Host words whose content depends on the accessing port (Table RM-20); the spec names none for Cantle. -/
def perPort (w : Nat) : Bool :=
  w = 0x030 || w = 0x032 || w = 0x033 || (decide (0x078 ≤ w) && decide (w ≤ 0x07B)) || (decide (0x080 ≤ w) && decide (w ≤ 0x08A)) ||
  (decide (0x0A0 ≤ w) && decide (w ≤ 0x0B3)) || (decide (0x0C0 ≤ w) && decide (w ≤ 0x0C7)) ||
  (decide (0x0E0 ≤ w) && decide (w ≤ 0x0EB)) || (decide (0x0F0 ≤ w) && decide (w ≤ 0x0FF))

/-- A load from the host-register window (R542, R695): no side effect, and upper words give their current value. -/
def hostLoad (w : Nat) (s : State) : W32 × State :=
  if perPort w then
    let r := draw s
    (((r.1.setWidth 16 : W16)).setWidth 32, r.2)
  else ((liveWord .bus w s).setWidth 32, if openWord w s then { s with free := s.free + 1 } else s)

/-- The aligned word that an access reaches, as a load returns it. -/
def wordLoad (a : Nat) (s : State) : W32 × State :=
  if inDmem a then (memRead32 0 s.cs.dmem (a / 4 * 4), s)
  else if 0xFF000 ≤ a then hostLoad ((a - 0xFF000) / 4) s
  else (ioRead a s, s)

/-- A word stored to the safety I/O window (Table CI-6, R556 to R558, R570). -/
def ioStore (a : Nat) (v : W32) (s : State) : State :=
  let lo := word0 v
  if a = 0xF0100 then
    tapOut 8 { bytes := [lo.setWidth 8, (lo >>> 8).setWidth 8] } (noteLatch (setCs (fun c => { c with permit := v }) s))
  else if a = 0xF0110 then setCs (fun c => { c with ien := v.setWidth 8 }) s
  else if a = 0xF0114 then setCs (fun c => { c with ipend := c.ipend &&& ~~~(v.setWidth 8) }) s
  else if a = 0xF0118 then
    let t := min 1000000 v.toNat
    setCs (fun c => { c with timer := BitVec.ofNat 32 t, timerAt := if t = 0 then none else some (s.now + t) }) s
  else if a = 0xF0130 then
    if bitOf v 0 then setCs (fun c => { c with inFull := false, inLen := 0 }) s else s
  else if a = 0xF0150 then mailPost (fld lo 2 0) s
  else setCs (fun c => { c with mbout := upd c.mbout ⟨(a - 0xF0140) / 4 % 4, by omega⟩ fun _ => lo }) s

/-! ### Watchpoints (R636 to R638) -/

/-- The lowest watchpoint that matches an access of a kind. -/
def watchAt (a : Nat) (v : W32) (store : Bool) (s : State) : Option (Fin 4) :=
  if !monOn s then none
  else (List.finRange 4).find? fun n =>
    let w := s.db.wa[n.1]
    bitOf w 31 && bitOf w (if store then 29 else 30) && decide (w.toNat % 2 ^ 20 / 4 = a / 4) &&
      ((v ^^^ s.db.wv[n.1]) &&& s.db.wm[n.1]) = 0

/-- An access at `a` whose aligned word is `v` completes in its clocks, with the watchpoints judged on the handler level before
it. -/
def accessEnd (a : Nat) (v : W32) (store : Bool) (s : State) : State :=
  let hl0 := s.cs.hl
  let m := watchAt a v store s
  let s :=
    if m.isNone then s
    else if hl0 then setDb (fun d => { d with missed := satInc d.missed }) s
    else setDb (fun d => { d with whaddr := BitVec.ofNat 20 a, whval := v }) s
  boundary hl0 (if hl0 then none else m) (clocks (accessClocks a) (stepPc s))

/-! ### Loads and stores (Table CI-4) -/

/-- Row of a data-memory word (chapter 14). -/
def dmemRow (a : Nat) : Byte := BitVec.ofNat 8 (a / 512)

/-- What the ECC of a data-memory word finds; the aperture has none. -/
def dmemEcc (a : Nat) (ecc : Ecc) (s : State) : State := if inDmem a then eccFound 9 (dmemRow a) ecc s else s

/-- A load of `n` bytes: the value goes through `f` into Gd (R585, R587, R590). -/
def load (n : Nat) (f : W32 → W32) (d a : BitVec 4) (imm : BitVec 18) (ecc : Ecc) (s : State) : Result :=
  .next (atX (fun s =>
    let e := effAddr a imm s
    let x := e.toNat
    if addressFault e n then exception 2 e s
    else
      let s := dmemEcc x ecc s
      if inDmem x && ecc = .uncorrectable then exception 5 (BitVec.ofNat 32 (x / 4 * 4)) s
      else
        let r := wordLoad x s
        accessEnd x r.1 false (setG d (f (r.1 >>> (8 * (x % 4)))) r.2)) s)

/-- LW. -/
def execLw (d a : BitVec 4) (imm : BitVec 18) (ecc : Ecc) (s : State) : Result := load 4 id d a imm ecc s
/-- LH. -/
def execLh (d a : BitVec 4) (imm : BitVec 18) (ecc : Ecc) (s : State) : Result :=
  load 2 (fun v => (v.setWidth 16).signExtend 32) d a imm ecc s
/-- LHU. -/
def execLhu (d a : BitVec 4) (imm : BitVec 18) (ecc : Ecc) (s : State) : Result :=
  load 2 (fun v => (v.setWidth 16).setWidth 32) d a imm ecc s
/-- LB. -/
def execLb (d a : BitVec 4) (imm : BitVec 18) (ecc : Ecc) (s : State) : Result :=
  load 1 (fun v => (v.setWidth 8).signExtend 32) d a imm ecc s
/-- LBU. -/
def execLbu (d a : BitVec 4) (imm : BitVec 18) (ecc : Ecc) (s : State) : Result :=
  load 1 (fun v => (v.setWidth 8).setWidth 32) d a imm ecc s

/-- The bytes of a store to data memory. -/
def dmemStore (n a : Nat) (v : W32) (s : State) : State :=
  setCs (fun c => { c with dmem := memWriteList 0 c.dmem a (bytesLE n v.toNat) }) s

/-- The store itself; a store of fewer than four bytes reads the rest of its word (DEDUCED: ECC stands on the word). -/
def storeDo (n : Nat) (x : Nat) (v : W32) (ecc : Ecc) (s : State) : State :=
  if !inDmem x then
    let s := ioStore x v s
    accessEnd x (ioRead x s) true s
  else if ckblkHolds (x / 4 * 4) s then stall s
  else
    let ecc := if n = 4 then .good else ecc
    let s := dmemEcc x ecc s
    if ecc = .uncorrectable then exception 5 (BitVec.ofNat 32 (x / 4 * 4)) s
    else
      let s := dmemStore n x v s
      accessEnd x (memRead32 0 s.cs.dmem (x / 4 * 4)) true s

/-- A store of `n` bytes of Gs, with the exceptions in the order of R587; one to a word that an issued CKBLK has not read
waits (R410). -/
def store (n : Nat) (r a : BitVec 4) (imm : BitVec 18) (ecc : Ecc) (s : State) : Result :=
  .next (atX (fun s =>
    let e := effAddr a imm s
    let v := gr r s
    if addressFault e n then exception 2 e s
    else if loadsOnly e.toNat then exception 6 e s
    else if e.toNat = 0xF0100 && !permitOk v then exception 7 e s
    else storeDo n e.toNat v ecc s) s)

/-- SW. -/
def execSw (r a : BitVec 4) (imm : BitVec 18) (ecc : Ecc) (s : State) : Result := store 4 r a imm ecc s
/-- SH. -/
def execSh (r a : BitVec 4) (imm : BitVec 18) (ecc : Ecc) (s : State) : Result := store 2 r a imm ecc s
/-- SB. -/
def execSb (r a : BitVec 4) (imm : BitVec 18) (ecc : Ecc) (s : State) : Result := store 1 r a imm ecc s

end Sys2Proof.Machine
end

