-- ==== Sys2Proof/Machine/HostBus.lean ====
section
/-! DEFINITION. The host bus and the writes of the register map (chapters 18 and 19): what a port's write to each word does.
Reserved words read 0 and ignore writes with no error (R14, R15, R17); only RP and RS reads have a side effect (R20); an access is one
whole word and one command, in the order of the sender (R43, R658, R672, R673, R679, R680, R685); HB_OWNER is never checked (R45, R689).
Collisions are those of Tables HB-6 and RM-22 (R690, R702), failures of Tables HB-7 and RM-23 (R691, R703). -/

namespace Sys2Proof.Machine

open Sys2Proof

/-- Changes the host bus. -/
def setHb (f : Hb → Hb) (s : State) : State := { s with hb := f s.hb }

/-- Changes a port's selects. -/
def setSel (p : Port) (f : Sels → Sels) (s : State) : State := setPort p (fun q => { q with sel := f q.sel }) s

/-- STROBE_CONFLICT (R660): ignored and counted; in RESET nothing counts. -/
def execStrobeConflict (s : State) : Result :=
  .next (protError 2 s)

/-! ### The semaphore (R688) -/

/-- A command that is not accepted. -/
def ownerDeny (p : Port) (s : State) : State := setPort p (fun q => { q with denied := true }) s

/-- OWNER's code of a port. -/
def ownerCode (p : Port) : BitVec 2 := if p = .bus then 1 else 2

def ownerClaim (p : Port) (tag : Byte) (s : State) : State :=
  if s.hb.owner = 0 then setHb (fun h => { h with owner := ownerCode p, tag := tag }) s else ownerDeny p s

def ownerRelease (p : Port) (s : State) : State :=
  if s.hb.owner = ownerCode p then setHb (fun h => { h with owner := 0, tag := 0 }) s else ownerDeny p s

def ownerForce (p : Port) (key : Byte) (s : State) : State :=
  if key = 0x9D then setHb (fun h => { h with owner := 0, tag := 0 }) s else ownerDeny p s

/-- OWNER_CLAIM. -/
def execOwnerClaim (p : Port) (arg : Byte) (s : State) : Result := .next (portWrite p 0x031 (ownerClaim p arg) s)
/-- OWNER_RELEASE. -/
def execOwnerRelease (p : Port) (_arg : Byte) (s : State) : Result := .next (portWrite p 0x031 (ownerRelease p) s)
/-- OWNER_FORCE. -/
def execOwnerForce (p : Port) (arg : Byte) (s : State) : Result := .next (portWrite p 0x031 (ownerForce p arg) s)

/-- A write of HB_OWNREQ; CMD 0 is none. -/
def ownerReq (p : Port) (v : W16) (s : State) : State :=
  let arg : Byte := (v >>> 8).setWidth 8
  match fld v 1 0 with
  | 1 => ownerClaim p arg s
  | 2 => ownerRelease p s
  | 3 => ownerForce p arg s
  | _ => s

/-! ### Reads with side effects (R674 to R678) -/

/-- SNAPSHOT_READ (R674): the lowest word's value, and the upper words latched into the port's snapshot. -/
def execSnapshotRead (p : Port) (addr : BitVec 9) (s : State) (cycle : ReadCycle := {}) : Result :=
  .next (readCycle p cycle (readSnap p addr.toNat) s)

/-! ### Writes by access code (R13, R694) -/

/-- The word has a field that a port can write: RW, W1C or WO (Tables RM-3 to RM-19). -/
def writable (a : Nat) : Bool :=
  a = 0x006 || a = 0x007 || a = 0x008 || a = 0x009 || a = 0x030 || a = 0x031 || a = 0x032 ||
  (decide (0x060 ≤ a) && decide (a < 0x068)) || (decide (0x072 ≤ a) && decide (a < 0x077)) || a = 0x078 || a = 0x07A || a = 0x080 ||
  a = 0x09E || a = 0x0A0 || a = 0x0C0 || a = 0x0E0 || a = 0x0F0 || a = 0x108 || a = 0x109 ||
  (decide (0x110 ≤ a) && decide (a < 0x150) && a % 8 = 6) || a = 0x17E || a = 0x18F ||
  (decide (0x1A3 ≤ a) && decide (a < 0x1A9)) || a = 0x1AC || a = 0x1AD || a = 0x1C9 || a = 0x1CA || a = 0x1CB || a = 0x1CF ||
  a = 0x1DD || a = 0x1DE || a = 0x1E0 || a = 0x1E1 || (decide (0x1F0 ≤ a) && decide (a < 0x1F6)) || a = 0x1FA

/-- Words whose writes are commands of their own in the table of operations. -/
def ownRow (a : Nat) : Bool :=
  a = 0x007 || a = 0x008 || a = 0x031 || a = 0x09E || a = 0x108 || a = 0x17E || a = 0x18F || a = 0x1A3 || a = 0x1A4 || a = 0x1A5 ||
  a = 0x1A6 || a = 0x1A8 || a = 0x1C9 || a = 0x1CF || a = 0x1DE || a = 0x1E1 || a = 0x1F4 || a = 0x1FA

/-- A half of a 32-bit pair of words. -/
def putHalf (hi : Bool) (w : W32) (v : W16) : W32 := if hi then join32 (word0 w) v else join32 v (word1 w)

/-- A write of a word of the SY, HB or EV block without a row of its own. -/
def lowWrite (p : Port) (a : Nat) (v : W16) (s : State) : State :=
  if a = 0x006 then setSys (fun y => { y with reqRej := y.reqRej && !bitOf v 4 }) s
  else if a = 0x009 then setSys (fun y => { y with rstCause := w1c y.rstCause 0x0F3F v }) s
  else if a = 0x030 then setPort p (fun q => { q with denied := q.denied && !bitOf v 3 }) s
  else if a = 0x032 then setPort p (fun q => { q with scratch := v }) s
  else if a < 0x068 then irqUpdate (setRing (ringIx (a - 0x60)) (fun r => { r with ovf := r.ovf && !bitOf v 13 }) s)
  else if a = 0x072 then irqUpdate (setEv (fun e => { e with ien := v.setWidth 8 }) s)
  else if a = 0x073 then irqUpdate (setEv (fun e => { e with irqsel := v.setWidth 8 }) s)
  else if a = 0x074 then irqUpdate (setEv (fun e => { e with ithr0 := v }) s)
  else if a = 0x075 then irqUpdate (setEv (fun e => { e with ithr1 := v }) s)
  else if a = 0x076 then irqUpdate (setEv (fun e => { e with itime := v.setWidth 8 }) s)
  else if a = 0x078 then setSel p (fun q => { q with rsel := v &&& 0x01FF }) s
  else setSel p (fun q => { q with csel := v &&& 0x001F }) s

/-- A write of a select register or of a word of the blocks from DC on, without a row of its own. -/
def highWrite (p : Port) (a : Nat) (v : W16) (s : State) : State :=
  if a = 0x080 then setSel p (fun q => { q with wf := v &&& 0x003F }) s
  else if a = 0x0A0 then setSel p (fun q => { q with hd := v &&& 0x001F }) s
  else if a = 0x0C0 then setSel p (fun q => { q with sc := v &&& 0x001F }) s
  else if a = 0x0E0 then setSel p (fun q => { q with br := v &&& 0x0007 }) s
  else if a = 0x0F0 then setSel p (fun q => { q with dc := v &&& 0x000F }) s
  else if a = 0x109 then { s with dc := { s.dc with unlockRej := s.dc.unlockRej && !bitOf v 0 } }
  else if a < 0x150 then setCk (ringIx ((a - 0x110) / 8)) (fun u => { u with mis := u.mis && !bitOf v 8 }) s
  else if a = 0x1A7 then setNv (fun n => { n with scrc0 := v }) s
  else if a = 0x1AC ∨ a = 0x1AD then setNv (fun n => { n with code := putHalf (a = 0x1AD) n.code v }) s
  else if a = 0x1CA then setNv (fun n => { n with rsel0 := v }) s
  else if a = 0x1CB then setNv (fun n => { n with rsel1 := v }) s
  else if a = 0x1DD then setSt (fun x => { x with overrun := x.overrun && !bitOf v 1 }) s
  else if a = 0x1E0 then setCs (fun c => { c with rej := c.rej && !bitOf v 7 }) s
  else if a = 0x1F5 then setCs (fun c => { c with refused := c.refused && !bitOf v 2 }) s
  else setCs (fun c => { c with mbin := upd c.mbin ⟨(a - 0x1F0) % 4, by omega⟩ fun _ => v }) s

/-- A write of CV_CMD: the commands of chapter 13. -/
def cvWrite (p : Port) (v : W16) (f : WriteFindings) (s : State) : State :=
  if keyOf v ≠ 0xC7 then s
  else match fld v 3 0 with
    | 1 => loginDo p.ix s
    | 2 => endLogin p.ix 1 s
    | 3 => setpwdDo p.ix f.entryOk f.vaultOk s
    | 4 => clearstageDo p.ix s
    | 5 => commitDo p.ix { entryOk := f.entryOk, vaultOk := f.vaultOk, ends := f.ends } s
    | _ => s

/-- A write of LG_RCMD; kind 3 fetches nothing. -/
def rcmdWrite (v : W16) (f : WriteFindings) (s : State) : State :=
  match fld v 1 0 with
  | 0 => fetchLedger f.crcOk s
  | 1 => fetchCell f.crcOk s
  | 2 => fetchClog f.crcOk s
  | _ => s

/-- A write of SY_MODEREQ; other values are ignored. -/
def modeReqWrite (v : W16) (s : State) : State :=
  if v = 0x00C2 then configureAsk s else if v = 0x00A3 then restartAsk s else s

/-- A write of a word that has a row of its own. -/
def rowWrite (p : Port) (a : Nat) (v : W16) (f : WriteFindings) (s : State) : State :=
  if a = 0x007 then modeReqWrite v s
  else if a = 0x008 then resetKey v s
  else if a = 0x031 then ownerReq p v s
  else if a = 0x09E then proveRequest v s
  else if a = 0x108 then unlockWrite v s
  else if a = 0x17E then mdioRequest v s
  else if a = 0x18F then recoverWrite v s
  else if a = 0x1A3 then pwWrite p.ix v s
  else if a = 0x1A4 then cvWrite p v f s
  else if a = 0x1A5 then chunkOpen v s
  else if a = 0x1A6 then chunkWord p.ix v s
  else if a = 0x1A8 then chunkEnd p.ix v f.nvmOk s
  else if a = 0x1C9 then rcmdWrite v f s
  else if a = 0x1CF then cellsClear p.ix v s
  else if a = 0x1DE then telemSelect v s
  else if a = 0x1E1 then csControl p v s
  else if a = 0x1F4 then mailSend (fld v 2 0) s
  else mailAck v s

/-- The effect of a write on a writable word. -/
def wordWrite (p : Port) (a : Nat) (v : W16) (f : WriteFindings) (s : State) : State :=
  if ownRow a then rowWrite p a v f s
  else if a < 0x080 then lowWrite p a v s
  else highWrite p a v s

/-- Words that a USB register write never reaches (R714). -/
def usbBarred (a : Nat) : Bool := a = 0x007 || a = 0x008 || a = 0x108 || a = 0x1E1

/-- A write of a port to any word: one to a word with no writable field changes no register and is not counted (R694), but keeps
the port's login alive as R479 says. -/
def regWrite (p : Port) (a : Nat) (v : W16) (f : WriteFindings) (s : State) : State :=
  if p = .usb && usbBarred a then s
  else if writable a then portWrite p a (wordWrite p a v f) s
  else if portLive s then touchLogin p a s else s

/-- REGISTER_WRITE (R13). -/
def execRegisterWrite (p : Port) (addr : BitVec 9) (value : W16) (s : State) (soon : Bool := false) : Result :=
  .next (regWrite p addr.toNat value {} (busSoon p soon s))

end Sys2Proof.Machine
end

