-- ==== Sys2Proof/Machine/Usb.lean ====
section
/-! DEFINITION. The USB maintenance port (chapter 20): standard and vendor requests, downloads, bus reset and the states of
the bus. A request command is a whole control transfer; one whose data stage is not complete is held.
Speed and descriptors are R704 and Table UM-2 (R708); collisions are those of Table UM-8 (R725), failures of Table UM-9 (R726). -/

namespace Sys2Proof.Machine

open Sys2Proof

/-- Changes the USB port. -/
def setUm (f : Um → Um) (s : State) : State := { s with um := f s.um }

/-! ### Answers -/

/-- The port answers: connected and not suspended (R705, R706). -/
def usbLive (s : State) : Bool := s.um.state != .disconnected && !s.um.suspend && s.sys.mode != .reset && !clockSafe s

/-- An answer to the control request. -/
def usbAnswer (a : UAns) (s : State) : State := setUm (fun u => { u with answer := a }) s

/-- STALL (R707, R711): it changes nothing and is counted. -/
def usbStall (s : State) : State := usbAnswer .stall (setUm (fun u => { u with stalls := satInc u.stalls }) s)

/-- A SETUP packet aborts a transfer that has not reached its trigger point (R723). -/
def usbSetup (s : State) : State :=
  if s.um.held then setUm (fun u => { u with held := false, aborts := satInc u.aborts }) s else s

/-- A request on the bus: none is seen while the port does not answer. -/
def usbRequest (f : State → State) (s : State) : State := if usbLive s then f (usbSetup s) else usbAnswer .none s

/-- Data of an IN request, at most wLength bytes (USB 2.0). -/
def usbData (r : UsbReq) (bytes : List Byte) (s : State) : State := usbAnswer (.data (bytes.take r.length.toNat)) s

/-! ### Standard requests (Tables UM-1 and UM-2; the codes and layouts are those of USB 2.0) -/

/-- A standard request that is supported in this form, else STALL. -/
def usbStandard (ok : Bool) (f : State → State) (s : State) : Result := .next (usbRequest (fun s => if ok then f s else usbStall s) s)

/-- The request addresses EP1 IN. -/
def onEp1 (r : UsbReq) : Bool := r.index = 0x0081
/-- The request addresses the control endpoint. -/
def onEp0 (r : UsbReq) : Bool := r.index = 0x0000 || r.index = 0x0080

/-- GET_STATUS: self-powered, no remote wakeup; interface 0; the halt bit. -/
def execGetStatus (r : UsbReq) (s : State) : Result :=
  usbStandard
    (r.value = 0 && ((r.rtype = 0x80 && r.index = 0) || (r.rtype = 0x81 && r.index = 0) || (r.rtype = 0x82 && (onEp0 r || onEp1 r))))
    (fun s => usbData r [if r.rtype = 0x80 then 1 else if r.rtype = 0x82 ∧ onEp1 r ∧ s.um.halt then 1 else (0 : Byte), 0] s) s

/-- A feature request for ENDPOINT_HALT of EP1 IN. -/
def haltRequest (r : UsbReq) : Bool := r.rtype = 0x02 && r.value = 0 && onEp1 r && r.length = 0

/-- CLEAR_FEATURE: the halt and any download end (R722). -/
def execClearFeature (r : UsbReq) (s : State) : Result :=
  usbStandard (haltRequest r) (fun s => usbAnswer .status (setUm (fun u => { u with halt := false, download := none }) s)) s

/-- SET_FEATURE. -/
def execSetFeature (r : UsbReq) (s : State) : Result :=
  usbStandard (haltRequest r) (fun s => usbAnswer .status (setUm (fun u => { u with halt := true }) s)) s

/-- SET_ADDRESS: 1 to 127. -/
def execSetAddress (r : UsbReq) (s : State) : Result :=
  usbStandard (r.rtype = 0x00 && decide (1 ≤ r.value.toNat) && decide (r.value.toNat ≤ 127) && r.index = 0 && r.length = 0)
    (fun s => usbAnswer .status (setUm (fun u => { u with
      addr := r.value.setWidth 7, state := if u.state = .default_ then .addressed else u.state }) s)) s

/-- The device descriptor. -/
def deviceDesc : List Byte :=
  [18, 1, 0x00, 0x02, 0, 0, 0, 64, 0x5C, 0x3A, 0x16, 0x64, 0x00, 0x01, 1, 2, 3, 1]

/-- The configuration, interface and endpoint descriptors. -/
def configDesc : List Byte :=
  [9, 2, 25, 0, 1, 1, Config.usbByte 0, 0xC0, 0] ++ [9, 4, 0, 0, 1, 0xFF, 0x01, 0x00, 0] ++ [7, 5, 0x81, 2, 64, 0, Config.usbByte 1]

/-- A string descriptor of ASCII characters. -/
def stringDesc (chars : List Byte) : List Byte :=
  [BitVec.ofNat 8 (2 + 2 * chars.length), 3] ++ chars.flatMap fun c => [c, 0]

/-- "Tolcel" and "Palolino Darore PD-6416". -/
def makerName : List Byte := [0x54, 0x6F, 0x6C, 0x63, 0x65, 0x6C]
def productName : List Byte :=
  [0x50, 0x61, 0x6C, 0x6F, 0x6C, 0x69, 0x6E, 0x6F, 0x20, 0x44, 0x61, 0x72, 0x6F, 0x72, 0x65, 0x20] ++
  [0x50, 0x44, 0x2D, 0x36, 0x34, 0x31, 0x36]

/-- The descriptor a GET_DESCRIPTOR names, none for one that is not there. -/
def descriptor (value index : W16) (uid : BitVec 64) : Option (List Byte) :=
  if value = 0x0100 then (if index = 0 then some deviceDesc else none)
  else if value = 0x0200 then (if index = 0 then some configDesc else none)
  else if value = 0x0300 then (if index = 0 then some [4, 3, 0x09, 0x04] else none)
  else if index ≠ 0x0409 then none
  else if value = 0x0301 then some (stringDesc makerName)
  else if value = 0x0302 then some (stringDesc productName)
  else if value = 0x0303 then some (stringDesc (factoryPw uid))
  else none

/-- GET_DESCRIPTOR. -/
def execGetDescriptor (r : UsbReq) (s : State) : Result :=
  usbStandard (r.rtype = 0x80 && (descriptor r.value r.index s.sys.uid).isSome)
    (fun s => usbData r ((descriptor r.value r.index s.sys.uid).getD []) s) s

/-- GET_CONFIGURATION. -/
def execGetConfiguration (r : UsbReq) (s : State) : Result :=
  usbStandard (r.rtype = 0x80 && r.value = 0 && r.index = 0 && r.length = 1)
    (fun s => usbData r [if s.um.state = .configured then 1 else (0 : Byte)] s) s

/-- SET_CONFIGURATION: values 0 and 1; EP1 begins without a halt. -/
def execSetConfiguration (r : UsbReq) (s : State) : Result :=
  usbStandard (r.rtype = 0x00 && (r.value = 0 || r.value = 1) && r.index = 0 && r.length = 0)
    (fun s => usbAnswer .status (setUm (fun u =>
      if r.value = 1 then { u with state := .configured, halt := false }
      else { u with state := if u.state = .configured then .addressed else u.state }) s)) s

/-- GET_INTERFACE. -/
def execGetInterface (r : UsbReq) (s : State) : Result :=
  usbStandard (r.rtype = 0x81 && r.value = 0 && r.index = 0 && r.length = 1) (usbData r [0]) s

/-- SET_INTERFACE: interface 0, alternate setting 0. -/
def execSetInterface (r : UsbReq) (s : State) : Result :=
  usbStandard (r.rtype = 0x01 && r.value = 0 && r.index = 0 && r.length = 0)
    (fun s => usbAnswer .status (setUm (fun u => { u with halt := false }) s)) s

/-! ### Vendor requests (R709 to R713, R724) -/

/-- A vendor request completes with its outcome of Table UM-6 (R712). -/
def vendorDone (code : Byte) (res : Nat) (s : State) : State :=
  setUm (fun u => { u with lastReq := code, lastRes := BitVec.ofNat 4 res, reqCnt := u.reqCnt + 1 }) s

/-- An IN request: its data are those of before the request. -/
def vendorIn (code : Byte) (ok : Bool) (r : UsbReq) (f : State → List Byte × State) (s : State) : Result :=
  .next (usbRequest (fun s =>
    if r.rtype = 0xC0 && ok then
      let x := f s
      vendorDone code 0 (usbAnswer (.data x.1) x.2)
    else usbStall s) s)

/-- An OUT request in PROVE (Table UM-7), without its login (R713), or run: `f` gives the outcome. -/
def vendorRun (code : Byte) (inProve login : Bool) (f : State → Nat × State) (s : State) : State :=
  if s.sys.mode = .prove && !inProve then vendorDone code 4 (usbAnswer .status s)
  else if login && !s.nv.login[1].on then vendorDone code 1 (usbAnswer .status s)
  else
    let x := f s
    vendorDone code x.1 (usbAnswer .status x.2)

/-- An OUT request: a wrong form gets STALL; until its data stage is complete it is held (R716). -/
def vendorOut (code : Byte) (ok inProve login : Bool) (r : UsbReq) (f : State → Nat × State) (s : State) : Result :=
  .next (usbRequest (fun s =>
    if !(r.rtype = 0x40 && ok) then usbStall s
    else if r.data.length < r.length.toNat then usbAnswer .none (setUm (fun u => { u with held := true }) s)
    else vendorRun code inProve login f s) s)

/-- wValue and wIndex are 0. -/
def plain (r : UsbReq) : Bool := r.value = 0 && r.index = 0

/-- A register write of the USB port, as an OUT request makes it. -/
def usbWrite (a : Nat) (v : W16) (f : WriteFindings) (s : State) : State := regWrite .usb a v f s

/-! ### Information and registers -/

/-- GET_INFO data (Table UM-4). -/
def infoBytes (s : State) : List Byte :=
  let w := fun (a : Nat) => bytesLE 2 (liveWord .usb a s).toNat
  w 0x000 ++ w 0x001 ++ w 0x002 ++ w 0x003 ++ w 0x004 ++ w 0x005 ++ [BitVec.ofNat 8 (modeCode s.sys.mode)] ++ (w 0x1A0).take 1 ++
    w 0x00F ++ w 0x1B0 ++ w 0x1B1 ++ w 0x163 ++ w 0x1C2 ++ w 0x1C3 ++ w 0x197 ++ [0, 0, 0, 0]

/-- GET_INFO. -/
def execGetInfo (r : UsbReq) (s : State) : Result :=
  vendorIn 0x01 (plain r && r.length = 32) r (fun s => (infoBytes s, s)) s

/-- A read of any word from USB, with the side effects of Table HB-5 (R696, R715). -/
def usbRead (a : Nat) (s : State) : State :=
  if a = 0x1CD then rdataRead .usb s else if a = 0x1DF then telemRead .usb s else readSnap .usb a s

/-- `n` words from word `a`, wrapping at 0x1FF. -/
def usbReads : Nat → Nat → State → List Byte × State
  | 0, _, s => ([], s)
  | n + 1, a, s =>
    let s := usbRead a s
    let x := usbReads n ((a + 1) % 512) s
    (bytesLE 2 s.hb.port[1].data.toNat ++ x.1, x.2)

/-- The form of READ_REGS and WRITE_REGS. -/
def regsForm (r : UsbReq) : Bool :=
  decide (r.value.toNat < 512) && r.index = 0 && decide (2 ≤ r.length.toNat) && decide (r.length.toNat ≤ 256) && r.length.toNat % 2 = 0

/-- READ_REGS. -/
def execReadRegs (r : UsbReq) (s : State) : Result :=
  vendorIn 0x02 (regsForm r) r (fun s => usbReads (r.length.toNat / 2) r.value.toNat s) s

/-- The words of a data stage written in rising address order, wrapping at 0x1FF. -/
def usbWrites (f : WriteFindings) : Nat → List W16 → State → State
  | _, [], s => s
  | a, w :: ws, s => usbWrites f ((a + 1) % 512) ws (usbWrite a w f s)

/-- A word that R714 skips stands among `n` words from `a`. -/
def usbSkips (n a : Nat) : Bool := (List.range n).any fun i => usbBarred ((a + i) % 512)

/-- WRITE_REGS (R714): REFUSED when a word was skipped. -/
def execWriteRegs (r : UsbReq) (f : WriteFindings) (s : State) : Result :=
  vendorOut 0x03 (regsForm r) false false r (fun s =>
    (if usbSkips (r.length.toNat / 2) r.value.toNat then 5 else 0,
     usbWrites f r.value.toNat (wordsOf (r.data.take r.length.toNat)) s)) s

/-- GET_LAST. -/
def execGetLast (r : UsbReq) (s : State) : Result :=
  vendorIn 0x04 (plain r && r.length = 4) r
    (fun s => ([s.um.lastReq, s.um.lastRes.setWidth 8] ++ bytesLE 2 s.um.reqCnt.toNat, s)) s

/-! ### Login and passwords -/

/-- The password bytes written to CV_PWD, two a word. -/
def pwWrites : List W16 → State → State
  | [], s => s
  | w :: ws, s => pwWrites ws (usbWrite 0x1A3 w {} s)

/-- The form of LOGIN and SETPWD. -/
def pwForm (r : UsbReq) : Bool := plain r && decide (8 ≤ r.length.toNat) && decide (r.length.toNat ≤ 32)

/-- The words of a password, the last one padded with a zero byte. -/
def pwWords (r : UsbReq) : List W16 :=
  let b := r.data.take r.length.toNat
  wordsOf (if b.length % 2 = 0 then b else b ++ [0])

/-- Outcome of LOGIN: LOCKED, OK or WRONGPWD. -/
def loginRes (s : State) : Nat :=
  let s := lockTick s
  if s.nv.vault.lockMin ≠ 0 then 3 else if pwRight s.nv.login[1].pw.chars s then 0 else 2

/-- USB_LOGIN. -/
def execUsbLogin (r : UsbReq) (s : State) : Result :=
  vendorOut 0x10 (pwForm r) false false r (fun s =>
    let s := pwWrites (pwWords r) s
    (loginRes s, usbWrite 0x1A4 0xC701 {} s)) s

/-- USB_LOGOUT. -/
def execUsbLogout (r : UsbReq) (s : State) : Result :=
  vendorOut 0x11 (plain r && r.length = 0) false false r (fun s => (0, usbWrite 0x1A4 0xC702 {} s)) s

/-- SETPWD will set the password. -/
def setpwdOk (p : Fin 2) (entryOk : Bool) (s : State) : Bool :=
  s.nv.login[p.1].on && pwValid s.nv.login[p.1].pw.chars && (clogWrite (pwEntry p s) entryOk s).isSome

/-- USB_SETPWD. -/
def execUsbSetpwd (r : UsbReq) (entryOk vaultOk : Bool) (s : State) : Result :=
  vendorOut 0x12 (pwForm r) false true r (fun s =>
    let s := pwWrites (pwWords r) s
    (if setpwdOk 1 entryOk s then 0 else 5, usbWrite 0x1A4 0xC703 { entryOk := entryOk, vaultOk := vaultOk } s)) s

/-! ### Staging and commit -/

/-- Outcome of CLEARSTAGE for a logged-in port. -/
def clearRes (s : State) : Nat := if s.nv.erasing ∨ s.nv.commit.isSome then 6 else if stageMode s then 0 else 4

/-- USB_CLEARSTAGE. -/
def execUsbClearstage (r : UsbReq) (s : State) : Result :=
  vendorOut 0x20 (plain r && r.length = 0) false true r (fun s => (clearRes s, usbWrite 0x1A4 0xC704 {} s)) s

/-- The words of a chunk written to CV_SDATA. -/
def chunkWrites : List W16 → State → State
  | [], s => s
  | w :: ws, s => chunkWrites ws (usbWrite 0x1A6 w {} s)

/-- Outcome of a staged chunk from CV_SSTAT.LAST. -/
def stageRes (s : State) : Nat :=
  if s.nv.sLast = 1 then 0 else if s.nv.sLast = 5 then 4 else if s.nv.sLast = 4 ∧ (s.nv.erasing ∨ s.nv.commit.isSome) then 6 else 5

/-- STAGE: one chunk of 256 bytes with its CRC. -/
def execStage (r : UsbReq) (nvmOk : Bool) (s : State) : Result :=
  vendorOut 0x21 (decide (r.value.toNat < 1024) && decide (r.index.toNat ≤ 1) && r.length = 260) false true r (fun s =>
    let s := usbWrite 0x1A5 (r.value ||| (if r.index = 1 then 0x8000 else 0)) {} s
    let s := chunkWrites (wordsOf (r.data.take 256)) s
    let s := usbWrite 0x1A7 (BitVec.ofNat 16 (leAt r.data 256 2)) {} s
    let s := usbWrite 0x1A8 (BitVec.ofNat 16 (leAt r.data 258 2)) { nvmOk := nvmOk } s
    (stageRes s, s)) s

/-- Outcome of COMMIT at its trigger point: the commit starts or is refused (R488). -/
def commitRes (s : State) : Nat :=
  if s.nv.commit.isSome then 6
  else match commitRefused 1 s with
  | none => 0
  | some r => if r = 0x11 then 4 else 5

/-- USB_COMMIT (R717). -/
def execUsbCommit (r : UsbReq) (f : CommitFindings) (s : State) : Result :=
  vendorOut 0x22 (plain r && r.length = 4) false true r (fun s =>
    let s := usbWrite 0x1AC (BitVec.ofNat 16 (leAt r.data 0 2)) {} s
    let s := usbWrite 0x1AD (BitVec.ofNat 16 (leAt r.data 2 2)) {} s
    (commitRes s, usbWrite 0x1A4 0xC705 { entryOk := f.entryOk, vaultOk := f.vaultOk, ends := f.ends } s)) s

/-- COMMIT_STATUS data (Table UM-5). -/
def commitBytes (s : State) : List Byte :=
  [s.nv.result, s.nv.origin.setWidth 8, s.nv.resTag, s.nv.resIndex] ++ bytesLE 4 s.um.comSeq.toNat ++ bytesLE 4 s.um.comCode.toNat

/-- COMMIT_STATUS. -/
def execCommitStatus (r : UsbReq) (s : State) : Result :=
  vendorIn 0x23 (plain r && r.length = 12) r (fun s => (commitBytes s, s)) s

/-! ### Downloads (R720 to R722) -/

/-- The numbers of the items of a kind, in sequence order. -/
def itemNos (kind : Nat) (s : State) : List Nat :=
  if kind = 0 then s.nv.ledger.recs.map (·.lseq.toNat)
  else if kind = 1 then List.range 16
  else s.nv.clog.recs.map (·.cseq.toNat)

/-- Starts a download: the end is the newest item, or the COUNT − 1 th after the first one sent. -/
def downloadStart (kind : Fin 3) (first count : Nat) (s : State) : State :=
  let nos := itemNos kind.1 s
  let rest := nos.filter fun n => decide (first ≤ n)
  let last := (if count = 0 then rest.getLast? else (rest.take count).getLast?)
  setUm (fun u => { u with download := some (match last with
    | some l => { kind := kind, next := rest.headD first, last := l }
    | none => { kind := kind, next := 1, last := 0 }) }) s

/-- LOG_START. -/
def execLogStart (r : UsbReq) (s : State) : Result :=
  vendorOut 0x30 (r.value = 0 && decide (r.index.toNat ≤ 2) && r.length = 8) true false r (fun s =>
    (0, downloadStart ⟨r.index.toNat % 3, by omega⟩ (leAt r.data 0 4) (leAt r.data 4 4) s)) s

/-- LOG_STOP. -/
def execLogStop (r : UsbReq) (s : State) : Result :=
  vendorOut 0x31 (plain r && r.length = 0) true false r (fun s => (0, setUm (fun u => { u with download := none }) s)) s

/-- The next item of a download from number `n` on: its number, and its bytes when the partition still holds it. -/
def nextItem (kind : Fin 3) (n : Nat) (s : State) : Nat × Option (List Byte) :=
  if kind = 1 then
    (n, some (match cellAt n s with
      | some x => lrecBytes x
      | none => List.replicate 32 0))
  else if kind = 0 then
    match s.nv.ledger.recs.find? fun x => decide (n ≤ x.lseq.toNat) with
    | some x => if s.nv.ledger.recs.head?.any (fun y => decide (n < y.lseq.toNat)) then (n, none) else (x.lseq.toNat, some (lrecBytes x))
    | none => (n, none)
  else
    match s.nv.clog.recs.find? fun x => decide (n ≤ x.cseq.toNat) with
    | some x => if s.nv.clog.recs.head?.any (fun y => decide (n < y.cseq.toNat)) then (n, none) else (x.cseq.toNat, some (centBytes x))
    | none => (n, none)

/-- Bytes of an item of a kind. -/
def itemLen (kind : Fin 3) : Nat := if kind = 2 then 64 else 32

/-- The next `k` items of a download as a packet, and the number that follows: an item that cannot be read is sent as 0xFF. -/
def packetItems (reads : Bool) (d : Download) (s : State) : Nat → List Byte × Nat
  | 0 => ([], d.next)
  | k + 1 =>
    let x := packetItems reads d s k
    if d.last < x.2 then x
    else
      let y := nextItem d.kind x.2 s
      let b := if reads then y.2.getD (List.replicate (itemLen d.kind) 0xFF) else List.replicate (itemLen d.kind) 0xFF
      (x.1 ++ b, y.1 + 1)

/-- A download's next packet: at most 64 bytes, two items of 32 or one of 64. -/
def downloadPacket (reads : Bool) (d : Download) (s : State) : List Byte × Nat := packetItems reads d s (64 / itemLen d.kind)

/-- DOWNLOAD_IN_TOKEN (R720, R722): a packet that is acknowledged moves the download on, and a short one ends it. -/
def execDownloadInToken (ack reads : Bool) (s : State) : Result :=
  .next (
    if !usbLive s || s.um.state ≠ .configured || s.um.halt then s
    else match s.um.download with
      | none => s
      | some d =>
        let x := downloadPacket reads d s
        setUm (fun u => { u with
          packet := x.1,
          download := if !ack then some d else if x.1.length < 64 then none else some { d with next := x.2 } }) s)

/-! ### Unlock and reset -/

/-- USB_UNLOCK (R290). -/
def execUsbUnlock (r : UsbReq) (s : State) : Result :=
  vendorOut 0x40 (decide (r.value.toNat < 16) && r.index = 0 && r.length = 0) false true r (fun s =>
    let c : Fin 16 := ⟨r.value.toNat % 16, by omega⟩
    (if !unlockWaits c s && unlockOk c s then 0 else 5, unlockRequest c true s)) s

/-- A USB reset request at its trigger point (R58, R59, R719): the outcome and what begins. -/
def usbResetAsk (s : State) : Nat × State :=
  let due := setUm (fun u => { u with resetAt := some (s.now + 1000) }) s
  if s.sys.mode = .configure ∨ s.sys.mode = .safe then (0, due)
  else if !s.nv.login[1].on then (1, reqReject s)
  else if s.sys.stop.isSome || !inService s then (5, reqReject s)
  else (0, setSys (fun y => { y with stop := some .resetUsb }) due)

/-- RESET_DEVICE. -/
def execResetDevice (r : UsbReq) (s : State) : Result :=
  vendorOut 0x41 (r.value = 0x52A7 && r.index = 0x0C9E && r.length = 0) false false r usbResetAsk s

/-! ### The bus (R705, R706, R722, R723, R770) -/

/-- USB_BUS_RESET (R723). -/
def execUsbBusReset (s : State) : Result :=
  .next (
    if s.um.state = .disconnected then s
    else
      let s := usbSetup s
      let s := setUm (fun u => { u with
        state := .default_, addr := 0, suspend := false, halt := false, download := none, busRst := satInc u.busRst }) s
      let s := if s.hb.owner = 2 then setHb (fun h => { h with owner := 0, tag := 0 }) s else s
      endLogin 1 5 s)

/-- VBUS_CHANGE (R705, R770): the level has held for 5 ms. -/
def execVbusChange (valid : Bool) (s : State) : Result :=
  .next (
    if s.um.vbus = valid then s
    else
      let s := setUm (fun u => { u with vbus := valid }) s
      if s.sys.mode = .reset || clockSafe s then s
      else if valid then usbConnect s
      else endLogin 1 5 (usbDisconnect s))

/-- USB_SUSPEND (R706). -/
def execUsbSuspend (s : State) : Result :=
  .next (if s.um.state = .disconnected then s else setUm (fun u => { u with suspend := true }) s)

/-- USB_RESUME (R706). -/
def execUsbResume (s : State) : Result := .next (setUm (fun u => { u with suspend := false }) s)

end Sys2Proof.Machine
end

