-- ==== Sys2Proof/Machine/Dispatch.lean ====
section
/-! DEFINITION. One arm per command: each calls the meaning of its row of the table. -/

namespace Sys2Proof.Machine

open Sys2Proof

/-- The effect of a command on everything but the queue. -/
def exec (i : Instr) (s : State) : Host.Outcome State Fault Refusal :=
  match i with
  | .powerOnReset => Sys2Proof.Machine.execPowerOnReset s
  | .brownOut supply durNs belowOff => Sys2Proof.Machine.execBrownOut supply durNs belowOff s
  | .rstdLowPulse widthNs => Sys2Proof.Machine.execRstdLowPulse widthNs s
  | .resetExit bootsel sources => Sys2Proof.Machine.execResetExit bootsel sources s
  | .pllLockTimeout bootsel => Sys2Proof.Machine.execPllLockTimeout bootsel s
  | .prove upTo f => Sys2Proof.Machine.execProve upTo f s
  | .configurationLoad upTo f => Sys2Proof.Machine.execConfigurationLoad upTo f s
  | .safetyTick inputs => Sys2Proof.Machine.execSafetyTick inputs s
  | .laneSample n => Sys2Proof.Machine.execLaneSample n s
  | .headBusy h => Sys2Proof.Machine.execHeadBusy h s
  | .standingTimeout h => Sys2Proof.Machine.execStandingTimeout h s
  | .walk ecc => Sys2Proof.Machine.execWalk ecc s
  | .tackRefreshDone imageReads crcOk => Sys2Proof.Machine.execTackRefreshDone imageReads crcOk s
  | .sectionMaskMismatch h copy1 copy2 => Sys2Proof.Machine.execSectionMaskMismatch h copy1 copy2 s
  | .maskReloadDone h ok => Sys2Proof.Machine.execMaskReloadDone h ok s
  | .countCopyMismatch x count compl => Sys2Proof.Machine.execCountCopyMismatch x count compl s
  | .sectionResetApply => Sys2Proof.Machine.execSectionResetApply s
  | .provingStart g => Sys2Proof.Machine.execProvingStart g s
  | .agreementWindowExpiry g => Sys2Proof.Machine.execAgreementWindowExpiry g s
  | .burstStart n => Sys2Proof.Machine.execBurstStart n s
  | .burstEnd n m => Sys2Proof.Machine.execBurstEnd n m s
  | .provingOverdue n => Sys2Proof.Machine.execProvingOverdue n s
  | .faultCheckExpiry g => Sys2Proof.Machine.execFaultCheckExpiry g s
  | .inputFaultClear n => Sys2Proof.Machine.execInputFaultClear n s
  | .groupReferenceFault g => Sys2Proof.Machine.execGroupReferenceFault g s
  | .proveRequest p value => Sys2Proof.Machine.execProveRequest p value s
  | .contactSample levels => Sys2Proof.Machine.execContactSample levels s
  | .contactFilterExpiry n => Sys2Proof.Machine.execContactFilterExpiry n s
  | .pairDiscrepancyTimeout n => Sys2Proof.Machine.execPairDiscrepancyTimeout n s
  | .obPairRecovery c => Sys2Proof.Machine.execObPairRecovery c s
  | .tpsPulse n => Sys2Proof.Machine.execTpsPulse n s
  | .darkCheck n levels => Sys2Proof.Machine.execDarkCheck n levels s
  | .sourceFault n => Sys2Proof.Machine.execSourceFault n s
  | .tachEdge c highNs lowNs => Sys2Proof.Machine.execTachEdge c highNs lowNs s
  | .tachTimeout c => Sys2Proof.Machine.execTachTimeout c s
  | .stoDarkPulse c outB offUs onUs => Sys2Proof.Machine.execStoDarkPulse c outB offUs onUs s
  | .dcUnlock p value => Sys2Proof.Machine.execDcUnlock p value s
  | .unlockStageTestDone pass => Sys2Proof.Machine.execUnlockStageTestDone pass s
  | .degradedMinute c => Sys2Proof.Machine.execDegradedMinute c s
  | .degradedTimerExpiry item => Sys2Proof.Machine.execDegradedTimerExpiry item s
  | .stopSequenceComplete => Sys2Proof.Machine.execStopSequenceComplete s
  | .configureRequest p => Sys2Proof.Machine.execConfigureRequest p s
  | .restartRequest p => Sys2Proof.Machine.execRestartRequest p s
  | .hostResetRequest p value => Sys2Proof.Machine.execHostResetRequest p value s
  | .clockWindow refCount sysCount lock => Sys2Proof.Machine.execClockWindow refCount sysCount lock s
  | .pinReadbackSample safeHigh lifeHigh => Sys2Proof.Machine.execPinReadbackSample safeHigh lifeHigh s
  | .temperatureSafe degC => Sys2Proof.Machine.execTemperatureSafe degC s
  | .copyReceive port bytes => Sys2Proof.Machine.execCopyReceive port bytes s
  | .slotExpiry pair slot => Sys2Proof.Machine.execSlotExpiry pair slot s
  | .lapse peer => Sys2Proof.Machine.execLapse peer s
  | .ethernetCycle => Sys2Proof.Machine.execEthernetCycle s
  | .canCycle => Sys2Proof.Machine.execCanCycle s
  | .ethFrameReceive port frame => Sys2Proof.Machine.execEthFrameReceive port frame s
  | .ethTransmitDone port => Sys2Proof.Machine.execEthTransmitDone port s
  | .mdioPoll port reg1 reg5 answered => Sys2Proof.Machine.execMdioPoll port reg1 reg5 answered s
  | .portStart => Sys2Proof.Machine.execPortStart s
  | .mdioReadRequest p value => Sys2Proof.Machine.execMdioReadRequest p value s
  | .mdioReadDone answered data => Sys2Proof.Machine.execMdioReadDone answered data s
  | .canFrameReceive ctl frame => Sys2Proof.Machine.execCanFrameReceive ctl frame s
  | .canTransmitDone ctl => Sys2Proof.Machine.execCanTransmitDone ctl s
  | .canError ctl e => Sys2Proof.Machine.execCanError ctl e s
  | .busOffRecoveryDone ctl => Sys2Proof.Machine.execBusOffRecoveryDone ctl s
  | .canRecover p value => Sys2Proof.Machine.execCanRecover p value s
  | .standbyExit => Sys2Proof.Machine.execStandbyExit s
  | .snoopBlock n f => Sys2Proof.Machine.execSnoopBlock n f s
  | .ckblkDone n ecc f => Sys2Proof.Machine.execCkblkDone n ecc f s
  | .ckSelfTest n ok => Sys2Proof.Machine.execCkSelfTest n ok s
  | .ckSelfTestOverdue n => Sys2Proof.Machine.execCkSelfTestOverdue n s
  | .eventFabricWrite => Sys2Proof.Machine.execEventFabricWrite s
  | .ringPop p n ecc cycle => Sys2Proof.Machine.execRingPop p n ecc s cycle
  | .ringAgeExpiry n => Sys2Proof.Machine.execRingAgeExpiry n s
  | .routeTableMismatch => Sys2Proof.Machine.execRouteTableMismatch s
  | .ringControlMismatch n => Sys2Proof.Machine.execRingControlMismatch n s
  | .ledgerAppend ok => Sys2Proof.Machine.execLedgerAppend ok s
  | .retirementDone => Sys2Proof.Machine.execRetirementDone s
  | .appendEngineTimeout clog => Sys2Proof.Machine.execAppendEngineTimeout clog s
  | .faultCellMinute ok => Sys2Proof.Machine.execFaultCellMinute ok s
  | .vaultWrite ok => Sys2Proof.Machine.execVaultWrite ok s
  | .vaultWearMove => Sys2Proof.Machine.execVaultWearMove s
  | .passwordBufferWrite p value => Sys2Proof.Machine.execPasswordBufferWrite p value s
  | .login p key => Sys2Proof.Machine.execLogin p key s
  | .logout p key => Sys2Proof.Machine.execLogout p key s
  | .setpwd p key entryOk vaultOk => Sys2Proof.Machine.execSetpwd p key entryOk vaultOk s
  | .clearstage p key => Sys2Proof.Machine.execClearstage p key s
  | .clearstageDone => Sys2Proof.Machine.execClearstageDone s
  | .commitImage p key f => Sys2Proof.Machine.execCommitImage p key f s
  | .loginTimeout p => Sys2Proof.Machine.execLoginTimeout p s
  | .loginLockExpiry => Sys2Proof.Machine.execLoginLockExpiry s
  | .chunkOpen p value => Sys2Proof.Machine.execChunkOpen p value s
  | .chunkData p value => Sys2Proof.Machine.execChunkData p value s
  | .chunkComplete p value nvmOk => Sys2Proof.Machine.execChunkComplete p value nvmOk s
  | .fetchLedgerRecord p crcOk => Sys2Proof.Machine.execFetchLedgerRecord p crcOk s
  | .fetchFaultCell p agree => Sys2Proof.Machine.execFetchFaultCell p agree s
  | .fetchChangeLogEntry p crcOk => Sys2Proof.Machine.execFetchChangeLogEntry p crcOk s
  | .lgRdataRead p cycle => Sys2Proof.Machine.execLgRdataRead p s cycle
  | .faultCellClear p value => Sys2Proof.Machine.execFaultCellClear p value s
  | .readVerify r => Sys2Proof.Machine.execReadVerify r s
  | .burnishRead cantle ecc rewriteOk => Sys2Proof.Machine.execBurnishRead cantle ecc rewriteOk s
  | .rowStitchDone => Sys2Proof.Machine.execRowStitchDone s
  | .stitchMapAppend copy ok rewriteOk => Sys2Proof.Machine.execStitchMapAppend copy ok rewriteOk s
  | .burnishOverrun area => Sys2Proof.Machine.execBurnishOverrun area s
  | .telemetrySample temp mv => Sys2Proof.Machine.execTelemetrySample temp mv s
  | .telemetrySelect p value => Sys2Proof.Machine.execTelemetrySelect p value s
  | .telemetryRead p cycle => Sys2Proof.Machine.execTelemetryRead p s cycle
  | .scanStart => Sys2Proof.Machine.execScanStart s
  | .interruptEntry => Sys2Proof.Machine.execInterruptEntry s
  | .cantleTimerExpiry => Sys2Proof.Machine.execCantleTimerExpiry s
  | .instructionRewriteDone readsGood => Sys2Proof.Machine.execInstructionRewriteDone readsGood s
  | .addR d a b rsv => Sys2Proof.Machine.execAddR d a b rsv s
  | .subR d a b rsv => Sys2Proof.Machine.execSubR d a b rsv s
  | .andR d a b rsv => Sys2Proof.Machine.execAndR d a b rsv s
  | .orR d a b rsv => Sys2Proof.Machine.execOrR d a b rsv s
  | .xorR d a b rsv => Sys2Proof.Machine.execXorR d a b rsv s
  | .sll d a b rsv => Sys2Proof.Machine.execSll d a b rsv s
  | .srl d a b rsv => Sys2Proof.Machine.execSrl d a b rsv s
  | .sra d a b rsv => Sys2Proof.Machine.execSra d a b rsv s
  | .slt d a b rsv => Sys2Proof.Machine.execSlt d a b rsv s
  | .sltu d a b rsv => Sys2Proof.Machine.execSltu d a b rsv s
  | .mul d a b rsv => Sys2Proof.Machine.execMul d a b rsv s
  | .addi d a imm => Sys2Proof.Machine.execAddi d a imm s
  | .andi d a imm => Sys2Proof.Machine.execAndi d a imm s
  | .ori d a imm => Sys2Proof.Machine.execOri d a imm s
  | .xori d a imm => Sys2Proof.Machine.execXori d a imm s
  | .slti d a imm => Sys2Proof.Machine.execSlti d a imm s
  | .sltiu d a imm => Sys2Proof.Machine.execSltiu d a imm s
  | .slli d a sh rsv => Sys2Proof.Machine.execSlli d a sh rsv s
  | .srli d a sh rsv => Sys2Proof.Machine.execSrli d a sh rsv s
  | .srai d a sh rsv => Sys2Proof.Machine.execSrai d a sh rsv s
  | .lui d imm rsv => Sys2Proof.Machine.execLui d imm rsv s
  | .lw d a imm ecc => Sys2Proof.Machine.execLw d a imm ecc s
  | .lh d a imm ecc => Sys2Proof.Machine.execLh d a imm ecc s
  | .lhu d a imm ecc => Sys2Proof.Machine.execLhu d a imm ecc s
  | .lb d a imm ecc => Sys2Proof.Machine.execLb d a imm ecc s
  | .lbu d a imm ecc => Sys2Proof.Machine.execLbu d a imm ecc s
  | .sw x a imm ecc => Sys2Proof.Machine.execSw x a imm ecc s
  | .sh x a imm ecc => Sys2Proof.Machine.execSh x a imm ecc s
  | .sb x a imm ecc => Sys2Proof.Machine.execSb x a imm ecc s
  | .beq a b off => Sys2Proof.Machine.execBeq a b off s
  | .bne a b off => Sys2Proof.Machine.execBne a b off s
  | .blt a b off => Sys2Proof.Machine.execBlt a b off s
  | .bge a b off => Sys2Proof.Machine.execBge a b off s
  | .bltu a b off => Sys2Proof.Machine.execBltu a b off s
  | .bgeu a b off => Sys2Proof.Machine.execBgeu a b off s
  | .jal d off => Sys2Proof.Machine.execJal d off s
  | .jalr d a imm => Sys2Proof.Machine.execJalr d a imm s
  | .loopH c len rsv => Sys2Proof.Machine.execLoopH c len rsv s
  | .ckinit u rsv => Sys2Proof.Machine.execCkinit u rsv s
  | .ckset u a rsv => Sys2Proof.Machine.execCkset u a rsv s
  | .ckexp u a rsv => Sys2Proof.Machine.execCkexp u a rsv s
  | .ckfeed u a size rsv => Sys2Proof.Machine.execCkfeed u a size rsv s
  | .ckblk u a b cmp rsv => Sys2Proof.Machine.execCkblk u a b cmp rsv s
  | .ckget d u rsv f => Sys2Proof.Machine.execCkget d u rsv s f
  | .ckfin d u rsv f => Sys2Proof.Machine.execCkfin d u rsv s f
  | .ckcmp d u a rsv f => Sys2Proof.Machine.execCkcmp d u a rsv s f
  | .mfs d sreg rsv => Sys2Proof.Machine.execMfs d sreg rsv s
  | .mts sreg a rsv => Sys2Proof.Machine.execMts sreg a rsv s
  | .rth rsv => Sys2Proof.Machine.execRth rsv s
  | .scanw rsv => Sys2Proof.Machine.execScanw rsv s
  | .waitd rsv => Sys2Proof.Machine.execWaitd rsv s
  | .brk code rsv => Sys2Proof.Machine.execBrk code rsv s
  | .vtPut r => Sys2Proof.Machine.execVtPut r s
  | .vtGet r => Sys2Proof.Machine.execVtGet r s
  | .mailboxSend p value => Sys2Proof.Machine.execMailboxSend p value s
  | .mailboxAck p value => Sys2Proof.Machine.execMailboxAck p value s
  | .cantleHalt p value => Sys2Proof.Machine.execCantleHalt p value s
  | .cantleRestart p value => Sys2Proof.Machine.execCantleRestart p value s
  | .cantleReloadDone => Sys2Proof.Machine.execCantleReloadDone s
  | .debugFrame f => Sys2Proof.Machine.execDebugFrame f s
  | .debugFrameReset wire => Sys2Proof.Machine.execDebugFrameReset wire s
  | .sessionOpen wire value => Sys2Proof.Machine.execSessionOpen wire value s
  | .sessionClose wire value => Sys2Proof.Machine.execSessionClose wire value s
  | .sessionTimeout => Sys2Proof.Machine.execSessionTimeout s
  | .debugStop wire value => Sys2Proof.Machine.execDebugStop wire value s
  | .debugResume wire value => Sys2Proof.Machine.execDebugResume wire value s
  | .debugStep wire value => Sys2Proof.Machine.execDebugStep wire value s
  | .debugRegisterAccess wire write value => Sys2Proof.Machine.execDebugRegisterAccess wire write value s
  | .debugMemoryAccess wire write value ecc => Sys2Proof.Machine.execDebugMemoryAccess wire write value ecc s
  | .debugWithdraw wire value => Sys2Proof.Machine.execDebugWithdraw wire value s
  | .withdrawCopyMismatch => Sys2Proof.Machine.execWithdrawCopyMismatch s
  | .vtOutputRead wire => Sys2Proof.Machine.execVtOutputRead wire s
  | .vtInputWrite wire value => Sys2Proof.Machine.execVtInputWrite wire value s
  | .registerWrite p addr value soon => Sys2Proof.Machine.execRegisterWrite p addr value s soon
  | .strobeConflict => Sys2Proof.Machine.execStrobeConflict s
  | .snapshotRead p addr cycle => Sys2Proof.Machine.execSnapshotRead p addr s cycle
  | .ownerClaim p arg => Sys2Proof.Machine.execOwnerClaim p arg s
  | .ownerRelease p arg => Sys2Proof.Machine.execOwnerRelease p arg s
  | .ownerForce p arg => Sys2Proof.Machine.execOwnerForce p arg s
  | .getStatus r => Sys2Proof.Machine.execGetStatus r s
  | .clearFeature r => Sys2Proof.Machine.execClearFeature r s
  | .setFeature r => Sys2Proof.Machine.execSetFeature r s
  | .setAddress r => Sys2Proof.Machine.execSetAddress r s
  | .getDescriptor r => Sys2Proof.Machine.execGetDescriptor r s
  | .getConfiguration r => Sys2Proof.Machine.execGetConfiguration r s
  | .setConfiguration r => Sys2Proof.Machine.execSetConfiguration r s
  | .getInterface r => Sys2Proof.Machine.execGetInterface r s
  | .setInterface r => Sys2Proof.Machine.execSetInterface r s
  | .getInfo r => Sys2Proof.Machine.execGetInfo r s
  | .readRegs r => Sys2Proof.Machine.execReadRegs r s
  | .writeRegs r f => Sys2Proof.Machine.execWriteRegs r f s
  | .getLast r => Sys2Proof.Machine.execGetLast r s
  | .usbLogin r => Sys2Proof.Machine.execUsbLogin r s
  | .usbLogout r => Sys2Proof.Machine.execUsbLogout r s
  | .usbSetpwd r entryOk vaultOk => Sys2Proof.Machine.execUsbSetpwd r entryOk vaultOk s
  | .usbClearstage r => Sys2Proof.Machine.execUsbClearstage r s
  | .stage r nvmOk => Sys2Proof.Machine.execStage r nvmOk s
  | .usbCommit r f => Sys2Proof.Machine.execUsbCommit r f s
  | .commitStatus r => Sys2Proof.Machine.execCommitStatus r s
  | .logStart r => Sys2Proof.Machine.execLogStart r s
  | .logStop r => Sys2Proof.Machine.execLogStop r s
  | .downloadInToken ack reads => Sys2Proof.Machine.execDownloadInToken ack reads s
  | .usbUnlock r => Sys2Proof.Machine.execUsbUnlock r s
  | .resetDevice r => Sys2Proof.Machine.execResetDevice r s
  | .usbBusReset => Sys2Proof.Machine.execUsbBusReset s
  | .vbusChange valid => Sys2Proof.Machine.execVbusChange valid s
  | .usbSuspend => Sys2Proof.Machine.execUsbSuspend s
  | .eraseAhead clog ok => Sys2Proof.Machine.execEraseAhead clog ok s
  | .usbResume => Sys2Proof.Machine.execUsbResume s

end Sys2Proof.Machine
end

