-- ==== Sys2Proof/Safety.lean ====
section
/-! DEFINITION. What a safe state is, in the terms the claims use: the outputs of the safe state (Table PF-5), the mode changes of
Table SY-2, and the invariant that every step keeps. -/

namespace Sys2Proof.Machine

open Sys2Proof

/-- No berth shows DRP or a release. -/
abbrev BerthsOff (v : Vector Berth 8) : Prop := ∀ b : Fin 8, v[b.1].drp = false ∧ v[b.1].release = false

/-- No door channel has torque, and no berth or platform PSI stands. -/
abbrev DoorsOff (d : Dc) : Prop :=
  d.psiB = 0 ∧ d.psiAll = false ∧ ∀ c : Fin 16,
    torqueOn d.chan[c.1].state = false ∧ d.chan[c.1].sto[0].on = false ∧ d.chan[c.1].sto[1].on = false

/-- Every safety output is off: torque, DRP, releases, PSI, SAFE# and LIFE (Table PF-5). -/
abbrev OutputsOff (s : State) : Prop :=
  BerthsOff s.berth ∧ DoorsOff s.dc ∧ s.sys.safeHi = false ∧ s.sys.lifeHi = false

/-- Outputs are on only in OPERATE and DEGRADED. -/
abbrev OffOutside (s : State) : Prop := inService s = true ∨ OutputsOff s

/-- The four byte memories keep their canonical form. -/
abbrev MemoriesOk (s : State) : Prop :=
  Memory.wf 0xFF s.nv.mem = true ∧ Memory.wf 0xFF s.cs.imem = true ∧ Memory.wf 0 s.cs.dmem = true ∧
    Memory.wf 0 s.sc.tack = true

/-- A stop sequence runs only in service, and a mode change waits only in PROVE. -/
abbrev PlansOk (s : State) : Prop :=
  (s.sys.stop.isSome = true → inService s = true) ∧ (s.sys.pendMode.isSome = true → s.sys.mode = .prove)

/-- The invariant of the machine. -/
abbrev Inv (s : State) : Prop := MemoriesOk s ∧ OffOutside s ∧ PlansOk s

/-- The mode changes of Table SY-2 that one command can make; from RESET any, since the end of RESET has no part in them. -/
def moves (old new : Mode) : Bool :=
  match old, new with
  | .reset, _ => true
  | _, .reset => true
  | _, .safe => true
  | .prove, _ => true
  | .operate, .operate => true
  | .operate, .degraded => true
  | .operate, .configure => true
  | .degraded, .operate => true
  | .degraded, .degraded => true
  | .degraded, .configure => true
  | .configure, .configure => true
  | _, _ => false

end Sys2Proof.Machine
end

