-- ==== Sys2Proof/Terms.lean ====
section
/-! DEFINITION. Terms of the statements: what stands before a Cantle instruction, and what its completion leaves. -/

namespace Sys2Proof.Machine

open Sys2Proof

/-! ### Cantle -/

/-- Cantle runs and nothing stands before the instruction at PC: no wait at X, no takeable interrupt, no debug session. -/
abbrev Fetches (s : State) : Prop :=
  s.cs.state = .running ∧ s.cs.stalled = false ∧ intSource s = none ∧ s.db.session = none ∧ s.db.mon = false ∧
    s.db.stepping = false ∧ s.db.skipBp = false

/-- The instruction at PC is not the last of a running hardware loop (R597). -/
abbrev Straight (s : State) : Prop := ¬(s.cs.pc = s.cs.lend ∧ s.cs.lcount ≠ 0 ∧ s.cs.hl = false)

/-- The general registers of `t` are those of `s` but for `d`, which holds `v` unless it is G0 (R580). -/
abbrev WritesG (s t : State) (d : BitVec 4) (v : W32) : Prop :=
  ∀ r, gr r t = if r = d ∧ d ≠ 0 then v else gr r s

/-- The instruction completes in `k` clocks with `v` in Gd, PC + 4 next, and nothing else changed. -/
def Computes (s : State) (i : Instr) (k : Nat) (d : BitVec 4) (v : W32) : Prop :=
  ∃ t, exec i s = .next t ∧ WritesG s t d v ∧
    t = { s with cs := { s.cs with g := t.cs.g, pc := s.cs.pc + 4, cycle := s.cs.cycle + BitVec.ofNat 32 k } }

/-- The same for a load, whose word the ECC may have had to correct: the stitching block, the event side and the ledger's queue may
have noted that. -/
def Loads (s : State) (i : Instr) (k : Nat) (d : BitVec 4) (v : W32) : Prop :=
  ∃ t, exec i s = .next t ∧ WritesG s t d v ∧
    t = { s with st := t.st, ev := t.ev, nv := t.nv,
                 cs := { s.cs with g := t.cs.g, pc := s.cs.pc + 4, cycle := s.cs.cycle + BitVec.ofNat 32 k } }

/-- The instruction at PC goes on at `pc` after `k` clocks, and nothing else changes. -/
def GoesTo (s : State) (i : Instr) (pc : BitVec 16) (k : Nat) : Prop :=
  exec i s = .next { s with cs := { s.cs with pc := pc, cycle := s.cs.cycle + BitVec.ofNat 32 k } }

/-- A jump to `pc` with the address of the next instruction in Gd. -/
def Links (s : State) (i : Instr) (d : BitVec 4) (pc : BitVec 16) : Prop :=
  ∃ t, exec i s = .next t ∧ WritesG s t d (s.cs.pc.zeroExtend 32 + 4) ∧
    t = { s with cs := { s.cs with g := t.cs.g, pc := pc, cycle := s.cs.cycle + 3 } }

/-- The `n` low bytes of `v` are stored at data-memory address `x`, low byte first, in one clock; every other byte of data memory reads
as before. -/
def Stores (s : State) (i : Instr) (x n : Nat) (v : W32) : Prop :=
  ∃ t, exec i s = .next t ∧ (∀ k < n, memRead 0 t.cs.dmem (x + k) = BitVec.ofNat 8 (v.toNat / 256 ^ k)) ∧
    (∀ y, y < x ∨ x + n ≤ y → memRead 0 t.cs.dmem y = memRead 0 s.cs.dmem y) ∧
    t = { s with st := t.st, ev := t.ev, nv := t.nv,
                 cs := { s.cs with dmem := t.cs.dmem, pc := s.cs.pc + 4, cycle := s.cs.cycle + 1 } }

/-- The instruction takes exception `code` with TADDR `addr` while HL is 0 (R560): a trap at CS_VBASE, four clocks, no result. -/
def Traps (s : State) (i : Instr) (code : Nat) (addr : W32) : Prop :=
  ∃ t, exec i s = .next t ∧ t.cs.pc = s.cfg.seqr.vbase ∧ t.cs.hl = true ∧ t.cs.retpc = s.cs.pc ∧
    t.cs.tkind = (if s.cs.lcount = 0 then 0 else 0x100) + BitVec.ofNat 32 code ∧ t.cs.taddr = addr.setWidth 20 ∧
    t.cs.excCnt = satInc s.cs.excCnt ∧ t.cs.g = s.cs.g ∧ t.cs.dmem = s.cs.dmem ∧
    t = { s with ev := t.ev, cs := t.cs }

/-- A check unit is owned by Cantle (OWNER = COP), in service, and has nothing ahead of a new operation (R413). -/
abbrev UnitReady (s : State) (u : BitVec 3) : Prop :=
  let k := s.ck[(unitIx u).1]
  ckOwner k = 2 ∧ k.disabled = false ∧ k.feed = none ∧ k.ops = [] ∧ k.testing = none ∧ k.dataEcc = false

/-- An operation of the unit completes in one clock: the unit becomes `f` of what it was, with the operation committed (no snapshot,
nothing held), and nothing else changes. -/
def UnitOp (s : State) (i : Instr) (u : BitVec 3) (f : Ck → Ck) : Prop :=
  exec i s = .next { s with ck := upd s.ck (unitIx u) fun k => { f k with held := false, spec := none },
                            cs := { s.cs with pc := s.cs.pc + 4, cycle := s.cs.cycle + 1 } }

/-- Cantle runs in an open session with monitor mode on, outside a handler, and no interrupt, breakpoint, step or stop request
stands before the instruction at PC. -/
abbrev FetchesMon (s : State) : Prop :=
  s.cs.state = .running ∧ s.cs.stalled = false ∧ intSource s = none ∧ s.db.session.isSome = true ∧ s.db.monEn = true ∧
    s.db.mon = false ∧ s.db.stepping = false ∧ s.db.skipBp = false ∧ s.db.stopReq = false ∧ bpAt s.cs.pc s = none ∧
    s.cs.hl = false

/-! ### Resets, ports and ticks -/

/-- The command puts the Darore into RESET with these causes: every output is off, every block that a reset does not keep is at its
reset state, the image is gone, and the NVM keeps its banks, its vault record, its logs and its fault cells. -/
def EntersReset (s : State) (i : Instr) (bits : W16) (off : Bool) : Prop :=
  ∃ t, exec i s = .next t ∧ t.sys.mode = .reset ∧ t.sys.rstPend = bits ∧ t.sys.offLevel = off ∧ OutputsOff t ∧
    t.cfg = {} ∧ t.cs = {} ∧ t.ev = {} ∧ t.hd = {} ∧ t.sc = {} ∧ t.tg = {} ∧ t.ports = {} ∧ t.dc = {} ∧ t.db = {} ∧ t.hb = {} ∧
    t.nv.mem = s.nv.mem ∧ t.nv.vault = s.nv.stored ∧ t.nv.stored = s.nv.stored ∧ t.nv.ledger.recs = s.nv.ledger.recs ∧
    t.nv.clog.recs = s.nv.clog.recs ∧ t.nv.cells = s.nv.cells ∧ t.pending = s.pending

/-- The tick instant that a safety tick takes next. -/
def atTick (s : State) : State := reachTick s

/-- SAFE with this cause and detail, every output off, Cantle halted. -/
abbrev InSafe (t : State) (cause : Byte) (info : W16) : Prop :=
  t.sys.mode = .safe ∧ t.sys.cause = cause ∧ t.sys.info = info ∧ OutputsOff t ∧ t.cs.state = .halted ∧ t.cs.permit = 0 ∧
    t.sys.stop = none

end Sys2Proof.Machine
end

