-- ==== Sys2Proof/Certificates/Slice0/Obligations.lean ====
section
/-! DEFINITION. The statements for the provers. Each docstring says what the statement states and the rules or files of spec/ it
rests on; where it rests on a choice of the model it names the log entry. -/

open Sys2Proof Sys2Proof.Machine

/-- A step runs the command at the front of the queue. For every command c, queue rest q and state s: a step with c at the front
of the queue answers what exec of c answers on the state whose queue is q. (The queue of waiting commands is the model's form of a
block.) Rests on 01_system_picture.md. -/
def Obligations.StepRunsFrontCommand : Prop :=
  ∀ (c : Instr) (q : List Instr) (s : State), step { s with pending := c :: q } = exec c { s with pending := q }

/-- On an empty queue one microsecond passes (the model's choice, log entry 1). With no command waiting, a step answers a next
state in which the model's clock is one microsecond later, TSTAMP has advanced by one where it runs, Cantle's cycle count and
interval timer may have advanced with it, and nothing else has changed. That an idle step is one microsecond is the model's choice
(log entry 1). Rests on 02_modes_and_startup.md R92, 15_cantle_sequencer.md. -/
def Obligations.IdleStepLetsAMicrosecondPass : Prop :=
  ∀ s : State, s.pending = [] → ∃ t, step s = .next t ∧ t.now = s.now + 1 ∧
    t.tstamp = (if s.tsRun then s.tstamp + 1 else s.tstamp) ∧
    t = { s with now := t.now, tstamp := t.tstamp, cs := { s.cs with cycle := t.cs.cycle, timerAt := t.cs.timerAt } }

/-- Every step from every state of the invariant keeps it: outputs are off outside service, memories are canonical, plans fit the
mode. For all states s and t: if s meets the invariant and a step of s answers the next state t, then t meets it. The invariant
says: the four byte memories (NVM, Cantle instruction and data memory, tack table) have their canonical form; unless the mode is
OPERATE or DEGRADED every safety output is off (no DRP, no release, no torque, no STO output, no PSI, SAFE# and LIFE low); a stop
sequence is under way only in OPERATE or DEGRADED, and a mode change waits only in PROVE. Rests on 02_modes_and_startup.md R53,
01_system_picture.md, 06_berths_and_release.md, 07_door_channels.md. -/
def Obligations.EveryStepKeepsTheInvariant : Prop :=
  ∀ s t : State, Inv s → step s = .next t → Inv t

/-- The state after reset meets the invariant. State.reset meets the invariant that every step keeps. The reset values that the
spec does not give are the model's (log entries 2 and 3). Rests on 01_system_picture.md, 02_modes_and_startup.md. -/
def Obligations.ResetMeetsTheInvariant : Prop := Inv State.reset

/-- Every command answers a next state in every state, and leaves the waiting commands alone. For every command i and every state
s there is a next state t that exec of i on s answers: no command faults and none is refused (log entry 7: a command whose
condition does not hold leaves the state as it is). Where s meets the invariant, the queue of waiting commands of t is that of s.
Rests on 01_system_picture.md, 95_what_each_step_holds.md. -/
def Obligations.EveryCommandAnswersANextState : Prop :=
  ∀ (i : Instr) (s : State), ∃ t, exec i s = .next t ∧ (Inv s → t.pending = s.pending)

/-- The loaded configuration image changes only at a configuration load, and is dropped at a reset. For every command but
CONFIGURATION_LOAD and every state of the invariant: in the next state the loaded configuration is what it was, or it is the empty
one that RESET leaves. Host writes, telegrams, Cantle, the debug port and USB never alter it. Rests on R72, 00_scope.md R13,
02_modes_and_startup.md. -/
def Obligations.OnlyALoadChangesTheCommittedImage : Prop :=
  ∀ (i : Instr) (s t : State), Inv s → (∀ n f, i ≠ .configurationLoad n f) → exec i s = .next t → t.cfg = s.cfg ∨ t.cfg = {}

/-- Every command changes the mode only along the mode pairs of Table SY-2, and SAFE is left only by RESET. For every command and
state of the invariant: the pair of the old and the new mode is one of the pairs of Table SY-2 (from RESET any, since what follows
is counted with the end of RESET; a command that ends a reset or a load may carry two arrows of the table); a state in SAFE goes
to SAFE or RESET only; and OPERATE is never reached from CONFIGURE or SAFE. The triggers of the table are stated by the statements
about the commands. Rests on R53, R55. -/
def Obligations.ModesChangeByTableSyTwo : Prop :=
  ∀ (i : Instr) (s t : State), Inv s → exec i s = .next t →
    moves s.sys.mode t.sys.mode = true ∧
    (s.sys.mode = .safe → t.sys.mode = .safe ∨ t.sys.mode = .reset) ∧
    (t.sys.mode = .operate → s.sys.mode ≠ .configure ∧ s.sys.mode ≠ .safe)

/-- After any command that ends outside OPERATE and DEGRADED every safety output is off. For every command and state of the
invariant: if the next state's mode is neither OPERATE nor DEGRADED, then SAFE# and LIFE are low, no berth shows DRP or a release,
both STO outputs of all 16 door channels are off, and no PSI stands. Rests on 01_system_picture.md, 02_modes_and_startup.md,
06_berths_and_release.md, 07_door_channels.md. -/
def Obligations.OutputsAreOffOutsideService : Prop :=
  ∀ (i : Instr) (s t : State), Inv s → exec i s = .next t → t.sys.mode ≠ .operate → t.sys.mode ≠ .degraded →
    t.sys.safeHi = false ∧ t.sys.lifeHi = false ∧ (∀ b : Fin 8, t.berth[b.1].drp = false ∧ t.berth[b.1].release = false) ∧
    (∀ c : Fin 16, t.dc.chan[c.1].sto[0].on = false ∧ t.dc.chan[c.1].sto[1].on = false) ∧ t.dc.psiB = 0 ∧ t.dc.psiAll = false

/-- Power-on, brown-out and a long RSTD# pulse enter RESET with their causes; short pulses do not (pulse bands: log entries 12,
13). Outside RESET, POWER_ON_RESET, a BROWN_OUT of at least 2 µs on some supply and an RSTD# low pulse above the tolerance band of
50 µs put the Darore into RESET with their cause bits, every output off, every block at its reset state, the image dropped and
NVM, vault record, ledger, change log and fault cells kept. In RESET a further source adds its cause. A brown-out shorter than 0.5
µs and an RSTD# pulse below its filter change nothing; a pulse between the bands counts in SY_RSTDIGN and changes nothing else.
Where the bands lie is log entry 12, the layout of the reset state's unstated values log entry 2. Rests on R56, R60, R750. -/
def Obligations.ResetSourcesEnterResetAndKeepTheNvm : Prop :=
  ∀ (s : State) (supply : BitVec 4) (ns : Nat) (off : Bool),
    (s.sys.mode ≠ .reset → EntersReset s .powerOnReset 0x0001 true) ∧
    (s.sys.mode ≠ .reset → supply ≠ 0 → 2000 ≤ ns →
      EntersReset s (.brownOut supply ns off) (0x0002 ||| (supply.zeroExtend 16 <<< 8)) off) ∧
    (s.sys.mode ≠ .reset → 52500 < ns → EntersReset s (.rstdLowPulse ns) 0x0004 false) ∧
    (s.sys.mode = .reset → exec .powerOnReset s =
      .next { s with sys := { s.sys with rstPend := s.sys.rstPend ||| 0x0001, offLevel := true } }) ∧
    (s.sys.mode = .reset → supply ≠ 0 → 2000 ≤ ns → exec (.brownOut supply ns off) s =
      .next { s with sys := { s.sys with
        rstPend := s.sys.rstPend ||| (0x0002 ||| (supply.zeroExtend 16 <<< 8)), offLevel := s.sys.offLevel || off } }) ∧
    (ns < 500 → exec (.brownOut supply ns off) s = .next s) ∧
    (ns < 475 → exec (.rstdLowPulse ns) s = .next s) ∧
    (4200 < ns → ns < 47500 → s.sys.mode ≠ .reset → exec (.rstdLowPulse ns) s =
      .next { s with sys := { s.sys with rstdIgn := satInc s.sys.rstdIgn } })

/-- The end of RESET enters PROVE with TSTAMP 0 and the causes latched; no PLL lock enters SAFE cause CLOCK. In RESET with no
source still active RESET_EXIT enters PROVE: TSTAMP is 0 and runs, BOOTSEL is latched, SY_RSTCAUSE shows the causes (only POR
where a supply fell below its off level) and the reserved-BOOTSEL bit, a port with VBUS is in its default state, and nothing else
changes. With a source still active it changes nothing. PLL_LOCK_TIMEOUT enters SAFE with cause CLOCK and detail 3 after 5 ms,
TSTAMP stays 0 and does not run, and the lock is lost. Rests on R56, R65, R66, R92. -/
def Obligations.ResetExitStartsProveAndTstamp : Prop :=
  ∀ (s : State) (b : BitVec 2) (src : BitVec 2), s.sys.mode = .reset →
    (∃ t, exec (.resetExit b 0) s = .next t ∧ t.sys.mode = .prove ∧ t.tstamp = 0 ∧ t.tsRun = true ∧ t.sys.bootsel = b ∧
      t.sys.rstPend = 0 ∧ t.sys.offLevel = false ∧
      t.sys.rstCause = (if s.sys.offLevel then 0x0001 else s.sys.rstCause ||| s.sys.rstPend) ||| (if 2 ≤ b.toNat then 0x0020 else 0) ∧
      (s.um.vbus = true → t.um.state = .default_) ∧
      t = { s with tstamp := 0, tsRun := true, um := t.um, nv := { s.nv with lockNext := t.nv.lockNext },
                   sys := { s.sys with mode := .prove, bootsel := b, rstPend := 0, offLevel := false, rstCause := t.sys.rstCause } }) ∧
    (src ≠ 0 → exec (.resetExit b src) s = .next s) ∧
    (∃ t, exec (.pllLockTimeout b) s = .next t ∧ InSafe t 1 3 ∧ t.tstamp = 0 ∧ t.tsRun = false ∧ t.sys.lock = false ∧
      t.now = s.now + 5000)

/-- PROVE ends by BOOTSEL or in SAFE; the load ends with OPERATE due, without an image, or in SAFE. PROVE, first part: step 1 with
a bad clock finding enters SAFE cause CLOCK with the finding; with a good one step 2 follows, at most 2 ms after TSTAMP 0; a
failed BIST at step 3 enters SAFE cause PROVE detail 3; step 9 ends PROVE with PASS, its time in ms, and either the load due
(BOOTSEL 0, an image there) or the change to CONFIGURE waiting. Load, second part: a bank that does not read at step 1 ends it
with NOIMG, CONFIGURE waiting and the configuration as before; two mismatches of a structure at step 4 enter SAFE cause UNCORR with
the structure's code (RI fields 9, masks 2, tack table 1, Cantle memory 7); the end of step 6 leaves LOADED, OPERATE waiting, and Cantle running at the image's entry with IE, HL and all registers 0 (readings in log
entries 15 and 18). Rests on R69, R72, 02_modes_and_startup.md. -/
def Obligations.ProveAndLoadEndByTheirFindings : Prop :=
  (∀ (s : State) (f : ProveFindings), s.sys.mode = .prove → s.sys.provePass = false →
      (s.sys.proveDone = 0 → f.clock ≠ 0 → ∃ t, exec (.prove 1 f) s = .next t ∧ InSafe t 1 (f.clock.zeroExtend 16) ∧
        t.sys.proveFail = true ∧ t.sys.monOk = false) ∧
      (s.sys.proveDone = 0 → f.clock = 0 → ∃ t, exec (.prove 1 f) s = .next t ∧ t.sys.proveDone = 1 ∧ t.sys.proveStep = 2 ∧
        t.sys.mode = .prove ∧ t.tstamp.toNat ≤ max 2000 s.tstamp.toNat) ∧
      (s.sys.proveDone = 2 → f.bist = false → ∃ t, exec (.prove 3 f) s = .next t ∧ InSafe t 5 3 ∧ t.sys.proveFail = true) ∧
      (s.sys.proveDone = 8 → ∃ t, exec (.prove 9 f) s = .next t ∧ t.sys.mode = .prove ∧ t.sys.provePass = true ∧
        t.sys.proveDone = 9 ∧ t.sys.proveTime = sat16 (t.tstamp.toNat / 1000) ∧
        (s.sys.bootsel = 0 → s.sys.noImg = false → t.sys.loadDue = true ∧ t.sys.pendMode = s.sys.pendMode) ∧
        (s.sys.bootsel ≠ 0 ∨ s.sys.noImg = true → t.sys.loadDue = s.sys.loadDue ∧ t.sys.pendMode = some .configure))) ∧
  (∀ (s : State) (f : LoadFindings), s.sys.mode = .prove → s.sys.loadDue = true →
      (s.sys.loadDone = 0 → f.bankReads = false → ∃ t, exec (.configurationLoad 1 f) s = .next t ∧ t.sys.noImg = true ∧
        t.sys.lstep = 1 ∧ t.sys.loadDue = false ∧ t.sys.pendMode = some .configure ∧ t.sys.mode = .prove ∧ t.cfg = s.cfg) ∧
      (s.sys.loadDone = 3 → f.mismatch1 = true → f.mismatch2 = true → ∃ t, exec (.configurationLoad 4 f) s = .next t ∧ InSafe t 3 (loadedCode f.mismatchOf) ∧
        t.sys.lstep = 4) ∧
      (s.sys.loadDone = 5 → bitOf s.cfg.ledger 8 = false → ∃ t, exec (.configurationLoad 6 f) s = .next t ∧ t.sys.loaded = true ∧
        t.sys.loadDue = false ∧ t.sys.pendMode = some .operate ∧ t.sys.mode = .prove ∧ t.cfg = s.cfg ∧ t.cs.state = .running ∧
        t.cs.pc = s.cfg.seqr.entry ∧ t.cs.ie = false ∧ t.cs.hl = false ∧ (∀ r, gr r t = 0)))

/-- CONFIGURE, restart and reset requests act by login, key and mode; the stop sequence ends in CONFIGURE or RESET. Logged in, in
service and with no stop running, a CONFIGURE request and a keyed reset request start the stop sequence and change nothing else;
the first key word of a reset is remembered with its instant; without a login the CONFIGURE request sets REQREJ only; in
CONFIGURE the restart and the keyed reset enter RESET with cause HOST; a restart request elsewhere sets REQREJ; the USB port has
no such writes. Once every STO output is off STOP_SEQUENCE_COMPLETE enters CONFIGURE with every output off, Cantle held and the
configuration kept, or RESET with cause HOST; with no stop running it changes nothing (which instant it takes: log entry 11).
Rests on R75, R76, R78, 02_modes_and_startup.md R57. -/
def Obligations.HostRequestsAndTheStopSequence : Prop :=
  (∀ (s : State), s.sys.mode ≠ .safe →
      (s.nv.login[0].on = true → inService s = true → s.sys.stop = none →
        (∃ t, exec (.configureRequest .bus) s = .next t ∧ t.sys.stop = some .configure ∧
          t = { s with hb := t.hb, sys := { s.sys with stop := some .configure } }) ∧
        (s.sys.keyAt = some s.now → ∃ t, exec (.hostResetRequest .bus 0x0C9E) s = .next t ∧ t.sys.stop = some .resetHost ∧
          t = { s with hb := t.hb, sys := { s.sys with keyAt := none, stop := some .resetHost } })) ∧
      (s.sys.mode ≠ .reset → ∃ t, exec (.hostResetRequest .bus 0x52A7) s = .next t ∧ t.sys.keyAt = some s.now ∧
        t = { s with hb := t.hb, sys := { s.sys with keyAt := some s.now } }) ∧
      (s.nv.login[0].on = false → inService s = true →
        ∃ t, exec (.configureRequest .bus) s = .next t ∧ t.sys.reqRej = true ∧ t = { s with hb := t.hb, sys := { s.sys with reqRej := true } }) ∧
      (s.sys.mode = .configure → s.nv.login[0].on = true → EntersReset s (.restartRequest .bus) 0x0008 false) ∧
      (s.sys.mode = .configure → s.sys.keyAt = some s.now → EntersReset s (.hostResetRequest .bus 0x0C9E) 0x0008 false) ∧
      (s.sys.mode = .prove ∨ inService s = true → ∃ t, exec (.restartRequest .bus) s = .next t ∧ t.sys.reqRej = true) ∧
      (∀ v, exec (.configureRequest .usb) s = .next s ∧ exec (.restartRequest .usb) s = .next s ∧
        exec (.hostResetRequest .usb v) s = .next s)) ∧
  (∀ s : State, inService s = true →
      (∀ c : Fin 16, torqueOn s.dc.chan[c.1].state = false ∧ s.dc.chan[c.1].sto[0].on = false ∧ s.dc.chan[c.1].sto[1].on = false) →
      (s.sys.stop = some .configure → ∃ t, exec .stopSequenceComplete s = .next t ∧ t.sys.mode = .configure ∧ t.sys.stop = none ∧
        OutputsOff t ∧ t.cs.state = .held ∧ t.cs.permit = 0 ∧ t.cfg = s.cfg ∧ t.now = (atTick s).now) ∧
      (s.sys.stop = some .resetHost → EntersReset s .stopSequenceComplete 0x0008 false) ∧
      (s.sys.stop = none → exec .stopSequenceComplete s = .next s))

/-- A clock window out of its limits enters SAFE cause CLOCK, REFCLK before the system clock before the lock. Outside RESET and
SAFE: counts in the limits with lock leave the mode, give SY_CLKDEV the deviation of REFCLK and the warning outside 49,500 to
50,500; a REFCLK count outside 49,000 to 51,000 enters SAFE cause CLOCK detail 1; else a system clock count outside 196,000 to
204,000 enters it with detail 2; else a lost lock enters it with detail 3; TSTAMP stops. Rests on R90. -/
def Obligations.ClockMonitorWindowsEnterSafe : Prop :=
  ∀ (s : State) (r q : Nat) (lock : Bool), s.sys.mode ≠ .reset → s.sys.mode ≠ .safe →
    (49000 ≤ r → r ≤ 51000 → 196000 ≤ q → q ≤ 204000 →
      ∃ t, exec (.clockWindow r q true) s = .next t ∧ t.sys.clkDev = BitVec.ofInt 16 (Int.tdiv ((r : Int) - 50000) 5) ∧
        t.sys.lock = true ∧ t.sys.mode = s.sys.mode ∧ (t.sys.warn = true ↔ 50500 ≤ r ∨ r ≤ 49500)) ∧
    (r < 49000 ∨ 51000 < r → ∃ t, exec (.clockWindow r q lock) s = .next t ∧ InSafe t 1 1 ∧ t.tsRun = false) ∧
    (49000 ≤ r → r ≤ 51000 → q < 196000 ∨ 204000 < q →
      ∃ t, exec (.clockWindow r q lock) s = .next t ∧ InSafe t 1 2 ∧ t.tsRun = false) ∧
    (49000 ≤ r → r ≤ 51000 → 196000 ≤ q → q ≤ 204000 →
      ∃ t, exec (.clockWindow r q false) s = .next t ∧ InSafe t 1 3 ∧ t.sys.lock = false)

/-- A third differing readback, 10 ms above 115 °C and an expired degraded timer act as Tables SY-9 and SY-10 say. First part: a
SAFE# readback that differs for the third time in a row enters SAFE cause PINRB; outside service the readbacks are kept and the
mode stays; a temperature above 115 °C starts its time, enters SAFE cause TEMP with the temperature after 10 ms, and one at or
below 115 °C ends the excursion. Second part: a degraded item whose time has run for its limit escalates: the ledger and change-
log items enter SAFE cause ESCAL with their bit where the image asks for it and are only marked where it does not; the single-
network items lose their pair (readings: log entries 11, 20, 21). Rests on R81, R83, 02_modes_and_startup.md. -/
def Obligations.PinTemperatureAndDegradedTimersEscalate : Prop :=
  (∀ (s : State) (a b : Bool) (v : W16), s.sys.mode ≠ .reset → s.sys.mode ≠ .safe →
      (inService s = true → s.sys.safeRb.diff = 2 → ∃ t, exec (.pinReadbackSample false b) s = .next t ∧ InSafe t 8 1) ∧
      (inService s = false → s.sys.safeRb.diff = 0 → s.sys.lifeRb.diff = 0 → ∃ t, exec (.pinReadbackSample a b) s = .next t ∧
        t.sys.safeRb = { diff := if a then 1 else 0, high := a } ∧ t.sys.lifeRb = { diff := if b then 1 else 0, high := b } ∧
        t.sys.mode = s.sys.mode) ∧
      (115 < v.toInt → s.sys.hotSince = none →
        exec (.temperatureSafe v) s = .next { s with sys := { s.sys with hotSince := some s.now } }) ∧
      (115 < v.toInt → s.sys.hotDone = false → (∃ t0, s.sys.hotSince = some t0 ∧ t0 + 10000 ≤ s.now) →
        ∃ t, exec (.temperatureSafe v) s = .next t ∧ InSafe t 7 v) ∧
      (v.toInt ≤ 115 → exec (.temperatureSafe v) s = .next { s with sys := { s.sys with hotSince := none, hotDone := false } })) ∧
  (∀ (s : State) (i : Fin 10) (t0 lim : Nat), s.sys.mode ≠ .reset → s.sys.mode ≠ .safe →
      bitOf s.sys.degsrc i.1 = true → s.sys.deg[i.1].escalated = false → s.sys.deg[i.1].start = some t0 →
      itemLimit i s = some lim → t0 + lim ≤ s.now + 60000000 * s.sys.deg[i.1].before →
      (i.1 = 8 ∨ i.1 = 9 → bitOf s.cfg.ledger 8 = true →
        ∃ t, exec (.degradedTimerExpiry i) s = .next t ∧ InSafe t 6 (BitVec.ofNat 16 i.1) ∧ t.sys.deg[i.1].escalated = true) ∧
      (i.1 = 8 ∨ i.1 = 9 → bitOf s.cfg.ledger 8 = false →
        ∃ t, exec (.degradedTimerExpiry i) s = .next t ∧ t.sys.deg[i.1].escalated = true ∧ t.sys.mode = s.sys.mode) ∧
      (i = 0 → ∃ t, exec (.degradedTimerExpiry i) s = .next t ∧ t.tg.pair[0].mode = .lost) ∧
      (i = 2 → ∃ t, exec (.degradedTimerExpiry i) s = .next t ∧ t.tg.pair[1].mode = .lost))

/-- A safety tick answers by its six steps: SAFE on a diagnostic, then SAFE#, LIFE, DRP, releases and STO as the state says. For
every state of the invariant outside RESET and SAFE cause CLOCK with no USB reset due, and every tick input: the tick happens at
the next instant of the 100 µs grid, never enters RESET, keeps the configuration, stays in SAFE from SAFE and enters SAFE on a
diagnostic code or a readback mismatch. After it SAFE# is high exactly in service, LIFE is a 1 kHz wave in service, a berth with
DRP is in service with all its terms, one with a release has DRP, enable and permit, no debug withdrawal and no stop under way,
both STO outputs of every channel follow its state, and the scan image of a tick that is a scan start is
kept. Rests on R22, 01_system_picture.md, 06_berths_and_release.md,
07_door_channels.md. -/
def Obligations.TheSafetyTickDrivesTheOutputs : Prop :=
  ∀ (s : State) (i : TickInputs), Inv s → s.sys.mode ≠ .reset → clockSafe s = false → s.um.resetAt = none →
    ∃ t, exec (.safetyTick i) s = .next t ∧ t.now = (atTick s).now ∧ t.tstamp = (atTick s).tstamp ∧ t.grid.tick = some t.now ∧
      t.cfg = s.cfg ∧ t.sys.mode ≠ .reset ∧ (s.sys.mode = .safe → t.sys.mode = .safe) ∧
      (i.diag ≠ 0 ∨ i.mismatch = true → t.sys.mode = .safe) ∧
      t.sys.safeHi = inService t ∧ t.sys.lifeHi = (inService t && decide (t.tstamp.toNat % 1000 < 500)) ∧
      (∀ b : Fin 8, (t.berth[b.1].drp = true → inService t = true ∧ t.berth[b.1].terms = 0x3F) ∧
        (t.berth[b.1].release = true → t.berth[b.1].drp = true ∧ t.berth[b.1].enable = true ∧ t.berth[b.1].permit = true ∧
          t.berth[b.1].dbgw = false ∧ t.sys.stop = none)) ∧
      (∀ c : Fin 16, t.dc.chan[c.1].sto[0].on = torqueOn t.dc.chan[c.1].state ∧
        t.dc.chan[c.1].sto[1].on = torqueOn t.dc.chan[c.1].state) ∧
      (scanDue t = true → t.cs.image = scanImage t)

/-- A lane sample takes the value of the serving lane and sets the detection bit by threshold and hysteresis. With a loaded image
the sample falls on the next 20 µs instant and keeps the configuration. For an input served by its home lane and not in a burst:
OFF inputs read 0 and do not detect; LOOP inputs show the average of the pair and AMPLITUDE inputs the envelope, within full scale;
an input that a wheel lowers detects at or below its threshold, ends above threshold plus hysteresis and holds between; a LOOP
input that a wheel raises the other way round. That the average is rounded down is the model's choice (log entry 104). Rests on
R104, R107, R108, 03_lanes_and_proving.md. -/
def Obligations.LaneSamplesSetTheDetectionBit : Prop :=
  ∀ (i : LaneInputs) (s : State) (n : Fin 64), s.sys.loaded = true → s.sys.mode ≠ .reset → clockSafe s = false →
    ∃ t, exec (.laneSample i) s = .next t ∧ t.now = (reach 20 s.grid.lane s).now ∧ t.grid.lane = some t.now ∧ t.cfg = s.cfg ∧
      (s.wf.group[(grpOf n).1].spareServes = false → s.wf.input[n.1].burst = none →
        let v := laneVal n s i.lane[(homeLane (grpOf n) (posOf n)).1]
        let th := fld s.cfg.input[n.1].ith 11 0
        let hy := fld s.cfg.input[n.1].ihy 8 0
        (inMode n s = 0 ∨ inMode n s = 3 → t.wf.input[n.1].det = false ∧ t.wf.input[n.1].val = 0) ∧
        (inMode n s = 1 ∨ inMode n s = 2 → t.wf.input[n.1].val = BitVec.ofNat 12 v) ∧
        (inMode n s = 2 ∨ inMode n s = 1 ∧ bitOf s.cfg.input[n.1].icfg 2 = false →
          (v ≤ th → t.wf.input[n.1].det = true) ∧ (th + hy < v → t.wf.input[n.1].det = false) ∧
          (th < v → v ≤ th + hy → t.wf.input[n.1].det = s.wf.input[n.1].det)) ∧
        (inMode n s = 1 → bitOf s.cfg.input[n.1].icfg 2 = true →
          (th ≤ v → t.wf.input[n.1].det = true) ∧ (v + hy < th → t.wf.input[n.1].det = false) ∧
          (v < th → th ≤ v + hy → t.wf.input[n.1].det = s.wf.input[n.1].det)))

/-- A group starts its provings in rising order, one in 6 s, and an agreement window that is not filled ends in a disagreement. Where
provings run: an idle group whose next position is not stitched out starts that position's proving with a free spare as shadow (200
µs of settling), or by bursts where the spare serves or is faulted; after the eighth it proves the free spare itself, or by bursts
the input that the spare serves; a position moved to the front goes first and leaves the rest of the order; within 6 s of the last
start nothing happens. At a sample that ends its 20 ms an agreement window goes on to the first disconnection of a disagreement;
before that nothing happens. Rests on R123, R125, R128, 03_lanes_and_proving.md. -/
def Obligations.ProvingsStartInRisingOrderAndWindowsExpire : Prop :=
  ∀ (s : State) (g p : Fin 8), provingRuns s = true →
    let x := s.wf.group[g.1]
    let start (f : Group → Group) := { s with wf := { s.wf with group := upd s.wf.group g f } }
    let due := x.phase = .idle ∧ limitOk 6000000 x.lastStart s.now = true
    (due → x.front = [] → x.next = p.1 → bitOf x.out p.1 = false →
      (x.spare = .free → exec (.provingStart g) s = .next { s with wf := { s.wf with
        group := upd s.wf.group g fun y => { y with
          lastStart := some s.now, front := [], next := (p.1 + 1) % 9, spare := .shadow, pos := p, spareServes := false,
          phase := .settle1 (s.now + 200) },
        input := upd s.wf.input (inputAt g p) fun y => { y with shadowDet := y.det } } }) ∧
      (x.spare = .serving ∨ x.spare = .faulted → exec (.provingStart g) s = .next (start fun y => { y with
        lastStart := some s.now, front := [], next := (p.1 + 1) % 9, under := putBit y.under p.1 true }))) ∧
    (due → x.front = [] → x.next = 8 →
      (x.spare = .free → exec (.provingStart g) s = .next (start fun y => { y with
        lastStart := some s.now, front := [], next := 0, phase := .direct (s.now + 8000) })) ∧
      (x.spare = .serving → exec (.provingStart g) s = .next (start fun y => { y with
        lastStart := some s.now, front := [], next := 0, under := putBit y.under y.pos.1 true }))) ∧
    (∀ r, due → x.front = p.castSucc :: r → (∀ f ∈ x.front, f.1 < 8 ∧ bitOf x.out f.1 = false) → x.spare = .free →
      ∃ t, exec (.provingStart g) s = .next t ∧ t.wf.group[g.1].spare = .shadow ∧ t.wf.group[g.1].pos = p ∧
        t.wf.group[g.1].phase = .settle1 (s.now + 200) ∧ t.wf.group[g.1].front = r ∧
        (nextPos g s ≠ p.1 → t.wf.group[g.1].next = x.next) ∧ t = { s with wf := t.wf }) ∧
    (limitOk 6000000 x.lastStart s.now = false → exec (.provingStart g) s = .next s) ∧
    (∀ k til, x.phase = .agree1 k til ∨ x.phase = .agree2 k til →
      (til ≤ s.now → s.grid.lane = some s.now → exec (.agreementWindowExpiry g) s =
        .next (start fun y => { y with phase := .disFirst (!x.spareServes) (s.now + 8000) })) ∧
      (s.now < til → exec (.agreementWindowExpiry g) s = .next s))

/-- Bursts start at most every 5 ms, last 200 µs, and forty of them give the lane its result. At a sample where provings run a burst
starts on an input that a proving in bursts measures, at most once in 5 ms: an unbound input at once, a bound one when it and its
partner were quiet for 2 s, every section of the head's mask is CLEAR, the partner has no fault and no burst, and the partner's own
burst is not due in a lower group. It ends at a sample no sooner than 200 µs later; up to the 39th the lane's count rises by one; the
40th ends the proving: the lane is proved at this instant, its count is 0 and the input is measured no more; a good comparison with
errors within 100 gives PASS and ends the faults 5 and 8 of the input, errors above 100 within 300 give DRIFT, a failed comparison or
an error above 300 gives FAIL and an input in use the fault 5. An aborted burst is not ended so. (What PASS does to fault 5 is the
model's choice, log entry 106.) Rests on R135, R136, R138, 03_lanes_and_proving.md. -/
def Obligations.BurstsDisconnectALaneAndProveItAfterForty : Prop :=
  ∀ (s : State) (n : Fin 64) (m : ProveMeas) (b : Nat), s.grid.lane = some s.now →
    let l := servingLane n s
    let x := s.wf.group[(grpOf n).1]
    let begins := exec (.burstStart n) s = .next { s with wf := { s.wf with
      input := upd s.wf.input n fun y => { y with burst := some ⟨s.now, none⟩, lastBurst := some s.now } } }
    (provingRuns s = true → x.spare = .serving ∨ x.spare = .faulted → bitOf x.under (posOf n).1 = true →
      s.wf.input[n.1].burst = none → limitOk 5000 s.wf.input[n.1].lastBurst s.now = true →
      (headOf n s = none → begins) ∧
      (∀ h c k, headOf n s = some (h, c) → partnerOf n s = some k → quiet2s n s = true → quiet2s k s = true →
        (∀ i : Fin 32, bitOf s.hd.head[h.1].mask1 i.1 = true → s.sc.sect[i.1].st = .clear) → s.wf.input[k.1].faults = [] →
        s.wf.input[k.1].burst = none → (grpOf n).1 ≤ (grpOf k).1 ∨ bitOf s.wf.group[(grpOf k).1].under (posOf k).1 = false →
        begins)) ∧
    (limitOk 5000 s.wf.input[n.1].lastBurst s.now = false → exec (.burstStart n) s = .next s) ∧
    (s.wf.input[n.1].burst = some ⟨b, none⟩ →
      (s.now < b + 200 → exec (.burstEnd n m) s = .next s) ∧
      (b + 200 ≤ s.now → s.wf.lane[l.1].bursts < 39 → exec (.burstEnd n m) s = .next { s with wf := { s.wf with
        input := upd s.wf.input n fun y => { y with burst := none },
        lane := upd s.wf.lane l fun y => { y with bursts := y.bursts + 1 } } }) ∧
      (b + 200 ≤ s.now → s.wf.lane[l.1].bursts = 39 → ∃ t, exec (.burstEnd n m) s = .next t ∧
        t.wf.lane[l.1].provedAt = some s.now ∧ t.wf.lane[l.1].bursts = 0 ∧
        bitOf t.wf.group[(grpOf n).1].under (posOf n).1 = false ∧ t.wf.input[n.1].burst = none ∧
        (m.cmp = true → m.off.toInt.natAbs ≤ 100 → m.low.toInt.natAbs ≤ 100 → m.high.toInt.natAbs ≤ 100 →
          t.wf.lane[l.1].result = .pass ∧ t.wf.input[n.1].has 5 = false ∧ t.wf.input[n.1].has 8 = false) ∧
        (m.cmp = true → 100 < m.off.toInt.natAbs → m.off.toInt.natAbs ≤ 300 → m.low.toInt.natAbs ≤ 300 →
          m.high.toInt.natAbs ≤ 300 → t.wf.lane[l.1].result = .drift ∧ t.wf.input[n.1].faults = s.wf.input[n.1].faults) ∧
        (m.cmp = false ∨ 300 < m.off.toInt.natAbs ∨ 300 < m.low.toInt.natAbs ∨ 300 < m.high.toInt.natAbs →
          t.wf.lane[l.1].result = .fail ∧ (inputOn n s = true → t.wf.input[n.1].has 5 = true)) ∧
        t = { s with wf := t.wf, ev := t.ev, nv := t.nv })) ∧
    (∀ a, s.wf.input[n.1].burst = some ⟨b, some a⟩ → exec (.burstEnd n m) s = .next s)

/-- Overdue provings, fault checks, clears and group faults set the inputs' faults; a keyed request asks for a proving. At a sample
where provings run, of a group without a working spare: an input in use whose lane was not proved for 24 h gets fault 8, one not
proved for 600 s a warning only, sooner nothing. A fault check that ends without the spare seeing the excursion puts the spare in
place, stitches the lane out and ends that fault. A fault that the bands raise ends after the input has been within every band for
500 ms since it was raised, and not before. A group reference fault gives every bound input in use of the group fault 9. A write of
WF_PROVEREQ with key 0xB7 puts the lane that serves the named input at the front of its group's order and changes nothing else;
another key changes nothing. Rests on R117, R118, R125, R145. -/
def Obligations.InputFaultsAndKeyedProveRequests : Prop :=
  (∀ (s : State) (n : Fin 64) (g : Fin 8), provingRuns s = true → s.grid.lane = some s.now →
      let l := servingLane n s
      let x := s.wf.input[n.1]
      let since := s.now - s.wf.lane[l.1].provedAt.getD 0
      (s.wf.group[(grpOf n).1].spare = .serving ∨ s.wf.group[(grpOf n).1].spare = .faulted →
        (86400000000 ≤ since → s.wf.lane[l.1].over24h = false →
          ∃ t, exec (.provingOverdue n) s = .next t ∧ (inputOn n s = true → t.wf.input[n.1].has 8 = true) ∧
            t.wf.lane[l.1].over24h = true ∧ t = { s with wf := t.wf, ev := t.ev, nv := t.nv }) ∧
        (600000000 ≤ since → since < 86400000000 → s.wf.lane[l.1].over600 = false →
          ∃ t, exec (.provingOverdue n) s = .next t ∧ t.wf.input = s.wf.input ∧ t.wf.lane[l.1].over600 = true ∧
            t = { s with wf := { s.wf with lane := t.wf.lane }, ev := t.ev, nv := t.nv }) ∧
        (since < 600000000 → exec (.provingOverdue n) s = .next s)) ∧
      (∀ c k til, s.wf.group[g.1].phase = .check c k til →
        (til ≤ s.now → ∃ t, exec (.faultCheckExpiry g) s = .next t ∧ t.wf.group[g.1].spare = .serving ∧
          t.wf.group[g.1].spareServes = true ∧ t.wf.group[g.1].pos = s.wf.group[g.1].pos ∧
          bitOf t.wf.group[g.1].out s.wf.group[g.1].pos.1 = true ∧ t.wf.group[g.1].phase = .idle ∧
          t.wf.input[(inputAt g s.wf.group[g.1].pos).1].has c = false ∧
          t = { s with wf := t.wf, ev := t.ev, nv := t.nv, st := t.st }) ∧
        (s.now < til → exec (.faultCheckExpiry g) s = .next s)) ∧
      (∀ o f, x.okSince = some o → f ∈ x.faults → bandFault f.1 = true → o + 500000 ≤ s.now → f.2 + 500000 ≤ s.now →
        ∃ t, exec (.inputFaultClear n) s = .next t ∧ t.wf.input[n.1].has f.1 = false ∧
          (∀ d, bandFault d = false → t.wf.input[n.1].has d = x.has d) ∧ t = { s with wf := t.wf, ev := t.ev, nv := t.nv }) ∧
      (∀ o, x.okSince = some o → s.now < o + 500000 → exec (.inputFaultClear n) s = .next s) ∧
      (x.okSince = none → exec (.inputFaultClear n) s = .next s)) ∧
  (∀ (s : State) (g : Fin 8), imageRuns s = true → clockSafe s = false →
      ∃ t, exec (.groupReferenceFault g) s = .next t ∧ t.wf.group[g.1].groupFault = true ∧
        (∀ p : Fin 8, headOf (inputAt g p) s ≠ none → inputOn (inputAt g p) s = true → t.wf.input[(inputAt g p).1].has 9 = true) ∧
        (∀ n : Fin 64, grpOf n ≠ g → t.wf.input[n.1] = s.wf.input[n.1]) ∧ t = { s with wf := t.wf, ev := t.ev, nv := t.nv }) ∧
  (∀ (s : State) (p : Port) (v : W16), s.sys.mode ≠ .reset → clockSafe s = false →
      let n := inputIx (v.toNat % 64)
      let k : Fin 9 := if spareServesOf n s then 8 else (posOf n).castSucc
      (v.toNat / 256 = 0xB7 → ∃ t, exec (.proveRequest p v) s = .next t ∧
        t = { s with hb := t.hb, wf := { s.wf with
          group := upd s.wf.group (grpOf n) fun x => { x with front := k :: x.front.filter (· ≠ k) } } }) ∧
      (v.toNat / 256 ≠ 0xB7 → ∃ t, exec (.proveRequest p v) s = .next t ∧ t = { s with hb := t.hb }))

/-- A head is BUSY after its presence filter, occupies the clear sections it bounds, and is standing after TSTAND. At a sample, for an enabled
head that left IDLE: after PFILT samples of 20 µs HEAD_BUSY makes it busy, every CLEAR section it bounds becomes OCCUPIED, a CLEAR
section that it does not bound and that nothing else occupies stays CLEAR; before that nothing changes. A head in a passage whose
phase has not changed for TSTAND becomes standing and nothing else changes but an event; before that nothing changes. Rests on
R161, R172, 04_counting_heads.md. -/
def Obligations.BusyAndStandingHeadsAreReported : Prop :=
  ∀ (s : State) (h : Fin 32), imageTaken s = true → s.sys.mode ≠ .reset → clockSafe s = false → headOn h s = true →
    s.grid.lane = some s.now →
    (∀ t0, s.hd.head[h.1].nonIdle = some t0 → s.hd.head[h.1].busy = false →
      (t0 + 20 * fld s.cfg.head[h.1].pfilt 6 0 ≤ s.now → ∃ t, exec (.headBusy h) s = .next t ∧ t.hd.head[h.1].busy = true ∧
        (∀ i : Fin 32, bounds h i s = true → s.sc.sect[i.1].st = .clear → t.sc.sect[i.1].st = .occupied) ∧
        (∀ i : Fin 32, bounds h i s = false → s.sc.sect[i.1].count = 0 → secPending i s = false → anyBusy i s = false →
          s.sc.sect[i.1].st = .clear → t.sc.sect[i.1].st = .clear) ∧
        t = { s with hd := t.hd, sc := t.sc, berth := t.berth, ev := t.ev, tg := t.tg, wf := t.wf }) ∧
      (s.now < t0 + 20 * fld s.cfg.head[h.1].pfilt 6 0 → exec (.headBusy h) s = .next s)) ∧
    (s.hd.head[h.1].standing = false →
      s.hd.head[h.1].phase = .enter ∨ s.hd.head[h.1].phase = .both ∨ s.hd.head[h.1].phase = .leave →
      (s.hd.head[h.1].changed + 10000 * fld s.cfg.head[h.1].tstand 9 0 ≤ s.now →
        ∃ t, exec (.standingTimeout h) s = .next t ∧ t = { s with ev := t.ev, hd := { s.hd with
          head := upd s.hd.head h fun x => { x with standing := true } } }) ∧
      (s.now < s.hd.head[h.1].changed + 10000 * fld s.cfg.head[h.1].tstand 9 0 → exec (.standingTimeout h) s = .next s))

/-- A walk moves the count of the linked section by one, saturating; a walk fault disturbs the head's sections. A walk of the
first waiting wheel entry with a good tack record and one linked section moves that section's count up or down by one by the
direction, saturating at both ends, keeps its complement, leaves every other section's count, and disturbs it where the count
leaves 0 to 2000. While the head's mask waits for its reload the entry is dropped. An uncorrectable tack word drops the entry,
keeps every count, disturbs the head's sections and starts a refresh, or enters SAFE cause UNCORR detail 1 within 60 s of the last
one. (SC_WALKMAX is a free value, log entry 98.) Rests on R194, R220, 05_sections_and_tack_table.md. -/
def Obligations.WalksMoveCountsOrDisturbSections : Prop :=
  (∀ (s : State) (e : WEntry) (q : List WEntry) (lo : Nat) (i : Fin 32) (dir : Bool),
      s.sys.loaded = true → s.sys.mode ≠ .reset → s.sys.mode ≠ .safe → s.sc.refresh = none → s.sc.fifo = e :: q →
      s.hd.head[e.head.1].reload = false →
      memRead32 0 s.sc.tack (0x7E010 + 4 * e.head.1) = BitVec.ofNat 32 (e.head.1 * 2 ^ 26 + 2 ^ 20 + lo) →
      lo % 4 = 0 → 0x7E000 ≤ lo → lo < 0x80000 →
      memRead32 0 s.sc.tack lo = BitVec.ofNat 32 ((0xFFFF - (i.1 + if dir then 32 else 0)) * 2 ^ 16 + i.1 + if dir then 32 else 0) →
      bitOf s.hd.head[e.head.1].mask1 i.1 = true →
      ∃ t, exec (.walk (Vector.replicate 33 .good)) s = .next t ∧ t.sc.fifo = q ∧ t.sc.walks = s.sc.walks + 1 ∧
        t.sc.sect[i.1].count = (if e.inward != dir then (if s.sc.sect[i.1].count = 0x7FFF then 0x7FFF else s.sc.sect[i.1].count + 1)
          else (if s.sc.sect[i.1].count = 0x8000 then 0x8000 else s.sc.sect[i.1].count - 1)) ∧
        t.sc.sect[i.1].compl = ~~~t.sc.sect[i.1].count ∧
        (∀ j : Fin 32, j ≠ i → t.sc.sect[j.1].count = s.sc.sect[j.1].count) ∧
        (t.sc.sect[i.1].count.toInt < 0 ∨ 2000 < t.sc.sect[i.1].count.toInt → s.sc.sect[i.1].st ≠ .disabled →
          t.sc.sect[i.1].st = .disturbed) ∧
        t = { s with sc := t.sc, free := s.free + 1, berth := t.berth, tg := t.tg, ev := t.ev, nv := t.nv, wf := t.wf }) ∧
  (∀ (s : State) (e : WEntry) (q : List WEntry) (ecc : Vector Ecc 33),
      s.sys.loaded = true → s.sys.mode ≠ .reset → s.sys.mode ≠ .safe → s.sc.refresh = none → s.sc.fifo = e :: q →
      (s.hd.head[e.head.1].reload = true → ∃ t, exec (.walk ecc) s = .next t ∧ t.sc.fifo = q ∧ t.sc.walks = s.sc.walks) ∧
      (s.hd.head[e.head.1].reload = false → ecc[0] = .uncorrectable → s.sc.refreshed = none →
        ∃ t, exec (.walk ecc) s = .next t ∧ t.sc.fifo = q ∧ t.sc.walks = s.sc.walks ∧ t.sc.walkFlt = satInc s.sc.walkFlt ∧
          t.sc.refresh = some s.now ∧ (∀ i : Fin 32, t.sc.sect[i.1].count = s.sc.sect[i.1].count) ∧
          (∀ i : Fin 32, bitOf s.hd.head[e.head.1].mask1 i.1 = true → s.sc.sect[i.1].st ≠ .disabled → t.sc.sect[i.1].st = .disturbed)) ∧
      (s.hd.head[e.head.1].reload = false → ecc[0] = .uncorrectable → (∃ r, s.sc.refreshed = some r ∧ s.now < r + 60000000) →
        ∃ t, exec (.walk ecc) s = .next t ∧ InSafe t 3 1))

/-- Tack refresh, mask reload and count copies restore from the image or enter SAFE. A good tack refresh ends it with the table of
the image and the waiting entries kept; one whose CRC or read fails enters SAFE cause UNCORR detail 1. Masks that do not
complement each other are kept as read, wait for a reload, count in the error counter and disturb the sections either copy names;
a good reload brings the image's masks, a failed one enters SAFE detail 2. A count and complement that disagree disturb the
section and count; a disabled section is left alone. Rests on R182, R183, R209, R220. -/
def Obligations.RepairsOfTheSectionsRestoreOrEnterSafe : Prop :=
  ∀ (s : State) (h i : Fin 32) (r0 : Nat) (a : W32) (b c d : W16), s.sys.loaded = true → s.sys.mode ≠ .reset → s.sys.mode ≠ .safe →
    (s.sc.refresh = some r0 →
      (∃ t, exec (.tackRefreshDone true true) s = .next t ∧ t.sc.refresh = none ∧ t.sc.refreshed = some s.now ∧
        t.sc.fifo = s.sc.fifo ∧ (s.cfg.tack.length ≤ 0x2000 → ∀ k, k < s.cfg.tack.length →
          memRead 0 t.sc.tack (0x7E000 + k) = s.cfg.tack.getD k 0)) ∧
      (∃ t, exec (.tackRefreshDone true false) s = .next t ∧ InSafe t 3 1) ∧
      (∃ t, exec (.tackRefreshDone false true) s = .next t ∧ InSafe t 3 1)) ∧
    (∀ a2, a2 ≠ ~~~a → ∃ t, exec (.sectionMaskMismatch h a a2) s = .next t ∧ t.hd.head[h.1].mask1 = a ∧ t.hd.head[h.1].mask2 = a2 ∧
      t.hd.head[h.1].reload = true ∧ t.hd.maskErr = satInc s.hd.maskErr ∧
      (∀ k : Fin 32, bitOf a k.1 = true ∨ bitOf a2 k.1 = false → s.sc.sect[k.1].st ≠ .disabled → t.sc.sect[k.1].st = .disturbed)) ∧
    (s.hd.head[h.1].reload = true →
      (∃ t, exec (.maskReloadDone h true) s = .next t ∧ t.hd.head[h.1].reload = false ∧
        t.hd.head[h.1].mask1 = s.cfg.head[h.1].mask1 ∧ t.hd.head[h.1].mask2 = s.cfg.head[h.1].mask2) ∧
      (∃ t, exec (.maskReloadDone h false) s = .next t ∧ InSafe t 3 2)) ∧
    (s.sc.sect[i.1].st ≠ .disabled → c ≠ ~~~b → ∃ t, exec (.countCopyMismatch i b c) s = .next t ∧ t.sc.sect[i.1].st = .disturbed ∧
      t.sc.sect[i.1].count = b ∧ t.sc.sect[i.1].compl = c ∧ t.sc.cntErr = satInc s.sc.cntErr) ∧
    (s.sc.sect[i.1].st = .disabled → exec (.countCopyMismatch i b d) s = .next s)

/-- A section reset order prepares, clears or is rejected as Table SC-8 says. In service, with one order waiting: it is taken and
acknowledged by its instance. A preparatory order on a DISTURBED or PREPARED section without a fault gives PREPARED, count 0 and
RSTEP 1; one with a fault is rejected with reason 5 and leaves the section; a direct order on a DISTURBED section that allows it,
with no fault, nothing pending, every head idle for 10 s, gives CLEAR with count 0; a direct order on a section that does not
allow it is rejected with reason 3. (A PREPARED section whose sweep ends at this very tick is left aside there.) Rests on R211, 05_sections_and_tack_table.md. -/
def Obligations.SectionResetsFollowTableScEight : Prop :=
  ∀ (s : State) (o : ROrder), inService s = true → s.sc.orders = [o] →
    ∃ t, exec .sectionResetApply s = .next t ∧ t.sc.orders = [] ∧ t.tg.rack = o.rinst ∧
      (o.direct = false → s.sc.sect[o.sect.1].st = .disturbed ∨ s.sc.sect[o.sect.1].st = .prepared → anyFault o.sect s = false →
        t.sc.sect[o.sect.1].st = .prepared ∧ t.sc.sect[o.sect.1].count = 0 ∧ t.sc.sect[o.sect.1].compl = 0xFFFF ∧
        t.sc.sect[o.sect.1].entries = 0 ∧ t.tg.rstep = 1) ∧
      (o.direct = false → anyFault o.sect s = true → s.sc.sect[o.sect.1].st = .disturbed → t.tg.rstep = 2 + 8 * 5 ∧
        t.sc.sect[o.sect.1].st = .disturbed ∧ t.sc.sect[o.sect.1].count = s.sc.sect[o.sect.1].count) ∧
      (o.direct = true → s.sc.sect[o.sect.1].st = .disturbed → bitOf s.cfg.section_[o.sect.1] 1 = true → anyFault o.sect s = false →
        secPending o.sect s = false → idle10s o.sect (atTick s) = true → anyBusy o.sect s = false →
        t.sc.sect[o.sect.1].st = .clear ∧ t.sc.sect[o.sect.1].count = 0 ∧ t.tg.rstep = 5) ∧
      (o.direct = true → bitOf s.cfg.section_[o.sect.1] 1 = false → s.sc.sect[o.sect.1].st ≠ .disabled →
        (s.sc.sect[o.sect.1].st = .prepared → s.sc.sect[o.sect.1].entries.toNat < 2) → t.tg.rstep = 6 + 8 * 3)

/-- Contact samples and filters set the contacts; a pair discrepant for too long faults, an obstacle pair recovers after 1 s. A
contact sample falls on the next 10 µs instant: a used contact outside its blind time takes its level and counts a run of
differing samples, within the blind time it counts nothing, an unused one is left alone; a run of FILT samples flips the filtered
level, a shorter one does not (log entry 41). A closed-and-locked pair in transit for longer than its time becomes FAULT with,
where the channel is not locked out already, a hard lockout due, sooner nothing; an obstacle pair so becomes FAULT and the channel
degraded; it is good again after both contacts
held antivalent for 1 s with 10 good dark checks, and not before. Rests on R253, R257, R258, R259. -/
def Obligations.ContactSamplesFiltersAndPairs : Prop :=
  (∀ (s : State) (lv : BitVec 66) (i : Fin 66), s.sys.loaded = true → s.sys.mode ≠ .reset → clockSafe s = false →
      (∃ t, exec (.contactSample lv) s = .next t ∧ t.now = (reach 10 s.grid.contact s).now ∧ t.grid.contact = some t.now ∧
        (contactUsed i s = true → blindSrc (sourceOf i s) (reach 10 s.grid.contact s) = false →
          t.dc.contact[i.1].raw = bitOf lv i.1 ∧ t.dc.contact[i.1].filt = s.dc.contact[i.1].filt ∧
          t.dc.contact[i.1].run = if bitOf lv i.1 = s.dc.contact[i.1].filt then 0 else s.dc.contact[i.1].run + 1) ∧
        (contactUsed i s = true → blindSrc (sourceOf i s) (reach 10 s.grid.contact s) = true →
          t.dc.contact[i.1].run = s.dc.contact[i.1].run) ∧
        (contactUsed i s = false → t.dc.contact[i.1].raw = s.dc.contact[i.1].raw)) ∧
      (contactUsed i s = true → 0 < s.dc.contact[i.1].run →
        (filtSamples i s ≤ s.dc.contact[i.1].run → ∃ t, exec (.contactFilterExpiry i) s = .next t ∧
          t.dc.contact[i.1].filt = !s.dc.contact[i.1].filt ∧ t.dc.contact[i.1].run = 0 ∧
          t = { s with dc := t.dc, ev := t.ev, nv := t.nv, sys := t.sys }) ∧
        (s.dc.contact[i.1].run < filtSamples i s → exec (.contactFilterExpiry i) s = .next s))) ∧
  (∀ (s : State) (c : Fin 16) (t0 : Nat), s.sys.loaded = true → s.sys.mode ≠ .reset → clockSafe s = false → chanOn c s = true →
      let cl : Fin 33 := ⟨2 * c.1, by omega⟩
      let ob : Fin 33 := ⟨2 * c.1 + 1, by omega⟩
      let x := s.dc.chan[c.1]
      (x.cl.eval = .transit → x.cl.since = some t0 →
        (t0 + 10000 * fld s.cfg.chan[c.1].disc 7 0 < s.now → ∃ t, exec (.pairDiscrepancyTimeout cl) s = .next t ∧
          t.dc.chan[c.1].cl.eval = .fault ∧ t.dc.chan[c.1].cl.kind = 1 ∧
          (x.locked = false → t.dc.chan[c.1].lockPend = true ∧ t.dc.chan[c.1].lockHard = true) ∧ t = { s with dc := t.dc, ev := t.ev, nv := t.nv }) ∧
        (s.now ≤ t0 + 10000 * fld s.cfg.chan[c.1].disc 7 0 → exec (.pairDiscrepancyTimeout cl) s = .next s)) ∧
      (x.ob.eval = .transit → x.ob.since = some t0 → t0 + 10000 * fld s.cfg.chan[c.1].disc 15 8 < s.now →
        ∃ t, exec (.pairDiscrepancyTimeout ob) s = .next t ∧ t.dc.chan[c.1].ob.eval = .fault ∧
          (x.locked = false → t.dc.chan[c.1].degraded = true)) ∧
      (x.ob.eval = .fault → x.ob.bySource = false → x.ob.antiSince = some t0 → t0 + 1000000 ≤ s.now → obUsed c s = true →
        10 ≤ s.dc.contact[(contactOf c 2).1].darkN → 10 ≤ s.dc.contact[(contactOf c 3).1].darkN →
        pairFault (contactOf c 2) (contactOf c 3) s = none →
        s.dc.contact[(contactOf c 2).1].filt = true → s.dc.contact[(contactOf c 3).1].filt = false →
        ∃ t, exec (.obPairRecovery c) s = .next t ∧ t.dc.chan[c.1].ob.eval = .good) ∧
      (x.ob.eval = .fault → x.ob.antiSince = some t0 → s.now < t0 + 1000000 → exec (.obPairRecovery c) s = .next s))

/-- Test pulses fall on their slots, a contact high in the dark fails its check, a source fault faults its pairs. In service the
pulse of source n happens at the next instant at which TSTAMP mod 100 ms is 25 ms times n and changes nothing else. The dark check
marks a used contact of that source that reads high as failed and one that reads low as checked. The first fault of a source is
latched, and every enabled channel with a closed-and-locked contact on it gets a faulted pair with a lockout due, unless it is
locked out already; a second changes nothing. Rests on R252, R254, R256. -/
def Obligations.TestPulsesCheckTheContacts : Prop :=
  ∀ (s : State) (n : Fin 4) (lv : BitVec 66) (i : Fin 66), inService s = true → s.sys.loaded = true →
    (s.tsRun = true → s.tstamp.toNat < 2 ^ 47 → s.dc.tps[n.1].pulseAt ≠ some s.now → ∃ t, exec (.tpsPulse n) s = .next t ∧
      t.dc.tps[n.1].pulseAt = some t.now ∧ s.now ≤ t.now ∧ t.now < s.now + 100000 ∧
      t.tstamp.toNat % 100000 = 25000 * n.1 % 100000 ∧
      t = { s with now := t.now, tstamp := t.tstamp, cs := t.cs, dc := { s.dc with tps := t.dc.tps } }) ∧
    (∃ t, exec (.darkCheck n lv) s = .next t ∧
      (contactUsed i s = true → sourceOf i s = n → bitOf lv i.1 = true →
        t.dc.contact[i.1].darkFail = true ∧ t.dc.contact[i.1].raw = true) ∧
      (contactUsed i s = true → sourceOf i s = n → bitOf lv i.1 = false →
        t.dc.contact[i.1].darkFail = false ∧ t.dc.contact[i.1].dark = true)) ∧
    (s.dc.tps[n.1].fault = false → ∃ t, exec (.sourceFault n) s = .next t ∧ t.dc.tps[n.1].fault = true ∧
      (∀ c : Fin 16, chanOn c s = true → sourceOf (contactOf c 0) s = n ∨ sourceOf (contactOf c 1) s = n →
        t.dc.chan[c.1].cl.eval = .fault ∧ t.dc.chan[c.1].lockSource = true ∧
        (s.dc.chan[c.1].locked = false → t.dc.chan[c.1].lockPend = true))) ∧
    (s.dc.tps[n.1].fault = true → exec (.sourceFault n) s = .next s)

/-- A tachometer edge counts with 10 µs high and low, and no edge within the timeout after leaving LOCKED is a fault. For a
channel whose tachometer runs: an edge whose high and low times are at least 10 µs is counted, timed and gives the period from the
last one, and changes no other channel; a shorter one changes nothing. On a channel that is not locked out: with torque
granted, the pair out of LOCKED and no edge since, the timeout raises the fault (KIND 6) and degrades the channel, before the timeout
nothing changes; edges that came at more than 25 kHz for 1 ms raise it as KIND 5. Rests on R261, R262,
07_door_channels.md. -/
def Obligations.TachometerEdgesTimeAndTimeouts : Prop :=
  ∀ (s : State) (c : Fin 16) (hi lo t0 : Nat), tachRuns c s = true →
    let x := s.dc.chan[c.1]
    (10000 ≤ hi → 10000 ≤ lo → ∃ t, exec (.tachEdge c hi lo) s = .next t ∧ t.dc.chan[c.1].edge = some s.now ∧
      t.dc.chan[c.1].edges = x.edges + 1 ∧ (x.edge = some t0 → t.dc.chan[c.1].period = s.now - t0) ∧
      t = { s with dc := { s.dc with chan := t.dc.chan } } ∧ (∀ k : Fin 16, k ≠ c → t.dc.chan[k.1] = s.dc.chan[k.1])) ∧
    (hi < 10000 ∨ lo < 10000 → exec (.tachEdge c hi lo) s = .next s) ∧
    (x.locked = false → x.tachF = false → torqueOn x.state = true → x.leftLock = true → x.edges = 0 → x.fastSince = none → x.grantAt = some t0 →
      (t0 + 10000 * fld s.cfg.chan[c.1].time 15 8 ≤ s.now → ∃ t, exec (.tachTimeout c) s = .next t ∧ t.dc.chan[c.1].tachF = true ∧
        t.dc.chan[c.1].tachKind = 6 ∧ t.dc.chan[c.1].degraded = true ∧ t.dc.chan[c.1].cycleOk = false ∧
        t = { s with dc := { s.dc with chan := t.dc.chan }, ev := t.ev, nv := t.nv, sys := t.sys }) ∧
      (s.now < t0 + 10000 * fld s.cfg.chan[c.1].time 15 8 → exec (.tachTimeout c) s = .next s)) ∧
    (∀ e, x.locked = false → x.tachF = false → x.fastSince = some t0 → x.edge = some e → t0 + 1000 ≤ e →
      ∃ t, exec (.tachTimeout c) s = .next t ∧ t.dc.chan[c.1].tachF = true ∧ t.dc.chan[c.1].tachKind = 5 ∧
        t.dc.chan[c.1].fastSince = none ∧ t.dc.chan[c.1].degraded = true)

/-- A dark pulse tests an energised STO output; one that does not follow is degraded, both degraded enter SAFE. In service, on an
enabled channel, at the output's slot after that instant's tick: an output that is off skips its pulse; an energised one whose off time
is within 250 µs stays good and on; one that is slower is marked degraded and degrades a channel that is not locked out; if the other
output is degraded already the Darore enters SAFE cause LOGIC detail 7. Outside the slot nothing happens. (That the tick of the instant
comes first is the model's reading, log entry 8.) Rests on R281, 07_door_channels.md. -/
def Obligations.DarkPulsesTestTheTorqueOutputs : Prop :=
  ∀ (s : State) (c : Fin 16) (b : Bool) (off on : Nat), inService s = true → chanOn c s = true →
    let o : Fin 2 := if b then 1 else 0
    let y := s.dc.chan[c.1].sto[o.1]
    (darkSlot c o s = false ∨ y.on = false → exec (.stoDarkPulse c b off on) s = .next s) ∧
    (darkSlot c o s = true → y.on = true → y.darkAt ≠ some s.now → y.deg = false →
      (off ≤ 250 → exec (.stoDarkPulse c b off on) s = .next { s with dc := { s.dc with
        chan := upd s.dc.chan c fun x => { x with
          sto := upd x.sto o fun z => { z with darkAt := some s.now, rb := decide (on ≤ 200) } } } }) ∧
      (250 < off → s.dc.chan[c.1].sto[1 - o.1].deg = false → s.dc.chan[c.1].locked = false →
        ∃ t, exec (.stoDarkPulse c b off on) s = .next t ∧ t.dc.chan[c.1].sto[o.1].deg = true ∧ t.dc.chan[c.1].degraded = true ∧
          t.sys.mode = s.sys.mode) ∧
      (250 < off → s.dc.chan[c.1].sto[1 - o.1].deg = true → ∃ t, exec (.stoDarkPulse c b off on) s = .next t ∧ InSafe t 2 7))

/-- An unlock needs the login, the key, a LOCKED fault-free channel and, after an STO lockout, a good stage test; minutes count to
the limit. Logged in and in service: a keyed unlock of a LOCKED fault-free channel for which no request waits is left to step 4 of the
next tick, or starts the stage test where the lockout was an STO one; otherwise it is rejected, and nothing but the rejection and its
record changes; USB has no such write. A stage test in time that passed leaves the request to the tick, one that failed or came late is
rejected and leaves the channels. Step 4 of a tick takes a waiting request of a fault-free channel: the lock, the lockout's causes and
the used cycles and minutes are cleared, and the channel rests CLOSED or STOPPED; one that has a fault by then stays LOCKED and is
rejected. A degraded channel's minute counts when due, and the limit sets the lockout; before that nothing changes. (That the tick
decides an unlock is the model's reading, log entry 110.) Rests on R289, R290, R287. -/
def Obligations.UnlocksStageTestsAndDegradedMinutes : Prop :=
  (∀ (s : State) (c : Fin 16) (v : W16), inService s = true → v.toNat / 256 = 0x6C → v.toNat % 16 = c.1 →
      (s.nv.login[0].on = true → unlockWaits c s = false → s.dc.chan[c.1].state = .locked → faultPresent c s = false →
        (s.dc.chan[c.1].lockSto = false → ∃ t, exec (.dcUnlock .bus v) s = .next t ∧
          t = { s with hb := t.hb, dc := { s.dc with chan := upd s.dc.chan c fun x => { x with unlocking := some false } } }) ∧
        (s.dc.chan[c.1].lockSto = true → ∃ t, exec (.dcUnlock .bus v) s = .next t ∧
          t = { s with hb := t.hb, dc := { s.dc with unlock := s.dc.unlock ++ [⟨c, false, s.now⟩] } })) ∧
      (s.nv.login[0].on = false ∨ unlockWaits c s = true ∨ s.dc.chan[c.1].state ≠ .locked ∨ faultPresent c s = true →
        ∃ t, exec (.dcUnlock .bus v) s = .next t ∧
          t = { s with hb := t.hb, dc := { s.dc with unlockRej := true }, ev := t.ev, nv := t.nv }) ∧
      exec (.dcUnlock .usb v) s = .next s) ∧
  (∀ (s : State) (c : Fin 16) (u : UnlockReq) (r : List UnlockReq) (d0 : Nat), inService s = true →
      (s.dc.unlock = u :: r →
        (s.now ≤ u.start + 20000 → s.dc.chan[u.chan.1].state = .locked → faultPresent u.chan s = false →
          exec (.unlockStageTestDone true) s = .next { s with dc := { s.dc with
            unlock := r, chan := upd s.dc.chan u.chan fun x => { x with unlocking := some u.usb } } }) ∧
        (∃ t, exec (.unlockStageTestDone false) s = .next t ∧ t.dc = { s.dc with unlock := r, unlockRej := true }) ∧
        (u.start + 20000 < s.now → ∃ t, exec (.unlockStageTestDone true) s = .next t ∧
          t.dc = { s.dc with unlock := r, unlockRej := true })) ∧
      (s.dc.unlock = [] → ∀ b, exec (.unlockStageTestDone b) s = .next s) ∧
      (∀ usb, chanOn c s = true → s.dc.chan[c.1].state = .locked → s.dc.chan[c.1].unlocking = some usb →
        (faultPresent c s = false →
          let y := (chanStep s c).dc.chan[c.1]
          (y.state = .closed ∨ y.state = .stopped) ∧ y.locked = false ∧ y.lockPend = false ∧ y.lockSto = false ∧ y.usedCyc = 0 ∧
            y.usedMin = 0 ∧ y.unlocking = none ∧ y.armed = false) ∧
        (faultPresent c s = true → (chanStep s c).dc.unlockRej = true ∧
          (chanStep s c).dc.chan = upd s.dc.chan c fun x => { x with unlocking := none })) ∧
      (s.dc.chan[c.1].degraded = true → s.dc.chan[c.1].nextMin = some d0 → s.dc.chan[c.1].usedMin.toNat < 2047 →
        (d0 ≤ s.now → ∃ t, exec (.degradedMinute c) s = .next t ∧
          t.dc.chan[c.1].usedMin.toNat = s.dc.chan[c.1].usedMin.toNat + 1 ∧
          (fld s.cfg.chan[c.1].degtime 10 0 ≤ s.dc.chan[c.1].usedMin.toNat + 1 → s.dc.chan[c.1].lockPend = false →
            t.dc.chan[c.1].lockPend = true) ∧
          t = { s with dc := { s.dc with chan := t.dc.chan }, ev := t.ev, nv := t.nv }) ∧
        (s.now < d0 → exec (.degradedMinute c) s = .next s)))

/-- A received copy is rejected and counted, held for its twin, or paired with it bit for bit. With reception on and a length that
fits the telegram: a copy that fails a check counts in TG_RXERR of its port and changes no content; in dual mode with nothing held
a good copy is held alone and nothing is used; a good copy whose twin of the other network is held within the skew bound ends the
hold: unequal bytes count as a mismatch and nothing is used, equal bytes are accepted once as the newest of the source. Rests on
R327, 09_scaos_telegrams.md. -/
def Obligations.ACopyIsHeldPairedOrRejected : Prop :=
  ∀ (s : State) (q : Fin 4) (b : List Byte), tgReceives s = true → b.length ≤ 64 → b.length = 16 + tLen b →
    (pairOf q = 1 → canUnused s = false) →
    let p := (pairOf q).1
    let k := s.tg.pair[p]
    (k.slots = [] → copyReason (pairOf q) b s ≠ 0 → ∃ t, exec (.copyReceive q b) s = .next t ∧
      t.tg.rxerr[q.1] = satInc s.tg.rxerr[q.1] ∧ t.tg.source = s.tg.source ∧ t.tg.pair = s.tg.pair ∧ t.tg.ben = s.tg.ben ∧
      t.tg.held = s.tg.held ∧ t = { s with tg := t.tg, ck := t.ck, ev := t.ev }) ∧
    (k.slots = [] → k.mode = .dual → k.recent = [] → copyReason (pairOf q) b s = 0 →
      ∃ t, exec (.copyReceive q b) s = .next t ∧ t.tg.pair[p].slots = [⟨netOf q, tSrc b, tSeq b, b, s.now⟩] ∧
        t.tg.source = s.tg.source ∧ t.tg.ben = s.tg.ben ∧ t.tg.held = s.tg.held ∧ t = { s with tg := t.tg, ck := t.ck, ev := t.ev }) ∧
    (∀ c : Slot, k.slots = [c] → k.mode = .dual → k.recent = [] → copyReason (pairOf q) b s = 0 → c.net = 1 - netOf q →
      c.src = tSrc b → c.seq = tSeq b → s.now ≤ c.at_ + skewUs (pairOf q) s →
      (c.bytes ≠ b → ∃ t, exec (.copyReceive q b) s = .next t ∧ t.tg.mismatch = satInc s.tg.mismatch ∧ t.tg.pair[p].slots = [] ∧
        t.tg.source = s.tg.source ∧ t.tg.ben = s.tg.ben ∧ t.tg.held = s.tg.held) ∧
      (c.bytes = b → ∃ t, exec (.copyReceive q b) s = .next t ∧ t.tg.pair[p].slots = [] ∧
        (∃ a, t.tg.pair[p].recent.head? = some a ∧ a.src = tSrc b ∧ a.seq = tSeq b ∧ a.bytes = b)))

/-- A command in sequence with a fresh echo is used, one with a stale echo is not; held copies expire and content lapses. In
service on one network: a berth command telegram, in sequence, alive and in time, is used where its echo is fresh (the enables of the
enabled berths, valid, fresh, the source's numbers and the echo of the stream) and only counted stale where it is not; its numbers advance in both cases.
A held copy older than the skew bound is dropped and counted as missing on the other network, a younger one is kept. At a lapse
instant content whose echo is no longer fresh loses freshness and counts as stale, but the value stays; fresh content is kept.
Rests on R327, R329, R340. -/
def Obligations.FreshCommandsAreUsedAndHeldCopiesExpire : Prop :=
  (∀ (s : State) (b : List Byte), inService s = true → s.sys.loaded = true → b.length = 28 →
      let k := s.tg.pair[0]
      k.slots = [] → k.mode = .singleA → k.recent = [] → copyReason 0 b s = 0 → peerOf 0 (tSrc b) s = some 0 → tType b = 2 →
      let x := s.tg.source[0]
      x.sync = true → tSeq b = x.seq + 1 → 1 ≤ seqWin s → (tAlive b - x.alive).toNat ≤ aliveWin s → tAlive b ≠ x.alive →
      (tTime b - x.time).toNat < 2 ^ 31 → tPay b 9 = 0 →
      (echoFresh 0 (tEcho b) s = true → ∃ t, exec (.copyReceive 0 b) s = .next t ∧ t.tg.ben = tPay b 8 &&& berthsOn s ∧ t.tg.benValid = true ∧
        t.tg.benFresh = true ∧ t.tg.benEcho = tEcho b ∧ t.tg.source[0].seq = tSeq b ∧ t.tg.source[0].alive = tAlive b ∧
        t.tg.source[0].time = tTime b ∧ t.tg.stream[0].echo = tSeq b ∧ t.sc.orders = s.sc.orders) ∧
      (echoFresh 0 (tEcho b) s = false → ∃ t, exec (.copyReceive 0 b) s = .next t ∧ t.tg.ben = s.tg.ben ∧
        t.tg.benFresh = s.tg.benFresh ∧ t.tg.stale = satInc s.tg.stale ∧ t.tg.source[0].seq = tSeq b ∧ t.tg.stream[0].echo = tSeq b)) ∧
  (∀ (s : State) (p : Fin 2) (c : Slot) (rest : List Slot),
      (tgReceives s = true → s.tg.pair[p.1].slots = c :: rest → c.at_ + skewUs p s < s.now → s.tg.pair[p.1].miss[(1 - c.net).1] = 0 →
        ∃ t, exec (.slotExpiry p 0) s = .next t ∧ t.tg.pair[p.1].slots = rest ∧
          t.tg.missCnt[(portIx p (1 - c.net)).1] = satInc s.tg.missCnt[(portIx p (1 - c.net)).1] ∧
          t.tg.pair[p.1].miss[(1 - c.net).1] = 1 ∧ t.tg.pair[p.1].mode = s.tg.pair[p.1].mode ∧
          t = { s with tg := t.tg, ev := t.ev }) ∧
      (s.tg.pair[p.1].slots = c :: rest → s.now ≤ c.at_ + skewUs p s → exec (.slotExpiry p 0) s = .next s) ∧
      (s.sys.mode ≠ .reset → clockSafe s = false → s.tg.benValid = true → s.tg.benFresh = true →
        (echoFresh 0 s.tg.benEcho (atTick s) = false → ∃ t, exec (.lapse 0) s = .next t ∧ t.tg.benFresh = false ∧
          t.tg.stale = satInc s.tg.stale ∧ t.tg.ben = s.tg.ben ∧ t = { atTick s with tg := t.tg, ev := t.ev, nv := t.nv }) ∧
        (echoFresh 0 s.tg.benEcho (atTick s) = true → exec (.lapse 0) s = .next (atTick s))))

/-- A due transmit cycle builds one telegram, and both networks of the pair send the same. The telegram of a due Ethernet cycle carries
the values of the tick: the stream's SEQ advances by one, and its number and time are kept for the echo. With the sequence mark in NVM,
nothing waiting and room behind the tap, both idle ports that are up send its frame; where the check units have no room it waits; and at
a new multiple of 65,536 it waits for the mark, which becomes the stream's SEQ. When the CAN cycle is due with one node, both controllers
running and idle: SEQ advances and both send the same copy. A cycle that is not due changes nothing. Rests on R324, R357,
09_scaos_telegrams.md, 10_network_ports.md, 11_check_units.md. -/
def Obligations.TransmitCyclesBuildOneTelegramForBothNetworks : Prop :=
  ∀ s : State,
    (cycleDue 0 s = true → s.tg.unsent = [] →
      let q := s.tg.stream[0].seq
      let u : Unsent := ⟨0, tgBytes 0 1 s.tg.pay[0] s, none⟩
      let built (t : State) := t.tg.stream[0].seq = q + 1 ∧ t.tg.stream[0].sent.head? = some (q, senderTime s) ∧
        t.tg.cycleAt[0] = some s.now
      (s.nv.vault.marks[0] = q ∨ q.toNat % 65536 ≠ 0 → s.nv.stored.marks[0] = s.nv.vault.marks[0] →
        (tapRoom 1 (sendBlock u s) s = true → s.ports.eth[0].up = true → s.ports.eth[1].up = true → s.ports.eth[0].sending = none →
          s.ports.eth[1].sending = none → ∃ t, exec .ethernetCycle s = .next t ∧ built t ∧ t.tg.unsent = [] ∧
            t.ports.eth[0].sending = some (ethWire u.bytes s) ∧ t.ports.eth[1].sending = some (ethWire u.bytes s) ∧
            t = { s with tg := t.tg, ck := t.ck, ev := t.ev, ports := { s.ports with eth := t.ports.eth } }) ∧
        (tapRoom 1 (sendBlock u s) s = false → ∃ t, exec .ethernetCycle s = .next t ∧ built t ∧ t.tg.unsent = [u] ∧
          t = { s with tg := t.tg })) ∧
      (q.toNat % 65536 = 0 → s.nv.vault.marks[0] ≠ q → s.nv.stored.marks[0] ≠ q → s.tg.markBad = false →
        ∃ t, exec .ethernetCycle s = .next t ∧ built t ∧ t.tg.unsent = [u] ∧ t.nv.vault.marks[0] = q ∧ t.ports = s.ports)) ∧
    (cycleDue 0 s = false → exec .ethernetCycle s = .next s) ∧
    (cycleDue 1 s = true → s.tg.unsent = [] → nodeOf 1 s ≠ 0 → nodeOf 2 s = 0 → nodeOf 3 s = 0 → nodeOf 4 s = 0 →
      s.tg.stream[1].seq.toNat % 65536 ≠ 0 → s.nv.stored.marks[1] = s.nv.vault.marks[1] →
      canRuns 0 s = true → canRuns 1 s = true → s.ports.can[0].queue = [] → s.ports.can[1].queue = [] →
      s.ports.can[0].sending = none → s.ports.can[1].sending = none →
      let b := tgBytes 1 4 s.tg.pay[1] s
      let x := canCopy false 0 0 b s
      tapRoom 3 (sendBlock ⟨1, b, some x⟩ s) s = true →
      ∃ t, exec .canCycle s = .next t ∧ t.tg.stream[1].seq = s.tg.stream[1].seq + 1 ∧
        t.ports.can[0].sending = some x ∧ t.ports.can[1].sending = some x ∧ t.tg.cycleAt[1] = some s.now ∧
        t = { s with tg := t.tg, ck := t.ck, ev := t.ev, ports := { s.ports with can := t.ports.can } }) ∧
    (cycleDue 1 s = false → exec .canCycle s = .next s)

/-- Ethernet frames are dropped, filtered or passed on; ten good MDIO polls bring a port up, a lost link or three unread ones take
it down. A frame with a bad FCS, a receive error or a wrong length counts in EN_DROP only (log entry 33); one whose addresses or
type do not fit changes nothing; an untagged good one acts as its telegram's copy. The end of a transmission starts the waiting
frame. MDIO, at most one poll of a port in 10 ms: the tenth good poll brings the port up; a lost link takes it down with cause 1 and ends its frames; the third
unreadable poll takes it down with cause 2; the start of the ports clears their poll counts and writes registers 4 and 0 of both PHYs; a keyed MDIO read request is kept
and goes out, and its end gives the data or 0xFFFF. Rests on R327, R362, R365, R367, R370. -/
def Obligations.EthernetFramesAndMdioPolls : Prop :=
  (∀ (s : State) (x : Fin 2) (f : EthFrame), ethReceives s = true →
      (f.fcsOk = false ∨ f.rxer = true ∨ f.octets.length < 60 ∨ 1518 < f.octets.length →
        exec (.ethFrameReceive x f) s = .next { s with ports := { s.ports with
          eth := upd s.ports.eth x fun e => { e with drop := satInc e.drop } } }) ∧
      (f.fcsOk = true → f.rxer = false → 60 ≤ f.octets.length → f.octets.length ≤ 1518 →
        (macOk f.octets s = false ∨ etherOk f.octets s = false → exec (.ethFrameReceive x f) s = .next s) ∧
        (macOk f.octets s = true → etherOk f.octets s = true → bitOf s.cfg.en.vlan 15 = false →
          exec (.ethFrameReceive x f) s = exec (.copyReceive (portIx 0 x) (f.octets.drop 14)) s)) ∧
      (∃ t, exec (.ethTransmitDone x) s = .next t ∧ t.ports.eth[x.1].sending = s.ports.eth[x.1].waiting ∧
        t.ports.eth[x.1].waiting = none ∧ t = { s with ports := { s.ports with eth := t.ports.eth } })) ∧
  (∀ (s : State) (x : Fin 2) (r1 r5 : W16) (p : Port) (v : W16), s.sys.mode ≠ .reset → s.sys.mode ≠ .prove → clockSafe s = false →
      (s.ports.mdioOn = true → pollDue x s = true → s.ports.eth[x.1].cause ≠ 5 → r1 ≠ 0xFFFF →
        (bitOf r1 2 = true → bitOf r1 5 = true → bitOf r5 8 = true → s.ports.eth[x.1].up = false → s.ports.eth[x.1].good = 9 →
          ∃ t, exec (.mdioPoll x r1 r5 true) s = .next t ∧ t.ports.eth[x.1].up = true ∧ t.ports.eth[x.1].cause = 0 ∧
            t.ports.eth[x.1].link = true ∧ t = { s with ports := t.ports, ev := t.ev }) ∧
        (bitOf r1 2 = false → s.ports.eth[x.1].up = true → ∃ t, exec (.mdioPoll x r1 r5 true) s = .next t ∧
          t.ports.eth[x.1].up = false ∧ t.ports.eth[x.1].cause = 1 ∧ t.ports.eth[x.1].sending = none ∧
          t.ports.eth[x.1].waiting = none)) ∧
      (s.ports.mdioOn = true → pollDue x s = true → s.ports.eth[x.1].cause ≠ 5 → s.ports.eth[x.1].ffs = 2 →
        ∃ t, exec (.mdioPoll x 0xFFFF r5 true) s = .next t ∧ t.ports.eth[x.1].up = false ∧
          t.ports.eth[x.1].cause = 2) ∧
      (pollDue x s = false → ∀ a, exec (.mdioPoll x r1 r5 a) s = .next s) ∧
      (s.ports.mdioOn = false → s.sys.loaded = true → ∃ t, exec .portStart s = .next t ∧ t.ports.mdioOn = true ∧
        (∀ y : Fin 2, t.ports.eth[y.1].good = 0 ∧ t.ports.eth[y.1].ffs = 0 ∧ t.ports.eth[y.1].polls = 0) ∧
        t = { s with ports := { s.ports with mdioOn := true, mdioOut := phyStart 0 s ++ phyStart 1 s, eth := t.ports.eth } }) ∧
      (v.toNat / 256 = 0x4D →
        let y : Fin 2 := if bitOf v 5 then 1 else 0
        let r := BitVec.ofNat 5 (v.toNat % 32)
        ∃ t, exec (.mdioReadRequest p v) s = .next t ∧ t = { s with hb := t.hb, ports := { s.ports with
          mdioRead := some (y, r), mdioOut := [⟨phyAddr y s, r, none⟩] } }) ∧
      (s.ports.mdioOn = true → s.ports.mdioRead ≠ none → ∀ a d, exec (.mdioReadDone a d) s =
        .next { s with ports := { s.ports with mdioRead := none, mdioData := if a then d else 0xFFFF } }))

/-- CAN errors move TEC and REC to passive and bus-off, successes move them down, frames that fit no door are ignored or dropped.
For a running controller: a transmit error that is no exception adds 8 to TEC and keeps the frame; a receive error adds 1 or, in the
cases of ISO 11898-1 for it, 8 to REC, and one above 127 makes it passive; a transmit error at 248 or more makes it bus-off, empties its queue and, with BOAUTO, starts the recovery; a frame sent
lowers TEC and reports a stop command as sent to the channels it was for; a received frame lowers REC, is ignored where it is
remote, extended or of no door, and counts in CN_DROP where it is classic or too short. Rests on R376, R379, R278. -/
def Obligations.CanControllersCountErrorsAndFilterFrames : Prop :=
  ∀ (s : State) (x : Fin 2) (f : CanFrame) (e : CanErr) (t0 : CanTx), canRuns x s = true →
    let c := s.ports.can[x.1]
    (c.state = .active → c.tec ≤ 119 → c.rec_ ≤ 127 → e.tx = true → c.sending = some t0 → errExempt e c = false →
      ∃ t, exec (.canError x e) s = .next t ∧ t.ports.can[x.1].tec = c.tec + 8 ∧ t.ports.can[x.1].lec = e.lec ∧
        t.ports.can[x.1].rec_ = c.rec_ ∧ t.ports.can[x.1].state = .active ∧ t = { s with ports := { s.ports with can := t.ports.can } }) ∧
    (e.tx = false → c.rec_ = 127 → c.tec ≤ 127 → c.state = .active → ∃ t, exec (.canError x e) s = .next t ∧
      t.ports.can[x.1].rec_ = (if e.eight then 135 else 128) ∧ t.ports.can[x.1].state = .passive) ∧
    (e.tx = true → errExempt e c = false → 248 ≤ c.tec → c.state = .active → c.boffAt = [] → bitOf s.cfg.cn.ctl 0 = true →
      ∃ t, exec (.canError x e) s = .next t ∧ t.ports.can[x.1].state = .busOff ∧ t.ports.can[x.1].recovering = true ∧
        t.ports.can[x.1].queue = [] ∧ t.ports.can[x.1].sending = none ∧ t.ports.can[x.1].boff = satInc c.boff) ∧
    (c.sending = some t0 → c.tec ≤ 127 → c.rec_ ≤ 127 → c.state = .active → c.queue = [] →
      ∃ t, exec (.canTransmitDone x) s = .next t ∧ t.ports.can[x.1].sending = none ∧ t.ports.can[x.1].tec = c.tec - 1 ∧
        (∀ k : Fin 16, t0.stop = true → bitOf t0.chans k.1 = true → s.dc.chan[k.1].stopAt = t0.at_ → t.dc.chan[k.1].cmdSent = true) ∧
        t = { s with ports := { s.ports with can := t.ports.can }, dc := { s.dc with chan := t.dc.chan } }) ∧
    (c.state = .active → c.tec ≤ 127 → c.rec_ ≤ 127 →
      (f.remote = true ∨ f.ext = true ∨ doorNode (f.ident.setWidth 8) s = false → ∃ t, exec (.canFrameReceive x f) s = .next t ∧
        t.ports.can[x.1].rec_ = c.rec_ - 1 ∧ t.ports.can[x.1].drop = c.drop ∧ t = { s with ports := { s.ports with can := t.ports.can } }) ∧
      (f.remote = false → f.ext = false → doorNode (f.ident.setWidth 8) s = true → f.classic = true ∨ f.data.length < 16 →
        ∃ t, exec (.canFrameReceive x f) s = .next t ∧ t.ports.can[x.1].drop = satInc c.drop ∧
          t = { s with ports := { s.ports with can := t.ports.can } }))

/-- CN_RECOVER with its key starts the recovery of a bus-off controller; recoveries and standby end. A write of CN_RECOVER acts
only with key 0xB5, and on a controller only where it is bus-off: it starts the recovery and clears HOLDOFF and changes nothing
else, with no login asked. The end of a recovery makes the controller active with both counters 0; a controller that is not bus-
off is left alone. A controller whose standby ends 50 µs after takes part again. Rests on R382. -/
def Obligations.CanControllersRecoverAndLeaveStandby : Prop :=
  ∀ (s : State) (x : Fin 2) (p : Port) (v : W16) (e0 : Nat),
    let c := s.ports.can[x.1]
    (c.state = .busOff → c.recovering = true → ∃ t, exec (.busOffRecoveryDone x) s = .next t ∧ t.ports.can[x.1].state = .active ∧
      t.ports.can[x.1].recovering = false ∧ t.ports.can[x.1].tec = 0 ∧ t.ports.can[x.1].rec_ = 0 ∧
      t = { s with ports := { s.ports with can := t.ports.can }, ev := t.ev }) ∧
    (c.state ≠ .busOff → exec (.busOffRecoveryDone x) s = .next s) ∧
    (s.sys.mode ≠ .reset → clockSafe s = false → v.toNat / 256 = 0xB5 → bitOf v x.1 = true → c.state = .busOff →
      ∃ t, exec (.canRecover p v) s = .next t ∧ t.ports.can[x.1].recovering = true ∧ t.ports.can[x.1].holdoff = false ∧
        t.ports.can[x.1].state = .busOff ∧ t = { s with hb := t.hb, ports := { s.ports with can := t.ports.can } }) ∧
    (s.sys.mode ≠ .reset → clockSafe s = false → c.state ≠ .busOff →
      ∃ t, exec (.canRecover p v) s = .next t ∧ t.ports.can[x.1] = c) ∧
    (s.sys.mode ≠ .reset → clockSafe s = false → v.toNat / 256 ≠ 0xB5 → ∃ t, exec (.canRecover p v) s = .next t ∧
      t = { s with hb := t.hb }) ∧
    (c.exitAt = some e0 → e0 ≤ s.now → ∃ t, exec .standbyExit s = .next t ∧ t.ports.can[x.1].exitAt = none ∧
      t = { s with ports := { s.ports with can := t.ports.can }, ev := t.ev })

/-- A snoop unit checks the front block, a feed ends, and self-tests disable or mark units as the chapter says. A snoop unit in
service with a block waiting takes it: it keeps the CRC of tag and bytes as VAL, numbers it, and with a matching expectation
nothing else happens; a mismatch sets MIS and counts; a difference of its shadow is a unit fault instead, of CK4 to CK7 only that unit is
out of service. With none waiting nothing happens. The end of a CKBLK without compare leaves
the fed RAW; an uncorrectable word leaves DATAECC. A started self-test marks its time; a failed one disables the unit, and for CK0
to CK3 enters SAFE cause LOGIC detail 8; an overdue test does so for CK0 to CK3 after 10 s and is only marked for CK4 to CK7 after
60 s. Rests on R400, R406, R420, R422, R425. -/
def Obligations.SnoopUnitsCheckBlocksAndTestThemselves : Prop :=
  ∀ (s : State) (n : Fin 8) (b : Block) (q : List Block) (e : Ecc),
    let u := s.ck[n.1]
    let res := crcOf (ckPreset u) (ckFoldBytes u b ++ b.bytes.take (b.bytes.length - ckTrail u))
    (ckOwner u = 1 → u.disabled = false → u.testing = none → inService s = true → u.fifo = b :: q → ckShort u b = false → ckAwin u = 0 →
      (ckCmp u = 0 ∨ (ckCmp u = 1 ∧ res = u.exp) →
        exec (.snoopBlock n .good) s = .next { s with ck := upd s.ck n fun k => { k with
          fifo := q, val := res, bseq := k.bseq + 1, held := false } }) ∧
      (ckCmp u = 1 → res ≠ u.exp → ∃ t, exec (.snoopBlock n .good) s = .next t ∧ t.ck[n.1].val = res ∧ t.ck[n.1].fifo = q ∧
        t.ck[n.1].mis = true ∧ t.ck[n.1].lastk = 2 ∧ t.ck[n.1].cnt = satInc u.cnt ∧ t = { s with ck := t.ck, ev := t.ev }) ∧
      (n.1 < 4 → ∃ t, exec (.snoopBlock n .shadow) s = .next t ∧ InSafe t 2 8 ∧ t.ck[n.1].disabled = true) ∧
      (4 ≤ n.1 → ∃ t, exec (.snoopBlock n .shadow) s = .next t ∧ t.ck[n.1].disabled = true ∧ t.ck[n.1].mis = u.mis ∧ t.sys = s.sys)) ∧
    (ckOwner u = 1 → u.fifo = [] → exec (.snoopBlock n .good) s = .next s) ∧
    (∀ f, u.feed = some f → u.ops = [] → s.db.mon = false →
      (f.cmp = false → exec (.ckblkDone n .good .good) s =
        .next { s with ck := upd s.ck n fun k => { k with raw := crcFeed (ckPreset u) k.raw f.bytes, feed := none, held := false } }) ∧
      (e = .uncorrectable → ∃ t, exec (.ckblkDone n e .good) s = .next t ∧ t.ck[n.1].dataEcc = true ∧ t.ck[n.1].feed = none)) ∧
    (ckOwner u ≠ 0 → u.disabled = false → inService s = true → u.fifo = [] → u.feed = none → u.ops = [] → u.testing = none →
      s.db.mon = false →
      (exec (.ckSelfTest n true) s =
        .next { s with ck := upd s.ck n fun k => { k with
          testBefore := (k.lastTest, k.overdue), testing := some s.now, lastTest := s.now, overdue := false } }) ∧
      (n.1 < 4 → ∃ t, exec (.ckSelfTest n false) s = .next t ∧ InSafe t 2 8 ∧ t.ck[n.1].disabled = true) ∧
      (4 ≤ n.1 → ∃ t, exec (.ckSelfTest n false) s = .next t ∧ t.sys = s.sys ∧ t.ck[n.1].disabled = true)) ∧
    (ckOwner u ≠ 0 → u.disabled = false → inService s = true →
      (n.1 < 4 → u.lastTest + 10000000 < s.now → ∃ t, exec (.ckSelfTestOverdue n) s = .next t ∧ InSafe t 2 8) ∧
      (4 ≤ n.1 → u.lastTest + 60000000 ≤ s.now → u.overdue = false → ∃ t, exec (.ckSelfTestOverdue n) s = .next t ∧
        t.ck[n.1].overdue = true ∧ t.ck[n.1].disabled = false ∧ t.sys = s.sys ∧
        t = { s with ck := upd s.ck n fun k => { k with overdue := true }, ev := t.ev, nv := t.nv }))

/-- An event goes to the ring its class names, an overflow leaves one marker and counts, the host pops the oldest. The first
waiting fabric event of a class that names ring n alone is appended there and to no other ring; at the last free entry it becomes
the overflow marker, sets OVF and counts as dropped. RING_POP from the bus gives the oldest entry and removes it, 0 on an empty
ring; from USB it reads 0 and changes nothing else. An entry old enough raises the ring's interrupt line. A route-table mismatch
reloads the table within 1 ms, a second within 60 s leaves the default routes; a ring control mismatch empties the ring and counts
what it lost. (End of the reload: log entry 36.) Rests on R437, R447, R450, R465. -/
def Obligations.EventsAreRoutedQueuedAndPopped : Prop :=
  ∀ (s : State) (n : Fin 8) (e : Entry) (q : List Entry),
    let r := s.ev.rings[n.1]
    (∀ code data ts sr sl rest, s.ev.fabric = .event code data ts sr sl :: rest → s.sys.mode ≠ .reset → clockSafe s = false →
      s.ev.routeBusy = none →
      (∀ w, classWord (classOf code.toNat s) s = w → bitOf w 3 = true → fld w 2 0 = n.1 → n ≠ 0 → fld w 5 4 = 0 → r.pend = [] →
        r.q.length + 1 < depthOf r → ∃ t, exec .eventFabricWrite s = .next t ∧ t.ev.fabric = rest ∧
          t.ev.rings[n.1].q = r.q ++ [{ code := code, sr := sr, sl := sl, data := data, ts := ts.setWidth 32, at_ := s.now }] ∧
          t.ev.rings[n.1].drop = r.drop ∧ (∀ m : Fin 8, m ≠ n → t.ev.rings[m.1] = s.ev.rings[m.1]) ∧ t = { s with ev := t.ev }) ∧
      (∀ w, classWord (classOf code.toNat s) s = w → bitOf w 3 = true → fld w 2 0 = n.1 → n ≠ 0 → fld w 5 4 = 0 → r.pend = [] →
        depthOf r ≤ r.q.length + 1 → depthOf r ≠ 0 → r.episode = false →
        ∃ t, exec .eventFabricWrite s = .next t ∧ t.ev.rings[n.1].q.length = r.q.length + 1 ∧ t.ev.rings[n.1].ovf = true ∧
          t.ev.rings[n.1].drop = r.drop + 1 ∧ (t.ev.rings[n.1].q.getLast?.map fun x => (x.code, x.marker, x.data)) = some (1, true, 1))) ∧
    (s.sys.mode ≠ .reset →
      (r.removed = 0 → r.q = e :: q → r.pend = [] → ∃ t, exec (.ringPop .bus n .good) s = .next t ∧ t.ev.rings[n.1].q = q ∧
        t.ev.rings[n.1].d1 = e.data ∧ t.ev.rings[n.1].d2 = word0 e.ts ∧ t.ev.rings[n.1].d3 = word1 e.ts ∧
        t.hb.port[0].data = entryWord e ∧ t = { s with ev := t.ev, hb := t.hb }) ∧
      (r.q = [] → r.removed = 0 → ∃ t, exec (.ringPop .bus n .good) s = .next t ∧ t.hb.port[0].data = 0 ∧ t.ev.rings[n.1].q = [])) ∧
    (∃ t, exec (.ringPop .usb n .good) s = .next t ∧ t.hb.port[1].data = 0 ∧ t = { s with hb := t.hb }) ∧
    (s.sys.mode ≠ .reset → bitOf s.ev.ien n.1 = true → s.ev.itime ≠ 0 → r.q = e :: q → e.at_ + 1000 * s.ev.itime.toNat ≤ s.now →
      ∃ t, exec (.ringAgeExpiry n) s = .next t ∧ (bitOf s.ev.irqsel n.1 = false → t.ev.hirqa = false) ∧
        (bitOf s.ev.irqsel n.1 = true → t.ev.hirqb = false) ∧ t = { s with ev := { s.ev with hirqa := t.ev.hirqa, hirqb := t.ev.hirqb } }) ∧
    (s.sys.mode ≠ .reset → clockSafe s = false →
      (∃ t, exec .routeTableMismatch s = .next t ∧ t.ev.routeBad = some s.now ∧
        (s.ev.routeBad = none → t.ev.routeDefault = s.ev.routeDefault ∧ (∃ til, t.ev.routeBusy = some til ∧ s.now ≤ til ∧ til ≤ s.now + 1000)) ∧
        (∀ t0, s.ev.routeBad = some t0 → s.now < t0 + 60000000 → t.ev.routeDefault = true ∧ t.ev.routeBusy = none)) ∧
      (∃ t, exec (.ringControlMismatch n) s = .next t ∧ t.ev.rings[n.1].q = [] ∧ t.ev.rings[n.1].wix = 0 ∧
        t.ev.rings[n.1].drop = r.drop + BitVec.ofNat 16 r.q.length ∧ (∀ m : Fin 8, m ≠ n → t.ev.rings[m.1] = s.ev.rings[m.1])))

/-- The first queued record is appended, a failed write retires the sector, no spare or a dead engine loses the ledger. In
service: a good append writes the first queued record (with the gap flag where one stands) and changes no NVM image; a failed one
retires the sector while a spare is left and otherwise loses the partition and sets its degraded item; with nothing queued nothing
happens. A retirement that is done lists the sector, keeps every record, adds a stitch-map entry and queues its record. An append
engine that times out loses the partition and uses the first fault cell. A fault-cell minute updates the header; the erase ahead
drops the oldest sector when none is free and retires a sector that cannot be erased (log entries 60, 61). Rests on R499, R500,
R501, R502, R504. -/
def Obligations.LedgerAppendsRetirementsAndLosses : Prop :=
  ∀ (s : State) (r : LRec) (t0 : Nat) (q : List (LRec × Nat)), inService s = true → s.nv.ledger.lost = none →
    (s.nv.queue = (r, t0) :: q → s.nv.ledger.retiring = none →
      s.nv.ledger.recs.length + s.nv.ledger.fill < 511 * (s.nv.ledger.full + 1) →
      (∃ t, exec (.ledgerAppend true) s = .next t ∧ t.nv.ledger.recs = s.nv.ledger.recs ++ [{ r with gap := r.gap || s.nv.gapNext }] ∧
        t.nv.queue = q ∧ t.nv.gapNext = false ∧ t.nv.mem = s.nv.mem ∧ t.nv.vault = s.nv.vault ∧ t.nv.clog = s.nv.clog ∧
        t = { s with nv := t.nv, ev := t.ev, ck := t.ck }) ∧
      (s.nv.ledger.retired.length < 8 → exec (.ledgerAppend false) s = .next { s with nv := { s.nv with
        ledger := { s.nv.ledger with retiring := some s.nv.ledger.cur, again := true, weak := false } } }) ∧
      (8 ≤ s.nv.ledger.retired.length → ∃ t, exec (.ledgerAppend false) s = .next t ∧ t.nv.ledger.lost = some .noSpare ∧
        t.nv.ledger.recs = s.nv.ledger.recs ∧ t.nv.queue = [] ∧ (s.sys.deg[8].units = 0 → bitOf t.sys.degsrc 8 = true))) ∧
    (s.nv.queue = [] → ∀ ok, exec (.ledgerAppend ok) s = .next s) ∧
    (∀ i, s.nv.ledger.retiring = some i → s.nv.ledger.again = false → ∃ t, exec .retirementDone s = .next t ∧
      t.nv.ledger.retiring = none ∧ t.nv.ledger.retired = s.nv.ledger.retired ++ [(i, s.nv.ledger.retired.length)] ∧
      t.nv.ledger.recs = s.nv.ledger.recs ∧ t.st.entries.length = s.st.entries.length + 1 ∧
      (s.nv.queue.length < 32 → t.nv.queue.length = s.nv.queue.length + 1)) ∧
    (s.nv.ledger.retiring = none → s.nv.clog.retiring = none → exec .retirementDone s = .next s) ∧
    (∃ t, exec (.appendEngineTimeout false) s = .next t ∧ t.nv.ledger.lost = some .engine ∧ t.nv.queue = [] ∧
      t.nv.ledger.recs = s.nv.ledger.recs ∧ (s.nv.cellsBad = false → t.nv.cells[0].isSome = true) ∧ (s.sys.deg[8].units = 0 → bitOf t.sys.degsrc 8 = true)) ∧
    (∀ m, (∃ st0, s.sys.deg[8].start = some st0 ∧ m = s.sys.deg[8].before + (s.now - st0) / 60000000) → m < 65536 →
      bitOf s.sys.degsrc 8 = true → bitOf s.sys.degsrc 9 = false → s.nv.hdrMin[0].toNat < m →
      exec (.faultCellMinute true) s = .next { s with nv := { s.nv with
        hdrMin := s.nv.hdrMin.set 0 (BitVec.ofNat 16 m), cellsBad := false } }) ∧
    (s.nv.ledger.retiring = none → s.nv.ledger.ahead = false →
      (s.nv.ledger.full < 187 → exec (.eraseAhead false true) s = .next { s with nv := { s.nv with
        ledger := { s.nv.ledger with ahead := true, erases := s.nv.ledger.erases + 1 } } }) ∧
      (187 ≤ s.nv.ledger.full → exec (.eraseAhead false true) s = .next { s with nv := { s.nv with
        ledger := { s.nv.ledger with recs := s.nv.ledger.recs.drop (511 - s.nv.ledger.fill), fill := s.nv.ledger.fill - 511,
                                     full := s.nv.ledger.full - 1, ahead := true, erases := s.nv.ledger.erases + 1 } } }) ∧
      (s.nv.ledger.retired.length < 8 → exec (.eraseAhead false false) s = .next { s with nv := { s.nv with
        ledger := { s.nv.ledger with retiring := some ((s.nv.ledger.cur + 1) % 188), again := false, weak := false } } })) ∧
    (∀ ok, s.nv.ledger.ahead = true → exec (.eraseAhead false ok) s = .next s)

/-- A fetch puts the selected record, entry or cell into the read register with its result; clearing cells needs key, login and
both logs. FETCH_LEDGER_RECORD of a retained LSEQ delivers its 32 bytes with RES 0, a failing CRC RES 3, a number above or below
all retained RES 1 or 2; FETCH_CHANGE_LOG_ENTRY and FETCH_FAULT_CELL likewise, an empty or unknown cell RES 4 (log entry 64). Each
read of the data register gives the next word and removes it, 0 when none is left. LG_FCCLR with its key, logged in and with
neither log lost empties all 16 cells; otherwise the cells stay. Rests on R468, R493, R496, R678. -/
def Obligations.FetchesDeliverLogItemsToTheReadRegister : Prop :=
  ∀ (s : State) (p : Port) (x : LRec) (y : CEnt) (pre post : List LRec) (pre' post' : List CEnt),
    s.sys.mode ≠ .reset → clockSafe s = false →
    let sel := join32 s.nv.rsel0 s.nv.rsel1
    let got (i : Instr) (res : BitVec 3) (ws : List W16) := ∃ t, exec i s = .next t ∧ t.nv.ready = true ∧ t.nv.res = res ∧
      t.nv.rdata = ws ∧ t = { s with hb := t.hb, nv := { s.nv with login := t.nv.login, ready := true, res := res, rdata := ws } }
    (s.nv.ledger.recs = pre ++ x :: post → x.lseq = sel → (∀ z ∈ pre, z.lseq ≠ sel) →
      got (.fetchLedgerRecord p true) 0 (wordsOf (lrecBytes x)) ∧
      ∃ t, exec (.fetchLedgerRecord p false) s = .next t ∧ t.nv.ready = true ∧ t.nv.res = 3 ∧ t.nv.rdata.length = 16) ∧
    (s.nv.ledger.recs = pre ++ [x] → (∀ z ∈ s.nv.ledger.recs, z.lseq ≠ sel) →
      (x.lseq.toNat < sel.toNat → got (.fetchLedgerRecord p true) 1 []) ∧
      (sel.toNat < x.lseq.toNat → got (.fetchLedgerRecord p true) 2 [])) ∧
    (s.nv.clog.recs = pre' ++ y :: post' → y.cseq = sel → (∀ z ∈ pre', z.cseq ≠ sel) →
      got (.fetchChangeLogEntry p true) 0 (wordsOf (centBytes y))) ∧
    (s.nv.clog.recs = [] → got (.fetchChangeLogEntry p true) 1 []) ∧
    (∀ k : Fin 16, sel.toNat = k.1 → (s.nv.cells[k.1] = some x → got (.fetchFaultCell p true) 0 (wordsOf (lrecBytes x))) ∧
      (s.nv.cells[k.1] = none → got (.fetchFaultCell p true) 4 [])) ∧
    (16 ≤ sel.toNat → got (.fetchFaultCell p true) 4 []) ∧
    (∀ w ws, s.nv.rdata = w :: ws → ∃ t, exec (.lgRdataRead p) s = .next t ∧ t.hb.port[p.ix.1].data = w ∧
      t = { s with hb := t.hb, nv := { s.nv with rdata := ws } }) ∧
    (s.nv.rdata = [] → ∃ t, exec (.lgRdataRead p) s = .next t ∧ t.hb.port[p.ix.1].data = 0 ∧ t = { s with hb := t.hb }) ∧
    (∀ v : W16, v.toNat / 256 = 0x3E → s.nv.login[p.ix.1].on = true → s.nv.ledger.lost = none → s.nv.clog.lost = none →
      ∃ t, exec (.faultCellClear p v) s = .next t ∧ (∀ k : Fin 16, t.nv.cells[k.1] = none) ∧ t.nv.cellNext = 1 ∧
        t = { s with hb := t.hb, nv := { s.nv with login := t.nv.login, cells := t.nv.cells, cellNext := 1 } }) ∧
    (∀ v : W16, v.toNat / 256 ≠ 0x3E ∨ s.nv.login[p.ix.1].on = false ∨ s.nv.ledger.lost.isSome = true ∨ s.nv.clog.lost.isSome = true →
      ∃ t, exec (.faultCellClear p v) s = .next t ∧ t.nv.cells = s.nv.cells ∧
        t = { s with hb := t.hb, nv := { s.nv with login := t.nv.login } })

/-- Vault records are written page by page; logins compare the salted hash, wrong ones lock, and keyed commands need their key. In
service: a changed vault record is written to the next page with the next generation, a failed page is skipped and the 128th
enters SAFE; the wear move goes to the next sector pair. Password words are buffered low byte first. LOGIN with the stored hash
matching logs the port in and clears the counts; a wrong one counts, the fifth starts the lock of 10 min; a locked login changes
nothing. A wrong key changes nothing but the login's idle time. LOGOUT ends the login; SETPWD needs the login (result 0x10) and a
valid password (0x26) and then stores the new hash, logs the change and ends the other port's login; a login idle for 15 min ends;
the lock counts down by minutes. (SHA-256 as FIPS 180-4: log entry 53; salt free: log entry 5; log entries 65 to 67, 75.) Rests on
R471, R472, R480, R481, R482, R484, 13_ledger_and_vault.md. -/
def Obligations.LoginsPasswordsAndTheVault : Prop :=
  ∀ (s : State) (p : Port), inService s = true →
    let l := s.nv.login[p.ix.1]
    let v := s.nv.vault
    (s.nv.vault ≠ s.nv.stored →
      (∃ t, exec (.vaultWrite true) s = .next t ∧ t.nv.stored = v ∧ t.nv.vault = v ∧ t.nv.gen = s.nv.gen + 1 ∧
        t.nv.page = (s.nv.page + 1) % 128 ∧ t.nv.pageFails = 0 ∧ (s.tg.unsent = [] → t = { s with nv := t.nv })) ∧
      (s.nv.pageFails < 127 → ∃ t, exec (.vaultWrite false) s = .next t ∧ t.nv.stored = s.nv.stored ∧
        t.nv.pageFails = s.nv.pageFails + 1 ∧ t = { s with nv := t.nv }) ∧
      (127 ≤ s.nv.pageFails → s.tg.markBad = false → ∃ t, exec (.vaultWrite false) s = .next t ∧ InSafe t 3 4)) ∧
    (s.nv.vault = s.nv.stored → ∀ ok, exec (.vaultWrite ok) s = .next s) ∧
    (s.nv.moveDue = true → s.nv.vault = s.nv.stored → s.nv.queue = [] → s.nv.ledger.retiring = none → s.nv.clog.retiring = none →
      ∃ t, exec .vaultWearMove s = .next t ∧ t.nv.pair = (if 58 ≤ s.nv.pair then 52 else s.nv.pair + 2) ∧ t.nv.page = 0 ∧
        t.nv.moveDue = false ∧ t.nv.stored = s.nv.stored ∧ t = { s with nv := { s.nv with pair := t.nv.pair, page := 0, moveDue := false, wear := t.nv.wear } }) ∧
    (∀ lo hi : Byte, l.pw.words < 16 → l.pw.ended = false → lo ≠ 0 → hi ≠ 0 →
      ∃ t, exec (.passwordBufferWrite p (hi ++ lo)) s = .next t ∧ t.nv.login[p.ix.1].pw.chars = l.pw.chars ++ [lo, hi] ∧
        t.nv.login[p.ix.1].pw.words = l.pw.words + 1 ∧ t.nv.login[p.ix.1].on = l.on ∧
        t = { s with hb := t.hb, nv := { s.nv with login := t.nv.login } }) ∧
    (s.nv.lockNext = none → v.lockMin = 0 → v.hash ≠ List.replicate 32 0 →
      (sha256 (v.salt ++ l.pw.chars) = v.hash → ∃ t, exec (.login p 0xC7) s = .next t ∧ t.nv.login[p.ix.1] = { on := true, last := s.now, pw := {} } ∧
        t.nv.vault = { v with wrong := 0, k := 0 }) ∧
      (sha256 (v.salt ++ l.pw.chars) ≠ v.hash → v.wrong.toNat < 4 → ∃ t, exec (.login p 0xC7) s = .next t ∧
        t.nv.login[p.ix.1].on = l.on ∧ t.nv.vault = { v with wrong := v.wrong + 1 }) ∧
      (sha256 (v.salt ++ l.pw.chars) ≠ v.hash → v.wrong = 4 → v.k = 0 → ∃ t, exec (.login p 0xC7) s = .next t ∧
        t.nv.login[p.ix.1].on = l.on ∧ t.nv.vault = { v with wrong := 0, k := 1, lockMin := 10 } ∧
        t.nv.lockNext = some (s.now + 60000000))) ∧
    (∀ t1, s.nv.lockNext = some t1 → v.lockMin ≠ 0 → s.now < t1 → ∃ t, exec (.login p 0xC7) s = .next t ∧ t.nv.login[p.ix.1].on = l.on ∧
      t.nv.vault = v ∧ t.nv.queue = s.nv.queue) ∧
    (∀ k : Byte, k ≠ 0xC7 → ∀ i ∈ [Instr.login p k, .logout p k, .setpwd p k true true, .clearstage p k],
      ∃ t, exec i s = .next t ∧ t = { s with hb := t.hb, nv := { s.nv with login := t.nv.login } } ∧ t.nv.login[p.ix.1].on = l.on) ∧
    (l.on = true → ∃ t, exec (.logout p 0xC7) s = .next t ∧ t.nv.login[p.ix.1] = {}) ∧
    (l.on = false → ∃ t, exec (.setpwd p 0xC7 true true) s = .next t ∧ t.nv.result = 0x10 ∧ t.nv.vault = v) ∧
    (l.on = true → pwValid l.pw.chars = false → ∃ t, exec (.setpwd p 0xC7 true true) s = .next t ∧ t.nv.result = 0x26 ∧ t.nv.vault = v) ∧
    (l.on = true → pwValid l.pw.chars = true → s.nv.clog.lost = none → s.nv.clog.retiring = none →
      s.nv.clog.recs.length + s.nv.clog.fill < 255 * (s.nv.clog.full + 1) →
      ∃ t salt, exec (.setpwd p 0xC7 true true) s = .next t ∧
        t.nv.vault = { v with salt := salt, hash := sha256 (salt ++ l.pw.chars) } ∧ t.nv.stored = t.nv.vault ∧
        t.nv.clog.recs.length = s.nv.clog.recs.length + 1 ∧ t.nv.cseq = s.nv.cseq + 1 ∧ t.nv.login[p.ix.1].on = true ∧
        t.nv.login[(otherPort p).ix.1].on = false) ∧
    (l.on = true → l.last + 900000000 ≤ s.now → ∃ t, exec (.loginTimeout p) s = .next t ∧ t.nv.login[p.ix.1] = {}) ∧
    (l.on = false ∨ s.now < l.last + 900000000 → exec (.loginTimeout p) s = .next s) ∧
    (∀ t1, s.nv.lockNext = some t1 →
      (s.now < t1 → exec .loginLockExpiry s = .next s) ∧
      (t1 ≤ s.now → s.now < t1 + 60000000 → 2 ≤ v.lockMin.toNat → exec .loginLockExpiry s = .next { s with nv := { s.nv with
        vault := { v with lockMin := v.lockMin - 1 }, lockNext := some (t1 + 60000000) } }) ∧
      (t1 ≤ s.now → s.now < t1 + 60000000 → v.lockMin = 1 → exec .loginLockExpiry s = .next { s with nv := { s.nv with
        vault := { v with lockMin := 0 }, lockNext := none } }))

/-- CLEARSTAGE erases both staging banks, chunks with a good CRC are written once, and COMMIT starts or is refused. In CONFIGURE:
CLEARSTAGE starts the erase when logged in, is refused with LAST 5 without a login and LAST 4 while another runs; its end leaves
both staging banks erased, prepared, and every other byte of NVM as it was. CHUNK_OPEN selects, CHUNK_DATA appends up to 128
words, and CHUNK_COMPLETE with the right CRC writes exactly the chunk's bytes, lists it and gives LAST 1; a wrong CRC gives LAST 2
and changes no byte. COMMIT that nothing refuses starts with step 2 pending (its step instants: log entry 71); without a login it
results in 0x10, with no password set in 0x12. Rests on R484, R485, R486, R489. -/
def Obligations.StagingWritesChunksAndStartsCommits : Prop :=
  ∀ (s : State) (p : Port) (v : W16) (f : CommitFindings), s.sys.mode = .configure → Memory.wf 0xFF s.nv.mem = true →
    let l := s.nv.login[p.ix.1]
    let conf := 262144 * (1 - b2n s.nv.vault.bank)
    let prog := 524288 + 98304 * (1 - b2n s.nv.vault.pbank)
    (s.nv.erasing = false → s.nv.commit = none →
      (l.on = true → ∃ t, exec (.clearstage p 0xC7) s = .next t ∧ t.nv.erasing = true ∧ t.nv.prep = false ∧ t.nv.dirD = [] ∧
        t.nv.dirP = [] ∧ t.nv.mem = s.nv.mem) ∧
      (l.on = false → ∃ t, exec (.clearstage p 0xC7) s = .next t ∧ t.nv.sLast = 5 ∧ t.nv.erasing = false)) ∧
    (s.nv.erasing = true → ∃ t, exec (.clearstage p 0xC7) s = .next t ∧ t.nv.sLast = 4 ∧ t.nv.erasing = true ∧ t.nv.mem = s.nv.mem) ∧
    (s.nv.erasing = true → ∃ t, exec .clearstageDone s = .next t ∧ t.nv.erasing = false ∧ t.nv.prep = true ∧
      (∀ a, conf ≤ a ∧ a < conf + 262144 ∨ prog ≤ a ∧ a < prog + 98304 → memRead 0xFF t.nv.mem a = 0xFF) ∧
      (∀ a, ¬(conf ≤ a ∧ a < conf + 262144) → ¬(prog ≤ a ∧ a < prog + 98304) → memRead 0xFF t.nv.mem a = memRead 0xFF s.nv.mem a) ∧
      t = { s with nv := { s.nv with mem := t.nv.mem, erasing := false, prep := true, stageBad := false } }) ∧
    (s.nv.erasing = false → exec .clearstageDone s = .next s) ∧
    (∃ t, exec (.chunkOpen p v) s = .next t ∧ t.nv.ssel = v &&& 0x83FF ∧ t.nv.chunk = { opened := true, words := [] } ∧
      t = { s with hb := t.hb, nv := { s.nv with login := t.nv.login, ssel := t.nv.ssel, chunk := t.nv.chunk } }) ∧
    (s.nv.chunk.opened = true → s.nv.chunk.words.length < 128 → ∃ t, exec (.chunkData p v) s = .next t ∧
      t.nv.chunk.words = s.nv.chunk.words ++ [v] ∧ t = { s with hb := t.hb, nv := { s.nv with login := t.nv.login, chunk := t.nv.chunk } }) ∧
    (s.nv.chunk.opened = false ∨ 128 ≤ s.nv.chunk.words.length → ∃ t, exec (.chunkData p v) s = .next t ∧ t.nv.chunk = s.nv.chunk) ∧
    (s.nv.chunk.opened = true → s.nv.chunk.words.length = 128 → fld s.nv.ssel 15 15 = 0 → s.nv.dirD.contains (fld s.nv.ssel 9 0) = false →
      s.nv.prep = true → s.nv.commit = none → l.on = true →
      let bytes := s.nv.chunk.words.flatMap fun w => bytesLE 2 w.toNat
      let base := conf + 256 * fld s.nv.ssel 9 0
      (crc32c bytes = join32 s.nv.scrc0 v → ∃ t, exec (.chunkComplete p v true) s = .next t ∧ t.nv.sLast = 1 ∧
        (∀ k (h : k < bytes.length), memRead 0xFF t.nv.mem (base + k) = bytes[k]) ∧
        (∀ a, a < base ∨ base + bytes.length ≤ a → memRead 0xFF t.nv.mem a = memRead 0xFF s.nv.mem a) ∧
        t.nv.dirD = s.nv.dirD ++ [fld s.nv.ssel 9 0] ∧ t.nv.chunk.opened = false) ∧
      (crc32c bytes ≠ join32 s.nv.scrc0 v → ∃ t, exec (.chunkComplete p v true) s = .next t ∧ t.nv.sLast = 2 ∧ t.nv.mem = s.nv.mem ∧
        t.nv.dirD = s.nv.dirD ∧ t.nv.chunk.opened = false)) ∧
    (s.nv.commit = none →
      (commitRefused p.ix s = none → ∃ t, exec (.commitImage p 0xC7 f) s = .next t ∧ t.nv.result = 1 ∧ t.nv.mem = s.nv.mem ∧
        t.nv.commit = some { port := p.ix, code := s.nv.code, start := s.now, step := 2, f := f, cseq := 0xFFFFFFFF }) ∧
      (l.on = false → ∃ t, exec (.commitImage p 0xC7 f) s = .next t ∧ t.nv.result = 0x10 ∧ t.nv.commit = none ∧ t.nv.mem = s.nv.mem) ∧
      (l.on = true → s.nv.vault.hash = List.replicate 32 0 → ∃ t, exec (.commitImage p 0xC7 f) s = .next t ∧ t.nv.result = 0x12 ∧
        t.nv.commit = none))

/-- Row stitches enter the map, both map copies are appended, burnishing walks its rows and read-verify its sectors. In service: a
row stitch that is done adds its map entry and takes its job off. A map append that reads back good advances that copy; a failed
one relocates it; a copy that cannot be written is dead and the map single, the loss of both enters SAFE cause UNCORR detail 3.
Burnish reads advance on their 5 µs and 20 µs grids, corrected words count, the end of a pass restarts it with its time in ms, a
pass over 4 s is reported once. Read-verify goes to the next sector every 2 min; a failed sector of the bank in use enters SAFE
cause CONFIG detail 5, a weak ledger sector is retired (log entries 77, 78). Rests on R515, R520, R526, R528, R530. -/
def Obligations.RowStitchesMapAppendsBurnishingAndReadVerify : Prop :=
  ∀ (s : State) (j : RowJob) (js : List RowJob), inService s = true →
    (s.st.jobs = j :: js → ∃ t, exec .rowStitchDone s = .next t ∧ t.st.jobs = js ∧
      (t.st.entries.map fun e => (e.kind.toNat, e.cause, e.item.toNat, e.spare)) =
        (s.st.entries.map fun e => (e.kind.toNat, e.cause, e.item.toNat, e.spare)) ++
          [(if j.area.1 < 8 then 2 else 4, j.cause,
            if j.area.1 < 8 then j.area.1 * 128 + j.row.toNat else if j.area.1 = 8 then j.row.toNat else 128 + j.row.toNat, j.spare)] ∧
      (j.area.1 ≠ 8 → t = { s with st := t.st, ev := t.ev, nv := t.nv })) ∧
    (s.st.jobs = [] → exec .rowStitchDone s = .next s) ∧
    (∀ c : Fin 2, s.st.copies[c.1].dead = false → s.st.copies[c.1].written < s.st.entries.length →
      (c = 0 ∨ s.st.copies[0].dead = true ∨ s.st.copies[1].written < s.st.copies[0].written) →
      exec (.stitchMapAppend c true true) s = .next { s with st := { s.st with
        copies := upd s.st.copies c fun x => { x with written := x.written + 1, ok := true } } } ∧
      (∃ t, exec (.stitchMapAppend c false true) s = .next t ∧ t.st.copies[c.1].written = s.st.entries.length ∧
        t.st.copies[c.1].ok = true ∧ t.st.entries = s.st.entries) ∧
      (s.st.copies[(1 - c).1].dead = false → ∃ t, exec (.stitchMapAppend c false false) s = .next t ∧ t.st.copies[c.1].dead = true ∧
        t.st.single = true ∧ t.sys = s.sys) ∧
      (s.st.copies[(1 - c).1].dead = true → ∃ t, exec (.stitchMapAppend c false false) s = .next t ∧ InSafe t 3 3)) ∧
    (∀ e rw, (s.st.burn[0].next < 131071 → ∃ t, exec (.burnishRead false e rw) s = .next t ∧ t.st.burn[0].next = s.st.burn[0].next + 1 ∧
        t.grid.burnSram = some t.now ∧ t.now = (reach 5 s.grid.burnSram s).now) ∧
      (s.st.burn[1].next < 24575 → ∃ t, exec (.burnishRead true e rw) s = .next t ∧ t.st.burn[1].next = s.st.burn[1].next + 1 ∧
        t.grid.burnCantle = some t.now ∧ t.now = (reach 20 s.grid.burnCantle s).now)) ∧
    (∃ t, exec (.burnishRead false .corrected true) s = .next t ∧ t.st.eccCor = satInc s.st.eccCor) ∧
    (s.st.burn[1].next + 1 = 24576 → ∃ t, exec (.burnishRead true .good true) s = .next t ∧ t.st.burn[1].next = 0 ∧
      t.st.burn[1].start = t.now ∧ t.st.burn[1].dur = (t.now - s.st.burn[1].start) / 1000 ∧ t.st.burn[1].reported = false) ∧
    (∀ a : Fin 3, a.1 < 2 → ∀ k : Fin 2, k.1 = a.1 →
      (s.st.burn[k.1].reported = false → s.st.burn[k.1].start + 4000000 ≤ s.now → ∃ t, exec (.burnishOverrun a) s = .next t ∧
        t.st.overrun = true ∧ t.st.burn[k.1].reported = true ∧
        t = { s with st := { s.st with overrun := true, burn := t.st.burn }, ev := t.ev, nv := t.nv }) ∧
      (s.now < s.st.burn[k.1].start + 4000000 → exec (.burnishOverrun a) s = .next s)) ∧
    (∀ k : Fin 256, s.st.verify.run = true → s.st.verify.due ≤ s.now → nextSector s.st.verify.next s = some k.1 →
      (∃ t, exec (.readVerify .good) s = .next t ∧ t.st.verify.sector = BitVec.ofNat 8 k.1 ∧ s.now + 120000000 ≤ t.st.verify.due ∧
        t = { s with st := { s.st with verify := t.st.verify } }) ∧
      (k.1 / 16 = b2n s.nv.vault.bank → ∃ t, exec (.readVerify .failed) s = .next t ∧ InSafe t 4 5) ∧
      (68 ≤ k.1 → s.nv.ledger.lost = none → s.nv.ledger.retiring = none → s.nv.ledger.retired.length < 8 →
        ∃ t, exec (.readVerify .weak) s = .next t ∧ t.nv.ledger.retiring = some (k.1 - 68) ∧ t.nv.ledger.weak = true)) ∧
    (s.now < s.st.verify.due → ∀ m, exec (.readVerify m) s = .next s)

/-- Telemetry is sampled every 10 ms, latched by a select, read item by item, and warns with hysteresis. A sample falls on the
next 10 ms instant, becomes current whole, shows temperature and supplies and leaves the latched set alone; the hot warning sets
at 105 °C and clears below 100 °C; a supply within its band is good and the third sample out of it warns. TELEMETRY_SELECT latches
the current set and selects; each TELEMETRY_READ gives the selected item of the latched set and advances, 0 above item 15. Rests
on R531, R532, 14_stitching.md. -/
def Obligations.TelemetryIsSampledLatchedAndRead : Prop :=
  ∀ (s : State) (p : Port) (v temp : W16) (mv : Vector W16 4), s.sys.mode ≠ .reset → clockSafe s = false →
    (∃ t, exec (.telemetrySample temp mv) s = .next t ∧ t.grid.telem = some t.now ∧ t.now = (reach 10000 s.grid.telem s).now ∧
      t.st.current = t.st.shadow ∧ t.st.current[0] = temp ∧ t.st.current[3] = mv[0] ∧ t.st.current[4] = mv[1] ∧
      t.st.current[5] = mv[2] ∧ t.st.current[6] = mv[3] ∧ t.st.latched = s.st.latched ∧
      (210 ≤ temp.toInt → t.st.hot = true) ∧ (temp.toInt < 200 → t.st.hot = false) ∧
      (200 ≤ temp.toInt → temp.toInt < 210 → t.st.hot = s.st.hot) ∧
      (1050 ≤ mv[0].toNat → mv[0].toNat ≤ 1150 → t.st.supply[0].out = 0) ∧
      (mv[0].toNat < 1050 → s.st.supply[0].out = 2 → t.st.supply[0].warn = true)) ∧
    (∃ t, exec (.telemetrySelect p v) s = .next t ∧ t.st.latched = s.st.current ∧ t.st.tsel = v.setWidth 8 ∧
      t = { s with hb := t.hb, st := { s.st with latched := s.st.current, tsel := t.st.tsel } }) ∧
    (∀ k : Fin 16, s.st.tsel.toNat = k.1 → ∃ t, exec (.telemetryRead p) s = .next t ∧ t.hb.port[p.ix.1].data = s.st.latched[k.1] ∧
      t.st.tsel = s.st.tsel + 1 ∧ t = { s with hb := t.hb, st := { s.st with tsel := t.st.tsel } }) ∧
    (16 ≤ s.st.tsel.toNat → ∃ t, exec (.telemetryRead p) s = .next t ∧ t.hb.port[p.ix.1].data = 0 ∧ t.st.tsel = s.st.tsel + 1)

/-- The arithmetic, logic, shift and compare instructions write their result to Gd in their clocks and change nothing else. For
every state in which Cantle fetches and the instruction is not the end of a hardware loop: each of the 21 instructions of Table
CI-3 completes with its result in Gd (nothing written where d is G0), PC plus 4, the clocks of the table added to CYCLE, and every
other register, memory and unit as before. Rests on R584, R581. -/
def Obligations.CantleArithmeticWritesItsResult : Prop :=
  ∀ (s : State) (d a b : BitVec 4) (imm : BitVec 18) (sh : BitVec 5) (hi : BitVec 16), Fetches s → Straight s →
    Computes s (.addR d a b false) 1 d (gr a s + gr b s) ∧
    Computes s (.subR d a b false) 1 d (gr a s - gr b s) ∧
    Computes s (.andR d a b false) 1 d (gr a s &&& gr b s) ∧
    Computes s (.orR d a b false) 1 d (gr a s ||| gr b s) ∧
    Computes s (.xorR d a b false) 1 d (gr a s ^^^ gr b s) ∧
    Computes s (.sll d a b false) 1 d (gr a s <<< ((gr b s).toNat % 32)) ∧
    Computes s (.srl d a b false) 1 d (gr a s >>> ((gr b s).toNat % 32)) ∧
    Computes s (.sra d a b false) 1 d ((gr a s).sshiftRight ((gr b s).toNat % 32)) ∧
    Computes s (.slt d a b false) 1 d (if (gr a s).toInt < (gr b s).toInt then 1 else 0) ∧
    Computes s (.sltu d a b false) 1 d (if (gr a s).toNat < (gr b s).toNat then 1 else 0) ∧
    Computes s (.mul d a b false) 2 d (gr a s * gr b s) ∧
    Computes s (.addi d a imm) 1 d (gr a s + imm.signExtend 32) ∧
    Computes s (.andi d a imm) 1 d (gr a s &&& imm.zeroExtend 32) ∧
    Computes s (.ori d a imm) 1 d (gr a s ||| imm.zeroExtend 32) ∧
    Computes s (.xori d a imm) 1 d (gr a s ^^^ imm.zeroExtend 32) ∧
    Computes s (.slti d a imm) 1 d (if (gr a s).toInt < imm.toInt then 1 else 0) ∧
    Computes s (.sltiu d a imm) 1 d (if (gr a s).toNat < (imm.signExtend 32).toNat then 1 else 0) ∧
    Computes s (.slli d a sh false) 1 d (gr a s <<< sh.toNat) ∧
    Computes s (.srli d a sh false) 1 d (gr a s >>> sh.toNat) ∧
    Computes s (.srai d a sh false) 1 d ((gr a s).sshiftRight sh.toNat) ∧
    Computes s (.lui d hi false) 1 d (hi.zeroExtend 32 <<< 16)

/-- An instruction with a reserved bit set, and RTH outside a handler, traps as ILLEGAL. With HL 0 every instruction form that has
reserved bits traps with code 1 when one is set, as does RTH with HL 0: PC is VBASE, HL is 1, RETPC the instruction, TKIND and
TADDR name it, EXCCNT counts, and no register and no byte of data memory changes. Rests on R577, R578, R560, R604. -/
def Obligations.CantleReservedFieldsTrapAsIllegal : Prop :=
  ∀ (s : State) (d a b : BitVec 4) (u : BitVec 3) (sh : BitVec 5) (hi : BitVec 16) (sz : BitVec 2) (code : Byte) (cmp : Bool) (x : CkFinding),
    Fetches s → s.cs.hl = false →
    ∀ i ∈ [Instr.addR d a b true, .subR d a b true, .andR d a b true, .orR d a b true, .xorR d a b true, .sll d a b true,
        .srl d a b true, .sra d a b true, .slt d a b true, .sltu d a b true, .mul d a b true, .slli d a sh true, .srli d a sh true,
        .srai d a sh true, .lui d hi true, .loopH a hi true, .ckinit u true, .ckset u a true, .ckexp u a true,
        .ckfeed u a sz true, .ckblk u a b cmp true, .ckget d u true x, .ckfin d u true x, .ckcmp d u a true x, .mfs d a true, .mts a b true,
        .rth true, .scanw true, .waitd true, .brk code true, .rth false],
      Traps s i 1 (s.cs.pc.zeroExtend 32)

/-- Loads return the addressed data, sign- or zero-extended; misaligned and unmapped ones trap with the address. Data memory: LB,
LBU, LH, LHU and LW return the bytes at the effective address, low byte first, in one clock. Safety I/O window: LW returns the
scan image words, PERMIT, SCANNO, TIME, IEN, IPEND, TIMER, the mailbox words in two clocks. With HL 0 a misaligned load, a
halfword or byte load above data memory and a load between data memory and the window trap as ADDRESS. Nothing else changes but
what a corrected word notes. Rests on R585, R586, R587, R589. -/
def Obligations.CantleLoadsReturnTheAddressedData : Prop :=
  ∀ (s : State) (d a : BitVec 4) (imm : BitVec 18) (ecc : Ecc) (x : Nat), Fetches s → Straight s →
    (gr a s + imm.signExtend 32).toNat = x →
    (x < 0x8000 → ecc ≠ .uncorrectable →
      Loads s (.lb d a imm ecc) 1 d ((memRead 0 s.cs.dmem x).signExtend 32) ∧
      Loads s (.lbu d a imm ecc) 1 d ((memRead 0 s.cs.dmem x).zeroExtend 32) ∧
      (x % 2 = 0 → Loads s (.lh d a imm ecc) 1 d ((memRead 0 s.cs.dmem (x + 1) ++ memRead 0 s.cs.dmem x).signExtend 32) ∧
        Loads s (.lhu d a imm ecc) 1 d ((memRead 0 s.cs.dmem (x + 1) ++ memRead 0 s.cs.dmem x).zeroExtend 32)) ∧
      (x % 4 = 0 → Loads s (.lw d a imm ecc) 1 d (memRead 0 s.cs.dmem (x + 3) ++ memRead 0 s.cs.dmem (x + 2) ++
        memRead 0 s.cs.dmem (x + 1) ++ memRead 0 s.cs.dmem x))) ∧
    (∀ k : Fin 36, x = 0xF0000 + 4 * k.1 → Computes s (.lw d a imm ecc) 2 d
      (s.cs.window[4 * k.1 + 3] ++ s.cs.window[4 * k.1 + 2] ++ s.cs.window[4 * k.1 + 1] ++ s.cs.window[4 * k.1])) ∧
    (x = 0xF0100 → Computes s (.lw d a imm ecc) 2 d s.cs.permit) ∧
    (x = 0xF0104 → Computes s (.lw d a imm ecc) 2 d s.cs.scanno) ∧
    (x = 0xF0108 → Computes s (.lw d a imm ecc) 2 d (s.tstamp.setWidth 32)) ∧
    (x = 0xF0110 → Computes s (.lw d a imm ecc) 2 d (s.cs.ien.zeroExtend 32)) ∧
    (x = 0xF0114 → Computes s (.lw d a imm ecc) 2 d (s.cs.ipend.zeroExtend 32)) ∧
    (x = 0xF0118 → Computes s (.lw d a imm ecc) 2 d s.cs.timer) ∧
    (∀ k : Fin 4, x = 0xF0120 + 4 * k.1 → Computes s (.lw d a imm ecc) 2 d (s.cs.mbin[k.1].zeroExtend 32)) ∧
    (∀ k : Fin 4, x = 0xF0140 + 4 * k.1 → Computes s (.lw d a imm ecc) 2 d (s.cs.mbout[k.1].zeroExtend 32)) ∧
    (s.cs.hl = false → (x % 4 ≠ 0 → Traps s (.lw d a imm ecc) 2 (BitVec.ofNat 32 x)) ∧
      (x % 2 ≠ 0 → Traps s (.lh d a imm ecc) 2 (BitVec.ofNat 32 x) ∧ Traps s (.lhu d a imm ecc) 2 (BitVec.ofNat 32 x)) ∧
      (0x8000 ≤ x → Traps s (.lh d a imm ecc) 2 (BitVec.ofNat 32 x) ∧ Traps s (.lhu d a imm ecc) 2 (BitVec.ofNat 32 x) ∧
        Traps s (.lb d a imm ecc) 2 (BitVec.ofNat 32 x) ∧ Traps s (.lbu d a imm ecc) 2 (BitVec.ofNat 32 x)) ∧
      (0x8000 ≤ x → x < 0xF0000 → Traps s (.lw d a imm ecc) 2 (BitVec.ofNat 32 x)))

/-- Stores write exactly the addressed bytes; IEN, IPEND and PERMIT take theirs; wrong ones trap. Data memory (no CKBLK over the
word): SB, SH and SW store the low bytes of the register at the effective address computed as for a load, every other byte reads
as before, nothing else changes but what a corrected word notes (log entry 82). A store to IEN sets it, to IPEND clears the ones,
to PERMIT takes a word whose two bytes complement each other and otherwise traps as PERMIT; stores to load-only words trap as
APERTURE, misaligned and narrow ones as ADDRESS. Rests on R585, R587, R589, R555. -/
def Obligations.CantleStoresWriteTheAddressedBytes : Prop :=
  ∀ (s : State) (r a : BitVec 4) (imm : BitVec 18) (ecc : Ecc) (x : Nat), Fetches s → Straight s → Memory.wf 0 s.cs.dmem = true →
    (gr a s + imm.signExtend 32).toNat = x →
    (x < 0x8000 → ckblkHolds (x / 4 * 4) s = false → ecc ≠ .uncorrectable →
      Stores s (.sb r a imm ecc) x 1 (gr r s) ∧ (x % 2 = 0 → Stores s (.sh r a imm ecc) x 2 (gr r s)) ∧
      (x % 4 = 0 → Stores s (.sw r a imm ecc) x 4 (gr r s))) ∧
    (x = 0xF0110 → exec (.sw r a imm ecc) s =
      .next { s with cs := { s.cs with ien := (gr r s).setWidth 8, pc := s.cs.pc + 4, cycle := s.cs.cycle + 2 } }) ∧
    (x = 0xF0114 → exec (.sw r a imm ecc) s = .next { s with cs := { s.cs with
      ipend := s.cs.ipend &&& ~~~((gr r s).setWidth 8), pc := s.cs.pc + 4, cycle := s.cs.cycle + 2 } }) ∧
    (x = 0xF0100 → (gr r s).toNat < 0x10000 → (gr r s).toNat / 0x100 = 255 - (gr r s).toNat % 0x100 →
      ∃ t, exec (.sw r a imm ecc) s = .next t ∧ t = { s with ck := t.ck, ev := t.ev, grid := { s.grid with latch := some s.now }, cs := { s.cs with
        permit := gr r s, pc := s.cs.pc + 4, cycle := s.cs.cycle + 2 } }) ∧
    (s.cs.hl = false →
      (x = 0xF0100 → ¬((gr r s).toNat < 0x10000 ∧ (gr r s).toNat / 0x100 = 255 - (gr r s).toNat % 0x100) →
        Traps s (.sw r a imm ecc) 7 (BitVec.ofNat 32 x)) ∧
      ((∃ k : Fin 36, x = 0xF0000 + 4 * k.1) ∨ x = 0xF0104 ∨ x = 0xF0108 ∨ (∃ k : Fin 512, x = 0xFF000 + 4 * k.1) →
        Traps s (.sw r a imm ecc) 6 (BitVec.ofNat 32 x)) ∧
      (x % 4 ≠ 0 → Traps s (.sw r a imm ecc) 2 (BitVec.ofNat 32 x)) ∧
      (x % 2 ≠ 0 ∨ 0x8000 ≤ x → Traps s (.sh r a imm ecc) 2 (BitVec.ofNat 32 x)) ∧
      (0x8000 ≤ x → Traps s (.sb r a imm ecc) 2 (BitVec.ofNat 32 x)))

/-- Branches go on by their condition and jumps link, in the clocks of Table CI-7a; a target outside instruction memory traps.
Each of the six branches goes on at PC plus 4 in one clock when its condition fails and at its target in three when it holds; JAL
and JALR write PC plus 4 to Gd (nothing to G0), JALR from Ga as it was, and go on at their target in three clocks; nothing else
changes. With HL 0 a taken target outside instruction memory traps as ADDRESS and writes no register. Rests on R591. -/
def Obligations.CantleBranchesAndJumpsSetThePc : Prop :=
  ∀ (s : State) (d a b : BitVec 4) (off : BitVec 18) (joff : BitVec 22) (imm : BitVec 18), Fetches s → Straight s →
    (∀ ip ∈ [(Instr.beq a b off, decide (gr a s = gr b s)), (.bne a b off, decide (gr a s ≠ gr b s)),
        (.blt a b off, decide ((gr a s).toInt < (gr b s).toInt)), (.bge a b off, decide ((gr b s).toInt ≤ (gr a s).toInt)),
        (.bltu a b off, decide ((gr a s).toNat < (gr b s).toNat)), (.bgeu a b off, decide ((gr b s).toNat ≤ (gr a s).toNat))],
      (ip.2 = false → GoesTo s ip.1 (s.cs.pc + 4) 1) ∧
      (ip.2 = true → ∀ tgt : BitVec 16, (s.cs.pc.toNat : Int) + 4 * off.toInt = tgt.toNat → tgt.toNat % 4 = 0 → GoesTo s ip.1 tgt 3) ∧
      (ip.2 = true → s.cs.hl = false → (s.cs.pc.toNat : Int) + 4 * off.toInt < 0 ∨ 0x10000 ≤ (s.cs.pc.toNat : Int) + 4 * off.toInt →
        Traps s ip.1 2 (BitVec.ofInt 32 (s.cs.pc.toNat + 4 * off.toInt)))) ∧
    (∀ tgt : BitVec 16, (s.cs.pc.toNat : Int) + 4 * joff.toInt = tgt.toNat → tgt.toNat % 4 = 0 →
      Links s (.jal d joff) d tgt) ∧
    (s.cs.hl = false → (s.cs.pc.toNat : Int) + 4 * joff.toInt < 0 ∨ 0x10000 ≤ (s.cs.pc.toNat : Int) + 4 * joff.toInt →
      Traps s (.jal d joff) 2 (BitVec.ofInt 32 (s.cs.pc.toNat + 4 * joff.toInt))) ∧
    (∀ tgt : BitVec 16, (gr a s + imm.signExtend 32).toNat = tgt.toNat → tgt.toNat % 4 = 0 → Links s (.jalr d a imm) d tgt) ∧
    (s.cs.hl = false → (gr a s + imm.signExtend 32).toNat % 4 ≠ 0 ∨ 0x10000 ≤ (gr a s + imm.signExtend 32).toNat →
      Traps s (.jalr d a imm) 2 (gr a s + imm.signExtend 32))

/-- LOOP sets up its registers or skips the body; an instruction at LEND turns back while the count lasts. With HL 0 and no loop
running LOOP sets LSTART, LEND and LCOUNT in one clock, skips the body in three when the count register is 0, and traps as ADDRESS
when the end is outside instruction memory; with a loop running or a bad length it traps as ILLEGAL. ADDI at LEND still writes its
result; while LCOUNT is above 1 it turns back to LSTART with two more clocks, at 1 it goes on. Rests on R595, R596, R597. -/
def Obligations.LoopSetsUpAndRunsTheHardwareLoop : Prop :=
  ∀ (s : State) (d a c : BitVec 4) (imm : BitVec 18) (len : BitVec 16), Fetches s → s.cs.hl = false →
    let last := s.cs.pc.toNat + 4 * len.toNat
    (s.cs.lcount = 0 → 1 ≤ len.toNat → len.toNat ≤ 16383 →
      (last ≤ 0xFFFC → gr c s ≠ 0 → exec (.loopH c len false) s = .next { s with cs := { s.cs with
        lstart := s.cs.pc + 4, lend := BitVec.ofNat 16 last, lcount := gr c s, pc := s.cs.pc + 4, cycle := s.cs.cycle + 1 } }) ∧
      (last < 0xFFFC → last % 4 = 0 → gr c s = 0 → GoesTo s (.loopH c len false) (BitVec.ofNat 16 (last + 4)) 3) ∧
      (0xFFFC < last → Traps s (.loopH c len false) 2 (BitVec.ofNat 32 last))) ∧
    (s.cs.lcount ≠ 0 ∨ len = 0 ∨ 16383 < len.toNat → Traps s (.loopH c len false) 1 (s.cs.pc.zeroExtend 32)) ∧
    (s.cs.pc = s.cs.lend → 1 < s.cs.lcount.toNat →
      ∃ t, exec (.addi d a imm) s = .next t ∧ WritesG s t d (gr a s + imm.signExtend 32) ∧ t = { s with cs := { s.cs with
        g := t.cs.g, lcount := s.cs.lcount - 1, pc := s.cs.lstart, cycle := s.cs.cycle + 3 } }) ∧
    (s.cs.pc = s.cs.lend → s.cs.lcount = 1 →
      ∃ t, exec (.addi d a imm) s = .next t ∧ WritesG s t d (gr a s + imm.signExtend 32) ∧ t = { s with cs := { s.cs with
        g := t.cs.g, lcount := 0, pc := s.cs.pc + 4, cycle := s.cs.cycle + 1 } })

/-- Check-unit operations act on a unit in COP mode, trap OWNER or CKDIS otherwise, and wait for a feed. On a unit that Cantle
owns, in service and with nothing ahead: CKINIT, CKSET, CKEXP, CKFEED (1, 2 or 4 bytes), CKBLK (with and without length), CKGET,
CKFIN and CKCMP do to RAW, EXP and Gd what the CRC of the unit says, in 1 or 2 clocks; a CKCMP that differs sets MIS, counts and
raises the unit's interrupt; a finding of a returning operation is a unit fault and the unit-fault exception (CK4 to CK7). With HL 0 a unit of another owner traps with code 3, a disabled one with code 4, a reserved size as
ILLEGAL, a block beyond data memory as ADDRESS. While a feed runs, CKGET, CKFIN and CKCMP take an entry and stall at X, or
wait at D while the FIFO is full. Rests on R601, R408, R413,
11_check_units.md. -/
def Obligations.CheckUnitOperationsActTrapOrWait : Prop :=
  (∀ (s : State) (d a b : BitVec 4) (u : BitVec 3), Fetches s → Straight s → UnitReady s u →
      let p := ckPreset s.ck[(unitIx u).1]
      let raw := s.ck[(unitIx u).1].raw
      let n := (unitIx u).1
      UnitOp s (.ckinit u false) u (fun k => { k with raw := crcInit p }) ∧
      UnitOp s (.ckset u a false) u (fun k => { k with raw := ckMask p (gr a s) }) ∧
      UnitOp s (.ckexp u a false) u (fun k => { k with exp := ckMask p (gr a s) }) ∧
      UnitOp s (.ckfeed u a 0 false) u (fun k => { k with raw := crcByte p raw ((gr a s).extractLsb' 0 8) }) ∧
      UnitOp s (.ckfeed u a 1 false) u (fun k => { k with
        raw := crcByte p (crcByte p raw ((gr a s).extractLsb' 8 8)) ((gr a s).extractLsb' 0 8) }) ∧
      UnitOp s (.ckfeed u a 2 false) u (fun k => { k with
        raw := crcByte p (crcByte p (crcByte p (crcByte p raw ((gr a s).extractLsb' 24 8)) ((gr a s).extractLsb' 16 8))
          ((gr a s).extractLsb' 8 8)) ((gr a s).extractLsb' 0 8) }) ∧
      (gr b s = 0 → UnitOp s (.ckblk u a b false false) u id) ∧
      (∀ cmp, gr b s ≠ 0 → (gr a s).toNat + (gr b s).toNat ≤ 0x8000 → UnitOp s (.ckblk u a b cmp false) u (fun k => { k with
        feed := some { bytes := (List.range (gr b s).toNat).map fun j => memRead 0 s.cs.dmem ((gr a s).toNat + j),
                       cmp := cmp, addr := (gr a s).toNat, start := s.now } })) ∧
      Computes s (.ckget d u false) 2 d raw ∧
      Computes s (.ckfin d u false) 2 d (crcFinish p raw) ∧
      (crcFinish p raw = ckMask p (gr a s) → Computes s (.ckcmp d u a false) 2 d 1) ∧
      (crcFinish p raw ≠ ckMask p (gr a s) → 4 ≤ n →
        ∃ t, exec (.ckcmp d u a false) s = .next t ∧ WritesG s t d 0 ∧ t.ck[n].mis = true ∧ t.ck[n].lastk = 3 ∧
          t.ck[n].cnt = satInc s.ck[n].cnt ∧ (∀ j : Fin 8, j.1 ≠ n → t.ck[j.1] = s.ck[j.1]) ∧
          (s.ck[n].evAt = none → bitOf t.cs.ipend (n - 3) = true) ∧
          t = { s with ck := t.ck, ev := t.ev, cs := { s.cs with
            g := t.cs.g, ipend := t.cs.ipend, pc := s.cs.pc + 4, cycle := s.cs.cycle + 2 } }) ∧
      (4 ≤ n → s.cs.hl = false → ∀ x, x ≠ CkFinding.good →
        ∀ i ∈ [Instr.ckget d u false x, .ckfin d u false x, .ckcmp d u a false x], ∃ t, exec i s = .next t ∧ t.ck[n].disabled = true ∧
          t.cs.hl = true ∧ t.cs.tkind = (if s.cs.lcount = 0 then 0 else 0x100) + 4 ∧ t.cs.g = s.cs.g ∧ t.sys = s.sys)) ∧
  (∀ (s : State) (d a b : BitVec 4) (u : BitVec 3) (sz : BitVec 2) (cmp : Bool) (x : CkFinding), Fetches s → s.cs.hl = false →
      (∀ i ∈ [Instr.ckinit u false, .ckset u a false, .ckexp u a false, .ckblk u a b cmp false, .ckget d u false x, .ckfin d u false x,
          .ckcmp d u a false x],
        (ckOwner s.ck[(unitIx u).1] ≠ 2 → Traps s i 3 (u.zeroExtend 32)) ∧
        (ckOwner s.ck[(unitIx u).1] = 2 → s.ck[(unitIx u).1].disabled = true → Traps s i 4 (u.zeroExtend 32))) ∧
      Traps s (.ckfeed u a 3 false) 1 (s.cs.pc.zeroExtend 32) ∧
      (UnitReady s u → gr b s ≠ 0 → 0x8000 < (gr a s).toNat + (gr b s).toNat → Traps s (.ckblk u a b cmp false) 2 (gr a s)) ∧
      (∀ f, ckOwner s.ck[(unitIx u).1] = 2 → s.ck[(unitIx u).1].disabled = false → s.ck[(unitIx u).1].feed = some f →
        ∀ i ∈ [Instr.ckget d u false x, .ckfin d u false x, .ckcmp d u a false x],
          let k := s.ck[(unitIx u).1]
          (k.ops.getLast? = some .ret → exec i s = .next { s with cs := { s.cs with stalled := true } }) ∧
          (k.ops.getLast? ≠ some .ret → k.ops.length < 32 → k.testing = none → exec i s = .next { s with
            ck := upd s.ck (unitIx u) fun y => { y with ops := y.ops ++ [.ret], spec := none },
            cs := { s.cs with stalled := true } }) ∧
          (k.ops.getLast? ≠ some .ret → 32 ≤ k.ops.length → exec i s = .next s)))

/-- MFS and MTS move system registers, RTH ends a trap, SCANW ends a scan, BRK traps. MFS returns STATUS, RETPC, TKIND, TADDR,
LSTART, LEND, LCOUNT and CYCLE; MTS writes the writable ones and nothing else; WAITD without a session is a one-clock NOP; RTH in
a handler returns to RETPC with HL 0. With HL 0: RTH, an unassigned register and an MTS to a read-only one trap as ILLEGAL, BRK
and the terminal calls trap as BRK; SCANW waits for the next scan, or after overruns starts the late scan at once with the latched
image (log entry 55), but not at a scan start yet to be acted on (R553). Rests on R604, R561, R552, R553, R606. -/
def Obligations.SystemInstructionsMoveRegistersAndEndTrapsAndScans : Prop :=
  ∀ (s : State) (d a r : BitVec 4) (code : Byte), Fetches s →
    (Straight s →
      (∀ x ∈ [((0 : BitVec 4), (if s.cs.ie then 1 else 0) + (if s.cs.hl then 2 else 0)), (1, s.cs.retpc.setWidth 32), (2, s.cs.tkind),
          (3, s.cs.taddr.setWidth 32), (4, s.cs.lstart.setWidth 32), (5, s.cs.lend.setWidth 32), (6, s.cs.lcount), (7, s.cs.cycle)],
        Computes s (.mfs d x.1 false) 1 d x.2) ∧
      (let v := gr a s
       let done (c : Cs) (i : Instr) := exec i s = .next { s with cs := { c with pc := s.cs.pc + 4, cycle := s.cs.cycle + 1 } }
       done { s.cs with ie := bitOf v 0, hl := bitOf v 1 } (.mts 0 a false) ∧
       done { s.cs with retpc := v.setWidth 16 &&& 0xFFFC } (.mts 1 a false) ∧
       done { s.cs with lstart := v.setWidth 16 &&& 0xFFFC } (.mts 4 a false) ∧
       done { s.cs with lend := v.setWidth 16 &&& 0xFFFC } (.mts 5 a false) ∧
       done { s.cs with lcount := v } (.mts 6 a false)) ∧
      GoesTo s (.waitd false) (s.cs.pc + 4) 1) ∧
    (s.cs.hl = true → exec (.rth false) s =
      .next { s with cs := { s.cs with pc := s.cs.retpc, hl := false, cycle := s.cs.cycle + 3 } }) ∧
    (s.cs.hl = false →
      Traps s (.rth false) 1 (s.cs.pc.setWidth 32) ∧
      (∀ x : BitVec 4, 8 ≤ x.toNat → Traps s (.mfs d x false) 1 (s.cs.pc.setWidth 32)) ∧
      (∀ x : BitVec 4, x ∈ [2, 3] ∨ 7 ≤ x.toNat → Traps s (.mts x a false) 1 (s.cs.pc.setWidth 32)) ∧
      (∀ i ∈ [Instr.brk code false, .vtPut r, .vtGet r], Traps s i 8 (s.cs.pc.setWidth 32)) ∧
      (s.cs.ovcnt = 0 → ∃ t, exec (.scanw false) s = .next t ∧ t.cs.state = .waitScan ∧
        t = { s with cs := { s.cs with state := .waitScan, late := false, reached := s.cs.reached || s.cs.onTime,
                                       scanMax := t.cs.scanMax, cycle := s.cs.cycle + 1 } }) ∧
      (s.cs.ovcnt ≠ 0 → scanDue s = true → ∃ t, exec (.scanw false) s = .next t ∧ t.cs.state = .waitScan ∧ t.cs.ovcnt = 0 ∧
        t.cs.scanno = s.cs.scanno ∧ t.cs.window = s.cs.window ∧ t.cs.pc = s.cs.pc) ∧
      (s.cs.ovcnt ≠ 0 → scanDue s = false → Straight s → ∃ t, exec (.scanw false) s = .next t ∧ t.cs.scanno = s.cs.scanno + 1 ∧ t.cs.ovcnt = 0 ∧
        t.cs.late = true ∧ t.cs.onTime = false ∧ bitOf t.cs.window[9] 1 = true ∧
        (∀ j : Fin 144, j.1 < 4 ∨ j.1 = 8 ∨ 10 ≤ j.1 → t.cs.window[j.1] = s.cs.image[j.1]) ∧
        t = { s with ck := t.ck, ev := t.ev, cs := { s.cs with
          scanno := t.cs.scanno, ovcnt := 0, late := true, onTime := false, window := t.cs.window, pc := s.cs.pc + 4, cycle := s.cs.cycle + 1 } }))

/-- In a session with monitor mode BRK and WAITD stop Cantle and the terminal calls move characters. BRK below 0xE0 and WAITD
enter WAITD with monitor mode on, their reason, the PC after them and, for BRK, the code. PUT appends the low byte of its register
to the output FIFO, a full FIFO loses it with LOST set; GET gives 0 from an empty FIFO and else 0x100 plus the oldest character,
which is removed. BRK 0xE0 and 0xF0 plus r are these calls. Rests on R606, R607, R644. -/
def Obligations.BreaksAndTheTerminalActInMonitorMode : Prop :=
  ∀ (s : State) (r : BitVec 4) (code : Byte), FetchesMon s → Straight s →
    (code.toNat < 0xE0 → ∃ t, exec (.brk code false) s = .next t ∧ t.cs.state = .waitD ∧ t.db.mon = true ∧ t.db.reason = 4 ∧
      t.db.brkCode = code ∧ t.db.pc = s.cs.pc + 4 ∧ t.db.stops = satInc s.db.stops ∧
      t = { s with ev := t.ev, db := t.db, cs := { s.cs with state := .waitD, pc := s.cs.pc + 4, cycle := s.cs.cycle + 1 } }) ∧
    (∃ t, exec (.waitd false) s = .next t ∧ t.cs.state = .waitD ∧ t.db.mon = true ∧ t.db.reason = 6 ∧ t.db.pc = s.cs.pc + 4 ∧
      t = { s with ev := t.ev, db := t.db, cs := { s.cs with state := .waitD, pc := s.cs.pc + 4, cycle := s.cs.cycle + 1 } }) ∧
    (s.db.vtOut.length < 16 → exec (.vtPut r) s = .next { s with
      db := { s.db with vtOut := s.db.vtOut ++ [(gr r s).setWidth 8] },
      cs := { s.cs with pc := s.cs.pc + 4, cycle := s.cs.cycle + 1 } }) ∧
    (s.db.vtOut.length = 16 → ∃ t, exec (.vtPut r) s = .next t ∧ t.db.lost = true ∧ t.db.vtOut = s.db.vtOut ∧
      t.cs.pc = s.cs.pc + 4) ∧
    (s.db.vtIn = [] → Computes s (.vtGet r) 1 r 0) ∧
    (∀ c q, s.db.vtIn = c :: q → ∃ t, exec (.vtGet r) s = .next t ∧ WritesG s t r (0x100 + c.setWidth 32) ∧
      t = { s with db := { s.db with vtIn := q },
                   cs := { s.cs with g := t.cs.g, pc := s.cs.pc + 4, cycle := s.cs.cycle + 1 } }) ∧
    (∀ k : BitVec 4, exec (.brk (0xE0 + k.setWidth 8) false) s = exec (.vtPut k) s ∧
      exec (.brk (0xF0 + k.setWidth 8) false) s = exec (.vtGet k) s)

/-- At a scan start SCANW ends with the next SCANNO, a running scan overruns, and the last overrun trips the watchdog. In service,
at a tick that is due for a scan: the first scan takes the image kept at the tick and SCANNO 0 (log entry 54); Cantle waiting in SCANW goes on at
the next instruction with SCANNO plus 1 in the image; a running Cantle overruns: the count, OVERRUN and the SCAN interrupt, with
the image kept; the overrun that reaches the limit trips the watchdog, clears PERMIT and sets the degraded item. Rests on R551,
R553, 15_cantle_sequencer.md. -/
def Obligations.ScansBeginOnTheGridOrOverrun : Prop :=
  ∀ s : State, inService s = true → s.grid.tick = some s.now → s.cs.scanAt ≠ s.now →
    (s.cs.scanned = false ∨ s.tstamp.toNat % (1000 * fld s.cfg.seqr.cfg 6 0) = 0) → s.cs.wdf = false →
    (s.cs.first = true → s.cs.state = .running → ∃ t, exec .scanStart s = .next t ∧ t.cs.scanno = 0 ∧ t.cs.first = false ∧
      t.cs.onTime = true ∧ t.cs.late = false ∧ t.cs.pc = s.cs.pc ∧
      (∀ j : Fin 144, j.1 < 4 ∨ j.1 = 8 ∨ 12 ≤ j.1 → t.cs.window[j.1] = s.cs.image[j.1]) ∧
      (∀ j : Fin 4, t.cs.window[4 + j.1]'(by omega) = 0)) ∧
    (s.cs.first = false → s.cs.state = .waitScan → Straight s → s.cs.hl = false → s.db.session = none → s.db.mon = false →
      s.db.stepping = false → ∃ t, exec .scanStart s = .next t ∧ t.cs.state = .running ∧ t.cs.pc = s.cs.pc + 4 ∧
        t.cs.scanno = s.cs.scanno + 1 ∧ t.cs.late = false ∧ t.cs.onTime = true ∧ t.cs.scanAt = s.now ∧
        (∀ j : Fin 4, t.cs.window[4 + j.1]'(by omega) = BitVec.ofNat 8 ((s.cs.scanno + 1).toNat / 256 ^ j.1)) ∧
        (∀ j : Fin 144, j.1 < 4 ∨ j.1 = 8 ∨ 12 ≤ j.1 → t.cs.window[j.1] = s.cs.image[j.1]) ∧
        t = { s with ck := t.ck, ev := t.ev, cs := t.cs }) ∧
    (s.cs.first = false → s.cs.state = .running → s.cs.ovcnt.toNat + 1 < fld s.cfg.seqr.cfg 10 8 →
      ∃ t, exec .scanStart s = .next t ∧ t.cs.ovcnt = satInc s.cs.ovcnt ∧ t.cs.overrun = satInc s.cs.overrun ∧
        bitOf t.cs.ipend 0 = true ∧ t.cs.window = s.cs.window ∧ t.cs.scanno = s.cs.scanno ∧ t.cs.onTime = false ∧
        t.cs.wdf = false ∧ t.cs.pc = s.cs.pc ∧ t = { s with ev := t.ev, cs := t.cs }) ∧
    (s.cs.first = false → s.cs.state = .running → fld s.cfg.seqr.cfg 10 8 ≤ s.cs.ovcnt.toNat + 1 →
      ∃ t, exec .scanStart s = .next t ∧ t.cs.wdf = true ∧ t.cs.permit = 0 ∧ t.cs.ovcnt = satInc s.cs.ovcnt ∧
        bitOf t.cs.ipend 0 = true ∧
        (s.sys.deg[7].units = 0 → bitOf t.sys.degsrc 7 = true))

/-- Interrupts enter at their vector, the timer pends, rewrites restore rows; mailboxes, halt and restart act for the host. An
enabled and pending source of lowest number enters with RETPC, TKIND and HL set and PC at its vector; with IE 0, HL 1 or none
pending nothing happens. The timer's count-down pends source 7 and reloads. An instruction word that cannot be read is rewritten
with its 512-byte row from the image, all else kept; if it fails the Darore enters SAFE detail 7. MAILBOX_SEND fills a free inbox
and pends MBIN, else is refused; MAILBOX_ACK empties a full outbox and pends MBOUT. Logged in and in service HALT halts, clears
PERMIT and trips the watchdog, RESTART holds Cantle; otherwise REJ. The reload ends with both memories from the image and Cantle
at its entry. Rests on R543, R558, R559, R570, R572, R569. -/
def Obligations.InterruptsMailboxesAndHostControlOfCantle : Prop :=
  (∀ (s : State) (n : Fin 8),
      (s.cs.ie = true → s.cs.hl = false → s.cs.stalled = false → s.cs.state = .running ∨ s.cs.state = .waitScan → s.db.mon = false →
        bitOf s.cs.ien n.1 = true → bitOf s.cs.ipend n.1 = true → (∀ m : Fin 8, m.1 < n.1 → bitOf s.cs.ien m.1 = false ∨ bitOf s.cs.ipend m.1 = false) →
        exec .interruptEntry s = .next { s with db := { s.db with inh := false }, cs := { s.cs with
          state := .running, retpc := s.cs.pc, tkind := 0x80000000 + (if s.cs.lcount = 0 then 0 else 0x100) + BitVec.ofNat 32 (16 * n.1),
          hl := true, pc := s.cfg.seqr.vbase + BitVec.ofNat 16 (16 * (n.1 + 1)), cycle := s.cs.cycle + 3 } }) ∧
      (s.cs.ie = false ∨ s.cs.hl = true ∨ s.cs.ien &&& s.cs.ipend = 0 → exec .interruptEntry s = .next s) ∧
      (∀ t0, s.cs.timerAt = some t0 → s.cs.timer ≠ 0 → s.db.mon = false →
        (t0 ≤ s.now → exec .cantleTimerExpiry s = .next { s with cs := { s.cs with
          timerAt := some (t0 + s.cs.timer.toNat), ipend := s.cs.ipend ||| 0x80 } }) ∧
        (s.now < t0 → exec .cantleTimerExpiry s = .next s)) ∧
      (s.cs.state = .running → Memory.wf 0xFF s.cs.imem = true →
        (∃ t, exec (.instructionRewriteDone true) s = .next t ∧ t.cs.imecc = satInc s.cs.imecc ∧
          (∀ k < 512, memRead 0xFF t.cs.imem (s.cs.pc.toNat / 512 * 512 + k) = progInstr (s.cs.pc.toNat / 512 * 512 + k) s) ∧
          (∀ y, y / 512 ≠ s.cs.pc.toNat / 512 → memRead 0xFF t.cs.imem y = memRead 0xFF s.cs.imem y) ∧
          t = { s with ev := t.ev, nv := t.nv, st := t.st, cs := { s.cs with imem := t.cs.imem, imecc := t.cs.imecc } }) ∧
        (s.sys.mode ≠ .reset → s.sys.mode ≠ .safe → ∃ t, exec (.instructionRewriteDone false) s = .next t ∧ InSafe t 3 7)) ∧
      (s.cs.state ≠ .running → ∀ ok, exec (.instructionRewriteDone ok) s = .next s)) ∧
  (∀ (s : State) (p : Port) (v : W16), s.sys.mode ≠ .reset → clockSafe s = false →
      (s.cs.inFull = false → 1 ≤ v.toNat % 8 → v.toNat % 8 ≤ 4 → ∃ t, exec (.mailboxSend p v) s = .next t ∧ t.cs.inFull = true ∧
        t.cs.inLen.toNat = v.toNat % 8 ∧ t.cs.ipend = s.cs.ipend ||| 0x20 ∧
        t = { s with hb := t.hb, ev := t.ev, ck := t.ck, cs := { s.cs with inFull := true, inLen := t.cs.inLen, ipend := t.cs.ipend } }) ∧
      (s.cs.inFull = true ∨ v.toNat % 8 = 0 ∨ 4 < v.toNat % 8 → ∃ t, exec (.mailboxSend p v) s = .next t ∧ t.cs.refused = true ∧
        t = { s with hb := t.hb, ev := t.ev, cs := { s.cs with refused := true } }) ∧
      (s.cs.outFull = true → v.toNat % 2 = 1 → ∃ t, exec (.mailboxAck p v) s = .next t ∧
        t = { s with hb := t.hb, cs := { s.cs with outFull := false, outLen := 0, ipend := s.cs.ipend ||| 0x40 } }) ∧
      (s.cs.outFull = false ∨ v.toNat % 2 = 0 → ∃ t, exec (.mailboxAck p v) s = .next t ∧ t = { s with hb := t.hb }) ∧
      (s.nv.login[0].on = true → inService s = true →
        (s.cs.state ≠ .halted → ∃ t, exec (.cantleHalt .bus 0x5C01) s = .next t ∧ t.cs.state = .halted ∧ t.cs.wdf = true ∧
          t.cs.permit = 0 ∧ (s.sys.deg[7].units = 0 → bitOf t.sys.degsrc 7 = true) ∧ t.sys.mode = s.sys.mode ∧ t.cs.imem = s.cs.imem ∧ t.cs.dmem = s.cs.dmem) ∧
        (∃ t, exec (.cantleRestart .bus 0x5C02) s = .next t ∧ t.cs.state = .held ∧ t.cs.permit = 0 ∧ t.cs.restart = some s.now ∧
          t.sys = s.sys)) ∧
      (s.nv.login[0].on = false ∨ inService s = false →
        ∀ i ∈ [Instr.cantleHalt .bus v, .cantleRestart .bus v], ∃ t, exec i s = .next t ∧ t.cs.rej = true ∧
          t = { s with hb := t.hb, cs := { s.cs with rej := true } }) ∧
      (s.cs.restart.isSome = true → inService s = true → ∃ t, exec .cantleReloadDone s = .next t ∧ t.cs.state = .running ∧
        t.cs.pc = s.cfg.seqr.entry ∧ t.cs.ie = false ∧ t.cs.hl = false ∧ t.cs.lcount = 0 ∧ t.cs.first = true ∧ t.cs.restart = none ∧
        t.db.patched = false ∧ (∀ r, gr r t = 0) ∧ (∀ a, memRead 0xFF t.cs.imem a = progInstr a s) ∧
        (∀ a, memRead 0 t.cs.dmem a = progData a s) ∧ t = { s with ev := t.ev, cs := t.cs, db := { s.db with patched := false } }) ∧
      (s.cs.restart = none → exec .cantleReloadDone s = .next s))

/-- Sessions open and close by key on one wire; STOP, RESUME and STEP control Cantle; frames answer OK, REJECT or nothing. Without
a session the keyed open gives one on that wire; a wrong key is rejected; the other wire gets no answer. The close ends monitor
mode, breakpoints, watches and the terminal but keeps the withdrawal, and a stopped Cantle goes on; 10 s without a frame close it
too. STOP stops a running Cantle at its PC, waits in a handler, is rejected when stopped; RESUME and STEP go on from the stop and
are rejected when running. Frames write breakpoints and selects and read the stop PC; without a session only DB_ID answers; a
read's answer carries the CRC-8 of its header and data; a frame with a wrong parity or CHK is counted and silent. (Readings: log entries 40, 58, 59.) Rests on R614, R615, R618, R622, R627, R631, R649. -/
def Obligations.DebugSessionsAndRunControl : Prop :=
  ∀ (s : State) (w : Wire) (v : W32) (f : DbFrame), s.sys.mode ≠ .reset → clockSafe s = false →
    let ans (i : Instr) (r : Resp) (P : State → Prop) := ∃ t, exec i s = .next t ∧ t.db.resp = r ∧ P t
    let frameW (reg : Nat) : DbFrame := { wire := w, hdr := dbHeader true reg, data := v, chk := dbChk (dbHeader true reg) v }
    (s.db.session = none → v.toNat / 2 ^ 24 = 0xA5 → bitOf v 0 = true → bitOf v 8 = false → bitOf v 9 = false → bitOf v 10 = false →
      ans (.sessionOpen w v) .ok fun t => t.db.session = some w ∧ t.db.lastFrame = s.now ∧ t.db.monEn = bitOf v 1 ∧
        t = { s with db := t.db, ev := t.ev }) ∧
    (s.db.session = some w ∨ s.db.session = none → v.toNat / 2 ^ 24 ≠ 0xA5 →
      ∀ i ∈ [Instr.sessionOpen w v, .sessionClose w v, .debugStop w v, .debugResume w v, .debugStep w v],
        ans i .reject fun t => t.db.session = s.db.session ∧ t.db.monEn = s.db.monEn ∧ t = { s with db := t.db }) ∧
    (∀ w' : Wire, s.db.session = some w' → w' ≠ w →
      ∀ i ∈ [Instr.sessionOpen w v, .sessionClose w v, .debugStop w v, .debugWithdraw w v, .vtOutputRead w],
        exec i s = .next { s with db := { s.db with resp := .silent, data := 0, chk := 0 } }) ∧
    (s.db.session = some w →
      (v.toNat / 2 ^ 24 = 0xA5 → bitOf v 0 = false → ans (.sessionClose w v) .ok fun t => t.db.session = none ∧ t.db.monEn = false ∧
        t.db.mon = false ∧ t.db.freeze = 0 ∧ t.db.vtOut = [] ∧ t.db.vtIn = [] ∧ t.db.wdraw = s.db.wdraw ∧
        (∀ k : Fin 4, bitOf t.db.ibp[k.1] 0 = false ∧ bitOf t.db.wa[k.1] 31 = false) ∧
        (s.db.mon = true → s.cs.state = .waitD → t.cs.state = .running ∧ t.cs.pc = s.db.pc) ∧
        (s.db.mon = false → t.cs = s.cs) ∧ t = { s with db := t.db, ev := t.ev, cs := t.cs }) ∧
      (s.db.lastFrame + 10000000 ≤ s.now → ∃ t, exec .sessionTimeout s = .next t ∧ t.db.session = none ∧ t.db.monEn = false ∧ t.db.mon = false) ∧
      (s.now < s.db.lastFrame + 10000000 → exec .sessionTimeout s = .next s) ∧
      (s.cs.state = .running → s.db.mon = false →
        (s.cs.hl = false → bpAt s.cs.pc s = none → ans (.debugStop w 0xA5000103) .ok fun t => t.cs = { s.cs with state := .waitD } ∧
          t.db.mon = true ∧ t.db.reason = 1 ∧ t.db.pc = s.cs.pc ∧ t.db.stops = satInc s.db.stops ∧
          t = { s with db := t.db, ev := t.ev, cs := t.cs }) ∧
        (s.cs.hl = true → ans (.debugStop w 0xA5000103) .ok fun t => t.db.stopReq = true ∧ t.db.mon = false ∧ t = { s with db := t.db }) ∧
        (∀ i ∈ [Instr.debugResume w 0xA5000203, .debugStep w 0xA5000403], ans i .reject fun t => t = { s with db := t.db })) ∧
      (s.db.mon = true → s.db.inh = false → s.cs.state = .waitD →
        (ans (.debugResume w 0xA5000203) .ok fun t => t.cs = { s.cs with state := .running, pc := s.db.pc } ∧ t.db.mon = false ∧
          t.db.skipBp = true ∧ t.db.stepping = false ∧ t = { s with db := t.db, ev := t.ev, cs := t.cs }) ∧
        (ans (.debugStep w 0xA5000403) .ok fun t => t.cs = { s.cs with state := .running, pc := s.db.pc } ∧ t.db.mon = false ∧
          t.db.skipBp = true ∧ t.db.stepping = true ∧ t = { s with db := t.db, cs := t.cs }) ∧
        (ans (.debugStop w 0xA5000103) .reject fun t => t.cs = s.cs ∧ t.db.mon = true)) ∧
      (∀ k : Fin 4, ans (.debugFrame (frameW (8 + k.1))) .ok fun t =>
        t.db.ibp[k.1] = v &&& 0x0000FFFD ∧ (∀ j : Fin 4, j ≠ k → t.db.ibp[j.1] = s.db.ibp[j.1]) ∧ t = { s with db := t.db }) ∧
      (ans (.debugFrame (frameW 4)) .ok fun t => t.db.gsel = v.setWidth 4 ∧ t = { s with db := t.db }) ∧
      (ans (.debugFrame { wire := w, hdr := dbHeader false 3 }) .ok fun t => t.db.data = s.db.pc.setWidth 32 ∧
        t.db.chk = dbChk (dbHeader false 3) (s.db.pc.setWidth 32) ∧
        t = { s with db := t.db })) ∧
    (s.db.session = none → f.wire = w → frameOk f = true → hdrWrite f.hdr = false →
      (hdrReg f.hdr = 0 → ans (.debugFrame f) .ok fun t => t.db.data = 0x00016416 ∧ t.db.chk = dbChk (dbHeader false 0) 0x00016416 ∧ t = { s with db := t.db }) ∧
      (hdrReg f.hdr ≠ 0 → ans (.debugFrame f) .reject fun t => t = { s with db := t.db })) ∧
    (s.db.session = none → frameOk f = false → ans (.debugFrame f) .silent fun t => t.db.ferr = satInc s.db.ferr ∧ t = { s with db := t.db }) ∧
    exec (.debugFrameReset .rstd) s = .next { s with db := { s.db with partial_ := [] } } ∧
    exec (.debugFrameReset .dio) s = .next s

/-- Register and memory accesses need a stopped Cantle, writes in service need the withdrawal of all berths; the terminal FIFOs
move. In the session, with Cantle in WAITD: reads return the selected register or word; writes change exactly the register or the
four bytes, mark the program as patched and change no output, outside service or under full withdrawal; in service without it they
are rejected; so is an address outside memory, and every access while Cantle is not stopped. DB_WDRAW takes the written mask; a
copy mismatch is marked once. VT_OUT and VT_IN move one character, a full input FIFO rejects (log entry 74). Rests on R639, R641,
R646, R652. -/
def Obligations.DebugAccessesReachStoppedCantleAndTheWithdrawal : Prop :=
  ∀ (s : State) (w : Wire) (v : W32), s.sys.mode ≠ .reset → clockSafe s = false → s.db.session = some w →
    let ans (i : Instr) (r : Resp) (P : State → Prop) := ∃ t, exec i s = .next t ∧ t.db.resp = r ∧ P t
    let x := s.db.maddr.toNat / 4 * 4
    (s.cs.state = .waitD →
      (ans (.debugRegisterAccess w false v) .ok fun t => t.db.data = gr s.db.gsel s ∧ t = { s with db := t.db }) ∧
      (inService s = false ∨ bitOf s.db.wdraw 8 = true → ans (.debugRegisterAccess w true v) .ok fun t =>
        WritesG s t s.db.gsel v ∧ t.db.patched = true ∧ t.cs.pc = s.cs.pc ∧ t.sys = s.sys ∧ t.berth = s.berth) ∧
      (inService s = true → bitOf s.db.wdraw 8 = false →
        ∀ i ∈ [Instr.debugRegisterAccess w true v, .debugMemoryAccess w true v .good], ans i .reject fun t => t = { s with db := t.db }) ∧
      (s.db.mspace = false → s.db.maddr.toNat < 0x8000 →
        (ans (.debugMemoryAccess w false v .good) .ok fun t => t.db.data = memRead32 0 s.cs.dmem x ∧ t = { s with db := t.db }) ∧
        (inService s = false ∨ bitOf s.db.wdraw 8 = true → ckblkHolds x s = false → Memory.wf 0 s.cs.dmem = true →
          ans (.debugMemoryAccess w true v .good) .ok fun t => memRead32 0 t.cs.dmem x = v ∧
            (∀ a, a < x ∨ x + 4 ≤ a → memRead 0 t.cs.dmem a = memRead 0 s.cs.dmem a) ∧ t.cs.imem = s.cs.imem ∧
            t.db.maddr.toNat = (if s.db.minc then (x + 4) % 0x8000 else s.db.maddr.toNat))) ∧
      (s.db.mspace = true → s.db.maddr.toNat < 0x10000 →
        (ans (.debugMemoryAccess w false v .good) .ok fun t => t.db.data = memRead32 0xFF s.cs.imem x ∧ t = { s with db := t.db }) ∧
        (inService s = false ∨ bitOf s.db.wdraw 8 = true → Memory.wf 0xFF s.cs.imem = true →
          ans (.debugMemoryAccess w true v .good) .ok fun t => memRead32 0xFF t.cs.imem x = v ∧
            (∀ a, a < x ∨ x + 4 ≤ a → memRead 0xFF t.cs.imem a = memRead 0xFF s.cs.imem a) ∧ t.cs.dmem = s.cs.dmem)) ∧
      (s.db.mspace = false → 0x8000 ≤ s.db.maddr.toNat → ∀ wr, ans (.debugMemoryAccess w wr v .good) .reject fun t => t = { s with db := t.db })) ∧
    (s.cs.state ≠ .waitD → ∀ wr, ∀ i ∈ [Instr.debugRegisterAccess w wr v, .debugMemoryAccess w wr v .good],
      ans i .reject fun t => t = { s with db := t.db }) ∧
    (ans (.debugWithdraw w v) .ok fun t => t.db.wdraw = v.setWidth 9 ∧ (s.db.wdraw ≠ v.setWidth 9 → t.db.wdrawC = ~~~(v.setWidth 9) ∧ t.grid.latch = some s.now) ∧
      t = { s with db := t.db, ev := t.ev, nv := t.nv, grid := { s.grid with latch := t.grid.latch } }) ∧
    (s.db.copyFault = false → ∃ t, exec .withdrawCopyMismatch s = .next t ∧ t.db = { s.db with copyFault := true } ∧
      t = { s with db := t.db, ev := t.ev, nv := t.nv }) ∧
    (s.db.copyFault = true → exec .withdrawCopyMismatch s = .next s) ∧
    (∀ c q, s.db.vtOut = c :: q → ans (.vtOutputRead w) .ok fun t => t.db.vtOut = q ∧ t.db.lost = false ∧
      t.db.data = 0x100 + c.setWidth 32 + (if s.db.lost then 0x200 else 0) ∧ t = { s with db := t.db }) ∧
    (s.db.vtOut = [] → ans (.vtOutputRead w) .ok fun t => t.db.vtOut = [] ∧ t.db.data = (if s.db.lost then 0x200 else 0)) ∧
    (s.db.vtIn.length < 16 → ans (.vtInputWrite w v) .ok fun t => t.db.vtIn = s.db.vtIn ++ [v.setWidth 8] ∧ t = { s with db := t.db }) ∧
    (s.db.vtIn.length = 16 → ans (.vtInputWrite w v) .reject fun t => t.db.vtIn = s.db.vtIn)

/-- Register writes act by their access code: RW sets, W1C clears the ones, RO words ignore them, and the port's write count
moves. For both ports: writes of RW words (HB_SCRATCH, select registers, EV_IEN, the commit code, the mailbox words) set exactly
their field, of the accessing port where it is kept per port; writes of W1C words (SY_RSTCAUSE, SY_MODE, ring status, check-unit
status, CS_STAT) clear the ones; writes of read-only words change nothing at all (a word of the configuration group
still keeps a login alive); each accepted write counts for its port only.
Rests on R13, 19_register_map.md. -/
def Obligations.RegisterWritesActByTheirAccessCode : Prop :=
  ∀ (s : State) (p : Port) (v : W16), s.sys.mode ≠ .reset → clockSafe s = false →
    let wrote (a : BitVec 9) (P : State → Prop) := ∃ t, exec (.registerWrite p a v) s = .next t ∧ t.hb.lastPort = decide (p = .usb) ∧
      (p = .bus → t.hb.wrBus = satInc s.hb.wrBus ∧ t.hb.wrUsb = s.hb.wrUsb) ∧
      (p = .usb → t.hb.wrUsb = satInc s.hb.wrUsb ∧ t.hb.wrBus = s.hb.wrBus) ∧ P t
    (wrote 0x032 fun t => t.hb.port[p.ix.1].scratch = v ∧ t.hb.port[(otherPort p).ix.1] = s.hb.port[(otherPort p).ix.1] ∧ t = { s with hb := t.hb }) ∧
    (wrote 0x080 fun t => t.hb.port[p.ix.1].sel = { s.hb.port[p.ix.1].sel with wf := v &&& 0x003F } ∧
      t.hb.port[(otherPort p).ix.1].sel = s.hb.port[(otherPort p).ix.1].sel ∧ t = { s with hb := t.hb }) ∧
    (wrote 0x009 fun t => t.sys.rstCause = s.sys.rstCause &&& ~~~(v &&& 0x0F3F) ∧
      t = { s with hb := t.hb, sys := { s.sys with rstCause := t.sys.rstCause } }) ∧
    (wrote 0x006 fun t => t.sys.reqRej = (s.sys.reqRej && !bitOf v 4) ∧ t = { s with hb := t.hb, sys := { s.sys with reqRej := t.sys.reqRej } }) ∧
    (∀ n : Fin 8, wrote (0x060 + BitVec.ofNat 9 n.1) fun t => t.ev.rings[n.1].ovf = (s.ev.rings[n.1].ovf && !bitOf v 13) ∧
      t.ev.rings[n.1].q = s.ev.rings[n.1].q ∧ (∀ m : Fin 8, m ≠ n → t.ev.rings[m.1] = s.ev.rings[m.1])) ∧
    (wrote 0x072 fun t => t.ev.ien = v.setWidth 8 ∧ t = { s with hb := t.hb, ev := { s.ev with ien := t.ev.ien, hirqa := t.ev.hirqa, hirqb := t.ev.hirqb } }) ∧
    (∀ n : Fin 8, wrote (0x116 + 8 * BitVec.ofNat 9 n.1) fun t => t = { s with hb := t.hb, ck := upd s.ck n fun u => { u with mis := u.mis && !bitOf v 8 } }) ∧
    (wrote 0x1AC fun t => t.nv.code = word1 s.nv.code ++ v) ∧ (wrote 0x1AD fun t => t.nv.code = v ++ word0 s.nv.code) ∧
    (∀ k : Fin 4, wrote (0x1F0 + BitVec.ofNat 9 k.1) fun t => t.cs.mbin[k.1] = v ∧ (∀ j : Fin 4, j ≠ k → t.cs.mbin[j.1] = s.cs.mbin[j.1])) ∧
    (wrote 0x1E0 fun t => t.cs = { s.cs with rej := s.cs.rej && !bitOf v 7 }) ∧
    (∀ a ∈ [(0x000 : BitVec 9), 0x00D, 0x012, 0x081, 0x0C3, 0x150, 0x1D0, 0x1FF], exec (.registerWrite p a v) s = .next s) ∧
    (∃ t, exec (.registerWrite p 0x1A0 v) s = .next t ∧ t = { s with nv := { s.nv with login := t.nv.login } } ∧
      ∀ q : Port, t.nv.login[q.ix.1].on = s.nv.login[q.ix.1].on)

/-- CLAIM, RELEASE and FORCE move HB_OWNER, a strobe conflict is counted and ignored, snapshot reads latch the upper words. CLAIM
is accepted only while the owner is 0, RELEASE only from the owner, FORCE only with key 0x9D; what is not accepted sets the port's
DENIED and changes nothing else. An access with both strobes low counts in HB_PROTERR and changes nothing else but the kind of the
last error. A read of the lowest word of TSTAMP or SCANNO returns it and latches its upper words for this port only. Rests on
R660. -/
def Obligations.PortsShareTheSemaphoreAndLatchSnapshots : Prop :=
  ∀ (s : State) (p : Port) (tag : Byte), s.sys.mode ≠ .reset →
    let me : BitVec 2 := if p = .bus then 1 else 2
    let own (i : Instr) (o : BitVec 2) (g : Byte) (den : Bool) := ∃ t, exec i s = .next t ∧ t.hb.owner = o ∧ t.hb.tag = g ∧
      t.hb.port[p.ix.1].denied = den ∧ t = { s with hb := t.hb }
    (clockSafe s = false →
      (s.hb.owner = 0 → own (.ownerClaim p tag) me tag s.hb.port[p.ix.1].denied) ∧
      (s.hb.owner ≠ 0 → own (.ownerClaim p tag) s.hb.owner s.hb.tag true) ∧
      (s.hb.owner = me → own (.ownerRelease p tag) 0 0 s.hb.port[p.ix.1].denied) ∧
      (s.hb.owner ≠ me → own (.ownerRelease p tag) s.hb.owner s.hb.tag true) ∧
      (own (.ownerForce p 0x9D) 0 0 s.hb.port[p.ix.1].denied) ∧
      (tag ≠ 0x9D → own (.ownerForce p tag) s.hb.owner s.hb.tag true)) ∧
    (exec .strobeConflict s = .next { s with hb := { s.hb with protErr := satInc s.hb.protErr, lastProt := 2 } }) ∧
    (∃ t, exec (.snapshotRead p 0x012) s = .next t ∧ t.hb.port[p.ix.1].data = word0 s.tstamp ∧
      t.hb.port[p.ix.1].snap.lookup 0x013 = some (word1 s.tstamp) ∧ t.hb.port[p.ix.1].snap.lookup 0x014 = some (word2 s.tstamp) ∧
      t.hb.port[(otherPort p).ix.1] = s.hb.port[(otherPort p).ix.1] ∧ t = { s with hb := t.hb }) ∧
    (∃ t, exec (.snapshotRead p 0x1E6) s = .next t ∧ t.hb.port[p.ix.1].data = word0 s.cs.scanno ∧
      t.hb.port[p.ix.1].snap.lookup 0x1E7 = some (word1 s.cs.scanno) ∧ t = { s with hb := t.hb })

/-- The standard requests answer, set address, configuration and halt, or stall and count (codes of USB 2.0: log entry 87). On a
live port with no transfer held: GET_STATUS, CLEAR_FEATURE, SET_FEATURE, SET_ADDRESS, GET_DESCRIPTOR, GET_CONFIGURATION,
SET_CONFIGURATION, GET_INTERFACE and SET_INTERFACE answer data or status and change exactly the field they set; a request with a
wrong value or index stalls and counts in UM_STALLS. Their codes and the layout of the descriptors are those of USB 2.0 (log
entries 87, 88). Rests on R707, 20_usb_maintenance.md. -/
def Obligations.UsbStandardRequestsAreAnswered : Prop :=
  ∀ (s : State) (v n : W16), usbLive s = true → s.um.held = false →
    let next (i : Instr) (u : Um) := exec i s = .next { s with um := u }
    let stall := { s.um with answer := .stall, stalls := satInc s.um.stalls }
    (next (.getStatus { rtype := 0x80, length := 2 }) { s.um with answer := .data [1, 0] }) ∧
    (next (.getStatus { rtype := 0x82, index := 0x0081, length := 2 }) { s.um with answer := .data [if s.um.halt then 1 else 0, 0] }) ∧
    (v ≠ 0 → next (.getStatus { rtype := 0x80, value := v, length := 2 }) stall) ∧
    (next (.clearFeature { rtype := 0x02, index := 0x0081 }) { s.um with answer := .status, halt := false, download := none }) ∧
    (next (.setFeature { rtype := 0x02, index := 0x0081 }) { s.um with answer := .status, halt := true }) ∧
    (v ≠ 0x0081 → next (.setFeature { rtype := 0x02, index := v }) stall ∧ next (.clearFeature { rtype := 0x02, index := v }) stall) ∧
    (1 ≤ v.toNat → v.toNat ≤ 127 → next (.setAddress { rtype := 0x00, value := v }) { s.um with
      answer := .status, addr := v.setWidth 7, state := if s.um.state = .default_ then .addressed else s.um.state }) ∧
    (v = 0 ∨ 127 < v.toNat → next (.setAddress { rtype := 0x00, value := v }) stall) ∧
    (next (.getDescriptor { rtype := 0x80, value := 0x0100, length := n }) { s.um with
      answer := .data (([18, 1, 0x00, 0x02, 0, 0, 0, 64, 0x5C, 0x3A, 0x16, 0x64, 0x00, 0x01, 1, 2, 3, 1] : List Byte).take n.toNat) }) ∧
    (0x0400 ≤ v.toNat → next (.getDescriptor { rtype := 0x80, value := v, length := n }) stall) ∧
    (next (.getConfiguration { rtype := 0x80, length := 1 }) { s.um with answer := .data [if s.um.state = .configured then 1 else 0] }) ∧
    (next (.setConfiguration { rtype := 0x00, value := 1 }) { s.um with answer := .status, state := .configured, halt := false }) ∧
    (next (.setConfiguration { rtype := 0x00, value := 0 }) { s.um with
      answer := .status, state := if s.um.state = .configured then .addressed else s.um.state }) ∧
    (2 ≤ v.toNat → next (.setConfiguration { rtype := 0x00, value := v }) stall) ∧
    (next (.getInterface { rtype := 0x81, length := 1 }) { s.um with answer := .data [0] }) ∧
    (next (.setInterface { rtype := 0x01 }) { s.um with answer := .status, halt := false }) ∧
    (v ≠ 0 → next (.setInterface { rtype := 0x01, value := v }) stall)

/-- Every vendor request completes with its code and outcome, counts, and acts as its register commands do. On a live port outside
PROVE: GET_LAST, COMMIT_STATUS and GET_INFO give their bytes; READ_REGS and WRITE_REGS read and write the map for the USB port, a
read-only word results in 5; LOGIN, LOGOUT and SETPWD act as on the bus with outcomes OK, not logged in, wrong password and
locked; CLEARSTAGE, STAGE and COMMIT need the login and act on the staging banks; LOG_START and LOG_STOP open and end a download;
UNLOCK acts on the door channel; RESET_DEVICE falls due after 1 ms or starts the stop sequence, and needs the login in service
(log entries 88 to 90). Rests on R710, R714, R715, R717, R719, R720, R722. -/
def Obligations.UsbVendorRequestsCompleteWithAnOutcome : Prop :=
  ∀ (s : State) (f : CommitFindings) (w : WriteFindings) (data : List Byte) (len : W16),
    usbLive s = true → s.um.held = false → s.sys.mode ≠ .prove →
    let l := s.nv.login[1]
    let done (i : Instr) (code : Byte) (res : BitVec 4) (P : State → Prop) := ∃ t, exec i s = .next t ∧ t.um.lastReq = code ∧
      t.um.lastRes = res ∧ t.um.reqCnt = s.um.reqCnt + 1 ∧ P t
    let info (i : Instr) (code : Byte) (bytes : List Byte) := exec i s = .next { s with um := { s.um with
      answer := .data bytes, lastReq := code, lastRes := 0, reqCnt := s.um.reqCnt + 1 } }
    let plain : UsbReq := { rtype := 0x40 }
    let pw : UsbReq := { rtype := 0x40, length := len, data := data }
    (info (.getLast { rtype := 0xC0, length := 4 }) 0x04 ([s.um.lastReq, s.um.lastRes.setWidth 8] ++ bytesLE 2 s.um.reqCnt.toNat)) ∧
    (info (.commitStatus { rtype := 0xC0, length := 12 }) 0x23 ([s.nv.result, s.nv.origin.setWidth 8, s.nv.resTag, s.nv.resIndex] ++
      bytesLE 4 s.um.comSeq.toNat ++ bytesLE 4 s.um.comCode.toNat)) ∧
    (∃ b, b.length = 32 ∧ b[12]? = some (BitVec.ofNat 8 (modeCode s.sys.mode)) ∧ info (.getInfo { rtype := 0xC0, length := 32 }) 0x01 b) ∧
    (done (.readRegs { rtype := 0xC0, value := 0x006, length := 2 }) 0x02 0 fun t =>
      t.um.answer = .data (bytesLE 2 (modeWordReg s.sys).toNat) ∧ t = { s with hb := t.hb, um := t.um }) ∧
    (∀ lo hi : Byte, done (.writeRegs { rtype := 0x40, value := 0x032, length := 2, data := [lo, hi] } w) 0x03 0 fun t =>
      t.um.answer = .status ∧ t.hb.port[1].scratch = hi ++ lo ∧ t = { s with hb := t.hb, um := t.um }) ∧
    (∀ lo hi : Byte, done (.writeRegs { rtype := 0x40, value := 0x007, length := 2, data := [lo, hi] } w) 0x03 5 fun t => t = { s with um := t.um }) ∧
    (l.on = true → done (.usbLogout plain) 0x11 0 fun t => t.nv.login[1].on = false) ∧
    (l.on = false → 8 ≤ len.toNat → len.toNat ≤ 32 → len.toNat ≤ data.length → done (.usbSetpwd pw true true) 0x12 1 fun t =>
      t = { s with um := t.um }) ∧
    (8 ≤ len.toNat → len.toNat ≤ 32 → data.length = len.toNat → len.toNat % 2 = 0 → (∀ c ∈ data, c ≠ 0) → l.pw = {} →
      (s.nv.lockNext = none → s.nv.vault.lockMin = 0 → s.nv.vault.hash ≠ List.replicate 32 0 →
        (sha256 (s.nv.vault.salt ++ data) = s.nv.vault.hash → done (.usbLogin pw) 0x10 0 fun t => t.nv.login[1].on = true) ∧
        (sha256 (s.nv.vault.salt ++ data) ≠ s.nv.vault.hash → s.nv.vault.wrong.toNat < 4 → done (.usbLogin pw) 0x10 2 fun t =>
          t.nv.login[1].on = l.on ∧ t.nv.vault.wrong = s.nv.vault.wrong + 1)) ∧
      (∀ t1, s.nv.lockNext = some t1 → s.now < t1 → s.nv.vault.lockMin ≠ 0 → done (.usbLogin pw) 0x10 3 fun t =>
        t.nv.login[1].on = l.on ∧ t.nv.vault = s.nv.vault) ∧
      (l.on = true → pwValid data = true → s.nv.clog.lost = none → s.nv.clog.retiring = none →
        s.nv.clog.recs.length + s.nv.clog.fill < 255 * (s.nv.clog.full + 1) → done (.usbSetpwd pw true true) 0x12 0 fun t =>
          t.nv.vault.hash = sha256 (t.nv.vault.salt ++ data) ∧ t.nv.clog.recs.length = s.nv.clog.recs.length + 1)) ∧
    (l.on = false → done (.usbClearstage plain) 0x20 1 (fun t => t = { s with um := t.um }) ∧
      (∀ k : Fin 16, done (.usbUnlock { rtype := 0x40, value := BitVec.ofNat 16 k.1 }) 0x40 1 fun t => t = { s with um := t.um })) ∧
    (l.on = true → s.sys.mode = .configure → s.nv.erasing = false → s.nv.commit = none →
      (done (.usbClearstage plain) 0x20 0 fun t => t.nv.erasing = true ∧ t.nv.dirD = []) ∧
      (∀ (k : Fin 1024) (ws : List Byte) (c : W32), ws.length = 256 → s.nv.prep = true → s.nv.dirD.contains k.1 = false →
        let r : UsbReq := { rtype := 0x40, value := BitVec.ofNat 16 k.1, length := 260, data := ws ++ bytesLE 4 c.toNat }
        (crc32c ws = c → done (.stage r true) 0x21 0 fun t => t.nv.dirD = s.nv.dirD ++ [k.1] ∧ t.nv.sLast = 1) ∧
        (crc32c ws ≠ c → done (.stage r true) 0x21 5 fun t => t.nv.dirD = s.nv.dirD ∧ t.nv.mem = s.nv.mem ∧ t.nv.sLast = 2)) ∧
      (∀ c : W32, commitRefused 1 s = none → done (.usbCommit { rtype := 0x40, length := 4, data := bytesLE 4 c.toNat } f) 0x22 0 fun t =>
        t.nv.result = 1 ∧ t.nv.code = c ∧ (t.nv.commit.map fun x => (x.port, x.code, x.start)) = some (1, c, s.now))) ∧
    (done (.logStart { rtype := 0x40, index := 1, length := 8, data := [0, 0, 0, 0, 0, 0, 0, 0] }) 0x30 0 fun t =>
      t.um.download = some { kind := 1, next := 0, last := 15 }) ∧
    (done (.logStop plain) 0x31 0 fun t => t.um.download = none) ∧
    (∀ k : Fin 16, l.on = true →
      (unlockWaits k s = false → unlockOk k s = true → s.dc.chan[k.1].lockSto = false →
        done (.usbUnlock { rtype := 0x40, value := BitVec.ofNat 16 k.1 }) 0x40 0 fun t => t.dc.chan[k.1].unlocking = some true ∧
          t.dc.unlock = s.dc.unlock) ∧
      (unlockWaits k s = false → unlockOk k s = true → s.dc.chan[k.1].lockSto = true →
        done (.usbUnlock { rtype := 0x40, value := BitVec.ofNat 16 k.1 }) 0x40 0 fun t =>
          t.dc = { s.dc with unlock := s.dc.unlock ++ [⟨k, true, s.now⟩] }) ∧
      (unlockWaits k s = true ∨ unlockOk k s = false →
        done (.usbUnlock { rtype := 0x40, value := BitVec.ofNat 16 k.1 }) 0x40 5 fun t => t.dc = { s.dc with unlockRej := true })) ∧
    (let r : UsbReq := { rtype := 0x40, value := 0x52A7, index := 0x0C9E }
     (s.sys.mode = .configure ∨ s.sys.mode = .safe → done (.resetDevice r) 0x41 0 fun t => t.um.resetAt = some (s.now + 1000) ∧ t = { s with um := t.um }) ∧
     (inService s = true → l.on = true → s.sys.stop = none → done (.resetDevice r) 0x41 0 fun t => t.um.resetAt = some (s.now + 1000) ∧
       t = { s with um := t.um, sys := { s.sys with stop := some .resetUsb } }) ∧
     (inService s = true → l.on = false → done (.resetDevice r) 0x41 1 fun t => t.um.resetAt = s.um.resetAt ∧ t.sys.reqRej = true ∧ t.sys.stop = s.sys.stop))

/-- Bus reset, suspend, resume and VBUS move the port's state; download tokens give packets in order. A bus reset of a connected
port gives the default state and address 0, ends halt, download and login, counts, aborts a held transfer and frees HB_OWNER where
USB owned it; suspend and resume set and clear the flag and change nothing else; VBUS connects and disconnects. A download of
fault cells gives 64-byte packets of two cells, advances when the packet is acknowledged and stays when it is not, and ends with
an empty packet; with no download nothing happens. Rests on R706, R720, R723, R770. -/
def Obligations.TheUsbBusConnectsResetsAndDownloads : Prop :=
  ∀ s : State,
    (s.um.state ≠ .disconnected → ∃ t, exec .usbBusReset s = .next t ∧ t.um.state = .default_ ∧ t.um.addr = 0 ∧ t.um.suspend = false ∧
      t.um.halt = false ∧ t.um.download = none ∧ t.um.busRst = satInc s.um.busRst ∧ t.nv.login[1].on = false ∧
      (s.um.held = true → t.um.aborts = satInc s.um.aborts) ∧ (s.hb.owner = 2 → t.hb.owner = 0) ∧ (s.hb.owner ≠ 2 → t.hb = s.hb)) ∧
    (s.um.state = .disconnected → exec .usbBusReset s = .next s ∧ exec .usbSuspend s = .next s) ∧
    (s.um.state ≠ .disconnected → exec .usbSuspend s = .next { s with um := { s.um with suspend := true } }) ∧
    exec .usbResume s = .next { s with um := { s.um with suspend := false } } ∧
    (s.um.vbus = false → s.sys.mode ≠ .reset → clockSafe s = false → ∃ t, exec (.vbusChange true) s = .next t ∧ t.um.vbus = true ∧
      t.um.state = .default_ ∧ t = { s with um := t.um }) ∧
    (s.um.vbus = true → s.sys.mode ≠ .reset → clockSafe s = false → ∃ t, exec (.vbusChange false) s = .next t ∧ t.um.vbus = false ∧
      t.um.state = .disconnected ∧ t.um.addr = 0 ∧ t.um.download = none ∧ t.nv.login[1].on = false) ∧
    (∀ b, s.um.vbus = b → exec (.vbusChange b) s = .next s) ∧
    (usbLive s = true → s.um.state = .configured → s.um.halt = false →
      (∀ n : Fin 15, s.um.download = some { kind := 1, next := n.1, last := 15 } →
        (∃ t, exec (.downloadInToken true true) s = .next t ∧ t.um.packet.length = 64 ∧
          t.um.download = some { kind := 1, next := n.1 + 2, last := 15 } ∧ t = { s with um := t.um }) ∧
        (∃ t, exec (.downloadInToken false true) s = .next t ∧ t.um.packet.length = 64 ∧
          t.um.download = some { kind := 1, next := n.1, last := 15 } ∧ t = { s with um := t.um })) ∧
      (s.um.download = some { kind := 1, next := 16, last := 15 } → exec (.downloadInToken true true) s =
        .next { s with um := { s.um with packet := [], download := none } }) ∧
      (∀ a r, s.um.download = none → exec (.downloadInToken a r) s = .next s))
end

