-- ==== Sys2Proof/Laws/Mem.lean ====
section
/-! SUPPORT. The laws of byte memories: a read after a write, and the canonical form that every operation keeps. -/

namespace Sys2Proof.Machine

open Sys2Proof

/-- Every address of `m` is above `a`. -/
def Memory.above (a : Nat) (m : List Host.Cell) : Prop := ∀ c ∈ m, a < c.1

theorem wf_cons (d : Byte) (c : Host.Cell) (m : List Host.Cell) :
    Memory.wf d (c :: m) = true ↔ c.2 ≠ d ∧ Memory.above c.1 m ∧ Memory.wf d m = true := by
  induction m generalizing c with
  | nil => simp [Memory.wf, Memory.above]
  | cons e m ih =>
    simp only [Memory.wf, Bool.and_eq_true, bne_iff_ne, decide_eq_true_eq]
    constructor
    · rintro ⟨⟨h1, h2⟩, h3⟩
      refine ⟨h1, ?_, h3⟩
      have h4 := ((ih e).1 h3).2.1
      intro x hx
      rcases List.mem_cons.1 hx with rfl | hx
      · exact h2
      · exact Nat.lt_trans h2 (h4 x hx)
    · rintro ⟨h1, h2, h3⟩
      exact ⟨⟨h1, h2 e (by simp)⟩, h3⟩

theorem above_write {d : Byte} {m : List Host.Cell} {k a : Nat} {b : Byte} (h : Memory.above k m) (hk : k < a) :
    Memory.above k (memWrite d m a b) := by
  induction m with
  | nil =>
    simp only [memWrite]
    split
    · simp [Memory.above]
    · simpa [Memory.above] using hk
  | cons c m ih =>
    have hc : k < c.1 := h c (by simp)
    have hm : Memory.above k m := fun x hx => h x (by simp [hx])
    simp only [memWrite]
    split
    · split
      · exact hm
      · intro x hx
        rcases List.mem_cons.1 hx with rfl | hx
        · exact hk
        · exact hm x hx
    · split
      · split
        · exact h
        · intro x hx
          rcases List.mem_cons.1 hx with rfl | hx
          · exact hk
          · exact h x hx
      · intro x hx
        rcases List.mem_cons.1 hx with rfl | hx
        · exact hc
        · exact ih hm x hx

theorem memWrite_wf {d : Byte} {m : List Host.Cell} (a : Nat) (b : Byte) (h : Memory.wf d m = true) :
    Memory.wf d (memWrite d m a b) = true := by
  induction m with
  | nil =>
    simp only [memWrite]
    split
    · rfl
    · next hb => simpa [Memory.wf] using hb
  | cons c m ih =>
    obtain ⟨hc, ha, hm⟩ := (wf_cons d c m).1 h
    simp only [memWrite]
    split
    · next e =>
      subst e
      split
      · exact hm
      · next hb => exact (wf_cons d _ m).2 ⟨hb, ha, hm⟩
    · next hne =>
      split
      · next hlt =>
        split
        · exact h
        · next hb =>
          refine (wf_cons d _ _).2 ⟨hb, ?_, h⟩
          intro x hx
          rcases List.mem_cons.1 hx with rfl | hx
          · exact hlt
          · exact Nat.lt_trans hlt (ha x hx)
      · next hge =>
        exact (wf_cons d _ _).2 ⟨hc, above_write ha (by omega), ih hm⟩

theorem memWriteList_wf {d : Byte} (bs : List Byte) {m : List Host.Cell} (a : Nat) (h : Memory.wf d m = true) :
    Memory.wf d (memWriteList d m a bs) = true := by
  unfold memWriteList
  induction bs generalizing m a with
  | nil => exact h
  | cons b bs ih => exact ih (a + 1) (memWrite_wf a b h)

theorem memWrite32_wf {d : Byte} {m : List Host.Cell} (a : Nat) (w : W32) (h : Memory.wf d m = true) :
    Memory.wf d (memWrite32 d m a w) = true := memWriteList_wf _ a h

theorem filter_wf {d : Byte} {m : List Host.Cell} (p : Host.Cell → Bool) (h : Memory.wf d m = true) :
    Memory.wf d (m.filter p) = true := by
  induction m with
  | nil => rfl
  | cons c m ih =>
    obtain ⟨hc, ha, hm⟩ := (wf_cons d c m).1 h
    simp only [List.filter]
    split
    · refine (wf_cons d _ _).2 ⟨hc, ?_, ih hm⟩
      exact fun x hx => ha x (List.mem_of_mem_filter hx)
    · exact ih hm

theorem memErase_wf {d : Byte} {m : List Host.Cell} (lo hi : Nat) (h : Memory.wf d m = true) :
    Memory.wf d (memErase m lo hi) = true := filter_wf _ h

theorem memRead_above {d : Byte} {m : List Host.Cell} {a k : Nat} (h : Memory.above k m) (hk : a ≤ k) : memRead d m a = d := by
  cases m with
  | nil => rfl
  | cons c m =>
    have := h c (by simp)
    simp only [memRead]
    split
    · omega
    · split
      · rfl
      · omega

theorem memRead_memWrite {d : Byte} {m : List Host.Cell} (a x : Nat) (b : Byte) (h : Memory.wf d m = true) :
    memRead d (memWrite d m a b) x = if x = a then b else memRead d m x := by
  induction m with
  | nil =>
    simp only [memWrite]
    split
    · next hb => subst hb; simp [memRead]
    · simp only [memRead]
      split
      · next e => simp [e.symm]
      · next e => simp [Ne.symm e]
  | cons c m ih =>
    obtain ⟨hc, ha, hm⟩ := (wf_cons d c m).1 h
    simp only [memWrite]
    split
    · next e =>
      subst e
      split
      · next hb =>
        subst hb
        split
        · next ex => exact memRead_above ha (by omega)
        · next ex =>
          simp only [memRead, Ne.symm ex, if_false]
          split
          · next hx => exact memRead_above ha (by omega)
          · rfl
      · simp only [memRead]
        split
        · next ex => simp [ex.symm]
        · next ex => simp [Ne.symm ex]
    · next hne =>
      split
      · next hlt =>
        split
        · next hb =>
          subst hb
          split
          · next ex => subst ex; simp only [memRead, hne, hlt, if_false, if_true]
          · rfl
        · simp only [memRead]
          split
          · next ex => simp [ex.symm]
          · next ex =>
            simp only [Ne.symm ex, if_false]
            split
            · next hx => simp [show ¬ c.1 = x by omega, show x < c.1 by omega]
            · rfl
      · simp only [memRead, ih hm]
        split
        · next ex => subst ex; simp [hne]
        · split
          · next hx =>
            split
            · next e2 => omega
            · rfl
          · rfl

end Sys2Proof.Machine
end

