-- ==== Sys2Proof/Laws/Report.lean ====
section
/-! SUPPORT. What raising an event or queueing a ledger record can change: the event side and the NVM's queue, nothing else. -/

namespace Sys2Proof.Machine

open Sys2Proof

/-- The parts of the NVM block that a record does not touch. -/
structure SameStore (a b : Nv) : Prop where
  mem : a.mem = b.mem
  vault : a.vault = b.vault
  stored : a.stored = b.stored
  login : a.login = b.login
  clog : a.clog = b.clog
  ledger : a.ledger = b.ledger
  commit : a.commit = b.commit

/-- An item put into the fabric changes the event side only. -/
theorem fabricPut_frame (g : Nat) (code : BitVec 9) (f : Bool → FabItem) (s : State) :
    ∃ e, fabricPut g code f s = { s with ev := e } := by
  unfold fabricPut
  repeat' first
    | exact ⟨_, rfl⟩
    | split

theorem raiseAt_frame (code : Nat) (data : W16) (ts : TStamp) (b : Bool) (s : State) :
    ∃ e, raiseAt code data ts b s = { s with ev := e } := fabricPut_frame _ _ _ s

theorem raise_frame (code : Nat) (data : W16) (s : State) : ∃ e, raise code data s = { s with ev := e } :=
  raiseAt_frame _ _ _ _ _

theorem recordLost_frame (r : LRec) (s : State) :
    ∃ e n, recordLost r s = { s with ev := e, nv := n } ∧ SameStore n s.nv := by
  unfold recordLost mirror
  dsimp only
  generalize hy : fabricPut _ _ _ _ = y
  obtain ⟨e, he⟩ := fabricPut_frame 95 (if r.code = 0xFFFF then 0x1F6 else r.code.setWidth 9)
    (fun sl => .mirror (if r.code = 0xFFFF then 0x1F6 else r.code.setWidth 9) (r.lseq.setWidth 16) r.time true sl)
    { s with nv := { s.nv with unlogged := satInc s.nv.unlogged } }
  rw [he] at hy
  subst hy
  split
  · exact ⟨_, _, rfl, ⟨rfl, rfl, rfl, rfl, rfl, rfl, rfl⟩⟩
  · split
    · exact ⟨_, _, rfl, ⟨rfl, rfl, rfl, rfl, rfl, rfl, rfl⟩⟩
    · unfold cellPut
      dsimp only
      obtain ⟨e2, he2⟩ := raise_frame 0x1F6 (ledgerWord 2 0 (cellNextIx s.nv.cellNext).1)
        { s with ev := e, nv := { s.nv with
            unlogged := satInc s.nv.unlogged,
            cellNext := if (cellNextIx s.nv.cellNext).1 = 15 then 1 else (cellNextIx s.nv.cellNext).1 + 1,
            cells := s.nv.cells.set (cellNextIx s.nv.cellNext).1 (some r) } }
      exact ⟨_, _, he2, ⟨rfl, rfl, rfl, rfl, rfl, rfl, rfl⟩⟩

/-- A record that finds a queue place or overflows changes the same. -/
theorem queueRec_frame (r : LRec) (s : State) : ∃ e n, queueRec r s = { s with ev := e, nv := n } ∧ SameStore n s.nv := by
  unfold queueRec
  dsimp only
  split
  · exact ⟨_, _, rfl, ⟨rfl, rfl, rfl, rfl, rfl, rfl, rfl⟩⟩
  · unfold mirror
    dsimp only
    obtain ⟨e, h1⟩ := fabricPut_frame 95 (if r.code = 0xFFFF then 0x1F6 else r.code.setWidth 9)
      (fun sl => .mirror (if r.code = 0xFFFF then 0x1F6 else r.code.setWidth 9) (r.lseq.setWidth 16) r.time true sl)
      { s with nv := { s.nv with qDrop := satInc s.nv.qDrop, gapNext := true } }
    exact ⟨_, _, h1, ⟨rfl, rfl, rfl, rfl, rfl, rfl, rfl⟩⟩

/-- A record changes the event side and the ledger's queue, counters and fault cells only. -/
theorem recordAt_frame (type code : Nat) (data : List Byte) (ts : TStamp) (s : State) :
    ∃ e n, recordAt type code data ts s = { s with ev := e, nv := n } ∧ SameStore n s.nv := by
  unfold recordAt
  dsimp only
  split
  · exact ⟨_, _, rfl, ⟨rfl, rfl, rfl, rfl, rfl, rfl, rfl⟩⟩
  · split
    · obtain ⟨e, n, h1, h2⟩ := recordLost_frame (mkRec type code data ts s) { s with nv := { s.nv with lseq := s.nv.lseq + 1 } }
      exact ⟨e, n, h1, ⟨h2.mem, h2.vault, h2.stored, h2.login, h2.clog, h2.ledger, h2.commit⟩⟩
    · obtain ⟨e, n, h1, h2⟩ := queueRec_frame (mkRec type code data ts s) { s with nv := { s.nv with lseq := s.nv.lseq + 1 } }
      exact ⟨e, n, h1, ⟨h2.mem, h2.vault, h2.stored, h2.login, h2.clog, h2.ledger, h2.commit⟩⟩

theorem record_frame (type code : Nat) (data : List Byte) (s : State) :
    ∃ e n, record type code data s = { s with ev := e, nv := n } ∧ SameStore n s.nv := recordAt_frame _ _ _ _ _

@[simp] theorem raise_sys (code : Nat) (data : W16) (s : State) : (raise code data s).sys = s.sys := by
  obtain ⟨e, h⟩ := raise_frame code data s; rw [h]

@[simp] theorem raise_dc (code : Nat) (data : W16) (s : State) : (raise code data s).dc = s.dc := by
  obtain ⟨e, h⟩ := raise_frame code data s; rw [h]

@[simp] theorem recordAt_sys (type code : Nat) (data : List Byte) (ts : TStamp) (s : State) : (recordAt type code data ts s).sys = s.sys := by
  obtain ⟨e, n, h, _⟩ := recordAt_frame type code data ts s; rw [h]

@[simp] theorem recordAt_dc (type code : Nat) (data : List Byte) (ts : TStamp) (s : State) : (recordAt type code data ts s).dc = s.dc := by
  obtain ⟨e, n, h, _⟩ := recordAt_frame type code data ts s; rw [h]

@[simp] theorem record_sys (type code : Nat) (data : List Byte) (s : State) : (record type code data s).sys = s.sys := by
  obtain ⟨e, n, h, _⟩ := record_frame type code data s; rw [h]

@[simp] theorem record_dc (type code : Nat) (data : List Byte) (s : State) : (record type code data s).dc = s.dc := by
  obtain ⟨e, n, h, _⟩ := record_frame type code data s; rw [h]

/-- The DRP falls of a mode change leave the doors alone. -/
theorem drpFalls_dc (s : State) : (drpFalls s).dc = s.dc := by
  unfold drpFalls
  generalize List.finRange 8 = l
  induction l generalizing s with
  | nil => rfl
  | cons b l ih =>
    rw [List.foldl_cons, ih]
    split
    · simp [drpFall]
    · rfl

end Sys2Proof.Machine
end

