-- ==== Sys2Proof/Laws/Kept.lean ====
section
/-! SUPPORT. What every operation of the machine keeps: the image (or it is cleared), the queue, a legal mode change, the memories'
canonical form, outputs off outside service, and no stop sequence or waiting mode change where none belongs. One lemma per
operation says that it keeps these. -/

namespace Sys2Proof.Machine

open Sys2Proof

/-- `x` keeps what a command that began with image `c`, queue `q` and mode `m` has to keep; the outputs with `o` only, since they
follow a mode change. -/
structure Kept (c : Image) (q : List Instr) (m : Mode) (o : Bool) (x : State) : Prop where
  image : x.cfg = c ∨ x.cfg = {}
  queue : x.pending = q
  mode : moves m x.sys.mode = true
  mems : MemoriesOk x
  off : o = true → OffOutside x
  plans : PlansOk x

/-- The same of an answer. -/
def KeptR (c : Image) (q : List Instr) (m : Mode) (o : Bool) : Result → Prop
  | .next x => Kept c q m o x
  | _ => True

/-- The same of an optional state. -/
def KeptO (c : Image) (q : List Instr) (m : Mode) (o : Bool) : Option State → Prop
  | some x => Kept c q m o x
  | none => True

variable {c : Image} {q : List Instr} {m : Mode} {o : Bool} {x : State}

theorem Kept.next (h : Kept c q m o x) : KeptR c q m o (.next x) := h

theorem Kept.some (h : Kept c q m o x) : KeptO c q m o (some x) := h

theorem Kept.none : KeptO c q m o none := trivial

theorem Kept.of {r : Option State} (e : r = Option.some x) (h : KeptO c q m o r) : Kept c q m o x := by subst e; exact h

/-- Less is kept when the outputs are left aside. -/
theorem Kept.loose (h : Kept c q m o x) : Kept c q m false x :=
  ⟨h.image, h.queue, h.mode, h.mems, fun e => absurd e (by decide), h.plans⟩

/-- With every output off. -/
theorem Kept.tight (h : Kept c q m false x) (k : OutputsOff x) : Kept c q m o x :=
  ⟨h.image, h.queue, h.mode, h.mems, fun _ => .inr k, h.plans⟩

/-- The doors change, outputs aside. -/
theorem Kept.doors (h : Kept c q m o x) (d : Dc) : Kept c q m false { x with dc := d } :=
  ⟨h.image, h.queue, h.mode, h.mems, fun e => absurd e (by decide), h.plans⟩

/-- The mode changes, outputs aside. -/
theorem Kept.move (h : Kept c q m o x) {now : Nat} {ts : TStamp} {run : Bool} {free : Nat} {grid : Grid} {sys : Sys} {ev : Ev} {nv : Nv}
    {wf : Wf} {hd : Hd} {sc : Sc} {berth : Vector Berth 8} {dc : Dc} {tg : Tg} {ports : Ports} {ck : Vector Ck 8} {st : St} {cs : Cs}
    {db : Db} {hb : Hb} {um : Um} (h1 : moves m sys.mode = true)
    (h2 : sys.stop.isSome = true → sys.mode = .operate ∨ sys.mode = .degraded) (h3 : sys.pendMode.isSome = true → sys.mode = .prove)
    (h6 : nv.mem = x.nv.mem) (h7 : sc.tack = x.sc.tack) (h8 : cs.imem = x.cs.imem) (h9 : cs.dmem = x.cs.dmem) :
    Kept c q m false (State.mk now ts run free grid x.cfg sys ev nv wf hd sc berth dc tg ports ck st cs db hb um x.pending) := by
  obtain ⟨a1, a2, _, ⟨b1, b2, b3, b4⟩, _, _, _⟩ := h
  exact ⟨a1, a2, h1, ⟨by simpa [h6] using b1, by simpa [h8] using b2, by simpa [h9] using b3, by simpa [h7] using b4⟩,
    fun e => absurd e (by decide), fun e => by simpa [inService] using h2 e, h3⟩

theorem moves_safe (m : Mode) : moves m .safe = true := by cases m <;> rfl

theorem moves_reset (m : Mode) : moves m .reset = true := by cases m <;> rfl

/-- The same where what the outputs become depends on the mode. -/
theorem Kept.putS (h : Kept c q m o x) {now : Nat} {ts : TStamp} {run : Bool} {free : Nat} {grid : Grid} {sys : Sys} {ev : Ev} {nv : Nv}
    {wf : Wf} {hd : Hd} {sc : Sc} {berth : Vector Berth 8} {dc : Dc} {tg : Tg} {ports : Ports} {ck : Vector Ck 8} {st : St} {cs : Cs}
    {db : Db} {hb : Hb} {um : Um} (h1 : sys.mode = x.sys.mode) (h2 : sys.stop = x.sys.stop) (h3 : sys.pendMode = x.sys.pendMode)
    (h4 : sys.safeHi = x.sys.safeHi) (h5 : sys.lifeHi = x.sys.lifeHi) (h6 : nv.mem = x.nv.mem) (h7 : sc.tack = x.sc.tack)
    (h8 : cs.imem = x.cs.imem) (h9 : cs.dmem = x.cs.dmem) (h10 : inService x = false → BerthsOff x.berth → BerthsOff berth)
    (h11 : inService x = false → DoorsOff x.dc → DoorsOff dc) :
    Kept c q m o (State.mk now ts run free grid x.cfg sys ev nv wf hd sc berth dc tg ports ck st cs db hb um x.pending) := by
  obtain ⟨a1, a2, a3, ⟨b1, b2, b3, b4⟩, a5, a6, a7⟩ := h
  refine ⟨a1, a2, by simpa [h1] using a3, ⟨by simpa [h6] using b1, by simpa [h8] using b2, by simpa [h9] using b3,
    by simpa [h7] using b4⟩, ?_, ?_, ?_⟩
  · intro ho
    rcases a5 ho with a5 | ⟨d1, d2, d3, d4⟩
    · exact .inl (by simpa [inService, h1] using a5)
    · cases hs : inService x with
      | true => exact .inl (by simpa [inService, h1] using hs)
      | false => exact .inr ⟨h10 hs d1, h11 hs d2, by simpa [h4] using d3, by simpa [h5] using d4⟩
  · simpa [inService, h1, h2] using a6
  · simpa [h1, h3] using a7

/-- A state that differs from `x` only in what Kept does not look at. -/
theorem Kept.put (h : Kept c q m o x) {now : Nat} {ts : TStamp} {run : Bool} {free : Nat} {grid : Grid} {sys : Sys} {ev : Ev} {nv : Nv}
    {wf : Wf} {hd : Hd} {sc : Sc} {berth : Vector Berth 8} {dc : Dc} {tg : Tg} {ports : Ports} {ck : Vector Ck 8} {st : St} {cs : Cs}
    {db : Db} {hb : Hb} {um : Um} (h1 : sys.mode = x.sys.mode) (h2 : sys.stop = x.sys.stop) (h3 : sys.pendMode = x.sys.pendMode)
    (h4 : sys.safeHi = x.sys.safeHi) (h5 : sys.lifeHi = x.sys.lifeHi) (h6 : nv.mem = x.nv.mem) (h7 : sc.tack = x.sc.tack)
    (h8 : cs.imem = x.cs.imem) (h9 : cs.dmem = x.cs.dmem) (h10 : BerthsOff x.berth → BerthsOff berth)
    (h11 : DoorsOff x.dc → DoorsOff dc) :
    Kept c q m o (State.mk now ts run free grid x.cfg sys ev nv wf hd sc berth dc tg ports ck st cs db hb um x.pending) :=
  h.putS h1 h2 h3 h4 h5 h6 h7 h8 h9 (fun _ => h10) (fun _ => h11)

/-- A state whose memories change as well, in their canonical form. -/
theorem Kept.store (h : Kept c q m o x) {nv : Nv} {sc : Sc} {cs : Cs} (h6 : Memory.wf 0xFF nv.mem = true)
    (h7 : Memory.wf 0 sc.tack = true) (h8 : Memory.wf 0xFF cs.imem = true) (h9 : Memory.wf 0 cs.dmem = true) :
    Kept c q m o { x with nv := nv, sc := sc, cs := cs } :=
  ⟨h.image, h.queue, h.mode, ⟨h6, h8, h9, h7⟩, h.off, h.plans⟩

/-- Another image is in force. -/
theorem Kept.reimage (h : Kept c q m o x) (i : Image) : Kept i q m o { x with cfg := i } :=
  ⟨.inl rfl, h.queue, h.mode, h.mems, h.off, h.plans⟩

/-- The NVM array changes, in its canonical form. -/
theorem Kept.nvMem (h : Kept c q m o x) {nv : Nv} (k : Memory.wf 0xFF nv.mem = true) : Kept c q m o { x with nv := nv } :=
  ⟨h.image, h.queue, h.mode, ⟨k, h.mems.2⟩, h.off, h.plans⟩

theorem foldl_kept {α : Type} {f : State → α → State} (hf : ∀ y a, Kept c q m o y → Kept c q m o (f y a)) (l : List α)
    (h : Kept c q m o x) : Kept c q m o (l.foldl f x) := by
  induction l generalizing x with
  | nil => exact h
  | cons a l ih => exact ih (hf x a h)

theorem ite_kept {p : Prop} [Decidable p] {y : State} (h : Kept c q m o x) (k : Kept c q m o y) : Kept c q m o (if p then x else y) := by
  split <;> assumption

theorem iteR_kept {p : Prop} [Decidable p] {y z : Result} (h : KeptR c q m o y) (k : KeptR c q m o z) :
    KeptR c q m o (if p then y else z) := by
  split <;> assumption

end Sys2Proof.Machine
end

