-- ==== Sys2Proof/Laws/KeptOps.lean ====
section
/-! SUPPORT. The operations of Machine/Ops.lean keep what Kept says. -/

namespace Sys2Proof.Machine

open Sys2Proof

variable {c : Image} {q : List Instr} {m : Mode} {o : Bool}

theorem advance_kept (a1) {s : State} (h : Kept c q m o s) :
    Kept c q m o (advance a1 s) := by
  unfold advance
  try dsimp only
  repeat' first
    | with_reducible exact h | with_reducible assumption | exact id | rfl | exact fun _ => rfl | split
    | (with_reducible refine Kept.put ?_ rfl rfl rfl rfl rfl rfl rfl rfl rfl id id)

theorem reach_kept (a1) (a2) {s : State} (h : Kept c q m o s) :
    Kept c q m o (reach a1 a2 s) := by
  unfold reach
  try dsimp only
  repeat' first
    | with_reducible exact h | with_reducible apply advance_kept

theorem reachTick_kept {s : State} (h : Kept c q m o s) :
    Kept c q m o (reachTick s) := by
  unfold reachTick
  try dsimp only
  repeat' first
    | with_reducible exact h | with_reducible apply reach_kept | with_reducible assumption | exact id | rfl
    | exact fun _ => rfl | split

theorem noteLatch_kept {s : State} (h : Kept c q m o s) :
    Kept c q m o (noteLatch s) := by
  unfold noteLatch
  try dsimp only
  repeat' first
    | with_reducible exact h | with_reducible assumption | exact id | rfl | exact fun _ => rfl | split
    | (with_reducible refine Kept.put ?_ rfl rfl rfl rfl rfl rfl rfl rfl rfl id id)

theorem draw_kept {s : State} (h : Kept c q m o s) :
    Kept c q m o (draw s).2 := by
  unfold draw
  try dsimp only
  repeat' first
    | with_reducible exact h | with_reducible assumption | exact id | rfl | exact fun _ => rfl | split
    | (with_reducible refine Kept.put ?_ rfl rfl rfl rfl rfl rfl rfl rfl rfl id id)

theorem drawBit_kept {s : State} (h : Kept c q m o s) :
    Kept c q m o (drawBit s).2 := by
  unfold drawBit
  try dsimp only
  repeat' first
    | with_reducible exact h | with_reducible assumption | exact id | rfl | exact fun _ => rfl | split
    | (with_reducible refine Kept.put ?_ rfl rfl rfl rfl rfl rfl rfl rfl rfl id id)

theorem fabricPut_kept (a1) (a2) (a3) {s : State} (h : Kept c q m o s) :
    Kept c q m o (fabricPut a1 a2 a3 s) := by
  unfold fabricPut
  try dsimp only
  repeat' first
    | with_reducible exact h | with_reducible assumption | exact id | rfl | exact fun _ => rfl | split
    | (with_reducible refine Kept.put ?_ rfl rfl rfl rfl rfl rfl rfl rfl rfl id id)

theorem raiseAt_kept (a1) (a2) (a3) (a4) {s : State} (h : Kept c q m o s) :
    Kept c q m o (raiseAt a1 a2 a3 a4 s) := by
  unfold raiseAt
  try dsimp only
  repeat' first
    | with_reducible exact h | with_reducible apply fabricPut_kept

theorem raise_kept (a1) (a2) {s : State} (h : Kept c q m o s) :
    Kept c q m o (raise a1 a2 s) := by
  unfold raise
  try dsimp only
  repeat' first
    | with_reducible exact h | with_reducible apply raiseAt_kept

theorem recovery_kept (a1) (a2) {s : State} (h : Kept c q m o s) :
    Kept c q m o (recovery a1 a2 s) := by
  unfold recovery
  try dsimp only
  repeat' first
    | with_reducible exact h | with_reducible assumption | exact id | rfl | exact fun _ => rfl | split
    | (with_reducible refine Kept.put ?_ rfl rfl rfl rfl rfl rfl rfl rfl rfl id id)

theorem mirror_kept (a1) (a2) {s : State} (h : Kept c q m o s) :
    Kept c q m o (mirror a1 a2 s) := by
  unfold mirror
  try dsimp only
  repeat' first
    | with_reducible exact h | with_reducible apply fabricPut_kept

theorem cellPut_kept (a1) (a2) {s : State} (h : Kept c q m o s) :
    Kept c q m o (cellPut a1 a2 s) := by
  unfold cellPut
  try dsimp only
  repeat' first
    | with_reducible exact h | with_reducible assumption | exact id | rfl | exact fun _ => rfl | split
    | (with_reducible refine Kept.put ?_ rfl rfl rfl rfl rfl rfl rfl rfl rfl id id)

theorem recordLost_kept (a1) {s : State} (h : Kept c q m o s) :
    Kept c q m o (recordLost a1 s) := by
  unfold recordLost
  try dsimp only
  repeat' first
    | with_reducible exact h | with_reducible apply mirror_kept | with_reducible apply cellPut_kept
    | with_reducible apply raise_kept | with_reducible assumption | exact id | rfl | exact fun _ => rfl | split
    | (with_reducible refine Kept.put ?_ rfl rfl rfl rfl rfl rfl rfl rfl rfl id id)

theorem queueRec_kept (a1) {s : State} (h : Kept c q m o s) :
    Kept c q m o (queueRec a1 s) := by
  unfold queueRec
  try dsimp only
  repeat' first
    | with_reducible exact h | with_reducible apply mirror_kept | with_reducible assumption | exact id | rfl
    | exact fun _ => rfl | split | (with_reducible refine Kept.put ?_ rfl rfl rfl rfl rfl rfl rfl rfl rfl id id)

theorem recordAt_kept (a1) (a2) (a3) (a4) {s : State} (h : Kept c q m o s) :
    Kept c q m o (recordAt a1 a2 a3 a4 s) := by
  unfold recordAt
  try dsimp only
  repeat' first
    | with_reducible exact h | with_reducible apply recordLost_kept | with_reducible apply queueRec_kept
    | with_reducible assumption | exact id | rfl | exact fun _ => rfl | split
    | (with_reducible refine Kept.put ?_ rfl rfl rfl rfl rfl rfl rfl rfl rfl id id)

theorem record_kept (a1) (a2) (a3) {s : State} (h : Kept c q m o s) :
    Kept c q m o (record a1 a2 a3 s) := by
  unfold record
  try dsimp only
  repeat' first
    | with_reducible exact h | with_reducible apply recordAt_kept

theorem eventRecord_kept (a1) (a2) {s : State} (h : Kept c q m o s) :
    Kept c q m o (eventRecord a1 a2 s) := by
  unfold eventRecord
  try dsimp only
  repeat' first
    | with_reducible exact h | with_reducible apply record_kept

theorem raiseRec_kept (a1) (a2) {s : State} (h : Kept c q m o s) :
    Kept c q m o (raiseRec a1 a2 s) := by
  unfold raiseRec
  try dsimp only
  repeat' first
    | with_reducible exact h | with_reducible apply eventRecord_kept | with_reducible apply raise_kept

theorem setItem_kept (a1) (a2) {s : State} (h : Kept c q m o s) :
    Kept c q m o (setItem a1 a2 s) := by
  unfold setItem
  try dsimp only
  repeat' first
    | with_reducible exact h | with_reducible apply record_kept | with_reducible apply raise_kept | with_reducible assumption
    | exact id | rfl | exact fun _ => rfl | split
    | (with_reducible refine Kept.put ?_ rfl rfl rfl rfl rfl rfl rfl rfl rfl id id)

theorem clearUnit_kept (a1) (a2) {s : State} (h : Kept c q m o s) :
    Kept c q m o (clearUnit a1 a2 s) := by
  unfold clearUnit
  try dsimp only
  repeat' first
    | with_reducible exact h | with_reducible apply record_kept | with_reducible apply raise_kept | with_reducible assumption
    | exact id | rfl | exact fun _ => rfl | split
    | (with_reducible refine Kept.put ?_ rfl rfl rfl rfl rfl rfl rfl rfl rfl id id)

theorem clearItem_kept (a1) {s : State} (h : Kept c q m o s) :
    Kept c q m o (clearItem a1 s) := by
  unfold clearItem
  try dsimp only
  repeat' first
    | with_reducible exact h | with_reducible apply clearUnit_kept

theorem activity_kept (a1) (a2) {s : State} (h : Kept c q m o s) :
    Kept c q m o (activity a1 a2 s) := by
  unfold activity
  try dsimp only
  repeat' first
    | with_reducible exact h | with_reducible assumption | exact id | rfl | exact fun _ => rfl | split
    | (with_reducible refine Kept.put ?_ rfl rfl rfl rfl rfl rfl rfl rfl rfl id id)
    | (with_reducible refine Kept.put ?_ rfl rfl rfl rfl rfl rfl rfl rfl rfl ?_ ?_)
    | (intro hb i; have hb := hb i; simp only [get_upd, get_mapv]; (repeat' split) <;> simp_all; done)

theorem headActivity_kept (a1) (a2) {s : State} (h : Kept c q m o s) :
    Kept c q m o (headActivity a1 a2 s) := by
  unfold headActivity
  try dsimp only
  repeat' first
    | with_reducible exact h | with_reducible apply activity_kept | (with_reducible apply foldl_kept; intro _ _ _)
    | with_reducible assumption | exact id | rfl | exact fun _ => rfl | split

theorem burstAbort_kept (a1) {s : State} (h : Kept c q m o s) :
    Kept c q m o (burstAbort a1 s) := by
  unfold burstAbort
  try dsimp only
  repeat' first
    | with_reducible exact h | with_reducible assumption | exact id | rfl | exact fun _ => rfl | split
    | (with_reducible refine Kept.put ?_ rfl rfl rfl rfl rfl rfl rfl rfl rfl id id)

theorem abortBursts_kept (a1) {s : State} (h : Kept c q m o s) :
    Kept c q m o (abortBursts a1 s) := by
  unfold abortBursts
  try dsimp only
  repeat' first
    | with_reducible exact h | with_reducible apply burstAbort_kept | (with_reducible apply foldl_kept; intro _ _ _)
    | with_reducible assumption | exact id | rfl | exact fun _ => rfl | split

theorem secSet_kept (a1) (a2) (a3) (a4) {s : State} (h : Kept c q m o s) :
    Kept c q m o (secSet a1 a2 a3 a4 s) := by
  unfold secSet
  try dsimp only
  repeat' first
    | with_reducible exact h | with_reducible apply abortBursts_kept | with_reducible apply activity_kept
    | with_reducible apply raise_kept | with_reducible assumption | exact id | rfl | exact fun _ => rfl | split
    | (with_reducible refine Kept.put ?_ rfl rfl rfl rfl rfl rfl rfl rfl rfl id id)

theorem setRstep_kept (a1) (a2) (a3) {s : State} (h : Kept c q m o s) :
    Kept c q m o (setRstep a1 a2 a3 s) := by
  unfold setRstep
  try dsimp only
  repeat' first
    | with_reducible exact h | with_reducible assumption | exact id | rfl | exact fun _ => rfl | split
    | (with_reducible refine Kept.put ?_ rfl rfl rfl rfl rfl rfl rfl rfl rfl id id)

theorem disturb_kept (a1) (a2) (a3) {s : State} (h : Kept c q m o s) :
    Kept c q m o (disturb a1 a2 a3 s) := by
  unfold disturb
  try dsimp only
  repeat' first
    | with_reducible exact h | with_reducible apply secSet_kept | with_reducible apply setRstep_kept
    | with_reducible apply raiseRec_kept | with_reducible assumption | exact id | rfl | exact fun _ => rfl | split

theorem disturbMask_kept (a1) (a2) (a3) {s : State} (h : Kept c q m o s) :
    Kept c q m o (disturbMask a1 a2 a3 s) := by
  unfold disturbMask
  try dsimp only
  repeat' first
    | with_reducible exact h | with_reducible apply disturb_kept | (with_reducible apply foldl_kept; intro _ _ _)
    | with_reducible assumption | exact id | rfl | exact fun _ => rfl | split

theorem disturbAll_kept {s : State} (h : Kept c q m o s) :
    Kept c q m o (disturbAll s) := by
  unfold disturbAll
  try dsimp only
  repeat' first
    | with_reducible exact h | with_reducible apply disturb_kept | (with_reducible apply foldl_kept; intro _ _ _)
    | with_reducible assumption | exact id | rfl | exact fun _ => rfl | split

theorem secEval_kept (a1) {s : State} (a2) (h : Kept c q m o s) :
    Kept c q m o (secEval a1 s a2) := by
  unfold secEval
  try dsimp only
  repeat' first
    | with_reducible exact h | with_reducible apply secSet_kept | with_reducible apply setRstep_kept
    | with_reducible apply raise_kept | with_reducible assumption | exact id | rfl | exact fun _ => rfl | split

theorem secEvalAll_kept (a1) {s : State} (h : Kept c q m o s) :
    Kept c q m o (secEvalAll a1 s) := by
  unfold secEvalAll
  try dsimp only
  repeat' first
    | with_reducible exact h | with_reducible apply secEval_kept | (with_reducible apply foldl_kept; intro _ _ _)
    | with_reducible assumption

theorem chanSet_kept (a1) (a2) (a3) {s : State} (h : Kept c q m o s)
    (k : o = true → inService s = false → torqueOn a2 = false) : Kept c q m o (chanSet a1 a2 a3 s) := by
  have h1 : Kept c q m o { s with dc := { s.dc with chan := upd s.dc.chan a1 fun x =>
      { x with state := a2, cause := BitVec.ofNat 5 a3,
               armed := if a2 = .inactive || a2 = .locked || a2 = .isolated then false else x.armed } } } := by
    cases o with
    | false => exact h.doors _
    | true =>
      refine h.putS rfl rfl rfl rfl rfl rfl rfl rfl rfl (fun _ => id) (fun hs => ?_)
      rintro ⟨d1, d2, d3⟩
      refine ⟨d1, d2, fun i => ?_⟩
      have d4 := d3 i
      have := k rfl hs
      simp only [get_upd]
      split <;> simp_all
  unfold chanSet
  dsimp only
  exact ite_kept h1 (raise_kept _ _ h1)

theorem endLogin_kept (a1) (a2) {s : State} (h : Kept c q m o s) :
    Kept c q m o (endLogin a1 a2 s) := by
  unfold endLogin
  try dsimp only
  repeat' first
    | with_reducible exact h | with_reducible apply record_kept | with_reducible assumption | exact id | rfl
    | exact fun _ => rfl | split | (with_reducible refine Kept.put ?_ rfl rfl rfl rfl rfl rfl rfl rfl rfl id id)

theorem ipendSet_kept (a1) {s : State} (h : Kept c q m o s) :
    Kept c q m o (ipendSet a1 s) := by
  unfold ipendSet
  try dsimp only
  repeat' first
    | with_reducible exact h | with_reducible assumption | exact id | rfl | exact fun _ => rfl | split
    | (with_reducible refine Kept.put ?_ rfl rfl rfl rfl rfl rfl rfl rfl rfl id id)

theorem discardOps_kept {s : State} (h : Kept c q m o s) :
    Kept c q m o (discardOps s) := by
  unfold discardOps
  try dsimp only
  repeat' first
    | with_reducible exact h | with_reducible assumption | exact id | rfl | exact fun _ => rfl | split
    | (with_reducible refine Kept.put ?_ rfl rfl rfl rfl rfl rfl rfl rfl rfl id id)

theorem leaveMonitor_kept {s : State} (h : Kept c q m o s) :
    Kept c q m o (leaveMonitor s) := by
  unfold leaveMonitor
  try dsimp only
  repeat' first
    | with_reducible exact h | with_reducible assumption | exact id | rfl | exact fun _ => rfl | split
    | (with_reducible refine Kept.put ?_ rfl rfl rfl rfl rfl rfl rfl rfl rfl id id)

theorem cantleStop_kept (a1) {s : State} (h : Kept c q m o s) :
    Kept c q m o (cantleStop a1 s) := by
  unfold cantleStop
  try dsimp only
  repeat' first
    | with_reducible exact h | with_reducible apply leaveMonitor_kept | with_reducible apply discardOps_kept
    | with_reducible assumption | exact id | rfl | exact fun _ => rfl | split
    | (with_reducible refine Kept.put ?_ rfl rfl rfl rfl rfl rfl rfl rfl rfl id id)

theorem wdFault_kept (a1) (a2) {s : State} (h : Kept c q m o s) :
    Kept c q m o (wdFault a1 a2 s) := by
  unfold wdFault
  try dsimp only
  repeat' first
    | with_reducible exact h | with_reducible apply setItem_kept | with_reducible apply eventRecord_kept
    | with_reducible apply raiseAt_kept | with_reducible assumption | exact id | rfl | exact fun _ => rfl | split
    | (with_reducible refine Kept.put ?_ rfl rfl rfl rfl rfl rfl rfl rfl rfl id id)

theorem cantleHalted_kept (a1) {s : State} (h : Kept c q m o s) :
    Kept c q m o (cantleHalted a1 s) := by
  unfold cantleHalted
  try dsimp only
  repeat' first
    | with_reducible exact h | with_reducible apply wdFault_kept | with_reducible apply cantleStop_kept

theorem sessionEnd_kept {s : State} (h : Kept c q m o s) :
    Kept c q m o (sessionEnd s) := by
  unfold sessionEnd
  try dsimp only
  repeat' first
    | with_reducible exact h | with_reducible apply leaveMonitor_kept | with_reducible assumption | exact id | rfl
    | exact fun _ => rfl | split | (with_reducible refine Kept.put ?_ rfl rfl rfl rfl rfl rfl rfl rfl rfl id id)

theorem usbDisconnect_kept {s : State} (h : Kept c q m o s) :
    Kept c q m o (usbDisconnect s) := by
  unfold usbDisconnect
  try dsimp only
  repeat' first
    | with_reducible exact h | with_reducible assumption | exact id | rfl | exact fun _ => rfl | split
    | (with_reducible refine Kept.put ?_ rfl rfl rfl rfl rfl rfl rfl rfl rfl id id)

theorem usbConnect_kept {s : State} (h : Kept c q m o s) :
    Kept c q m o (usbConnect s) := by
  unfold usbConnect
  try dsimp only
  repeat' first
    | with_reducible exact h | with_reducible assumption | exact id | rfl | exact fun _ => rfl | split
    | (with_reducible refine Kept.put ?_ rfl rfl rfl rfl rfl rfl rfl rfl rfl id id)

theorem portsOff_kept {s : State} (h : Kept c q m o s) :
    Kept c q m o (portsOff s) := by
  unfold portsOff
  try dsimp only
  repeat' first
    | with_reducible exact h | with_reducible assumption | exact id | rfl | exact fun _ => rfl | split
    | (with_reducible refine Kept.put ?_ rfl rfl rfl rfl rfl rfl rfl rfl rfl id id)

theorem mdioStart_kept {s : State} (h : Kept c q m o s) :
    Kept c q m o (mdioStart s) := by
  unfold mdioStart
  try dsimp only
  repeat' first
    | with_reducible exact h | with_reducible assumption | exact id | rfl | exact fun _ => rfl | split
    | (with_reducible refine Kept.put ?_ rfl rfl rfl rfl rfl rfl rfl rfl rfl id id)

theorem ethOn_kept {s : State} (h : Kept c q m o s) :
    Kept c q m o (ethOn s) := by
  unfold ethOn
  try dsimp only
  repeat' first
    | with_reducible exact h | with_reducible apply mdioStart_kept | with_reducible assumption | exact id | rfl
    | exact fun _ => rfl | split | (with_reducible refine Kept.put ?_ rfl rfl rfl rfl rfl rfl rfl rfl rfl id id)

theorem canOn_kept {s : State} (h : Kept c q m o s) :
    Kept c q m o (canOn s) := by
  unfold canOn
  try dsimp only
  repeat' first
    | with_reducible exact h | with_reducible assumption | exact id | rfl | exact fun _ => rfl | split
    | (with_reducible refine Kept.put ?_ rfl rfl rfl rfl rfl rfl rfl rfl rfl id id)

theorem drpFall_kept (a1) {s : State} (a2) (h : Kept c q m o s) :
    Kept c q m o (drpFall a1 s a2) := by
  unfold drpFall
  try dsimp only
  repeat' first
    | with_reducible exact h | with_reducible apply recordAt_kept | with_reducible assumption | exact id | rfl
    | exact fun _ => rfl | split | (with_reducible refine Kept.put ?_ rfl rfl rfl rfl rfl rfl rfl rfl rfl id id)
    | (with_reducible refine Kept.put ?_ rfl rfl rfl rfl rfl rfl rfl rfl rfl ?_ ?_)
    | (intro hb i; have hb := hb i; simp only [get_upd, get_mapv]; (repeat' split) <;> simp_all; done)

theorem drpFalls_kept {s : State} (h : Kept c q m o s) :
    Kept c q m o (drpFalls s) := by
  unfold drpFalls
  try dsimp only
  repeat' first
    | with_reducible exact h | with_reducible apply drpFall_kept | (with_reducible apply foldl_kept; intro _ _ _)
    | with_reducible assumption | exact id | rfl | exact fun _ => rfl | split

theorem safeOutputs_off (s : State) : OutputsOff (safeOutputs s) := by
  refine ⟨fun b => ?_, ⟨rfl, rfl, fun c => ?_⟩, rfl, rfl⟩
  · simp [safeOutputs]
  · simp [safeOutputs, stoOff, torqueOn]

theorem unlockRecord_kept (a1) (a2) (a3) {s : State} (h : Kept c q m o s) :
    Kept c q m o (unlockRecord a1 a2 a3 s) := by
  unfold unlockRecord
  try dsimp only
  repeat' first
    | with_reducible exact h | with_reducible apply record_kept | with_reducible assumption | exact id | rfl
    | exact fun _ => rfl | split

theorem unlockDrop_kept {s : State} (h : Kept c q m o s) : Kept c q m o (unlockDrop s) := by
  unfold unlockDrop
  dsimp only
  refine foldl_kept (fun _ _ k => unlockRecord_kept _ _ _ k) _ ?_
  exact h.put rfl rfl rfl rfl rfl rfl rfl rfl rfl id fun k => ⟨k.1, k.2.1, fun i => by simpa [get_mapv] using k.2.2 i⟩

/-- The outputs of the safe state need no premise on those before. -/
theorem safeOutputs_kept {b : Bool} {s : State} (h : Kept c q m b s) : Kept c q m o (safeOutputs s) :=
  Kept.tight ⟨h.image, h.queue, h.mode, h.mems, fun e => absurd e (by decide), h.plans⟩ (safeOutputs_off s)

theorem inactiveEvent_kept {s : State} (a1) (h : Kept c q m o s) :
    Kept c q m o (inactiveEvent s a1) := by
  unfold inactiveEvent
  try dsimp only
  repeat' first
    | with_reducible exact h | with_reducible apply raise_kept | with_reducible assumption | exact id | rfl | exact fun _ => rfl
    | split

theorem stopProving_kept {s : State} (h : Kept c q m o s) :
    Kept c q m o (stopProving s) := by
  unfold stopProving
  try dsimp only
  repeat' first
    | with_reducible exact h | with_reducible assumption | exact id | rfl | exact fun _ => rfl | split
    | (with_reducible refine Kept.put ?_ rfl rfl rfl rfl rfl rfl rfl rfl rfl id id)

theorem setNv_kept (a1) {s : State} (h : Kept c q m o s) (k : (a1 s.nv).mem = s.nv.mem) : Kept c q m o (setNv a1 s) :=
  h.put rfl rfl rfl rfl rfl k rfl rfl rfl id id

theorem setResult_kept (a1) (a2) (a3) (a4) {s : State} (h : Kept c q m o s) :
    Kept c q m o (setResult a1 a2 a3 a4 s) := by
  unfold setResult
  try dsimp only
  repeat' first
    | with_reducible exact h | with_reducible apply setNv_kept | with_reducible assumption | exact id | rfl

theorem commitRecord_kept (a1) (a2) (a3) (a4) {s : State} (h : Kept c q m o s) :
    Kept c q m o (commitRecord a1 a2 a3 a4 s) := by
  unfold commitRecord
  try dsimp only
  repeat' first
    | with_reducible exact h | with_reducible apply record_kept

theorem commitEnd_kept (a1) (a2) (a3) (a4) (a5) (a6) {s : State} (h : Kept c q m o s) :
    Kept c q m o (commitEnd a1 a2 a3 a4 a5 a6 s) := by
  unfold commitEnd
  try dsimp only
  repeat' first
    | with_reducible exact h | with_reducible apply commitRecord_kept | with_reducible apply setResult_kept
    | with_reducible apply setNv_kept | with_reducible assumption | exact id | rfl

theorem commitAbandon_kept {s : State} (h : Kept c q m o s) :
    Kept c q m o (commitAbandon s) := by
  unfold commitAbandon
  try dsimp only
  repeat' first
    | with_reducible exact h | with_reducible apply commitEnd_kept | with_reducible assumption | exact id | rfl
    | exact fun _ => rfl | split

theorem enterSafe_kept (a1) (a2) {s : State} (h : Kept c q m o s) : Kept c q m o (enterSafe a1 a2 s) := by
  unfold enterSafe
  dsimp only
  split
  · exact h
  split
  · exact h.put rfl rfl rfl rfl rfl rfl rfl rfl rfl id id
  refine ite_kept (portsOff_kept (usbDisconnect_kept (sessionEnd_kept ?_))) (canOn_kept (ethOn_kept ?_))
  all_goals
    refine cantleStop_kept _ (Kept.put (commitAbandon_kept (endLogin_kept _ _ (endLogin_kept _ _ (unlockDrop_kept ?_))))
      rfl rfl rfl rfl rfl rfl rfl rfl rfl id id)
    refine (fun k => ite_kept k (record_kept _ _ _ k)) (record_kept _ _ _ (raise_kept _ _ (safeOutputs_kept (b := false) ?_)))
    refine foldl_kept (fun _ _ k => inactiveEvent_kept _ k) _ (disturbAll_kept (stopProving_kept (drpFalls_kept ?_)))
    exact h.move (moves_safe m) (by simp) (by simp) rfl rfl rfl rfl

end Sys2Proof.Machine
end

