-- ==== Sys2Proof/Laws/KeptSnoop.lean ====
section
/-! SUPPORT. The operations of Machine/Snoop.lean keep what Kept says. -/

namespace Sys2Proof.Machine

open Sys2Proof

variable {c : Image} {q : List Instr} {m : Mode} {o : Bool}

theorem setCk_kept (a1) (a2) {s : State} (h : Kept c q m o s) :
    Kept c q m o (setCk a1 a2 s) := by
  unfold setCk
  try dsimp only
  repeat' first
    | with_reducible exact h | with_reducible assumption | exact id | rfl | exact fun _ => rfl | split
    | (with_reducible refine Kept.put ?_ rfl rfl rfl rfl rfl rfl rfl rfl rfl id id)

theorem ckMismatch_kept (a1) (a2) (a3) {s : State} (h : Kept c q m o s) :
    Kept c q m o (ckMismatch a1 a2 a3 s) := by
  unfold ckMismatch
  try dsimp only
  repeat' first
    | with_reducible exact h | with_reducible apply setCk_kept | with_reducible apply raise_kept
    | with_reducible apply ipendSet_kept | with_reducible assumption | exact id | rfl | exact fun _ => rfl | split

theorem ckServe_kept (a1) {s : State} (a2) (h : Kept c q m o s) :
    Kept c q m o (ckServe a1 s a2) := by
  unfold ckServe
  try dsimp only
  repeat' first
    | with_reducible exact h | with_reducible apply setCk_kept | with_reducible apply ckMismatch_kept
    | with_reducible assumption | exact id | rfl | exact fun _ => rfl | split

theorem ckServeAll_kept (a1) {s : State} (h : Kept c q m o s) :
    Kept c q m o (ckServeAll a1 s) := by
  unfold ckServeAll
  try dsimp only
  repeat' first
    | with_reducible exact h | with_reducible apply ckServe_kept | with_reducible apply setCk_kept
    | (with_reducible apply foldl_kept; intro _ _ _) | with_reducible assumption | exact id | rfl | exact fun _ => rfl
    | split | (with_reducible refine Kept.put ?_ rfl rfl rfl rfl rfl rfl rfl rfl rfl id id)

theorem ckMakeRoom_kept (a1) (a2) {s : State} (h : Kept c q m o s) :
    Kept c q m o (ckMakeRoom a1 a2 s) := by
  unfold ckMakeRoom
  try dsimp only
  repeat' first
    | with_reducible exact h | with_reducible apply ckServeAll_kept | with_reducible apply setCk_kept
    | with_reducible assumption | exact id | rfl | exact fun _ => rfl | split

theorem tapUnit_kept (a1) (a2) {s : State} (a3) (h : Kept c q m o s) :
    Kept c q m o (tapUnit a1 a2 s a3) := by
  unfold tapUnit
  try dsimp only
  repeat' first
    | with_reducible exact h | with_reducible apply ckMakeRoom_kept | with_reducible apply setCk_kept
    | with_reducible assumption | exact id | rfl | exact fun _ => rfl | split
    | (with_reducible refine Kept.put ?_ rfl rfl rfl rfl rfl rfl rfl rfl rfl id id)

theorem tapOut_kept (a1) (a2) {s : State} (h : Kept c q m o s) :
    Kept c q m o (tapOut a1 a2 s) := by
  unfold tapOut
  try dsimp only
  repeat' first
    | with_reducible exact h | with_reducible apply tapUnit_kept | (with_reducible apply foldl_kept; intro _ _ _)
    | with_reducible assumption | exact id | rfl | exact fun _ => rfl | split

end Sys2Proof.Machine
end

