-- ==== Sys2Proof/Laws/KeptHostOps.lean ====
section
/-! SUPPORT. The operations of Machine/HostOps.lean keep what Kept says. -/

namespace Sys2Proof.Machine

open Sys2Proof

variable {c : Image} {q : List Instr} {m : Mode} {o : Bool}

theorem setPort_kept (a1) (a2) {s : State} (h : Kept c q m o s) :
    Kept c q m o (setPort a1 a2 s) := by
  unfold setPort
  try dsimp only
  repeat' first
    | with_reducible exact h | with_reducible assumption | exact id | rfl | exact fun _ => rfl | split
    | (with_reducible refine Kept.put ?_ rfl rfl rfl rfl rfl rfl rfl rfl rfl id id)

theorem touchLogin_kept (a1) (a2) {s : State} (h : Kept c q m o s) :
    Kept c q m o (touchLogin a1 a2 s) := by
  unfold touchLogin
  try dsimp only
  repeat' first
    | with_reducible exact h | with_reducible assumption | exact id | rfl | exact fun _ => rfl | split
    | (with_reducible refine Kept.put ?_ rfl rfl rfl rfl rfl rfl rfl rfl rfl id id)

theorem countWrite_kept (a1) (a2) {s : State} (h : Kept c q m o s) :
    Kept c q m o (countWrite a1 a2 s) := by
  unfold countWrite
  try dsimp only
  repeat' first
    | with_reducible exact h | with_reducible apply touchLogin_kept | with_reducible apply setPort_kept
    | with_reducible assumption | exact id | rfl | exact fun _ => rfl | split
    | (with_reducible refine Kept.put ?_ rfl rfl rfl rfl rfl rfl rfl rfl rfl id id)

theorem portWrite_kept (a1) (a2) (a3 : State → State) {s : State} (k : ∀ y, Kept c q m o y → Kept c q m o (a3 y)) (h : Kept c q m o s) :
    Kept c q m o (portWrite a1 a2 a3 s) := by
  unfold portWrite
  try dsimp only
  repeat' first
    | with_reducible exact h | with_reducible apply countWrite_kept | with_reducible apply k | with_reducible assumption
    | exact id | rfl | exact fun _ => rfl | split

theorem portData_kept (a1) (a2) {s : State} (h : Kept c q m o s) :
    Kept c q m o (portData a1 a2 s) := by
  unfold portData
  try dsimp only
  repeat' first
    | with_reducible exact h | with_reducible apply setPort_kept

theorem protError_kept (a1) {s : State} (h : Kept c q m o s) :
    Kept c q m o (protError a1 s) := by
  unfold protError
  try dsimp only
  repeat' first
    | with_reducible exact h | with_reducible assumption | exact id | rfl | exact fun _ => rfl | split
    | (with_reducible refine Kept.put ?_ rfl rfl rfl rfl rfl rfl rfl rfl rfl id id)

theorem busSoon_kept (a1) (a2) {s : State} (h : Kept c q m o s) :
    Kept c q m o (busSoon a1 a2 s) := by
  unfold busSoon
  try dsimp only
  repeat' first
    | with_reducible exact h | with_reducible apply protError_kept | with_reducible assumption | exact id | rfl
    | exact fun _ => rfl | split

theorem readHeld_kept (a1) {s : State} (h : Kept c q m o s) :
    Kept c q m o (readHeld a1 s) := by
  unfold readHeld
  try dsimp only
  repeat' first
    | with_reducible exact h | with_reducible assumption | exact id | rfl | exact fun _ => rfl | split
    | (with_reducible refine Kept.put ?_ rfl rfl rfl rfl rfl rfl rfl rfl rfl id id)

theorem readCycle_kept (a1) (a2) (a3 : State → State) {s : State} (k : ∀ y, Kept c q m o y → Kept c q m o (a3 y))
    (h : Kept c q m o s) : Kept c q m o (readCycle a1 a2 a3 s) :=
  readHeld_kept _ (k _ (busSoon_kept _ _ h))

theorem snapPut_kept (a1) (a2) (a3) {s : State} (h : Kept c q m o s) :
    Kept c q m o (snapPut a1 a2 a3 s) := by
  unfold snapPut
  try dsimp only
  repeat' first
    | with_reducible exact h | with_reducible apply setPort_kept

end Sys2Proof.Machine
end

