-- ==== Sys2Proof/Laws/KeptStitch.lean ====
section
/-! SUPPORT. The operations of Machine/Stitch.lean keep what Kept says. -/

namespace Sys2Proof.Machine

open Sys2Proof

variable {c : Image} {q : List Instr} {m : Mode} {o : Bool}

theorem setSt_kept (a1) {s : State} (h : Kept c q m o s) :
    Kept c q m o (setSt a1 s) := by
  unfold setSt
  try dsimp only
  repeat' first
    | with_reducible exact h | with_reducible assumption | exact id | rfl | exact fun _ => rfl | split
    | (with_reducible refine Kept.put ?_ rfl rfl rfl rfl rfl rfl rfl rfl rfl id id)

theorem mapAppend_kept (a1) (a2) (a3) (a4) {s : State} (h : Kept c q m o s) :
    Kept c q m o (mapAppend a1 a2 a3 a4 s) := by
  unfold mapAppend
  try dsimp only
  repeat' first
    | with_reducible exact h | with_reducible apply setSt_kept

theorem recordStitch_kept (a1) (a2) (a3) (a4) (a5) {s : State} (h : Kept c q m o s) :
    Kept c q m o (recordStitch a1 a2 a3 a4 a5 s) := by
  unfold recordStitch
  try dsimp only
  repeat' first
    | with_reducible exact h | with_reducible apply record_kept | with_reducible apply mapAppend_kept

theorem useSpare_kept (a1) {s : State} (h : Kept c q m o s) :
    Kept c q m o (useSpare a1 s) := by
  unfold useSpare
  try dsimp only
  repeat' first
    | with_reducible exact h | with_reducible apply setSt_kept

theorem lowCheck_kept (a1) (a2) {s : State} (h : Kept c q m o s) :
    Kept c q m o (lowCheck a1 a2 s) := by
  unfold lowCheck
  try dsimp only
  repeat' first
    | with_reducible exact h | with_reducible apply raiseRec_kept | with_reducible apply setSt_kept | with_reducible assumption
    | exact id | rfl | exact fun _ => rfl | split

theorem stitchRow_kept (a1) (a2) (a3) {s : State} (h : Kept c q m o s) :
    Kept c q m o (stitchRow a1 a2 a3 s) := by
  unfold stitchRow
  try dsimp only
  repeat' first
    | with_reducible exact h | with_reducible apply lowCheck_kept | with_reducible apply setSt_kept
    | with_reducible apply useSpare_kept | with_reducible apply raiseRec_kept | with_reducible assumption | exact id | rfl
    | exact fun _ => rfl | split

theorem eccCorrected_kept (a1) (a2) {s : State} (h : Kept c q m o s) :
    Kept c q m o (eccCorrected a1 a2 s) := by
  unfold eccCorrected
  try dsimp only
  repeat' first
    | with_reducible exact h | with_reducible apply setSt_kept | with_reducible apply raise_kept
    | with_reducible apply stitchRow_kept | with_reducible assumption | exact id | rfl | exact fun _ => rfl | split

theorem eccUncorrectable_kept (a1) (a2) {s : State} (h : Kept c q m o s) :
    Kept c q m o (eccUncorrectable a1 a2 s) := by
  unfold eccUncorrectable
  try dsimp only
  repeat' first
    | with_reducible exact h | with_reducible apply setSt_kept | with_reducible apply stitchRow_kept
    | with_reducible apply raise_kept

theorem eccFound_kept (a1) (a2) (a3) {s : State} (h : Kept c q m o s) :
    Kept c q m o (eccFound a1 a2 a3 s) := by
  unfold eccFound
  try dsimp only
  repeat' first
    | with_reducible exact h | with_reducible apply eccCorrected_kept | with_reducible apply eccUncorrectable_kept
    | with_reducible assumption | exact id | rfl | exact fun _ => rfl | split

theorem rewriteImem_kept (a1) {s : State} (h : Kept c q m o s) : Kept c q m o (rewriteImem a1 s) := by
  obtain ⟨k1, k2, k3, k4⟩ := h.mems
  unfold rewriteImem
  generalize List.map _ _ = bs
  exact h.store k1 k4 (memWriteList_wf bs _ k2) k3

theorem execRowStitchDone_kept {s : State} (h : Kept c q m o s) :
    KeptR c q m o (execRowStitchDone s) := by
  unfold execRowStitchDone
  try dsimp only
  repeat' first
    | with_reducible exact h | with_reducible apply Kept.next | with_reducible apply setSt_kept
    | with_reducible apply rewriteImem_kept | with_reducible apply recordStitch_kept | with_reducible apply raise_kept
    | with_reducible assumption | exact id | rfl | exact fun _ => rfl | split

theorem setCopy_kept (a1) (a2) {s : State} (h : Kept c q m o s) :
    Kept c q m o (setCopy a1 a2 s) := by
  unfold setCopy
  try dsimp only
  repeat' first
    | with_reducible exact h | with_reducible apply setSt_kept

theorem execStitchMapAppend_kept (a1) (a2) (a3) {s : State} (h : Kept c q m o s) :
    KeptR c q m o (execStitchMapAppend a1 a2 a3 s) := by
  unfold execStitchMapAppend
  try dsimp only
  repeat' first
    | with_reducible exact h | with_reducible apply Kept.next | with_reducible apply setCopy_kept
    | with_reducible apply raise_kept | with_reducible apply enterSafe_kept | with_reducible apply raiseRec_kept
    | with_reducible apply setSt_kept | with_reducible assumption | exact id | rfl | exact fun _ => rfl | split
    | (with_reducible refine Kept.put ?_ rfl rfl rfl rfl rfl rfl rfl rfl rfl id id)

end Sys2Proof.Machine
end

