-- ==== Sys2Proof/Laws/KeptLanes.lean ====
section
/-! SUPPORT. The operations of Machine/Lanes.lean keep what Kept says. -/

namespace Sys2Proof.Machine

open Sys2Proof

variable {c : Image} {q : List Instr} {m : Mode} {o : Bool}

theorem headOrder_kept {s : State} (h : Kept c q m o s) :
    Kept c q m o (headOrder s) := by
  unfold headOrder
  try dsimp only
  repeat' first
    | with_reducible exact h | (with_reducible apply foldl_kept; intro _ _ _) | with_reducible assumption | exact id | rfl
    | exact fun _ => rfl | split | (with_reducible refine Kept.put ?_ rfl rfl rfl rfl rfl rfl rfl rfl rfl id id)

theorem raiseHead_kept (a1) (a2) {s : State} (h : Kept c q m o s) :
    Kept c q m o (raiseHead a1 a2 s) := by
  unfold raiseHead
  try dsimp only
  repeat' first
    | with_reducible exact h | with_reducible apply headOrder_kept | with_reducible apply raise_kept
    | with_reducible assumption | exact id | rfl | exact fun _ => rfl | split

theorem raiseHeadRec_kept (a1) (a2) {s : State} (h : Kept c q m o s) :
    Kept c q m o (raiseHeadRec a1 a2 s) := by
  unfold raiseHeadRec
  try dsimp only
  repeat' first
    | with_reducible exact h | with_reducible apply eventRecord_kept | with_reducible apply raiseHead_kept
    | with_reducible assumption | exact id | rfl | exact fun _ => rfl | split

theorem laneFault_kept (a1) (a2) (a3) {s : State} (h : Kept c q m o s) :
    Kept c q m o (laneFault a1 a2 a3 s) := by
  unfold laneFault
  try dsimp only
  repeat' first
    | with_reducible exact h | with_reducible apply raiseHeadRec_kept | with_reducible apply record_kept
    | with_reducible assumption | exact id | rfl | exact fun _ => rfl | split

theorem laneTaken_kept (a1) (a2) (a3) (a4) {s : State} (h : Kept c q m o s) :
    Kept c q m o (laneTaken a1 a2 a3 a4 s) := by
  unfold laneTaken
  try dsimp only
  repeat' first
    | with_reducible exact h | with_reducible apply raiseHead_kept | with_reducible assumption | exact id | rfl
    | exact fun _ => rfl | split

theorem setInput_kept (a1) (a2) {s : State} (h : Kept c q m o s) :
    Kept c q m o (setInput a1 a2 s) := by
  unfold setInput
  try dsimp only
  repeat' first
    | with_reducible exact h | with_reducible assumption | exact id | rfl | exact fun _ => rfl | split
    | (with_reducible refine Kept.put ?_ rfl rfl rfl rfl rfl rfl rfl rfl rfl id id)

theorem setGroup_kept (a1) (a2) {s : State} (h : Kept c q m o s) :
    Kept c q m o (setGroup a1 a2 s) := by
  unfold setGroup
  try dsimp only
  repeat' first
    | with_reducible exact h | with_reducible assumption | exact id | rfl | exact fun _ => rfl | split
    | (with_reducible refine Kept.put ?_ rfl rfl rfl rfl rfl rfl rfl rfl rfl id id)

theorem setLane_kept (a1) (a2) {s : State} (h : Kept c q m o s) :
    Kept c q m o (setLane a1 a2 s) := by
  unfold setLane
  try dsimp only
  repeat' first
    | with_reducible exact h | with_reducible assumption | exact id | rfl | exact fun _ => rfl | split
    | (with_reducible refine Kept.put ?_ rfl rfl rfl rfl rfl rfl rfl rfl rfl id id)

theorem stitchLane_kept (a1) (a2) (a3) (a4) (a5) {s : State} (h : Kept c q m o s) :
    Kept c q m o (stitchLane a1 a2 a3 a4 a5 s) := by
  unfold stitchLane
  try dsimp only
  repeat' first
    | with_reducible exact h | with_reducible apply setGroup_kept | with_reducible apply laneTaken_kept
    | with_reducible apply raise_kept | with_reducible apply recordStitch_kept

theorem permanentStitch_kept (a1) (a2) (a3) {s : State} (h : Kept c q m o s) :
    Kept c q m o (permanentStitch a1 a2 a3 s) := by
  unfold permanentStitch
  try dsimp only
  repeat' first
    | with_reducible exact h | with_reducible apply stitchLane_kept

theorem faultSpare_kept (a1) {s : State} (h : Kept c q m o s) :
    Kept c q m o (faultSpare a1 s) := by
  unfold faultSpare
  try dsimp only
  repeat' first
    | with_reducible exact h | with_reducible apply setGroup_kept | with_reducible apply raise_kept
    | with_reducible apply recordStitch_kept

theorem laneProved_kept (a1) (a2) {s : State} (h : Kept c q m o s) :
    Kept c q m o (laneProved a1 a2 s) := by
  unfold laneProved
  try dsimp only
  repeat' first
    | with_reducible exact h | with_reducible apply setLane_kept

theorem raiseFault_kept (a1) (a2) {s : State} (h : Kept c q m o s) :
    Kept c q m o (raiseFault a1 a2 s) := by
  unfold raiseFault
  try dsimp only
  repeat' first
    | with_reducible exact h | with_reducible apply setInput_kept | with_reducible apply raise_kept
    | with_reducible assumption | exact id | rfl | exact fun _ => rfl | split

theorem endFault_kept (a1) (a2) {s : State} (h : Kept c q m o s) :
    Kept c q m o (endFault a1 a2 s) := by
  unfold endFault
  try dsimp only
  repeat' first
    | with_reducible exact h | with_reducible apply laneFault_kept | with_reducible apply setInput_kept
    | with_reducible assumption | exact id | rfl | exact fun _ => rfl | split

theorem clearLaneFault_kept (a1) {s : State} (h : Kept c q m o s) :
    Kept c q m o (clearLaneFault a1 s) := by
  unfold clearLaneFault
  try dsimp only
  repeat' first
    | with_reducible exact h | with_reducible apply endFault_kept | with_reducible assumption | exact id | rfl
    | exact fun _ => rfl | split

theorem startWaitingCheck_kept (a1) {s : State} (h : Kept c q m o s) :
    Kept c q m o (startWaitingCheck a1 s) := by
  unfold startWaitingCheck
  try dsimp only
  repeat' first
    | with_reducible exact h | with_reducible apply setInput_kept | with_reducible apply setGroup_kept
    | with_reducible assumption | exact id | rfl | exact fun _ => rfl | split

theorem freeSpare_kept (a1) {s : State} (h : Kept c q m o s) :
    Kept c q m o (freeSpare a1 s) := by
  unfold freeSpare
  try dsimp only
  repeat' first
    | with_reducible exact h | with_reducible apply startWaitingCheck_kept | with_reducible apply setGroup_kept

theorem countDisagree_kept (a1) (a2) {s : State} (h : Kept c q m o s) :
    Kept c q m o (countDisagree a1 a2 s) := by
  unfold countDisagree
  try dsimp only
  repeat' first
    | with_reducible exact h | with_reducible apply setInput_kept | with_reducible apply permanentStitch_kept
    | with_reducible apply laneFault_kept | with_reducible apply freeSpare_kept | with_reducible assumption | exact id | rfl
    | exact fun _ => rfl | split | (with_reducible refine Kept.put ?_ rfl rfl rfl rfl rfl rfl rfl rfl rfl id id)

theorem provedNext_kept (a1) (a2) {s : State} (h : Kept c q m o s) :
    Kept c q m o (provedNext a1 a2 s) := by
  unfold provedNext
  try dsimp only
  repeat' first
    | with_reducible exact h | with_reducible apply permanentStitch_kept | with_reducible apply setGroup_kept
    | with_reducible apply setInput_kept | with_reducible apply faultSpare_kept | with_reducible apply countDisagree_kept
    | with_reducible apply freeSpare_kept | with_reducible assumption | exact id | rfl | exact fun _ => rfl | split
    | (with_reducible refine Kept.put ?_ rfl rfl rfl rfl rfl rfl rfl rfl rfl id id)

theorem shadowStep_kept (a1) (a2) {s : State} (h : Kept c q m o s) :
    Kept c q m o (shadowStep a1 a2 s) := by
  unfold shadowStep
  try dsimp only
  repeat' first
    | with_reducible exact h | with_reducible apply setInput_kept | with_reducible assumption | exact id | rfl
    | exact fun _ => rfl | split | (with_reducible refine Kept.put ?_ rfl rfl rfl rfl rfl rfl rfl rfl rfl id id)

theorem groupStep_kept (a1) {s : State} (a2) (h : Kept c q m o s) :
    Kept c q m o (groupStep a1 s a2) := by
  unfold groupStep
  try dsimp only
  repeat' first
    | with_reducible exact h | with_reducible apply shadowStep_kept | with_reducible apply setGroup_kept
    | with_reducible apply freeSpare_kept | with_reducible apply provedNext_kept | with_reducible apply laneProved_kept
    | with_reducible apply permanentStitch_kept | with_reducible apply startWaitingCheck_kept | with_reducible assumption
    | exact id | rfl | exact fun _ => rfl | split
    | (with_reducible refine Kept.put ?_ rfl rfl rfl rfl rfl rfl rfl rfl rfl id id)

theorem inputFault_kept (a1) (a2) {s : State} (h : Kept c q m o s) :
    Kept c q m o (inputFault a1 a2 s) := by
  unfold inputFault
  try dsimp only
  repeat' first
    | with_reducible exact h | with_reducible apply laneFault_kept | with_reducible apply setInput_kept
    | with_reducible apply raise_kept | with_reducible apply setGroup_kept | with_reducible apply startWaitingCheck_kept
    | with_reducible assumption | exact id | rfl | exact fun _ => rfl | split
    | (with_reducible refine Kept.put ?_ rfl rfl rfl rfl rfl rfl rfl rfl rfl id id)

theorem inputStep_kept (a1) {s : State} (a2) (h : Kept c q m o s) :
    Kept c q m o (inputStep a1 s a2) := by
  unfold inputStep
  try dsimp only
  repeat' first
    | with_reducible exact h | with_reducible apply setInput_kept | with_reducible apply inputFault_kept
    | with_reducible assumption | exact id | rfl | exact fun _ => rfl | split

theorem takeSample_kept {s : State} (a1) (h : Kept c q m o s) :
    Kept c q m o (takeSample s a1) := by
  unfold takeSample
  try dsimp only
  repeat' first
    | with_reducible exact h | with_reducible apply setInput_kept | with_reducible assumption | exact id | rfl
    | exact fun _ => rfl | split | (with_reducible refine Kept.put ?_ rfl rfl rfl rfl rfl rfl rfl rfl rfl id id)

theorem abortStep_kept {s : State} (a1) (h : Kept c q m o s) :
    Kept c q m o (abortStep s a1) := by
  unfold abortStep
  try dsimp only
  repeat' first
    | with_reducible exact h | with_reducible apply burstAbort_kept | with_reducible assumption | exact id | rfl
    | exact fun _ => rfl | split

theorem lanesStep_kept (a1) {s : State} (h : Kept c q m o s) : Kept c q m o (lanesStep a1 s) := by
  unfold lanesStep
  generalize List.finRange 64 = l
  have h1 : Kept c q m o (l.foldl abortStep (l.foldl takeSample (l.foldl (inputStep a1) s))) :=
    foldl_kept (fun _ _ k => abortStep_kept _ k) l (foldl_kept (fun _ _ k => takeSample_kept _ k) l
      (foldl_kept (fun _ _ k => inputStep_kept _ _ k) l h))
  dsimp only
  generalize l.foldl abortStep (l.foldl takeSample (l.foldl (inputStep a1) s)) = y at h1
  exact ite_kept (foldl_kept (fun _ _ k => groupStep_kept _ _ k) _ h1) h1

theorem startProving_kept (a1) (a2) {s : State} (h : Kept c q m o s) :
    Kept c q m o (startProving a1 a2 s) := by
  unfold startProving
  try dsimp only
  repeat' first
    | with_reducible exact h | with_reducible apply setGroup_kept | with_reducible apply setInput_kept
    | with_reducible assumption | exact id | rfl | exact fun _ => rfl | split

theorem execProvingStart_kept (a1) {s : State} (h : Kept c q m o s) :
    KeptR c q m o (execProvingStart a1 s) := by
  unfold execProvingStart
  try dsimp only
  repeat' first
    | with_reducible exact h | with_reducible apply Kept.next | with_reducible apply setGroup_kept
    | with_reducible apply startProving_kept | with_reducible assumption | exact id | rfl | exact fun _ => rfl | split

theorem execAgreementWindowExpiry_kept (a1) {s : State} (h : Kept c q m o s) :
    KeptR c q m o (execAgreementWindowExpiry a1 s) := by
  unfold execAgreementWindowExpiry
  try dsimp only
  repeat' first
    | with_reducible exact h | with_reducible apply Kept.next | with_reducible apply setGroup_kept | with_reducible assumption
    | exact id | rfl | exact fun _ => rfl | split

theorem execBurstStart_kept (a1) {s : State} (h : Kept c q m o s) :
    KeptR c q m o (execBurstStart a1 s) := by
  unfold execBurstStart
  try dsimp only
  repeat' first
    | with_reducible exact h | with_reducible apply Kept.next | with_reducible apply setInput_kept | with_reducible assumption
    | exact id | rfl | exact fun _ => rfl | split

theorem burstsDone_kept (a1) (a2) {s : State} (h : Kept c q m o s) :
    Kept c q m o (burstsDone a1 a2 s) := by
  unfold burstsDone
  try dsimp only
  repeat' first
    | with_reducible exact h | with_reducible apply setGroup_kept | with_reducible apply laneProved_kept
    | with_reducible apply laneFault_kept | with_reducible apply raiseFault_kept | with_reducible apply clearLaneFault_kept
    | with_reducible assumption | exact id | rfl | exact fun _ => rfl | split
    | (with_reducible refine Kept.put ?_ rfl rfl rfl rfl rfl rfl rfl rfl rfl id id)

theorem execBurstEnd_kept (a1) (a2) {s : State} (h : Kept c q m o s) :
    KeptR c q m o (execBurstEnd a1 a2 s) := by
  unfold execBurstEnd
  try dsimp only
  repeat' first
    | with_reducible exact h | with_reducible apply Kept.next | with_reducible apply setInput_kept
    | with_reducible apply burstsDone_kept | with_reducible apply setLane_kept | with_reducible assumption | exact id | rfl
    | exact fun _ => rfl | split

theorem execProvingOverdue_kept (a1) {s : State} (h : Kept c q m o s) :
    KeptR c q m o (execProvingOverdue a1 s) := by
  unfold execProvingOverdue
  try dsimp only
  repeat' first
    | with_reducible exact h | with_reducible apply Kept.next | with_reducible apply laneFault_kept
    | with_reducible apply raiseFault_kept | with_reducible apply setLane_kept | with_reducible assumption | exact id | rfl
    | exact fun _ => rfl | split | (with_reducible refine Kept.put ?_ rfl rfl rfl rfl rfl rfl rfl rfl rfl id id)

theorem execFaultCheckExpiry_kept (a1) {s : State} (h : Kept c q m o s) :
    KeptR c q m o (execFaultCheckExpiry a1 s) := by
  unfold execFaultCheckExpiry
  try dsimp only
  repeat' first
    | with_reducible exact h | with_reducible apply Kept.next | with_reducible apply stitchLane_kept
    | with_reducible apply setGroup_kept | with_reducible apply setInput_kept | with_reducible assumption | exact id | rfl
    | exact fun _ => rfl | split | (with_reducible refine Kept.put ?_ rfl rfl rfl rfl rfl rfl rfl rfl rfl id id)

theorem groupFaultEnds_kept (a1) {s : State} (h : Kept c q m o s) :
    Kept c q m o (groupFaultEnds a1 s) := by
  unfold groupFaultEnds
  try dsimp only
  repeat' first
    | with_reducible exact h | with_reducible apply setGroup_kept | with_reducible assumption | exact id | rfl
    | exact fun _ => rfl | split | (with_reducible refine Kept.put ?_ rfl rfl rfl rfl rfl rfl rfl rfl rfl id id)

theorem dropWaits_kept (a1) {s : State} (h : Kept c q m o s) :
    Kept c q m o (dropWaits a1 s) := by
  unfold dropWaits
  try dsimp only
  repeat' first
    | with_reducible exact h | with_reducible apply setGroup_kept | with_reducible assumption | exact id | rfl
    | exact fun _ => rfl | split | (with_reducible refine Kept.put ?_ rfl rfl rfl rfl rfl rfl rfl rfl rfl id id)

theorem execInputFaultClear_kept (a1) {s : State} (h : Kept c q m o s) :
    KeptR c q m o (execInputFaultClear a1 s) := by
  unfold execInputFaultClear
  try dsimp only
  repeat' first
    | with_reducible exact h | with_reducible apply Kept.next | with_reducible apply groupFaultEnds_kept
    | with_reducible apply dropWaits_kept | with_reducible apply endFault_kept
    | (with_reducible apply foldl_kept; intro _ _ _) | with_reducible assumption | exact id | rfl | exact fun _ => rfl
    | split

theorem groupFaultAt_kept (a1) {s : State} (a2) (h : Kept c q m o s) :
    Kept c q m o (groupFaultAt a1 s a2) := by
  unfold groupFaultAt
  try dsimp only
  repeat' first
    | with_reducible exact h | with_reducible apply laneFault_kept | with_reducible apply setInput_kept
    | with_reducible apply raise_kept | with_reducible assumption | exact id | rfl | exact fun _ => rfl | split

theorem execGroupReferenceFault_kept (a1) {s : State} (h : Kept c q m o s) :
    KeptR c q m o (execGroupReferenceFault a1 s) := by
  unfold execGroupReferenceFault
  try dsimp only
  repeat' first
    | with_reducible exact h | with_reducible apply Kept.next | with_reducible apply groupFaultAt_kept
    | with_reducible apply setGroup_kept | (with_reducible apply foldl_kept; intro _ _ _) | with_reducible assumption
    | exact id | rfl | exact fun _ => rfl | split
    | (with_reducible refine Kept.put ?_ rfl rfl rfl rfl rfl rfl rfl rfl rfl id id)

theorem proveRequest_kept (a1) {s : State} (h : Kept c q m o s) :
    Kept c q m o (proveRequest a1 s) := by
  unfold proveRequest
  try dsimp only
  repeat' first
    | with_reducible exact h | with_reducible apply setGroup_kept | with_reducible assumption | exact id | rfl
    | exact fun _ => rfl | split

theorem execProveRequest_kept (a1) (a2) {s : State} (h : Kept c q m o s) :
    KeptR c q m o (execProveRequest a1 a2 s) := by
  unfold execProveRequest
  try dsimp only
  repeat' first
    | with_reducible exact h | with_reducible apply Kept.next | with_reducible apply portWrite_kept
    | with_reducible apply proveRequest_kept

end Sys2Proof.Machine
end

