-- ==== Sys2Proof/Laws/KeptHeads.lean ====
section
/-! SUPPORT. The operations of Machine/Heads.lean keep what Kept says. -/

namespace Sys2Proof.Machine

open Sys2Proof

variable {c : Image} {q : List Instr} {m : Mode} {o : Bool}

theorem setHead_kept (a1) (a2) {s : State} (h : Kept c q m o s) :
    Kept c q m o (setHead a1 a2 s) := by
  unfold setHead
  try dsimp only
  repeat' first
    | with_reducible exact h | with_reducible assumption | exact id | rfl | exact fun _ => rfl | split
    | (with_reducible refine Kept.put ?_ rfl rfl rfl rfl rfl rfl rfl rfl rfl id id)

theorem seqError_kept (a1) (a2) (a3) (a4) {s : State} (h : Kept c q m o s) :
    Kept c q m o (seqError a1 a2 a3 a4 s) := by
  unfold seqError
  try dsimp only
  repeat' first
    | with_reducible exact h | with_reducible apply setHead_kept | with_reducible apply disturbMask_kept
    | with_reducible apply raiseHeadRec_kept | with_reducible assumption | exact id | rfl | exact fun _ => rfl | split
    | (with_reducible refine Kept.put ?_ rfl rfl rfl rfl rfl rfl rfl rfl rfl id id)

theorem fifoPut_kept (a1) {s : State} (h : Kept c q m o s) :
    Kept c q m o (fifoPut a1 s) := by
  unfold fifoPut
  try dsimp only
  repeat' first
    | with_reducible exact h | with_reducible assumption | exact id | rfl | exact fun _ => rfl | split
    | (with_reducible refine Kept.put ?_ rfl rfl rfl rfl rfl rfl rfl rfl rfl id id)

theorem headCommit_kept (a1) (a2) {s : State} (h : Kept c q m o s) :
    Kept c q m o (headCommit a1 a2 s) := by
  unfold headCommit
  try dsimp only
  repeat' first
    | with_reducible exact h | with_reducible apply seqError_kept | with_reducible apply setHead_kept
    | with_reducible apply fifoPut_kept | with_reducible apply raiseHead_kept | with_reducible assumption | exact id | rfl
    | exact fun _ => rfl | split | (with_reducible refine Kept.put ?_ rfl rfl rfl rfl rfl rfl rfl rfl rfl id id)

theorem headFault_kept (a1) {s : State} (h : Kept c q m o s) :
    Kept c q m o (headFault a1 s) := by
  unfold headFault
  try dsimp only
  repeat' first
    | with_reducible exact h | with_reducible apply setItem_kept | with_reducible apply disturbMask_kept
    | with_reducible assumption | exact id | rfl | exact fun _ => rfl | split

theorem headSingle_kept (a1) (a2) (a3) {s : State} (h : Kept c q m o s) :
    Kept c q m o (headSingle a1 a2 a3 s) := by
  unfold headSingle
  try dsimp only
  repeat' first
    | with_reducible exact h | with_reducible apply setHead_kept | with_reducible apply raiseHead_kept
    | with_reducible assumption | exact id | rfl | exact fun _ => rfl | split
    | (with_reducible refine Kept.put ?_ rfl rfl rfl rfl rfl rfl rfl rfl rfl id id)

theorem headRock_kept (a1) (a2) {s : State} (h : Kept c q m o s) :
    Kept c q m o (headRock a1 a2 s) := by
  unfold headRock
  try dsimp only
  repeat' first
    | with_reducible exact h | with_reducible apply setHead_kept | with_reducible apply raiseHead_kept
    | with_reducible assumption | exact id | rfl | exact fun _ => rfl | split
    | (with_reducible refine Kept.put ?_ rfl rfl rfl rfl rfl rfl rfl rfl rfl id id)

theorem headAct_kept (a1) (a2) {s : State} (a3) (h : Kept c q m o s) :
    Kept c q m o (headAct a1 a2 s a3) := by
  unfold headAct
  try dsimp only
  repeat' first
    | with_reducible exact h | with_reducible apply headActivity_kept | with_reducible apply headCommit_kept
    | with_reducible apply headRock_kept | with_reducible apply headSingle_kept | with_reducible apply seqError_kept
    | with_reducible apply headFault_kept | with_reducible assumption | exact id | rfl | exact fun _ => rfl | split

theorem headStep_kept {s : State} (a1) (h : Kept c q m o s) :
    Kept c q m o (headStep s a1) := by
  unfold headStep
  try dsimp only
  repeat' first
    | with_reducible exact h | with_reducible apply setHead_kept | with_reducible apply headActivity_kept
    | with_reducible apply raiseHead_kept | with_reducible apply secEvalAll_kept | with_reducible apply headAct_kept
    | (with_reducible apply foldl_kept; intro _ _ _) | with_reducible assumption | exact id | rfl | exact fun _ => rfl
    | split

theorem headsItem_kept {s : State} (h : Kept c q m o s) :
    Kept c q m o (headsItem s) := by
  unfold headsItem
  try dsimp only
  repeat' first
    | with_reducible exact h | with_reducible apply clearUnit_kept | (with_reducible apply foldl_kept; intro _ _ _)
    | with_reducible assumption | exact id | rfl | exact fun _ => rfl | split

theorem execLaneSample_kept (a1) {s : State} (h : Kept c q m o s) :
    KeptR c q m o (execLaneSample a1 s) := by
  unfold execLaneSample
  try dsimp only
  repeat' first
    | with_reducible exact h | with_reducible apply Kept.next | with_reducible apply reach_kept
    | with_reducible apply noteLatch_kept | with_reducible apply headsItem_kept | with_reducible apply headStep_kept
    | with_reducible apply lanesStep_kept | (with_reducible apply foldl_kept; intro _ _ _) | with_reducible assumption
    | exact id | rfl | exact fun _ => rfl | split
    | (with_reducible refine Kept.put ?_ rfl rfl rfl rfl rfl rfl rfl rfl rfl id id)

theorem execHeadBusy_kept (a1) {s : State} (h : Kept c q m o s) :
    KeptR c q m o (execHeadBusy a1 s) := by
  unfold execHeadBusy
  try dsimp only
  repeat' first
    | with_reducible exact h | with_reducible apply Kept.next | with_reducible apply secEvalAll_kept
    | with_reducible apply headActivity_kept | with_reducible apply setHead_kept | with_reducible assumption | exact id | rfl
    | exact fun _ => rfl | split

theorem execStandingTimeout_kept (a1) {s : State} (h : Kept c q m o s) :
    KeptR c q m o (execStandingTimeout a1 s) := by
  unfold execStandingTimeout
  try dsimp only
  repeat' first
    | with_reducible exact h | with_reducible apply Kept.next | with_reducible apply setHead_kept
    | with_reducible apply raiseHead_kept | with_reducible assumption | exact id | rfl | exact fun _ => rfl | split
    | (with_reducible refine Kept.put ?_ rfl rfl rfl rfl rfl rfl rfl rfl rfl id id)

theorem execSectionMaskMismatch_kept (a1) (a2) (a3) {s : State} (h : Kept c q m o s) :
    KeptR c q m o (execSectionMaskMismatch a1 a2 a3 s) := by
  unfold execSectionMaskMismatch
  try dsimp only
  repeat' first
    | with_reducible exact h | with_reducible apply Kept.next | with_reducible apply setHead_kept
    | with_reducible apply raiseRec_kept | with_reducible apply secEvalAll_kept | with_reducible apply disturbMask_kept
    | with_reducible assumption | exact id | rfl | exact fun _ => rfl | split
    | (with_reducible refine Kept.put ?_ rfl rfl rfl rfl rfl rfl rfl rfl rfl id id)

theorem execMaskReloadDone_kept (a1) (a2) {s : State} (h : Kept c q m o s) :
    KeptR c q m o (execMaskReloadDone a1 a2 s) := by
  unfold execMaskReloadDone
  try dsimp only
  repeat' first
    | with_reducible exact h | with_reducible apply Kept.next | with_reducible apply setHead_kept
    | with_reducible apply secEvalAll_kept | with_reducible apply recovery_kept | with_reducible apply enterSafe_kept
    | with_reducible assumption | exact id | rfl | exact fun _ => rfl | split

end Sys2Proof.Machine
end

