-- ==== Sys2Proof/Laws/KeptSections.lean ====
section
/-! SUPPORT. The operations of Machine/Sections.lean keep what Kept says. -/

namespace Sys2Proof.Machine

open Sys2Proof

variable {c : Image} {q : List Instr} {m : Mode} {o : Bool}

theorem setSect_kept (a1) (a2) {s : State} (h : Kept c q m o s) :
    Kept c q m o (setSect a1 a2 s) := by
  unfold setSect
  try dsimp only
  repeat' first
    | with_reducible exact h | with_reducible assumption | exact id | rfl | exact fun _ => rfl | split
    | (with_reducible refine Kept.put ?_ rfl rfl rfl rfl rfl rfl rfl rfl rfl id id)

theorem applyLink_kept (a1) {s : State} (a2) (h : Kept c q m o s) :
    Kept c q m o (applyLink a1 s a2) := by
  unfold applyLink
  try dsimp only
  repeat' first
    | with_reducible exact h | with_reducible apply setSect_kept

theorem anomaly_kept (a1) {s : State} (a2) (h : Kept c q m o s) :
    Kept c q m o (anomaly a1 s a2) := by
  unfold anomaly
  try dsimp only
  repeat' first
    | with_reducible exact h | with_reducible apply raiseRec_kept | with_reducible apply setSect_kept
    | with_reducible apply disturb_kept | with_reducible assumption | exact id | rfl | exact fun _ => rfl | split

theorem refreshStart_kept {s : State} (h : Kept c q m o s) :
    Kept c q m o (refreshStart s) := by
  unfold refreshStart
  try dsimp only
  repeat' first
    | with_reducible exact h | with_reducible apply secEvalAll_kept | with_reducible assumption | exact id | rfl
    | exact fun _ => rfl | split | (with_reducible refine Kept.put ?_ rfl rfl rfl rfl rfl rfl rfl rfl rfl id id)

theorem walkFault_kept (a1) (a2) {s : State} (h : Kept c q m o s) :
    Kept c q m o (walkFault a1 a2 s) := by
  unfold walkFault
  try dsimp only
  repeat' first
    | with_reducible exact h | with_reducible apply disturbMask_kept | with_reducible apply raiseRec_kept
    | with_reducible apply enterSafe_kept | with_reducible apply refreshStart_kept | with_reducible assumption | exact id | rfl
    | exact fun _ => rfl | split | (with_reducible refine Kept.put ?_ rfl rfl rfl rfl rfl rfl rfl rfl rfl id id)

theorem tackEcc_kept {s : State} (a1) (h : Kept c q m o s) :
    Kept c q m o (tackEcc s a1) := by
  unfold tackEcc
  try dsimp only
  repeat' first
    | with_reducible exact h | with_reducible apply eccFound_kept | with_reducible assumption | exact id | rfl
    | exact fun _ => rfl | split | (with_reducible refine Kept.put ?_ rfl rfl rfl rfl rfl rfl rfl rfl rfl id id)

theorem walkApply_kept (a1) (a2) {s : State} (h : Kept c q m o s) :
    Kept c q m o (walkApply a1 a2 s) := by
  unfold walkApply
  try dsimp only
  repeat' first
    | with_reducible exact h | with_reducible apply applyLink_kept | with_reducible apply activity_kept
    | with_reducible apply secEvalAll_kept | with_reducible apply anomaly_kept | (with_reducible apply foldl_kept; intro _ _ _)
    | with_reducible assumption

theorem walkTime_kept (a1) {s : State} (h : Kept c q m o s) :
    Kept c q m o (walkTime a1 s) := by
  unfold walkTime
  try dsimp only
  repeat' first
    | with_reducible exact h | with_reducible apply draw_kept | with_reducible assumption | exact id | rfl | exact fun _ => rfl
    | split | (with_reducible refine Kept.put ?_ rfl rfl rfl rfl rfl rfl rfl rfl rfl id id)

theorem execWalk_kept (a1) {s : State} (h : Kept c q m o s) :
    KeptR c q m o (execWalk a1 s) := by
  unfold execWalk
  try dsimp only
  repeat' first
    | with_reducible exact h | with_reducible apply Kept.next | with_reducible apply secEvalAll_kept
    | with_reducible apply tackEcc_kept | with_reducible apply walkFault_kept | with_reducible apply walkApply_kept
    | with_reducible apply walkTime_kept | (with_reducible apply foldl_kept; intro _ _ _) | with_reducible assumption | exact id
    | rfl | exact fun _ => rfl | split | (with_reducible refine Kept.put ?_ rfl rfl rfl rfl rfl rfl rfl rfl rfl id id)

theorem tackLoad_kept {s : State} (h : Kept c q m o s) : Kept c q m o (tackLoad s) := by
  obtain ⟨k1, k2, k3, _⟩ := h.mems
  exact h.store k1 (memWriteList_wf s.cfg.tack _ (by rfl)) k2 k3

theorem execTackRefreshDone_kept (a1) (a2) {s : State} (h : Kept c q m o s) :
    KeptR c q m o (execTackRefreshDone a1 a2 s) := by
  unfold execTackRefreshDone
  try dsimp only
  repeat' first
    | with_reducible exact h | with_reducible apply Kept.next | with_reducible apply tackLoad_kept
    | with_reducible apply secEvalAll_kept | with_reducible apply recovery_kept | with_reducible apply enterSafe_kept
    | with_reducible assumption | exact id | rfl | exact fun _ => rfl | split
    | (with_reducible refine Kept.put ?_ rfl rfl rfl rfl rfl rfl rfl rfl rfl id id)

theorem execCountCopyMismatch_kept (a1) (a2) (a3) {s : State} (h : Kept c q m o s) :
    KeptR c q m o (execCountCopyMismatch a1 a2 a3 s) := by
  unfold execCountCopyMismatch
  try dsimp only
  repeat' first
    | with_reducible exact h | with_reducible apply Kept.next | with_reducible apply setSect_kept
    | with_reducible apply anomaly_kept | with_reducible apply disturb_kept | with_reducible apply raiseRec_kept
    | with_reducible assumption | exact id | rfl | exact fun _ => rfl | split
    | (with_reducible refine Kept.put ?_ rfl rfl rfl rfl rfl rfl rfl rfl rfl id id)

theorem noteStep_kept (a1) (a2) (a3) {s : State} (h : Kept c q m o s) :
    Kept c q m o (noteStep a1 a2 a3 s) := by
  unfold noteStep
  try dsimp only
  repeat' first
    | with_reducible exact h | with_reducible assumption | exact id | rfl | exact fun _ => rfl | split
    | (with_reducible refine Kept.put ?_ rfl rfl rfl rfl rfl rfl rfl rfl rfl id id)

theorem applyOrder_kept {s : State} (a1) (h : Kept c q m o s) :
    Kept c q m o (applyOrder s a1) := by
  unfold applyOrder
  try dsimp only
  repeat' first
    | with_reducible exact h | with_reducible apply raiseRec_kept | with_reducible apply noteStep_kept
    | with_reducible apply raise_kept | with_reducible apply setSect_kept | with_reducible apply secSet_kept
    | with_reducible assumption | exact id | rfl | exact fun _ => rfl | split

theorem applyOrders_kept {s : State} (h : Kept c q m o s) :
    Kept c q m o (applyOrders s) := by
  unfold applyOrders
  try dsimp only
  repeat' first
    | with_reducible exact h | with_reducible apply secEvalAll_kept | with_reducible apply applyOrder_kept
    | (with_reducible apply foldl_kept; intro _ _ _) | with_reducible assumption | exact id | rfl | exact fun _ => rfl
    | split | (with_reducible refine Kept.put ?_ rfl rfl rfl rfl rfl rfl rfl rfl rfl id id)

theorem execSectionResetApply_kept {s : State} (h : Kept c q m o s) :
    KeptR c q m o (execSectionResetApply s) := by
  unfold execSectionResetApply
  try dsimp only
  repeat' first
    | with_reducible exact h | with_reducible apply Kept.next | with_reducible apply applyOrders_kept
    | with_reducible apply reachTick_kept | with_reducible assumption | exact id | rfl | exact fun _ => rfl | split

end Sys2Proof.Machine
end

