-- ==== Sys2Proof/Laws/KeptBerths.lean ====
section
/-! SUPPORT. The operations of Machine/Berths.lean keep what Kept says. -/

namespace Sys2Proof.Machine

open Sys2Proof

variable {c : Image} {q : List Instr} {m : Mode} {o : Bool}

theorem drpRise_kept {s : State} (a1) (h : Kept c q m o s) :
    Kept c q m o (drpRise s a1) := by
  unfold drpRise
  try dsimp only
  repeat' first
    | with_reducible exact h | with_reducible apply record_kept

theorem drpTerms_off {s : State} (b : Fin 8) (h : inService s = false) : (drpTerms b s).all id = false := by
  simp [drpTerms, h]

theorem berthStep_kept {s : State} (a1) (h : Kept c q m o s) : Kept c q m o (berthStep s a1) := by
  unfold berthStep
  dsimp only
  generalize hd : (drpTerms a1 s).all id = d
  generalize bitsOf 6 _ = t
  split
  on_goal 2 => split
  · apply drpFall_kept
    refine h.putS rfl rfl rfl rfl rfl rfl rfl rfl rfl (fun hs hb i => ?_) (fun _ => id)
    have hb := hb i
    have := drpTerms_off a1 hs
    simp only [get_upd]
    split <;> simp_all
  · apply drpRise_kept
    refine h.putS rfl rfl rfl rfl rfl rfl rfl rfl rfl (fun hs hb i => ?_) (fun _ => id)
    have hb := hb i
    have := drpTerms_off a1 hs
    simp only [get_upd]
    split <;> simp_all
  · refine h.putS rfl rfl rfl rfl rfl rfl rfl rfl rfl (fun hs hb i => ?_) (fun _ => id)
    have hb := hb i
    have := drpTerms_off a1 hs
    simp only [get_upd]
    split <;> simp_all

theorem berthsStep_kept {s : State} (h : Kept c q m o s) :
    Kept c q m o (berthsStep s) := by
  unfold berthsStep
  try dsimp only
  repeat' first
    | with_reducible exact h | with_reducible apply berthStep_kept | (with_reducible apply foldl_kept; intro _ _ _)
    | with_reducible assumption | exact id | rfl | exact fun _ => rfl | split

end Sys2Proof.Machine
end

