-- ==== Sys2Proof/Laws/KeptContacts.lean ====
section
/-! SUPPORT. The operations of Machine/Contacts.lean keep what Kept says. -/

namespace Sys2Proof.Machine

open Sys2Proof

variable {c : Image} {q : List Instr} {m : Mode} {o : Bool}

theorem setChan_kept (a1) (a2 : Chan → Chan) {s : State} (h : Kept c q m o s) (k1 : ∀ x, (a2 x).state = x.state)
    (k2 : ∀ x, (a2 x).sto[0].on = x.sto[0].on) (k3 : ∀ x, (a2 x).sto[1].on = x.sto[1].on) :
    Kept c q m o (setChan a1 a2 s) := by
  unfold setChan
  refine h.put rfl rfl rfl rfl rfl rfl rfl rfl rfl id ?_
  rintro ⟨d1, d2, d3⟩
  refine ⟨d1, d2, fun i => ?_⟩
  have d4 := d3 i
  simp only [get_upd]
  split <;> simp_all

theorem setContact_kept (a1) (a2) {s : State} (h : Kept c q m o s) :
    Kept c q m o (setContact a1 a2 s) := by
  unfold setContact
  try dsimp only
  repeat' first
    | with_reducible exact h | with_reducible assumption | exact id | rfl | exact fun _ => rfl | split
    | (with_reducible refine Kept.put ?_ rfl rfl rfl rfl rfl rfl rfl rfl rfl id id)

theorem setEstop_kept (a1) {s : State} (h : Kept c q m o s) :
    Kept c q m o (setEstop a1 s) := by
  unfold setEstop
  try dsimp only
  repeat' first
    | with_reducible exact h | with_reducible assumption | exact id | rfl | exact fun _ => rfl | split
    | (with_reducible refine Kept.put ?_ rfl rfl rfl rfl rfl rfl rfl rfl rfl id id)

theorem discEvent_kept (a1) (a2) {s : State} (h : Kept c q m o s) :
    Kept c q m o (discEvent a1 a2 s) := by
  unfold discEvent
  try dsimp only
  repeat' first
    | with_reducible exact h | with_reducible apply raiseRec_kept

theorem writeDoor_kept (a1) {s : State} (h : Kept c q m o s) :
    Kept c q m o (writeDoor a1 s) := by
  unfold writeDoor
  try dsimp only
  repeat' first
    | with_reducible exact h | with_reducible assumption | exact id | rfl | exact fun _ => rfl | split
    | (with_reducible refine Kept.put ?_ rfl rfl rfl rfl rfl rfl rfl rfl rfl id id)

theorem lockout_kept (a1) (a2) (a3) (a4) {s : State} (h : Kept c q m o s) :
    Kept c q m o (lockout a1 a2 a3 a4 s) := by
  unfold lockout
  try dsimp only
  repeat' first
    | with_reducible exact h | with_reducible apply setChan_kept | with_reducible assumption | exact id | rfl
    | exact fun _ => rfl | split | (with_reducible refine Kept.put ?_ rfl rfl rfl rfl rfl rfl rfl rfl rfl id id)

theorem degSet_kept (a1) {s : State} (h : Kept c q m o s) :
    Kept c q m o (degSet a1 s) := by
  unfold degSet
  try dsimp only
  repeat' first
    | with_reducible exact h | with_reducible apply setItem_kept | with_reducible apply writeDoor_kept
    | with_reducible apply setChan_kept | with_reducible assumption | exact id | rfl | exact fun _ => rfl | split
    | (with_reducible refine Kept.put ?_ rfl rfl rfl rfl rfl rfl rfl rfl rfl id id)

theorem degClear_kept (a1) {s : State} (h : Kept c q m o s) :
    Kept c q m o (degClear a1 s) := by
  unfold degClear
  try dsimp only
  repeat' first
    | with_reducible exact h | with_reducible apply writeDoor_kept | with_reducible apply setChan_kept
    | with_reducible apply clearUnit_kept | with_reducible assumption | exact id | rfl | exact fun _ => rfl | split

theorem degFault_kept (a1) (a2) (a3) {s : State} (h : Kept c q m o s) :
    Kept c q m o (degFault a1 a2 a3 s) := by
  unfold degFault
  try dsimp only
  repeat' first
    | with_reducible exact h | with_reducible apply setChan_kept | with_reducible apply degSet_kept
    | with_reducible apply lockout_kept | with_reducible assumption | exact id | rfl | exact fun _ => rfl | split

theorem degCheck_kept (a1) {s : State} (h : Kept c q m o s) :
    Kept c q m o (degCheck a1 s) := by
  unfold degCheck
  try dsimp only
  repeat' first
    | with_reducible exact h | with_reducible apply degClear_kept | with_reducible assumption | exact id | rfl
    | exact fun _ => rfl | split

theorem clFault_kept (a1) (a2) {s : State} (h : Kept c q m o s) :
    Kept c q m o (clFault a1 a2 s) := by
  unfold clFault
  try dsimp only
  repeat' first
    | with_reducible exact h | with_reducible apply setChan_kept | with_reducible apply discEvent_kept
    | with_reducible apply lockout_kept | with_reducible assumption | exact id | rfl | exact fun _ => rfl | split
    | (with_reducible refine Kept.put ?_ rfl rfl rfl rfl rfl rfl rfl rfl rfl id id)

theorem evalCl_kept (a1) {s : State} (h : Kept c q m o s) :
    Kept c q m o (evalCl a1 s) := by
  unfold evalCl
  try dsimp only
  repeat' first
    | with_reducible exact h | with_reducible apply setChan_kept | with_reducible apply clFault_kept | with_reducible assumption
    | exact id | rfl | exact fun _ => rfl | split

theorem darkRestart_kept (a1) {s : State} (h : Kept c q m o s) :
    Kept c q m o (darkRestart a1 s) := by
  unfold darkRestart
  try dsimp only
  repeat' first
    | with_reducible exact h | with_reducible apply setContact_kept | with_reducible assumption | exact id | rfl
    | exact fun _ => rfl | split | (with_reducible refine Kept.put ?_ rfl rfl rfl rfl rfl rfl rfl rfl rfl id id)

theorem obFault_kept (a1) (a2) {s : State} (h : Kept c q m o s) :
    Kept c q m o (obFault a1 a2 s) := by
  unfold obFault
  try dsimp only
  repeat' first
    | with_reducible exact h | with_reducible apply darkRestart_kept | with_reducible apply setChan_kept
    | with_reducible apply discEvent_kept | with_reducible apply lockout_kept | with_reducible apply degFault_kept
    | with_reducible assumption | exact id | rfl | exact fun _ => rfl | split
    | (with_reducible refine Kept.put ?_ rfl rfl rfl rfl rfl rfl rfl rfl rfl id id)

theorem evalOb_kept (a1) {s : State} (h : Kept c q m o s) :
    Kept c q m o (evalOb a1 s) := by
  unfold evalOb
  try dsimp only
  repeat' first
    | with_reducible exact h | with_reducible apply setChan_kept | with_reducible apply darkRestart_kept
    | with_reducible apply obFault_kept | with_reducible assumption | exact id | rfl | exact fun _ => rfl | split
    | (with_reducible refine Kept.put ?_ rfl rfl rfl rfl rfl rfl rfl rfl rfl id id)

theorem estopFault_kept (a1) {s : State} (h : Kept c q m o s) :
    Kept c q m o (estopFault a1 s) := by
  unfold estopFault
  try dsimp only
  repeat' first
    | with_reducible exact h | with_reducible apply discEvent_kept | with_reducible apply setEstop_kept

theorem evalEstop_kept {s : State} (h : Kept c q m o s) :
    Kept c q m o (evalEstop s) := by
  unfold evalEstop
  try dsimp only
  repeat' first
    | with_reducible exact h | with_reducible apply estopFault_kept | with_reducible apply setEstop_kept
    | with_reducible apply discEvent_kept | with_reducible assumption | exact id | rfl | exact fun _ => rfl | split

theorem evalContact_kept (a1) {s : State} (h : Kept c q m o s) :
    Kept c q m o (evalContact a1 s) := by
  unfold evalContact
  try dsimp only
  repeat' first
    | with_reducible exact h | with_reducible apply evalCl_kept | with_reducible apply evalOb_kept
    | with_reducible apply evalEstop_kept | with_reducible assumption | exact id | rfl | exact fun _ => rfl | split

theorem contactStep_kept (a1) {s : State} (a2) (h : Kept c q m o s) :
    Kept c q m o (contactStep a1 s a2) := by
  unfold contactStep
  try dsimp only
  repeat' first
    | with_reducible exact h | with_reducible apply setContact_kept | with_reducible apply evalContact_kept
    | with_reducible assumption | exact id | rfl | exact fun _ => rfl | split
    | (with_reducible refine Kept.put ?_ rfl rfl rfl rfl rfl rfl rfl rfl rfl id id)
    | (with_reducible refine Kept.put ?_ rfl rfl rfl rfl rfl rfl rfl rfl rfl ?_ ?_)
    | (intro hb i; have hb := hb i; simp only [get_upd, get_mapv]; (repeat' split) <;> simp_all; done)

theorem execContactSample_kept (a1) {s : State} (h : Kept c q m o s) :
    KeptR c q m o (execContactSample a1 s) := by
  unfold execContactSample
  try dsimp only
  repeat' first
    | with_reducible exact h | with_reducible apply Kept.next | with_reducible apply reach_kept
    | with_reducible apply noteLatch_kept | with_reducible apply contactStep_kept
    | (with_reducible apply foldl_kept; intro _ _ _) | with_reducible assumption | exact id | rfl | exact fun _ => rfl
    | split | (with_reducible refine Kept.put ?_ rfl rfl rfl rfl rfl rfl rfl rfl rfl id id)

theorem execContactFilterExpiry_kept (a1) {s : State} (h : Kept c q m o s) :
    KeptR c q m o (execContactFilterExpiry a1 s) := by
  unfold execContactFilterExpiry
  try dsimp only
  repeat' first
    | with_reducible exact h | with_reducible apply Kept.next | with_reducible apply evalContact_kept
    | with_reducible apply setContact_kept | with_reducible assumption | exact id | rfl | exact fun _ => rfl | split

theorem execPairDiscrepancyTimeout_kept (a1) {s : State} (h : Kept c q m o s) :
    KeptR c q m o (execPairDiscrepancyTimeout a1 s) := by
  unfold execPairDiscrepancyTimeout
  try dsimp only
  repeat' first
    | with_reducible exact h | with_reducible apply Kept.next | with_reducible apply clFault_kept
    | with_reducible apply obFault_kept | with_reducible apply estopFault_kept | with_reducible assumption | exact id | rfl
    | exact fun _ => rfl | split

theorem execObPairRecovery_kept (a1) {s : State} (h : Kept c q m o s) :
    KeptR c q m o (execObPairRecovery a1 s) := by
  unfold execObPairRecovery
  try dsimp only
  repeat' first
    | with_reducible exact h | with_reducible apply Kept.next | with_reducible apply setChan_kept
    | with_reducible apply degCheck_kept | with_reducible apply evalOb_kept | with_reducible apply discEvent_kept
    | with_reducible assumption | exact id | rfl | exact fun _ => rfl | split
    | (with_reducible refine Kept.put ?_ rfl rfl rfl rfl rfl rfl rfl rfl rfl id id)

theorem toPhase_kept (a1) (a2) {s : State} (h : Kept c q m o s) :
    Kept c q m o (toPhase a1 a2 s) := by
  unfold toPhase
  try dsimp only
  repeat' first
    | with_reducible exact h | with_reducible apply advance_kept

theorem execTpsPulse_kept (a1) {s : State} (h : Kept c q m o s) :
    KeptR c q m o (execTpsPulse a1 s) := by
  unfold execTpsPulse
  try dsimp only
  repeat' first
    | with_reducible exact h | with_reducible apply Kept.next | with_reducible apply advance_kept
    | with_reducible apply toPhase_kept | with_reducible assumption | exact id | rfl | exact fun _ => rfl | split
    | (with_reducible refine Kept.put ?_ rfl rfl rfl rfl rfl rfl rfl rfl rfl id id)

theorem darkStep_kept (a1) (a2) {s : State} (a3) (h : Kept c q m o s) :
    Kept c q m o (darkStep a1 a2 s a3) := by
  unfold darkStep
  try dsimp only
  repeat' first
    | with_reducible exact h | with_reducible apply setContact_kept | with_reducible apply evalContact_kept
    | with_reducible assumption | exact id | rfl | exact fun _ => rfl | split
    | (with_reducible refine Kept.put ?_ rfl rfl rfl rfl rfl rfl rfl rfl rfl id id)

theorem execDarkCheck_kept (a1) (a2) {s : State} (h : Kept c q m o s) :
    KeptR c q m o (execDarkCheck a1 a2 s) := by
  unfold execDarkCheck
  try dsimp only
  repeat' first
    | with_reducible exact h | with_reducible apply Kept.next | with_reducible apply darkStep_kept
    | with_reducible apply toPhase_kept | (with_reducible apply foldl_kept; intro _ _ _) | with_reducible assumption | exact id
    | rfl | exact fun _ => rfl | split

theorem sourceChan_kept (a1) {s : State} (a2) (h : Kept c q m o s) :
    Kept c q m o (sourceChan a1 s a2) := by
  unfold sourceChan
  try dsimp only
  repeat' first
    | with_reducible exact h | with_reducible apply discEvent_kept | with_reducible apply lockout_kept
    | with_reducible apply setChan_kept | with_reducible assumption | exact id | rfl | exact fun _ => rfl | split

theorem sourceFaultApply_kept (a1) {s : State} (h : Kept c q m o s) :
    Kept c q m o (sourceFaultApply a1 s) := by
  unfold sourceFaultApply
  try dsimp only
  repeat' first
    | with_reducible exact h | with_reducible apply evalEstop_kept | with_reducible apply sourceChan_kept
    | (with_reducible apply foldl_kept; intro _ _ _) | with_reducible assumption

theorem sourceLatch_kept (a1) {s : State} (h : Kept c q m o s) :
    Kept c q m o (sourceLatch a1 s) := by
  unfold sourceLatch
  try dsimp only
  repeat' first
    | with_reducible exact h | with_reducible assumption | exact id | rfl | exact fun _ => rfl | split
    | (with_reducible refine Kept.put ?_ rfl rfl rfl rfl rfl rfl rfl rfl rfl id id)
    | (with_reducible refine Kept.put ?_ rfl rfl rfl rfl rfl rfl rfl rfl rfl ?_ ?_)
    | (intro hb i; have hb := hb i; simp only [get_upd, get_mapv]; (repeat' split) <;> simp_all; done)

theorem execSourceFault_kept (a1) {s : State} (h : Kept c q m o s) :
    KeptR c q m o (execSourceFault a1 s) := by
  unfold execSourceFault
  try dsimp only
  repeat' first
    | with_reducible exact h | with_reducible apply Kept.next | with_reducible apply sourceFaultApply_kept
    | with_reducible apply sourceLatch_kept | with_reducible assumption | exact id | rfl | exact fun _ => rfl | split

theorem execTachEdge_kept (a1) (a2) (a3) {s : State} (h : Kept c q m o s) :
    KeptR c q m o (execTachEdge a1 a2 a3 s) := by
  unfold execTachEdge
  try dsimp only
  repeat' first
    | with_reducible exact h | with_reducible apply Kept.next | with_reducible apply setChan_kept | with_reducible assumption
    | exact id | rfl | exact fun _ => rfl | split

theorem tachFault_kept (a1) (a2) {s : State} (h : Kept c q m o s) :
    Kept c q m o (tachFault a1 a2 s) := by
  unfold tachFault
  try dsimp only
  repeat' first
    | with_reducible exact h | with_reducible apply setChan_kept | with_reducible apply degFault_kept
    | with_reducible apply discEvent_kept | with_reducible assumption | exact id | rfl | exact fun _ => rfl | split
    | (with_reducible refine Kept.put ?_ rfl rfl rfl rfl rfl rfl rfl rfl rfl id id)

theorem execTachTimeout_kept (a1) {s : State} (h : Kept c q m o s) :
    KeptR c q m o (execTachTimeout a1 s) := by
  unfold execTachTimeout
  try dsimp only
  repeat' first
    | with_reducible exact h | with_reducible apply Kept.next | with_reducible apply tachFault_kept
    | with_reducible apply setChan_kept | with_reducible assumption | exact id | rfl | exact fun _ => rfl | split
    | (with_reducible refine Kept.put ?_ rfl rfl rfl rfl rfl rfl rfl rfl rfl id id)

end Sys2Proof.Machine
end

