-- ==== Sys2Proof/Laws/KeptDoors.lean ====
section
/-! SUPPORT. The operations of Machine/Doors.lean keep what Kept says. -/

namespace Sys2Proof.Machine

open Sys2Proof

variable {c : Image} {q : List Instr} {m : Mode} {o : Bool}

theorem chanLatch_kept {s : State} (a1) (h : Kept c q m o s) :
    Kept c q m o (chanLatch s a1) := by
  unfold chanLatch
  try dsimp only
  repeat' first
    | with_reducible exact h | with_reducible apply setChan_kept | with_reducible assumption | exact id | rfl
    | exact fun _ => rfl

theorem restState_off (x : Chan) : torqueOn (restState x) = false := by unfold restState; split <;> rfl

theorem enterLocked_kept (a1) (a2) {s : State} (h : Kept c q m o s) :
    Kept c q m o (enterLocked a1 a2 s) := by
  unfold enterLocked
  try dsimp only
  repeat' first
    | with_reducible exact h | with_reducible apply eventRecord_kept | with_reducible apply chanSet_kept
    | with_reducible apply setChan_kept | with_reducible apply degClear_kept | with_reducible apply setItem_kept
    | with_reducible apply writeDoor_kept | with_reducible assumption | exact id | rfl | exact fun _ => rfl
    | exact fun _ _ => rfl

theorem degEscalate_kept (a1) {s : State} (h : Kept c q m o s) :
    Kept c q m o (degEscalate a1 s) := by
  unfold degEscalate
  try dsimp only
  repeat' first
    | with_reducible exact h | with_reducible apply raise_kept | with_reducible apply record_kept
    | with_reducible apply setChan_kept | with_reducible assumption | exact id | rfl | exact fun _ => rfl | split

theorem cycleClears_kept (a1) {s : State} (h : Kept c q m o s) :
    Kept c q m o (cycleClears a1 s) := by
  unfold cycleClears
  try dsimp only
  repeat' first
    | with_reducible exact h | with_reducible apply discEvent_kept | with_reducible apply setChan_kept
    | with_reducible apply degCheck_kept | with_reducible assumption | exact id | rfl | exact fun _ => rfl | split

theorem doorCycle_kept (a1) {s : State} (h : Kept c q m o s) :
    Kept c q m o (doorCycle a1 s) := by
  unfold doorCycle
  try dsimp only
  repeat' first
    | with_reducible exact h | with_reducible apply degEscalate_kept | with_reducible apply writeDoor_kept
    | with_reducible apply setChan_kept | with_reducible apply cycleClears_kept | with_reducible assumption | exact id | rfl
    | exact fun _ => rfl | split

theorem execDegradedMinute_kept (a1) {s : State} (h : Kept c q m o s) :
    KeptR c q m o (execDegradedMinute a1 s) := by
  unfold execDegradedMinute
  try dsimp only
  repeat' first
    | with_reducible exact h | with_reducible apply Kept.next | with_reducible apply degEscalate_kept
    | with_reducible apply writeDoor_kept | with_reducible apply setChan_kept | with_reducible assumption | exact id | rfl
    | exact fun _ => rfl | split

theorem grant_kept (a1) (a2) (a3) {s : State} (h : Kept c q m o s) (k : o = true → inService s = true) :
    Kept c q m o (grant a1 a2 a3 s) :=
  chanSet_kept _ _ _ (setChan_kept _ _ h (fun _ => rfl) (fun _ => rfl) (fun _ => rfl))
    (fun e f => Bool.noConfusion ((k e).symm.trans f))

theorem stopDone_kept (a1) (a2) {s : State} (h : Kept c q m o s) :
    Kept c q m o (stopDone a1 a2 s) := by
  unfold stopDone
  try dsimp only
  repeat' first
    | with_reducible exact h | with_reducible apply setChan_kept | with_reducible apply raiseRec_kept
    | with_reducible apply enterLocked_kept | with_reducible apply chanSet_kept | with_reducible apply eventRecord_kept
    | with_reducible assumption | exact id | rfl | exact fun _ => rfl | exact fun _ _ => rfl | exact fun _ _ => restState_off _
    | split | (with_reducible refine Kept.put ?_ rfl rfl rfl rfl rfl rfl rfl rfl rfl id id)

theorem stopTick_kept (a1) {s : State} (h : Kept c q m o s) :
    Kept c q m o (stopTick a1 s) := by
  unfold stopTick
  try dsimp only
  repeat' first
    | with_reducible exact h | with_reducible apply setChan_kept | with_reducible apply stopDone_kept
    | with_reducible assumption | exact id | rfl | exact fun _ => rfl | split

theorem enterStopping_kept (a1) (a2) {s : State} (h : Kept c q m o s) (k : o = true → inService s = true) :
    Kept c q m o (enterStopping a1 a2 s) := by
  unfold enterStopping
  try dsimp only
  repeat' first
    | with_reducible exact h | with_reducible apply setChan_kept | with_reducible apply chanSet_kept
    | with_reducible apply raise_kept | with_reducible apply stopTick_kept | with_reducible assumption | exact id | rfl
    | exact fun _ => rfl | exact fun _ _ => rfl | exact fun _ _ => restState_off _ | (with_reducible exact k)
    | exact fun e f => Bool.noConfusion ((k e).symm.trans f) | split
    | (with_reducible refine Kept.put ?_ rfl rfl rfl rfl rfl rfl rfl rfl rfl id id)

theorem restRows_kept (a1) {s : State} (h : Kept c q m o s) (k : o = true → inService s = true) :
    Kept c q m o (restRows a1 s) := by
  unfold restRows
  try dsimp only
  repeat' first
    | with_reducible exact h | with_reducible apply enterLocked_kept | with_reducible apply chanSet_kept
    | with_reducible apply grant_kept | with_reducible assumption | exact id | rfl | exact fun _ => rfl | exact fun _ _ => rfl
    | exact fun _ _ => restState_off _ | (with_reducible exact k) | exact fun e f => Bool.noConfusion ((k e).symm.trans f)
    | split

theorem moveRows_kept (a1) {s : State} (h : Kept c q m o s) (k : o = true → inService s = true) :
    Kept c q m o (moveRows a1 s) := by
  unfold moveRows
  try dsimp only
  repeat' first
    | with_reducible exact h | with_reducible apply doorCycle_kept | with_reducible apply chanSet_kept
    | with_reducible apply setChan_kept | with_reducible apply enterStopping_kept | with_reducible apply grant_kept
    | with_reducible assumption | exact id | rfl | exact fun _ => rfl | exact fun _ _ => rfl | exact fun _ _ => restState_off _
    | (with_reducible exact k) | exact fun e => k e | exact fun e f => Bool.noConfusion ((k e).symm.trans f) | split

theorem leaveInactive_kept (a1) {s : State} (h : Kept c q m o s) :
    Kept c q m o (leaveInactive a1 s) := by
  unfold leaveInactive
  try dsimp only
  repeat' first
    | with_reducible exact h | with_reducible apply setContact_kept | with_reducible apply enterLocked_kept
    | with_reducible apply chanSet_kept | with_reducible assumption | exact id | rfl | exact fun _ => rfl | exact fun _ _ => rfl
    | exact fun _ _ => restState_off _ | split

theorem unlockRefuse_kept (a1) (a2) {s : State} (h : Kept c q m o s) :
    Kept c q m o (unlockRefuse a1 a2 s) := by
  unfold unlockRefuse
  try dsimp only
  repeat' first
    | with_reducible exact h | with_reducible apply unlockRecord_kept | with_reducible assumption | exact id | rfl
    | exact fun _ => rfl | split | (with_reducible refine Kept.put ?_ rfl rfl rfl rfl rfl rfl rfl rfl rfl id id)

theorem setSto_kept (a1) (a2 : Fin 2) (a3 : Sto → Sto) {s : State} (h : Kept c q m o s) (k : ∀ x, (a3 x).on = x.on) :
    Kept c q m o (setSto a1 a2 a3 s) := by
  refine setChan_kept a1 _ h (fun _ => rfl) (fun x => ?_) (fun x => ?_) <;> simp only [get_upd] <;> split <;> simp_all

theorem rbEvent_kept (a1) (a2) {s : State} (h : Kept c q m o s) :
    Kept c q m o (rbEvent a1 a2 s) := by
  unfold rbEvent
  try dsimp only
  repeat' first
    | with_reducible exact h | with_reducible apply raiseRec_kept

theorem stuckOffEnds_kept (a1) {s : State} (a2) (h : Kept c q m o s) : Kept c q m o (stuckOffEnds a1 s a2) :=
  ite_kept (rbEvent_kept _ _ (setSto_kept _ _ _ h fun _ => rfl)) h

theorem clFaultEnds_kept (a1) {s : State} (h : Kept c q m o s) :
    Kept c q m o (clFaultEnds a1 s) := by
  unfold clFaultEnds
  try dsimp only
  repeat' first
    | with_reducible exact h | with_reducible apply evalCl_kept | with_reducible apply discEvent_kept
    | with_reducible apply setChan_kept | with_reducible assumption | exact id | rfl | exact fun _ => rfl | split
    | (with_reducible refine Kept.put ?_ rfl rfl rfl rfl rfl rfl rfl rfl rfl id id)

theorem unlockAccept_kept (a1) (a2) {s : State} (h : Kept c q m o s) : Kept c q m o (unlockAccept a1 a2 s) := by
  unfold unlockAccept
  refine clearUnit_kept _ _ (chanSet_kept _ _ _ (unlockRecord_kept _ _ _ (writeDoor_kept _ (setChan_kept _ _ ?_ (fun _ => rfl)
    (fun _ => rfl) (fun _ => rfl)))) (fun _ _ => restState_off _))
  exact clFaultEnds_kept _ (foldl_kept (fun _ _ k => stuckOffEnds_kept _ _ k) _ (degClear_kept _ h))

theorem unlockVoid_kept (a1) {s : State} (h : Kept c q m o s) :
    Kept c q m o (unlockVoid a1 s) := by
  unfold unlockVoid
  try dsimp only
  repeat' first
    | with_reducible exact h | with_reducible apply unlockRefuse_kept | with_reducible apply setChan_kept
    | with_reducible assumption | exact id | rfl | exact fun _ => rfl | split
    | (with_reducible refine Kept.put ?_ rfl rfl rfl rfl rfl rfl rfl rfl rfl id id)

theorem chanStep_kept {s : State} (a1) (h : Kept c q m o s) : Kept c q m o (chanStep s a1) := by
  unfold chanStep
  replace h := unlockVoid_kept a1 h
  revert h
  generalize unlockVoid a1 s = s
  intro h
  have hk : ¬((!inService s && !torqueOn s.dc.chan[a1.1].state) = true) → o = true → inService s = true := by
    intro e f
    rcases h.off f with g | ⟨_, ⟨_, _, g⟩, _⟩
    · exact g
    · have := (g a1).1
      simp_all
  dsimp only
  split
  · exact h
  · split
    · exact ite_kept (leaveInactive_kept _ h) h
    · split
      · exact chanSet_kept _ _ _ h (fun _ _ => rfl)
      · have hk := hk ‹_›
        split
        · exact restRows_kept _ h hk
        · exact restRows_kept _ h hk
        · exact moveRows_kept _ h hk
        · exact moveRows_kept _ h hk
        · exact stopTick_kept _ h
        · exact ite_kept (chanSet_kept _ _ _ h (fun _ _ => restState_off _)) h
        · split
          · exact unlockAccept_kept _ _ h
          · exact h
        · exact h

theorem stoDeg_kept (a1) (a2) (a3) {s : State} (h : Kept c q m o s) :
    Kept c q m o (stoDeg a1 a2 a3 s) := by
  unfold stoDeg
  try dsimp only
  repeat' first
    | with_reducible exact h | with_reducible apply setSto_kept | with_reducible apply enterSafe_kept
    | with_reducible apply degFault_kept | with_reducible assumption | exact id | rfl | exact fun _ => rfl | split

theorem stoMismatch_kept (a1) (a2) (a3) {s : State} (h : Kept c q m o s) :
    Kept c q m o (stoMismatch a1 a2 a3 s) := by
  unfold stoMismatch
  try dsimp only
  repeat' first
    | with_reducible exact h | with_reducible apply rbEvent_kept | with_reducible apply lockout_kept
    | with_reducible apply setSto_kept | with_reducible apply stoDeg_kept | with_reducible assumption | exact id | rfl
    | exact fun _ => rfl | split | (with_reducible refine Kept.put ?_ rfl rfl rfl rfl rfl rfl rfl rfl rfl id id)

theorem stoLatch_kept (a1) (a2) (a3) {s : State} (h : Kept c q m o s) :
    Kept c q m o (stoLatch a1 a2 a3 s) := by
  unfold stoLatch
  try dsimp only
  repeat' first
    | with_reducible exact h | with_reducible apply setSto_kept | with_reducible apply stoMismatch_kept
    | with_reducible assumption | exact id | rfl | exact fun _ => rfl | split

theorem stoLatchChan_kept (a1) {s : State} (a2) (h : Kept c q m o s) :
    Kept c q m o (stoLatchChan a1 s a2) := by
  unfold stoLatchChan
  try dsimp only
  repeat' first
    | with_reducible exact h | with_reducible apply stoLatch_kept | with_reducible assumption | exact id | rfl
    | exact fun _ => rfl | split

theorem execStoDarkPulse_kept (a1) (a2) (a3) (a4) {s : State} (h : Kept c q m o s) :
    KeptR c q m o (execStoDarkPulse a1 a2 a3 a4 s) := by
  unfold execStoDarkPulse
  try dsimp only
  repeat' first
    | with_reducible exact h | with_reducible apply Kept.next | with_reducible apply advance_kept
    | with_reducible apply setSto_kept | with_reducible apply stoDeg_kept | with_reducible apply rbEvent_kept
    | with_reducible apply degCheck_kept | with_reducible assumption | exact id | rfl | exact fun _ => rfl | split

theorem doorsStep_kept {s : State} (h : Kept c q m o s) :
    Kept c q m o (doorsStep s) := by
  unfold doorsStep
  try dsimp only
  repeat' first
    | with_reducible exact h | with_reducible apply chanLatch_kept | with_reducible apply chanStep_kept
    | (with_reducible apply foldl_kept; intro _ _ _) | with_reducible assumption | exact id | rfl | exact fun _ => rfl | split

theorem doorsDrive_kept {s : State} (h : Kept c q m o s) : Kept c q m o (doorsDrive s) := by
  unfold doorsDrive
  dsimp only
  refine h.putS rfl rfl rfl rfl rfl rfl rfl rfl rfl (fun _ => id) (fun hs => ?_)
  rintro ⟨d1, d2, d3⟩
  refine ⟨?_, ?_, fun i => ?_⟩
  · simp only [psiBerth, show ∀ d, inService { s with dc := d } = false from fun _ => hs, Bool.false_and]
    rfl
  · simp only [show ∀ d, inService { s with dc := d } = false from fun _ => hs, Bool.false_and]
  · have d4 := d3 i
    simp [stoDrive, d4.1]

theorem unlockRequest_kept (a1) (a2) {s : State} (h : Kept c q m o s) : Kept c q m o (unlockRequest a1 a2 s) := by
  unfold unlockRequest
  refine ite_kept (unlockRefuse_kept _ _ h) (ite_kept (h.put rfl rfl rfl rfl rfl rfl rfl rfl rfl id id) ?_)
  exact setChan_kept _ _ h (fun _ => rfl) (fun _ => rfl) (fun _ => rfl)

theorem unlockWrite_kept (a1) {s : State} (h : Kept c q m o s) :
    Kept c q m o (unlockWrite a1 s) := by
  unfold unlockWrite
  try dsimp only
  repeat' first
    | with_reducible exact h | with_reducible apply unlockRequest_kept | with_reducible apply unlockRefuse_kept
    | with_reducible assumption | exact id | rfl | exact fun _ => rfl | split

theorem execDcUnlock_kept (a1) (a2) {s : State} (h : Kept c q m o s) :
    KeptR c q m o (execDcUnlock a1 a2 s) := by
  unfold execDcUnlock
  try dsimp only
  repeat' first
    | with_reducible exact h | with_reducible apply Kept.next | with_reducible apply portWrite_kept
    | with_reducible apply unlockWrite_kept | (intro _ _; try dsimp only) | with_reducible assumption | exact id | rfl
    | exact fun _ => rfl | split

theorem execUnlockStageTestDone_kept (a1) {s : State} (h : Kept c q m o s) : KeptR c q m o (execUnlockStageTestDone a1 s) := by
  unfold execUnlockStageTestDone
  refine Kept.next ?_
  split
  · exact h
  · have k (l) : Kept c q m o { s with dc := { s.dc with unlock := l } } := h.put rfl rfl rfl rfl rfl rfl rfl rfl rfl id id
    exact ite_kept (setChan_kept _ _ (k _) (fun _ => rfl) (fun _ => rfl) (fun _ => rfl)) (unlockRefuse_kept _ _ (k _))

theorem chanResume_kept {s : State} (a1) (h : Kept c q m o s) :
    Kept c q m o (chanResume s a1) := by
  unfold chanResume
  try dsimp only
  repeat' first
    | with_reducible exact h | with_reducible apply setChan_kept | with_reducible apply setItem_kept | with_reducible assumption
    | exact id | rfl | exact fun _ => rfl | split

theorem stageFailed_kept {s : State} (a1) (h : Kept c q m o s) :
    Kept c q m o (stageFailed s a1) := by
  unfold stageFailed
  try dsimp only
  repeat' first
    | with_reducible exact h | with_reducible apply lockout_kept | with_reducible assumption | exact id | rfl
    | exact fun _ => rfl | split

theorem lockAtLoad_kept {s : State} (a1) (h : Kept c q m o s) :
    Kept c q m o (lockAtLoad s a1) := by
  unfold lockAtLoad
  try dsimp only
  repeat' first
    | with_reducible exact h | with_reducible apply writeDoor_kept | with_reducible apply setChan_kept
    | with_reducible apply degClear_kept | with_reducible apply setItem_kept | with_reducible assumption | exact id | rfl
    | exact fun _ => rfl | split

theorem pairsLoad_kept {s : State} (h : Kept c q m o s) :
    Kept c q m o (pairsLoad s) := by
  unfold pairsLoad
  try dsimp only
  repeat' first
    | with_reducible exact h | with_reducible apply evalEstop_kept | with_reducible apply evalOb_kept
    | with_reducible apply evalCl_kept | (with_reducible apply foldl_kept; intro _ _ _) | with_reducible assumption
    | exact id | rfl | exact fun _ => rfl | split

theorem doorsLoad_kept {s : State} (h : Kept c q m o s) : Kept c q m o (doorsLoad s) := by
  unfold doorsLoad
  refine foldl_kept (fun _ _ k => lockAtLoad_kept _ k) _ (pairsLoad_kept (foldl_kept (fun _ _ k => ?_) _
    (foldl_kept (fun _ _ k => ?_) _ (foldl_kept (fun _ _ k => ?_) _ h))))
  · exact ite_kept (sourceFaultApply_kept _ k) k
  · refine ite_kept (evalContact_kept _ (setContact_kept _ _ ?_)) k
    exact k.put rfl rfl rfl rfl rfl rfl rfl rfl rfl id id
  · exact ite_kept (stageFailed_kept _ (chanResume_kept _ k)) k

end Sys2Proof.Machine
end

