-- ==== Sys2Proof/Laws/KeptTelegrams.lean ====
section
/-! SUPPORT. The operations of Machine/Telegrams.lean keep what Kept says. -/

namespace Sys2Proof.Machine

open Sys2Proof

variable {c : Image} {q : List Instr} {m : Mode} {o : Bool}

theorem setTg_kept (a1) {s : State} (h : Kept c q m o s) :
    Kept c q m o (setTg a1 s) := by
  unfold setTg
  try dsimp only
  repeat' first
    | with_reducible exact h | with_reducible assumption | exact id | rfl | exact fun _ => rfl | split
    | (with_reducible refine Kept.put ?_ rfl rfl rfl rfl rfl rfl rfl rfl rfl id id)

theorem setPair_kept (a1) (a2) {s : State} (h : Kept c q m o s) :
    Kept c q m o (setPair a1 a2 s) := by
  unfold setPair
  try dsimp only
  repeat' first
    | with_reducible exact h | with_reducible apply setTg_kept

theorem rejectCopy_kept (a1) (a2) (a3) {s : State} (h : Kept c q m o s) :
    Kept c q m o (rejectCopy a1 a2 a3 s) := by
  unfold rejectCopy
  try dsimp only
  repeat' first
    | with_reducible exact h | with_reducible apply setTg_kept | with_reducible apply raise_kept | with_reducible assumption
    | exact id | rfl | exact fun _ => rfl | split

theorem limitedFault_kept (a1) (a2) (a3) (a4) (a5) {s : State} (h : Kept c q m o s) :
    Kept c q m o (limitedFault a1 a2 a3 a4 a5 s) := by
  unfold limitedFault
  try dsimp only
  repeat' first
    | with_reducible exact h | with_reducible apply raise_kept | with_reducible apply setTg_kept
    | with_reducible apply eventRecord_kept | with_reducible assumption | exact id | rfl | exact fun _ => rfl | split

theorem netEvent_kept (a1) (a2) (a3) {s : State} (h : Kept c q m o s) :
    Kept c q m o (netEvent a1 a2 a3 s) := by
  unfold netEvent
  try dsimp only
  repeat' first
    | with_reducible exact h | with_reducible apply raiseAt_kept

theorem resetOrder_kept (a1) {s : State} (h : Kept c q m o s) :
    Kept c q m o (resetOrder a1 s) := by
  unfold resetOrder
  try dsimp only
  repeat' first
    | with_reducible exact h | with_reducible apply raise_kept | with_reducible assumption | exact id | rfl | exact fun _ => rfl
    | split | (with_reducible refine Kept.put ?_ rfl rfl rfl rfl rfl rfl rfl rfl rfl id id)

theorem useCommand_kept (a1) {s : State} (h : Kept c q m o s) :
    Kept c q m o (useCommand a1 s) := by
  unfold useCommand
  try dsimp only
  repeat' first
    | with_reducible exact h | with_reducible apply resetOrder_kept | with_reducible apply setTg_kept
    | with_reducible assumption | exact id | rfl | exact fun _ => rfl | split
    | (with_reducible refine Kept.put ?_ rfl rfl rfl rfl rfl rfl rfl rfl rfl id id)

theorem useRequest_kept (a1) (a2) (a3) {s : State} (h : Kept c q m o s) :
    Kept c q m o (useRequest a1 a2 a3 s) := by
  unfold useRequest
  try dsimp only
  repeat' first
    | with_reducible exact h | with_reducible apply setTg_kept | with_reducible apply limitedFault_kept
    | with_reducible assumption | exact id | rfl | exact fun _ => rfl | split

theorem useContent_kept (a1) (a2) (a3) {s : State} (h : Kept c q m o s) :
    Kept c q m o (useContent a1 a2 a3 s) := by
  unfold useContent
  try dsimp only
  repeat' first
    | with_reducible exact h | with_reducible apply resetOrder_kept | with_reducible apply useCommand_kept
    | with_reducible apply useRequest_kept | with_reducible assumption | exact id | rfl | exact fun _ => rfl | split

theorem pairLose_kept (a1) (a2) {s : State} (h : Kept c q m o s) :
    Kept c q m o (pairLose a1 a2 s) := by
  unfold pairLose
  try dsimp only
  repeat' first
    | with_reducible exact h | with_reducible apply setPair_kept | with_reducible apply eventRecord_kept
    | with_reducible apply netEvent_kept | with_reducible apply clearItem_kept | with_reducible apply setItem_kept

theorem pairStreak_kept (a1) (a2) {s : State} (h : Kept c q m o s) :
    Kept c q m o (pairStreak a1 a2 s) := by
  unfold pairStreak
  try dsimp only
  repeat' first
    | with_reducible exact h | with_reducible apply setPair_kept

theorem pairRecover_kept (a1) {s : State} (h : Kept c q m o s) :
    Kept c q m o (pairRecover a1 s) := by
  unfold pairRecover
  try dsimp only
  repeat' first
    | with_reducible exact h | with_reducible apply setPair_kept | with_reducible apply clearItem_kept
    | with_reducible apply netEvent_kept | with_reducible apply recovery_kept | with_reducible assumption | exact id | rfl
    | exact fun _ => rfl | split | (with_reducible refine Kept.put ?_ rfl rfl rfl rfl rfl rfl rfl rfl rfl id id)

theorem setSource_kept (a1) (a2) {s : State} (h : Kept c q m o s) :
    Kept c q m o (setSource a1 a2 s) := by
  unfold setSource
  try dsimp only
  repeat' first
    | with_reducible exact h | with_reducible apply setTg_kept

theorem noteSource_kept (a1) (a2) {s : State} (h : Kept c q m o s) :
    Kept c q m o (noteSource a1 a2 s) := by
  unfold noteSource
  try dsimp only
  repeat' first
    | with_reducible exact h | with_reducible apply setSource_kept | with_reducible assumption | exact id | rfl
    | exact fun _ => rfl | split | (with_reducible refine Kept.put ?_ rfl rfl rfl rfl rfl rfl rfl rfl rfl id id)

theorem noteEcho_kept (a1) (a2) {s : State} (h : Kept c q m o s) :
    Kept c q m o (noteEcho a1 a2 s) := by
  unfold noteEcho
  try dsimp only
  repeat' first
    | with_reducible exact h | with_reducible apply setTg_kept | with_reducible assumption | exact id | rfl
    | exact fun _ => rfl | split | (with_reducible refine Kept.put ?_ rfl rfl rfl rfl rfl rfl rfl rfl rfl id id)

theorem seqFault_kept (a1) (a2) (a3) {s : State} (h : Kept c q m o s) :
    Kept c q m o (seqFault a1 a2 a3 s) := by
  unfold seqFault
  try dsimp only
  repeat' first
    | with_reducible exact h | with_reducible apply limitedFault_kept | with_reducible apply setTg_kept

theorem finish_kept (a1) (a2) (a3) (a4) {s : State} (h : Kept c q m o s) :
    Kept c q m o (finish a1 a2 a3 a4 s) := by
  unfold finish
  try dsimp only
  repeat' first
    | with_reducible exact h | with_reducible apply pairRecover_kept | with_reducible apply pairStreak_kept
    | with_reducible apply useContent_kept | with_reducible assumption | exact id | rfl | exact fun _ => rfl | split

theorem staleFault_kept (a1) (a2) {s : State} (h : Kept c q m o s) :
    Kept c q m o (staleFault a1 a2 s) := by
  unfold staleFault
  try dsimp only
  repeat' first
    | with_reducible exact h | with_reducible apply limitedFault_kept | with_reducible apply setTg_kept
    | with_reducible assumption | exact id | rfl | exact fun _ => rfl | split
    | (with_reducible refine Kept.put ?_ rfl rfl rfl rfl rfl rfl rfl rfl rfl id id)

theorem inOrder_kept (a1) (a2) (a3) {s : State} (h : Kept c q m o s) :
    Kept c q m o (inOrder a1 a2 a3 s) := by
  unfold inOrder
  try dsimp only
  repeat' first
    | with_reducible exact h | with_reducible apply noteSource_kept | with_reducible apply seqFault_kept
    | with_reducible apply staleFault_kept | with_reducible apply pairStreak_kept | with_reducible apply finish_kept
    | with_reducible assumption | exact id | rfl | exact fun _ => rfl | split

theorem telegram_kept (a1) (a2) (a3) {s : State} (h : Kept c q m o s) :
    Kept c q m o (telegram a1 a2 a3 s) := by
  unfold telegram
  try dsimp only
  repeat' first
    | with_reducible exact h | with_reducible apply finish_kept | with_reducible apply noteSource_kept
    | with_reducible apply limitedFault_kept | with_reducible apply setSource_kept | with_reducible apply inOrder_kept
    | with_reducible apply setTg_kept | with_reducible apply raise_kept | with_reducible apply pairStreak_kept
    | with_reducible apply seqFault_kept | with_reducible assumption | exact id | rfl | exact fun _ => rfl | split

theorem accept_kept (a1) (a2) (a3) {s : State} (h : Kept c q m o s) :
    Kept c q m o (accept a1 a2 a3 s) := by
  unfold accept
  try dsimp only
  repeat' first
    | with_reducible exact h | with_reducible apply setPair_kept | with_reducible apply noteLatch_kept
    | with_reducible apply telegram_kept | with_reducible apply noteEcho_kept | with_reducible assumption | exact id | rfl
    | exact fun _ => rfl | split | (with_reducible refine Kept.put ?_ rfl rfl rfl rfl rfl rfl rfl rfl rfl id id)

theorem acceptHeld_kept (a1) (a2) {s : State} (h : Kept c q m o s) :
    Kept c q m o (acceptHeld a1 a2 s) := by
  unfold acceptHeld
  try dsimp only
  repeat' first
    | with_reducible exact h | with_reducible apply setPair_kept | with_reducible apply accept_kept
    | (with_reducible apply foldl_kept; intro _ _ _) | with_reducible assumption

theorem netLose_kept (a1) (a2) (a3) {s : State} (h : Kept c q m o s) :
    Kept c q m o (netLose a1 a2 a3 s) := by
  unfold netLose
  try dsimp only
  repeat' first
    | with_reducible exact h | with_reducible apply setPair_kept | with_reducible apply eventRecord_kept
    | with_reducible apply netEvent_kept | with_reducible apply acceptHeld_kept | with_reducible apply setItem_kept
    | with_reducible apply pairLose_kept | with_reducible assumption | exact id | rfl | exact fun _ => rfl | split

theorem missing_kept (a1) (a2) (a3) {s : State} (h : Kept c q m o s) :
    Kept c q m o (missing a1 a2 a3 s) := by
  unfold missing
  try dsimp only
  repeat' first
    | with_reducible exact h | with_reducible apply setTg_kept | with_reducible apply limitedFault_kept
    | with_reducible apply pairStreak_kept | with_reducible apply setPair_kept | with_reducible apply netLose_kept
    | with_reducible assumption | exact id | rfl | exact fun _ => rfl | split

theorem mismatchCopy_kept (a1) (a2) {s : State} (h : Kept c q m o s) :
    Kept c q m o (mismatchCopy a1 a2 s) := by
  unfold mismatchCopy
  try dsimp only
  repeat' first
    | with_reducible exact h | with_reducible apply setTg_kept | with_reducible apply limitedFault_kept
    | with_reducible apply setPair_kept | with_reducible apply pairLose_kept | with_reducible assumption | exact id | rfl
    | exact fun _ => rfl | split

theorem expireSlot_kept (a1) (a2) {s : State} (h : Kept c q m o s) :
    Kept c q m o (expireSlot a1 a2 s) := by
  unfold expireSlot
  try dsimp only
  repeat' first
    | with_reducible exact h | with_reducible apply missing_kept | with_reducible apply setPair_kept

theorem expireAll_kept (a1) (a2) {s : State} (h : Kept c q m o s) :
    Kept c q m o (expireAll a1 a2 s) := by
  unfold expireAll
  try dsimp only
  repeat' first
    | with_reducible exact h | with_reducible apply expireSlot_kept | (with_reducible apply foldl_kept; intro _ _ _)
    | with_reducible assumption | exact id | rfl | exact fun _ => rfl | split

theorem makeRoom_kept (a1) {s : State} (h : Kept c q m o s) :
    Kept c q m o (makeRoom a1 s) := by
  unfold makeRoom
  try dsimp only
  repeat' first
    | with_reducible exact h | with_reducible apply expireSlot_kept | with_reducible assumption | exact id | rfl
    | exact fun _ => rfl | split

theorem holdCopy_kept (a1) (a2) {s : State} (h : Kept c q m o s) :
    Kept c q m o (holdCopy a1 a2 s) := by
  unfold holdCopy
  try dsimp only
  repeat' first
    | with_reducible exact h | with_reducible apply setPair_kept | with_reducible assumption | exact id | rfl
    | exact fun _ => rfl | split | (with_reducible refine Kept.put ?_ rfl rfl rfl rfl rfl rfl rfl rfl rfl id id)

theorem netRecover_kept (a1) (a2) {s : State} (h : Kept c q m o s) :
    Kept c q m o (netRecover a1 a2 s) := by
  unfold netRecover
  try dsimp only
  repeat' first
    | with_reducible exact h | with_reducible apply setPair_kept | with_reducible apply clearItem_kept
    | with_reducible apply netEvent_kept | with_reducible apply recovery_kept | with_reducible assumption | exact id | rfl
    | exact fun _ => rfl | split | (with_reducible refine Kept.put ?_ rfl rfl rfl rfl rfl rfl rfl rfl rfl id id)

theorem copyServing_kept (a1) (a2) {s : State} (h : Kept c q m o s) :
    Kept c q m o (copyServing a1 a2 s) := by
  unfold copyServing
  try dsimp only
  repeat' first
    | with_reducible exact h | with_reducible apply setPair_kept | with_reducible apply netRecover_kept
    | with_reducible apply accept_kept | with_reducible assumption | exact id | rfl | exact fun _ => rfl | split

theorem copyLost_kept (a1) (a2) {s : State} (h : Kept c q m o s) :
    Kept c q m o (copyLost a1 a2 s) := by
  unfold copyLost
  try dsimp only
  repeat' first
    | with_reducible exact h | with_reducible apply setPair_kept | with_reducible apply netRecover_kept
    | with_reducible apply holdCopy_kept | with_reducible apply makeRoom_kept | with_reducible assumption | exact id | rfl
    | exact fun _ => rfl | split | (with_reducible refine Kept.put ?_ rfl rfl rfl rfl rfl rfl rfl rfl rfl id id)

theorem copySingle_kept (a1) (a2) (a3) {s : State} (h : Kept c q m o s) :
    Kept c q m o (copySingle a1 a2 a3 s) := by
  unfold copySingle
  try dsimp only
  repeat' first
    | with_reducible exact h | with_reducible apply copyServing_kept | with_reducible apply copyLost_kept
    | with_reducible assumption | exact id | rfl | exact fun _ => rfl | split

theorem copyHeld_kept (a1) (a2) {s : State} (h : Kept c q m o s) :
    Kept c q m o (copyHeld a1 a2 s) := by
  unfold copyHeld
  try dsimp only
  repeat' first
    | with_reducible exact h | with_reducible apply makeRoom_kept | with_reducible apply holdCopy_kept
    | with_reducible apply copySingle_kept | with_reducible assumption | exact id | rfl | exact fun _ => rfl | split

theorem copyDual_kept (a1) (a2) {s : State} (h : Kept c q m o s) :
    Kept c q m o (copyDual a1 a2 s) := by
  unfold copyDual
  try dsimp only
  repeat' first
    | with_reducible exact h | with_reducible apply setPair_kept | with_reducible apply accept_kept
    | with_reducible apply mismatchCopy_kept | with_reducible apply copyHeld_kept | with_reducible assumption | exact id
    | rfl | exact fun _ => rfl | split | (with_reducible refine Kept.put ?_ rfl rfl rfl rfl rfl rfl rfl rfl rfl id id)

theorem copyChecked_kept (a1) (a2) {s : State} (h : Kept c q m o s) :
    Kept c q m o (copyChecked a1 a2 s) := by
  unfold copyChecked
  try dsimp only
  repeat' first
    | with_reducible exact h | with_reducible apply copyDual_kept | with_reducible apply copySingle_kept
    | with_reducible assumption | exact id | rfl | exact fun _ => rfl | split

theorem copyGood_kept (a1) (a2) {s : State} (h : Kept c q m o s) :
    Kept c q m o (copyGood a1 a2 s) := by
  unfold copyGood
  try dsimp only
  repeat' first
    | with_reducible exact h | with_reducible apply expireAll_kept | with_reducible apply copyChecked_kept
    | with_reducible assumption | exact id | rfl | exact fun _ => rfl | split

theorem copyArrives_kept (a1) (a2) {s : State} (h : Kept c q m o s) :
    Kept c q m o (copyArrives a1 a2 s) := by
  unfold copyArrives
  try dsimp only
  repeat' first
    | with_reducible exact h | with_reducible apply expireAll_kept | with_reducible apply tapOut_kept
    | with_reducible apply copyGood_kept | with_reducible apply rejectCopy_kept | with_reducible assumption | exact id | rfl
    | exact fun _ => rfl | split | (with_reducible refine Kept.put ?_ rfl rfl rfl rfl rfl rfl rfl rfl rfl id id)

theorem execCopyReceive_kept (a1) (a2) {s : State} (h : Kept c q m o s) :
    KeptR c q m o (execCopyReceive a1 a2 s) := by
  unfold execCopyReceive
  try dsimp only
  repeat' first
    | with_reducible exact h | with_reducible apply Kept.next | with_reducible apply copyArrives_kept

theorem execSlotExpiry_kept (a1) (a2) {s : State} (h : Kept c q m o s) :
    KeptR c q m o (execSlotExpiry a1 a2 s) := by
  unfold execSlotExpiry
  try dsimp only
  repeat' first
    | with_reducible exact h | with_reducible apply Kept.next | with_reducible apply expireSlot_kept | with_reducible assumption
    | exact id | rfl | exact fun _ => rfl | split

theorem lapseEvent_kept (a1) (a2) (a3) {s : State} (h : Kept c q m o s) :
    Kept c q m o (lapseEvent a1 a2 a3 s) := by
  unfold lapseEvent
  try dsimp only
  repeat' first
    | with_reducible exact h | with_reducible apply eventRecord_kept | with_reducible apply raiseAt_kept
    | with_reducible apply setTg_kept

theorem lapsePeer_kept {s : State} (a1) (h : Kept c q m o s) :
    Kept c q m o (lapsePeer s a1) := by
  unfold lapsePeer
  try dsimp only
  repeat' first
    | with_reducible exact h | with_reducible apply lapseEvent_kept | with_reducible apply setTg_kept
    | (with_reducible apply foldl_kept; intro _ _ _) | with_reducible assumption | exact id | rfl | exact fun _ => rfl
    | split | (with_reducible refine Kept.put ?_ rfl rfl rfl rfl rfl rfl rfl rfl rfl id id)

theorem lapseAll_kept {s : State} (h : Kept c q m o s) :
    Kept c q m o (lapseAll s) := by
  unfold lapseAll
  try dsimp only
  repeat' first
    | with_reducible exact h | with_reducible apply lapsePeer_kept | (with_reducible apply foldl_kept; intro _ _ _)
    | with_reducible assumption

theorem execLapse_kept (a1) {s : State} (h : Kept c q m o s) :
    KeptR c q m o (execLapse a1 s) := by
  unfold execLapse
  try dsimp only
  repeat' first
    | with_reducible exact h | with_reducible apply Kept.next | with_reducible apply lapsePeer_kept
    | with_reducible apply reachTick_kept | with_reducible assumption | exact id | rfl | exact fun _ => rfl | split

theorem markStream_kept (a1) {s : State} (h : Kept c q m o s) :
    Kept c q m o (markStream a1 s) := by
  unfold markStream
  try dsimp only
  repeat' first
    | with_reducible exact h | with_reducible assumption | exact id | rfl | exact fun _ => rfl | split
    | (with_reducible refine Kept.put ?_ rfl rfl rfl rfl rfl rfl rfl rfl rfl id id)

theorem build_kept (a1) (a2) (a3) {s : State} (h : Kept c q m o s) :
    Kept c q m o (build a1 a2 a3 s).2 := by
  unfold build
  try dsimp only
  repeat' first
    | with_reducible exact h | with_reducible apply markStream_kept | with_reducible apply setTg_kept
    | with_reducible assumption | exact id | rfl | exact fun _ => rfl | split
    | (with_reducible refine Kept.put ?_ rfl rfl rfl rfl rfl rfl rfl rfl rfl id id)

end Sys2Proof.Machine
end

