-- ==== Sys2Proof/Laws/KeptPorts.lean ====
section
/-! SUPPORT. The operations of Machine/Ports.lean keep what Kept says. -/

namespace Sys2Proof.Machine

open Sys2Proof

variable {c : Image} {q : List Instr} {m : Mode} {o : Bool}

theorem setEth_kept (a1) (a2) {s : State} (h : Kept c q m o s) :
    Kept c q m o (setEth a1 a2 s) := by
  unfold setEth
  try dsimp only
  repeat' first
    | with_reducible exact h | with_reducible assumption | exact id | rfl | exact fun _ => rfl | split
    | (with_reducible refine Kept.put ?_ rfl rfl rfl rfl rfl rfl rfl rfl rfl id id)

theorem setCan_kept (a1) (a2) {s : State} (h : Kept c q m o s) :
    Kept c q m o (setCan a1 a2 s) := by
  unfold setCan
  try dsimp only
  repeat' first
    | with_reducible exact h | with_reducible assumption | exact id | rfl | exact fun _ => rfl | split
    | (with_reducible refine Kept.put ?_ rfl rfl rfl rfl rfl rfl rfl rfl rfl id id)

theorem portEvent_kept (a1) (a2) (a3) (a4) {s : State} (h : Kept c q m o s) :
    Kept c q m o (portEvent a1 a2 a3 a4 s) := by
  unfold portEvent
  try dsimp only
  repeat' first
    | with_reducible exact h | with_reducible apply setEth_kept | with_reducible apply setCan_kept
    | with_reducible apply raise_kept | with_reducible apply raiseAt_kept | with_reducible assumption | exact id | rfl
    | exact fun _ => rfl | split | (with_reducible refine Kept.put ?_ rfl rfl rfl rfl rfl rfl rfl rfl rfl id id)

theorem withdrawn_kept (a1) (a2) (a3) {s : State} (h : Kept c q m o s) :
    Kept c q m o (withdrawn a1 a2 a3 s) := by
  unfold withdrawn
  try dsimp only
  repeat' first
    | with_reducible exact h | with_reducible apply setCan_kept | with_reducible apply portEvent_kept
    | with_reducible assumption | exact id | rfl | exact fun _ => rfl | split

theorem execEthFrameReceive_kept (a1) (a2) {s : State} (h : Kept c q m o s) :
    KeptR c q m o (execEthFrameReceive a1 a2 s) := by
  unfold execEthFrameReceive
  try dsimp only
  repeat' first
    | with_reducible exact h | with_reducible apply Kept.next | with_reducible apply setEth_kept
    | with_reducible apply copyArrives_kept | with_reducible assumption | exact id | rfl | exact fun _ => rfl | split

theorem ethQueue_kept (a1) (a2) {s : State} (h : Kept c q m o s) :
    Kept c q m o (ethQueue a1 a2 s) := by
  unfold ethQueue
  try dsimp only
  repeat' first
    | with_reducible exact h | with_reducible apply setEth_kept | with_reducible apply withdrawn_kept
    | with_reducible assumption | exact id | rfl | exact fun _ => rfl | split

theorem execEthTransmitDone_kept (a1) {s : State} (h : Kept c q m o s) :
    KeptR c q m o (execEthTransmitDone a1 s) := by
  unfold execEthTransmitDone
  try dsimp only
  repeat' first
    | with_reducible exact h | with_reducible apply Kept.next | with_reducible apply setEth_kept | with_reducible assumption
    | exact id | rfl | exact fun _ => rfl | split

theorem ethGoesDown_kept (a1) (a2) {s : State} (h : Kept c q m o s) :
    Kept c q m o (ethGoesDown a1 a2 s) := by
  unfold ethGoesDown
  try dsimp only
  repeat' first
    | with_reducible exact h | with_reducible apply setEth_kept | with_reducible apply eventRecord_kept
    | with_reducible apply portEvent_kept | with_reducible apply netLose_kept | with_reducible apply withdrawn_kept
    | with_reducible assumption | exact id | rfl | exact fun _ => rfl | split

theorem ethGoesUp_kept (a1) {s : State} (h : Kept c q m o s) :
    Kept c q m o (ethGoesUp a1 s) := by
  unfold ethGoesUp
  try dsimp only
  repeat' first
    | with_reducible exact h | with_reducible apply recovery_kept | with_reducible apply portEvent_kept
    | with_reducible apply setEth_kept | with_reducible assumption | exact id | rfl | exact fun _ => rfl | split

theorem execMdioPoll_kept (a1) (a2) (a3) (a4) {s : State} (h : Kept c q m o s) :
    KeptR c q m o (execMdioPoll a1 a2 a3 a4 s) := by
  unfold execMdioPoll
  try dsimp only
  repeat' first
    | with_reducible exact h | with_reducible apply Kept.next | with_reducible apply setEth_kept
    | with_reducible apply ethGoesUp_kept | with_reducible apply ethGoesDown_kept | with_reducible assumption | exact id
    | rfl | exact fun _ => rfl | split | (with_reducible refine Kept.put ?_ rfl rfl rfl rfl rfl rfl rfl rfl rfl id id)

theorem execPortStart_kept {s : State} (h : Kept c q m o s) :
    KeptR c q m o (execPortStart s) := by
  unfold execPortStart
  try dsimp only
  repeat' first
    | with_reducible exact h | with_reducible apply Kept.next | with_reducible apply mdioStart_kept
    | with_reducible assumption | exact id | rfl | exact fun _ => rfl | split

theorem mdioRequest_kept (a1) {s : State} (h : Kept c q m o s) :
    Kept c q m o (mdioRequest a1 s) := by
  unfold mdioRequest
  try dsimp only
  repeat' first
    | with_reducible exact h | with_reducible assumption | exact id | rfl | exact fun _ => rfl | split
    | (with_reducible refine Kept.put ?_ rfl rfl rfl rfl rfl rfl rfl rfl rfl id id)

theorem execMdioReadRequest_kept (a1) (a2) {s : State} (h : Kept c q m o s) :
    KeptR c q m o (execMdioReadRequest a1 a2 s) := by
  unfold execMdioReadRequest
  try dsimp only
  repeat' first
    | with_reducible exact h | with_reducible apply Kept.next | with_reducible apply portWrite_kept
    | with_reducible apply mdioRequest_kept

theorem execMdioReadDone_kept (a1) (a2) {s : State} (h : Kept c q m o s) :
    KeptR c q m o (execMdioReadDone a1 a2 s) := by
  unfold execMdioReadDone
  try dsimp only
  repeat' first
    | with_reducible exact h | with_reducible apply Kept.next | with_reducible assumption | exact id | rfl | exact fun _ => rfl
    | split | (with_reducible refine Kept.put ?_ rfl rfl rfl rfl rfl rfl rfl rfl rfl id id)

theorem canStart_kept (a1) {s : State} (h : Kept c q m o s) :
    Kept c q m o (canStart a1 s) := by
  unfold canStart
  try dsimp only
  repeat' first
    | with_reducible exact h | with_reducible apply setCan_kept | with_reducible assumption | exact id | rfl
    | exact fun _ => rfl | split

theorem canQueue_kept (a1) (a2) {s : State} (h : Kept c q m o s) :
    Kept c q m o (canQueue a1 a2 s) := by
  unfold canQueue
  try dsimp only
  repeat' first
    | with_reducible exact h | with_reducible apply setCan_kept | with_reducible apply canStart_kept
    | with_reducible apply withdrawn_kept | (with_reducible apply foldl_kept; intro _ _ _) | with_reducible assumption
    | exact id | rfl | exact fun _ => rfl | split

theorem busOff_kept (a1) {s : State} (h : Kept c q m o s) :
    Kept c q m o (busOff a1 s) := by
  unfold busOff
  try dsimp only
  repeat' first
    | with_reducible exact h | with_reducible apply setCan_kept | with_reducible apply eventRecord_kept
    | with_reducible apply portEvent_kept | with_reducible apply netLose_kept | with_reducible apply withdrawn_kept
    | with_reducible assumption | exact id | rfl | exact fun _ => rfl | split

theorem canConfine_kept (a1) {s : State} (h : Kept c q m o s) :
    Kept c q m o (canConfine a1 s) := by
  unfold canConfine
  try dsimp only
  repeat' first
    | with_reducible exact h | with_reducible apply busOff_kept | with_reducible apply portEvent_kept
    | with_reducible apply setCan_kept | with_reducible assumption | exact id | rfl | exact fun _ => rfl | split

theorem execCanError_kept (a1) (a2) {s : State} (h : Kept c q m o s) :
    KeptR c q m o (execCanError a1 a2 s) := by
  unfold execCanError
  try dsimp only
  repeat' first
    | with_reducible exact h | with_reducible apply Kept.next | with_reducible apply setCan_kept
    | with_reducible apply canStart_kept | with_reducible apply canConfine_kept | with_reducible assumption | exact id | rfl
    | exact fun _ => rfl | split | (with_reducible refine Kept.put ?_ rfl rfl rfl rfl rfl rfl rfl rfl rfl id id)

theorem stopSent_kept (a1) {s : State} (h : Kept c q m o s) :
    Kept c q m o (stopSent a1 s) := by
  unfold stopSent
  try dsimp only
  repeat' first
    | with_reducible exact h | with_reducible assumption | exact id | rfl | exact fun _ => rfl | split
    | (with_reducible refine Kept.put ?_ rfl rfl rfl rfl rfl rfl rfl rfl rfl id id)
    | (with_reducible refine Kept.put ?_ rfl rfl rfl rfl rfl rfl rfl rfl rfl ?_ ?_)
    | (intro hb i; have hb := hb i; simp only [get_upd, get_mapv]; (repeat' split) <;> simp_all; done)
    | (rintro ⟨h1, h2, h3⟩; refine ⟨h1, h2, fun i => ?_⟩; have h3 := h3 i; simp only [get_upd, get_mapv]; (repeat' split) <;> simp_all; done)

theorem execCanTransmitDone_kept (a1) {s : State} (h : Kept c q m o s) :
    KeptR c q m o (execCanTransmitDone a1 s) := by
  unfold execCanTransmitDone
  try dsimp only
  repeat' first
    | with_reducible exact h | with_reducible apply Kept.next | with_reducible apply setCan_kept
    | with_reducible apply canStart_kept | with_reducible apply canConfine_kept | with_reducible apply stopSent_kept
    | with_reducible assumption | exact id | rfl | exact fun _ => rfl | split

theorem recGood_kept (a1) {s : State} (h : Kept c q m o s) :
    Kept c q m o (recGood a1 s) := by
  unfold recGood
  try dsimp only
  repeat' first
    | with_reducible exact h | with_reducible apply draw_kept | with_reducible apply setCan_kept | with_reducible assumption
    | exact id | rfl | exact fun _ => rfl | split

theorem execCanFrameReceive_kept (a1) (a2) {s : State} (h : Kept c q m o s) :
    KeptR c q m o (execCanFrameReceive a1 a2 s) := by
  unfold execCanFrameReceive
  try dsimp only
  repeat' first
    | with_reducible exact h | with_reducible apply Kept.next | with_reducible apply canConfine_kept
    | with_reducible apply recGood_kept | with_reducible apply setCan_kept | with_reducible apply copyArrives_kept
    | with_reducible assumption | exact id | rfl | exact fun _ => rfl | split

theorem execBusOffRecoveryDone_kept (a1) {s : State} (h : Kept c q m o s) :
    KeptR c q m o (execBusOffRecoveryDone a1 s) := by
  unfold execBusOffRecoveryDone
  try dsimp only
  repeat' first
    | with_reducible exact h | with_reducible apply Kept.next | with_reducible apply setCan_kept
    | with_reducible apply portEvent_kept | with_reducible apply recovery_kept | with_reducible assumption | exact id | rfl
    | exact fun _ => rfl | split

theorem canRecover_kept (a1) {s : State} (h : Kept c q m o s) :
    Kept c q m o (canRecover a1 s) := by
  unfold canRecover
  try dsimp only
  repeat' first
    | with_reducible exact h | with_reducible apply setCan_kept | with_reducible assumption | exact id | rfl
    | exact fun _ => rfl | split

theorem recoverWrite_kept (a1) {s : State} (h : Kept c q m o s) :
    Kept c q m o (recoverWrite a1 s) := by
  unfold recoverWrite
  try dsimp only
  repeat' first
    | with_reducible exact h | with_reducible apply canRecover_kept | with_reducible assumption | exact id | rfl
    | exact fun _ => rfl | split

theorem execCanRecover_kept (a1) (a2) {s : State} (h : Kept c q m o s) :
    KeptR c q m o (execCanRecover a1 a2 s) := by
  unfold execCanRecover
  try dsimp only
  repeat' first
    | with_reducible exact h | with_reducible apply Kept.next | with_reducible apply portWrite_kept
    | with_reducible apply recoverWrite_kept

theorem execStandbyExit_kept {s : State} (h : Kept c q m o s) :
    KeptR c q m o (execStandbyExit s) := by
  unfold execStandbyExit
  try dsimp only
  repeat' first
    | with_reducible exact h | with_reducible apply Kept.next | with_reducible apply canStart_kept
    | with_reducible apply portEvent_kept | with_reducible apply setCan_kept | with_reducible assumption | exact id | rfl
    | exact fun _ => rfl | split

theorem cycleTick_kept (a1) {s : State} (h : Kept c q m o s) :
    Kept c q m o (cycleTick a1 s) := by
  unfold cycleTick
  try dsimp only
  repeat' first
    | with_reducible exact h | with_reducible apply setTg_kept | with_reducible apply setPair_kept
    | with_reducible assumption | exact id | rfl | exact fun _ => rfl | split
    | (with_reducible refine Kept.put ?_ rfl rfl rfl rfl rfl rfl rfl rfl rfl id id)

theorem cycleMark_kept (a1) {s : State} (h : Kept c q m o s) :
    Kept c q m o (cycleMark a1 s) := by
  unfold cycleMark
  try dsimp only
  repeat' first
    | with_reducible exact h | with_reducible apply setTg_kept

theorem sendNow_kept {s : State} (a1) (h : Kept c q m o s) :
    Kept c q m o (sendNow s a1) := by
  unfold sendNow
  try dsimp only
  repeat' first
    | with_reducible exact h | with_reducible apply tapOut_kept | with_reducible apply ethQueue_kept
    | with_reducible apply canQueue_kept | with_reducible assumption | exact id | rfl | exact fun _ => rfl | split

theorem sendStep_kept {s : State} (a1) (h : Kept c q m o s) :
    Kept c q m o (sendStep s a1) := by
  unfold sendStep
  try dsimp only
  repeat' first
    | with_reducible exact h | with_reducible apply sendNow_kept | with_reducible apply setTg_kept
    | with_reducible assumption | exact id | rfl | exact fun _ => rfl | split
    | (with_reducible refine Kept.put ?_ rfl rfl rfl rfl rfl rfl rfl rfl rfl id id)

theorem sendWaiting_kept {s : State} (h : Kept c q m o s) :
    Kept c q m o (sendWaiting s) := by
  unfold sendWaiting
  try dsimp only
  repeat' first
    | with_reducible exact h | with_reducible apply sendStep_kept | with_reducible apply setTg_kept
    | (with_reducible apply foldl_kept; intro _ _ _) | with_reducible assumption | exact id | rfl | exact fun _ => rfl
    | split | (with_reducible refine Kept.put ?_ rfl rfl rfl rfl rfl rfl rfl rfl rfl id id)

theorem sendTelegram_kept (a1) {s : State} (h : Kept c q m o s) :
    Kept c q m o (sendTelegram a1 s) := by
  unfold sendTelegram
  try dsimp only
  repeat' first
    | with_reducible exact h | with_reducible apply sendStep_kept | with_reducible apply sendWaiting_kept
    | with_reducible assumption | exact id | rfl | exact fun _ => rfl | split

theorem execEthernetCycle_kept {s : State} (h : Kept c q m o s) :
    KeptR c q m o (execEthernetCycle s) := by
  unfold execEthernetCycle
  try dsimp only
  repeat' first
    | with_reducible exact h | with_reducible apply Kept.next | with_reducible apply build_kept
    | with_reducible apply cycleMark_kept | with_reducible apply sendTelegram_kept | with_reducible assumption | exact id
    | rfl | exact fun _ => rfl | split

theorem sendStat_kept {s : State} (a1) (h : Kept c q m o s) :
    Kept c q m o (sendStat s a1) := by
  unfold sendStat
  try dsimp only
  repeat' first
    | with_reducible exact h | with_reducible apply build_kept | with_reducible apply sendTelegram_kept
    | with_reducible assumption | exact id | rfl | exact fun _ => rfl | split

theorem execCanCycle_kept {s : State} (h : Kept c q m o s) :
    KeptR c q m o (execCanCycle s) := by
  unfold execCanCycle
  try dsimp only
  repeat' first
    | with_reducible exact h | with_reducible apply Kept.next | with_reducible apply sendStat_kept
    | with_reducible apply cycleMark_kept | (with_reducible apply foldl_kept; intro _ _ _) | with_reducible assumption
    | exact id | rfl | exact fun _ => rfl | split

theorem sendStop_kept {s : State} (a1) (h : Kept c q m o s) :
    Kept c q m o (sendStop s a1) := by
  unfold sendStop
  try dsimp only
  repeat' first
    | with_reducible exact h | with_reducible apply build_kept | with_reducible apply sendTelegram_kept
    | with_reducible assumption | exact id | rfl | exact fun _ => rfl | split

theorem sendStops_kept {s : State} (h : Kept c q m o s) : Kept c q m o (sendStops s) := by
  unfold sendStops
  have k : Kept c q m o (if tgSends s then (List.finRange 4).foldl sendStop (sendWaiting s) else s) :=
    ite_kept (foldl_kept (fun _ _ k => sendStop_kept _ k) _ (sendWaiting_kept h)) h
  exact k.put rfl rfl rfl rfl rfl rfl rfl rfl rfl id fun d => ⟨d.1, d.2.1, fun i => by simpa [get_mapv] using d.2.2 i⟩

theorem pairsEnter_kept {s : State} (h : Kept c q m o s) :
    Kept c q m o (pairsEnter s) := by
  unfold pairsEnter
  try dsimp only
  repeat' first
    | with_reducible exact h | with_reducible apply setTg_kept | with_reducible apply canOn_kept
    | with_reducible apply netLose_kept | (with_reducible apply foldl_kept; intro _ _ _) | with_reducible assumption | exact id
    | rfl | exact fun _ => rfl | split

theorem canStandby_kept (a1) {s : State} (h : Kept c q m o s) :
    Kept c q m o (canStandby a1 s) := by
  unfold canStandby
  try dsimp only
  repeat' first
    | with_reducible exact h | with_reducible apply setCan_kept | with_reducible apply withdrawn_kept
    | with_reducible apply portEvent_kept | with_reducible assumption | exact id | rfl | exact fun _ => rfl | split
    | (with_reducible refine Kept.put ?_ rfl rfl rfl rfl rfl rfl rfl rfl rfl id id)

theorem portsStandby_kept {s : State} (h : Kept c q m o s) :
    Kept c q m o (portsStandby s) := by
  unfold portsStandby
  try dsimp only
  repeat' first
    | with_reducible exact h | with_reducible apply canStandby_kept | with_reducible apply ethGoesDown_kept

end Sys2Proof.Machine
end

