-- ==== Sys2Proof/Laws/KeptEvents.lean ====
section
/-! SUPPORT. The operations of Machine/Events.lean keep what Kept says. -/

namespace Sys2Proof.Machine

open Sys2Proof

variable {c : Image} {q : List Instr} {m : Mode} {o : Bool}

theorem setEv_kept (a1) {s : State} (h : Kept c q m o s) :
    Kept c q m o (setEv a1 s) := by
  unfold setEv
  try dsimp only
  repeat' first
    | with_reducible exact h | with_reducible assumption | exact id | rfl | exact fun _ => rfl | split
    | (with_reducible refine Kept.put ?_ rfl rfl rfl rfl rfl rfl rfl rfl rfl id id)

theorem setRing_kept (a1) (a2) {s : State} (h : Kept c q m o s) :
    Kept c q m o (setRing a1 a2 s) := by
  unfold setRing
  try dsimp only
  repeat' first
    | with_reducible exact h | with_reducible apply setEv_kept

theorem ringWrite_kept (a1) (a2) {s : State} (h : Kept c q m o s) :
    Kept c q m o (ringWrite a1 a2 s) := by
  unfold ringWrite
  try dsimp only
  repeat' first
    | with_reducible exact h | with_reducible apply setRing_kept | with_reducible apply tapOut_kept
    | with_reducible assumption | exact id | rfl | exact fun _ => rfl | split
    | (with_reducible refine Kept.put ?_ rfl rfl rfl rfl rfl rfl rfl rfl rfl id id)

theorem markerWrite_kept (a1) {s : State} (a2) (h : Kept c q m o s) :
    Kept c q m o (markerWrite a1 s a2) := by
  unfold markerWrite
  try dsimp only
  repeat' first
    | with_reducible exact h | with_reducible apply ringWrite_kept | with_reducible apply setRing_kept
    | with_reducible assumption | exact id | rfl | exact fun _ => rfl | split

theorem routeEvent_kept (a1) (a2) (a3) (a4) (a5) {s : State} (h : Kept c q m o s) :
    Kept c q m o (routeEvent a1 a2 a3 a4 a5 s) := by
  unfold routeEvent
  try dsimp only
  repeat' first
    | with_reducible exact h | with_reducible apply ringWrite_kept | with_reducible assumption | exact id | rfl
    | exact fun _ => rfl | split

theorem fabricItem_kept (a1) {s : State} (h : Kept c q m o s) :
    Kept c q m o (fabricItem a1 s) := by
  unfold fabricItem
  try dsimp only
  repeat' first
    | with_reducible exact h | with_reducible apply routeEvent_kept | with_reducible apply ringWrite_kept
    | with_reducible apply markerWrite_kept | (with_reducible apply foldl_kept; intro _ _ _) | with_reducible assumption
    | exact id | rfl | exact fun _ => rfl | split

theorem fabricWrite_kept (a1 : List FabItem) {s : State} (h : Kept c q m o s) : Kept c q m o (fabricWrite a1 s) := by
  induction a1 generalizing s with
  | nil => exact setEv_kept _ h
  | cons x l ih =>
    unfold fabricWrite
    split
    · exact ih (fabricItem_kept _ h)
    · exact setEv_kept _ (fabricItem_kept _ h)

theorem irqUpdate_kept {s : State} (h : Kept c q m o s) :
    Kept c q m o (irqUpdate s) := by
  unfold irqUpdate
  try dsimp only
  repeat' first
    | with_reducible exact h | with_reducible apply setEv_kept

theorem execEventFabricWrite_kept {s : State} (h : Kept c q m o s) :
    KeptR c q m o (execEventFabricWrite s) := by
  unfold execEventFabricWrite
  try dsimp only
  repeat' first
    | with_reducible exact h | with_reducible apply Kept.next | with_reducible apply irqUpdate_kept
    | with_reducible apply fabricWrite_kept | with_reducible apply setEv_kept | with_reducible assumption | exact id | rfl
    | exact fun _ => rfl | split

theorem execRingAgeExpiry_kept (a1) {s : State} (h : Kept c q m o s) :
    KeptR c q m o (execRingAgeExpiry a1 s) := by
  unfold execRingAgeExpiry
  try dsimp only
  repeat' first
    | with_reducible exact h | with_reducible apply Kept.next | with_reducible apply irqUpdate_kept | with_reducible assumption
    | exact id | rfl | exact fun _ => rfl | split

theorem damaged_kept (a1) {s : State} (h : Kept c q m o s) :
    Kept c q m o (damaged a1 s) := by
  unfold damaged
  try dsimp only
  repeat' first
    | with_reducible exact h | with_reducible apply eventRecord_kept | with_reducible apply eccUncorrectable_kept
    | with_reducible apply setEv_kept

theorem popOut_kept (a1) (a2) (a3) (a4) (a5) {s : State} (h : Kept c q m o s) :
    Kept c q m o (popOut a1 a2 a3 a4 a5 s) := by
  unfold popOut
  try dsimp only
  repeat' first
    | with_reducible exact h | with_reducible apply portData_kept | with_reducible apply setRing_kept

theorem ringPop_kept (a1) (a2) (a3) {s : State} (h : Kept c q m o s) :
    Kept c q m o (ringPop a1 a2 a3 s) := by
  unfold ringPop
  try dsimp only
  repeat' first
    | with_reducible exact h | with_reducible apply popOut_kept | with_reducible apply setRing_kept
    | with_reducible apply damaged_kept | with_reducible apply eccFound_kept | with_reducible assumption | exact id | rfl
    | exact fun _ => rfl | split

theorem execRingPop_kept (a1) (a2) (a3) (a4) {s : State} (h : Kept c q m o s) :
    KeptR c q m o (execRingPop a1 a2 a3 s a4) :=
  Kept.next (readCycle_kept _ _ _
    (fun _ k => ite_kept (portData_kept _ _ k) (irqUpdate_kept (ringPop_kept _ _ _ k))) h)

theorem execRouteTableMismatch_kept {s : State} (h : Kept c q m o s) :
    KeptR c q m o (execRouteTableMismatch s) := by
  unfold execRouteTableMismatch
  try dsimp only
  repeat' first
    | with_reducible exact h | with_reducible apply Kept.next | with_reducible apply draw_kept | with_reducible apply setEv_kept
    | with_reducible apply raiseRec_kept | with_reducible assumption | exact id | rfl | exact fun _ => rfl | split

theorem execRingControlMismatch_kept (a1) {s : State} (h : Kept c q m o s) :
    KeptR c q m o (execRingControlMismatch a1 s) := by
  unfold execRingControlMismatch
  try dsimp only
  repeat' first
    | with_reducible exact h | with_reducible apply Kept.next | with_reducible apply setRing_kept
    | with_reducible apply irqUpdate_kept | with_reducible apply raiseRec_kept | with_reducible apply recovery_kept
    | with_reducible assumption | exact id | rfl | exact fun _ => rfl | split

theorem ringsLoad_kept {s : State} (h : Kept c q m o s) :
    Kept c q m o (ringsLoad s) := by
  unfold ringsLoad
  try dsimp only
  repeat' first
    | with_reducible exact h | with_reducible apply irqUpdate_kept | with_reducible apply setEv_kept
    | with_reducible assumption | exact id | rfl | exact fun _ => rfl | split
    | (with_reducible refine Kept.put ?_ rfl rfl rfl rfl rfl rfl rfl rfl rfl id id)

end Sys2Proof.Machine
end

