-- ==== Sys2Proof/Laws/KeptCheckUnits.lean ====
section
/-! SUPPORT. The operations of Machine/CheckUnits.lean keep what Kept says. -/

namespace Sys2Proof.Machine

open Sys2Proof

variable {c : Image} {q : List Instr} {m : Mode} {o : Bool}

theorem ckFault_kept (a1) (a2) {s : State} (h : Kept c q m o s) :
    Kept c q m o (ckFault a1 a2 s) := by
  unfold ckFault
  try dsimp only
  repeat' first
    | with_reducible exact h | with_reducible apply setCk_kept | with_reducible apply enterSafe_kept
    | with_reducible apply raise_kept | with_reducible apply raiseRec_kept | with_reducible assumption | exact id | rfl
    | exact fun _ => rfl | split | (with_reducible refine Kept.put ?_ rfl rfl rfl rfl rfl rfl rfl rfl rfl id id)

theorem ckFound_kept (a1) (a2) {s : State} (h : Kept c q m o s) :
    KeptO c q m o (ckFound a1 a2 s) := by
  unfold ckFound
  try dsimp only
  repeat' first
    | with_reducible exact h | with_reducible apply Kept.some | with_reducible apply Kept.none
    | with_reducible apply ckFault_kept | with_reducible assumption | exact id | rfl | exact fun _ => rfl | split

theorem execSnoopBlock_kept (a1) (a2) {s : State} (h : Kept c q m o s) : KeptR c q m o (execSnoopBlock a1 a2 s) := by
  unfold execSnoopBlock
  refine Kept.next ?_
  dsimp only
  split
  · exact h
  · split
    · exact h
    · split
      · exact Kept.of ‹_› (ckFound_kept _ _ (setCk_kept _ _ (setCk_kept _ _ h)))
      · exact ckServe_kept _ _ (setCk_kept _ _ h)

theorem ckCompare_kept (a1) (a2) {s : State} (h : Kept c q m o s) :
    Kept c q m o (ckCompare a1 a2 s) := by
  unfold ckCompare
  try dsimp only
  repeat' first
    | with_reducible exact h | with_reducible apply ckMismatch_kept | with_reducible assumption | exact id | rfl
    | exact fun _ => rfl | split

theorem ckDo_kept (a1) (a2) {s : State} (h : Kept c q m o s) :
    Kept c q m o (ckDo a1 a2 s) := by
  unfold ckDo
  try dsimp only
  repeat' first
    | with_reducible exact h | with_reducible apply setCk_kept | with_reducible apply ckCompare_kept
    | with_reducible assumption | exact id | rfl | exact fun _ => rfl | split
    | (with_reducible refine Kept.put ?_ rfl rfl rfl rfl rfl rfl rfl rfl rfl id id)

theorem ckDrain_kept (a1) (a2 : List CkOp) {s : State} (h : Kept c q m o s) : Kept c q m o (ckDrain a1 a2 s) := by
  induction a2 generalizing s with
  | nil => exact setCk_kept _ _ h
  | cons x l ih =>
    unfold ckDrain
    exact ite_kept (setCk_kept _ _ (ckDo_kept _ _ h)) (ih (ckDo_kept _ _ h))

theorem ckCatchUp_kept (a1) {s : State} (h : Kept c q m o s) :
    Kept c q m o (ckCatchUp a1 s) := by
  unfold ckCatchUp
  try dsimp only
  repeat' first
    | with_reducible exact h | with_reducible apply ckDrain_kept | with_reducible assumption | exact id | rfl
    | exact fun _ => rfl | split

theorem ckAtD_kept (a1) (a2) {s : State} (h : Kept c q m o s) :
    Kept c q m o (ckAtD a1 a2 s) := by
  unfold ckAtD
  try dsimp only
  repeat' first
    | with_reducible exact h | with_reducible apply setCk_kept | with_reducible assumption | exact id | rfl
    | exact fun _ => rfl | split | (with_reducible refine Kept.put ?_ rfl rfl rfl rfl rfl rfl rfl rfl rfl id id)

theorem ckSquash_kept (a1) {s : State} (h : Kept c q m o s) :
    Kept c q m o (ckSquash a1 s) := by
  unfold ckSquash
  try dsimp only
  repeat' first
    | with_reducible exact h | with_reducible apply setCk_kept | with_reducible assumption | exact id | rfl
    | exact fun _ => rfl | split | (with_reducible refine Kept.put ?_ rfl rfl rfl rfl rfl rfl rfl rfl rfl id id)

theorem ckAtX_kept (a1) {s : State} (h : Kept c q m o s) :
    Kept c q m o (ckAtX a1 s) := by
  unfold ckAtX
  try dsimp only
  repeat' first
    | with_reducible exact h | with_reducible apply ckCatchUp_kept | with_reducible apply setCk_kept
    | with_reducible assumption | exact id | rfl | exact fun _ => rfl | split
    | (with_reducible refine Kept.put ?_ rfl rfl rfl rfl rfl rfl rfl rfl rfl id id)

theorem ckIssue_kept (a1) (a2) {s : State} (h : Kept c q m o s) :
    Kept c q m o (ckIssue a1 a2 s) := by
  unfold ckIssue
  try dsimp only
  repeat' first
    | with_reducible exact h | with_reducible apply ckAtX_kept | with_reducible apply ckAtD_kept | with_reducible assumption
    | exact id | rfl | exact fun _ => rfl | split

theorem ckFeedEnd_kept (a1) (a2) (a3) {s : State} (h : Kept c q m o s) :
    Kept c q m o (ckFeedEnd a1 a2 a3 s) := by
  unfold ckFeedEnd
  try dsimp only
  repeat' first
    | with_reducible exact h | with_reducible apply eccFound_kept | with_reducible apply draw_kept
    | with_reducible apply setCk_kept | with_reducible apply ckCompare_kept | with_reducible assumption | exact id | rfl
    | exact fun _ => rfl | split

theorem execCkblkDone_kept (a1) (a2) (a3) {s : State} (h : Kept c q m o s) : KeptR c q m o (execCkblkDone a1 a2 a3 s) := by
  unfold execCkblkDone
  refine Kept.next ?_
  split
  · exact ckCatchUp_kept _ h
  · split
    · exact h
    · split
      · exact Kept.of ‹_› (ckFound_kept _ _ h)
      · exact ckDrain_kept _ _ (ckFeedEnd_kept _ _ _ h)

theorem execCkSelfTest_kept (a1) (a2) {s : State} (h : Kept c q m o s) :
    KeptR c q m o (execCkSelfTest a1 a2 s) := by
  unfold execCkSelfTest
  try dsimp only
  repeat' first
    | with_reducible exact h | with_reducible apply Kept.next | with_reducible apply setCk_kept
    | with_reducible apply ckFault_kept | with_reducible assumption | exact id | rfl | exact fun _ => rfl | split
    | (with_reducible refine Kept.put ?_ rfl rfl rfl rfl rfl rfl rfl rfl rfl id id)

theorem execCkSelfTestOverdue_kept (a1) {s : State} (h : Kept c q m o s) :
    KeptR c q m o (execCkSelfTestOverdue a1 s) := by
  unfold execCkSelfTestOverdue
  try dsimp only
  repeat' first
    | with_reducible exact h | with_reducible apply Kept.next | with_reducible apply ckFault_kept
    | with_reducible apply raiseRec_kept | with_reducible apply setCk_kept | with_reducible assumption | exact id | rfl
    | exact fun _ => rfl | split

end Sys2Proof.Machine
end

