-- ==== Sys2Proof/Laws/KeptOperands.lean ====
section
/-! SUPPORT. The operations of Machine/Operands.lean keep what Kept says. -/

namespace Sys2Proof.Machine

open Sys2Proof

variable {c : Image} {q : List Instr} {m : Mode} {o : Bool}

theorem setCs_kept (a1) {s : State} (h : Kept c q m o s) (k1 : (a1 s.cs).imem = s.cs.imem) (k2 : (a1 s.cs).dmem = s.cs.dmem) :
    Kept c q m o (setCs a1 s) :=
  h.put rfl rfl rfl rfl rfl rfl rfl k1 k2 id id

theorem setG_kept (a1) (a2) {s : State} (h : Kept c q m o s) :
    Kept c q m o (setG a1 a2 s) := by
  unfold setG
  try dsimp only
  repeat' first
    | with_reducible exact h | with_reducible apply setCs_kept | with_reducible assumption | exact id | rfl | exact fun _ => rfl
    | split

end Sys2Proof.Machine
end

