-- ==== Sys2Proof/Laws/KeptCantle.lean ====
section
/-! SUPPORT. The operations of Machine/Cantle.lean keep what Kept says. -/

namespace Sys2Proof.Machine

open Sys2Proof

variable {c : Image} {q : List Instr} {m : Mode} {o : Bool}

theorem setDb_kept (a1) {s : State} (h : Kept c q m o s) :
    Kept c q m o (setDb a1 s) := by
  unfold setDb
  try dsimp only
  repeat' first
    | with_reducible exact h | with_reducible assumption | exact id | rfl | exact fun _ => rfl | split
    | (with_reducible refine Kept.put ?_ rfl rfl rfl rfl rfl rfl rfl rfl rfl id id)

theorem clocks_kept (a1) {s : State} (h : Kept c q m o s) :
    Kept c q m o (clocks a1 s) := by
  unfold clocks
  try dsimp only
  repeat' first
    | with_reducible exact h | with_reducible apply setCs_kept | with_reducible assumption | exact id | rfl | exact fun _ => rfl
    | split

theorem monStop_kept (a1) (a2) {s : State} (h : Kept c q m o s) :
    Kept c q m o (monStop a1 a2 s) := by
  unfold monStop
  try dsimp only
  repeat' first
    | with_reducible exact h | with_reducible apply setCs_kept | with_reducible apply setDb_kept
    | with_reducible apply raise_kept | with_reducible assumption | exact id | rfl | exact fun _ => rfl | split

theorem boundary_kept (a1) (a2) {s : State} (h : Kept c q m o s) :
    Kept c q m o (boundary a1 a2 s) := by
  unfold boundary
  try dsimp only
  repeat' first
    | with_reducible exact h | with_reducible apply setDb_kept | with_reducible apply setCs_kept
    | with_reducible apply monStop_kept | with_reducible assumption | exact id | rfl | exact fun _ => rfl | split

theorem exception_kept (a1) (a2) {s : State} (h : Kept c q m o s) :
    Kept c q m o (exception a1 a2 s) := by
  unfold exception
  try dsimp only
  repeat' first
    | with_reducible exact h | with_reducible apply setCs_kept | with_reducible apply clocks_kept
    | with_reducible apply raise_kept | with_reducible apply cantleHalted_kept | with_reducible assumption | exact id | rfl
    | exact fun _ => rfl | split | (with_reducible refine Kept.put ?_ rfl rfl rfl rfl rfl rfl rfl rfl rfl id id)

theorem illegal_kept {s : State} (h : Kept c q m o s) :
    Kept c q m o (illegal s) := by
  unfold illegal
  try dsimp only
  repeat' first
    | with_reducible exact h | with_reducible apply exception_kept

theorem enterInt_kept (a1) {s : State} (h : Kept c q m o s) :
    Kept c q m o (enterInt a1 s) := by
  unfold enterInt
  try dsimp only
  repeat' first
    | with_reducible exact h | with_reducible apply setDb_kept | with_reducible apply clocks_kept
    | with_reducible apply setCs_kept | with_reducible assumption | exact id | rfl

theorem execInterruptEntry_kept {s : State} (h : Kept c q m o s) :
    KeptR c q m o (execInterruptEntry s) := by
  unfold execInterruptEntry
  try dsimp only
  repeat' first
    | with_reducible exact h | with_reducible apply Kept.next | with_reducible apply enterInt_kept | with_reducible assumption
    | exact id | rfl | exact fun _ => rfl | split

theorem atX_kept (a1 : State → State) {s : State} (k : ∀ y, Kept c q m o y → Kept c q m o (a1 y)) (h : Kept c q m o s) :
    Kept c q m o (atX a1 s) := by
  unfold atX
  try dsimp only
  repeat' first
    | with_reducible exact h | with_reducible apply setCs_kept | with_reducible apply enterInt_kept
    | with_reducible apply setDb_kept | with_reducible apply monStop_kept | with_reducible apply k | with_reducible assumption
    | exact id | rfl | exact fun _ => rfl | split

theorem stall_kept {s : State} (h : Kept c q m o s) :
    Kept c q m o (stall s) := by
  unfold stall
  try dsimp only
  repeat' first
    | with_reducible exact h | with_reducible apply setCs_kept | with_reducible assumption | exact id | rfl

theorem stepPc_kept {s : State} (h : Kept c q m o s) :
    Kept c q m o (stepPc s) := by
  unfold stepPc
  try dsimp only
  repeat' first
    | with_reducible exact h | with_reducible apply setCs_kept | with_reducible apply clocks_kept | with_reducible assumption
    | exact id | rfl | exact fun _ => rfl | split

theorem complete_kept (a1) (a2 : State → State) {s : State} (k : ∀ y, Kept c q m o y → Kept c q m o (a2 y)) (h : Kept c q m o s) :
    Kept c q m o (complete a1 a2 s) := by
  unfold complete
  try dsimp only
  repeat' first
    | with_reducible exact h | with_reducible apply boundary_kept | with_reducible apply clocks_kept
    | with_reducible apply stepPc_kept | with_reducible apply k

theorem jump_kept (a1) (a2 : State → State) {s : State} (k : ∀ y, Kept c q m o y → Kept c q m o (a2 y)) (h : Kept c q m o s) :
    Kept c q m o (jump a1 a2 s) := by
  unfold jump
  try dsimp only
  repeat' first
    | with_reducible exact h | with_reducible apply exception_kept | with_reducible apply boundary_kept
    | with_reducible apply clocks_kept | with_reducible apply setCs_kept | with_reducible apply k | with_reducible assumption
    | exact id | rfl | exact fun _ => rfl | split

theorem aluR_kept (a1) (a2) (a3) (a4) (a5) (a6) {s : State} (h : Kept c q m o s) :
    KeptR c q m o (aluR a1 a2 a3 a4 a5 a6 s) := by
  unfold aluR
  try dsimp only
  repeat' first
    | with_reducible exact h | with_reducible apply Kept.next | with_reducible apply atX_kept
    | with_reducible apply illegal_kept | with_reducible apply complete_kept | with_reducible apply setG_kept
    | (intro _ _; try dsimp only) | with_reducible assumption | exact id | rfl | exact fun _ => rfl | split

theorem aluI_kept (a1) (a2) (a3) (a4) {s : State} (h : Kept c q m o s) :
    KeptR c q m o (aluI a1 a2 a3 a4 s) := by
  unfold aluI
  try dsimp only
  repeat' first
    | with_reducible exact h | with_reducible apply Kept.next | with_reducible apply atX_kept
    | with_reducible apply complete_kept | with_reducible apply setG_kept | (intro _ _; try dsimp only)
    | with_reducible assumption

theorem execAddR_kept (a1) (a2) (a3) (a4) {s : State} (h : Kept c q m o s) :
    KeptR c q m o (execAddR a1 a2 a3 a4 s) := by
  unfold execAddR
  try dsimp only
  repeat' first
    | with_reducible exact h | with_reducible apply Kept.next | with_reducible apply aluR_kept

theorem execSubR_kept (a1) (a2) (a3) (a4) {s : State} (h : Kept c q m o s) :
    KeptR c q m o (execSubR a1 a2 a3 a4 s) := by
  unfold execSubR
  try dsimp only
  repeat' first
    | with_reducible exact h | with_reducible apply Kept.next | with_reducible apply aluR_kept

theorem execAndR_kept (a1) (a2) (a3) (a4) {s : State} (h : Kept c q m o s) :
    KeptR c q m o (execAndR a1 a2 a3 a4 s) := by
  unfold execAndR
  try dsimp only
  repeat' first
    | with_reducible exact h | with_reducible apply Kept.next | with_reducible apply aluR_kept

theorem execOrR_kept (a1) (a2) (a3) (a4) {s : State} (h : Kept c q m o s) :
    KeptR c q m o (execOrR a1 a2 a3 a4 s) := by
  unfold execOrR
  try dsimp only
  repeat' first
    | with_reducible exact h | with_reducible apply Kept.next | with_reducible apply aluR_kept

theorem execXorR_kept (a1) (a2) (a3) (a4) {s : State} (h : Kept c q m o s) :
    KeptR c q m o (execXorR a1 a2 a3 a4 s) := by
  unfold execXorR
  try dsimp only
  repeat' first
    | with_reducible exact h | with_reducible apply Kept.next | with_reducible apply aluR_kept

theorem execSll_kept (a1) (a2) (a3) (a4) {s : State} (h : Kept c q m o s) :
    KeptR c q m o (execSll a1 a2 a3 a4 s) := by
  unfold execSll
  try dsimp only
  repeat' first
    | with_reducible exact h | with_reducible apply Kept.next | with_reducible apply aluR_kept

theorem execSrl_kept (a1) (a2) (a3) (a4) {s : State} (h : Kept c q m o s) :
    KeptR c q m o (execSrl a1 a2 a3 a4 s) := by
  unfold execSrl
  try dsimp only
  repeat' first
    | with_reducible exact h | with_reducible apply Kept.next | with_reducible apply aluR_kept

theorem execSra_kept (a1) (a2) (a3) (a4) {s : State} (h : Kept c q m o s) :
    KeptR c q m o (execSra a1 a2 a3 a4 s) := by
  unfold execSra
  try dsimp only
  repeat' first
    | with_reducible exact h | with_reducible apply Kept.next | with_reducible apply aluR_kept

theorem execSlt_kept (a1) (a2) (a3) (a4) {s : State} (h : Kept c q m o s) :
    KeptR c q m o (execSlt a1 a2 a3 a4 s) := by
  unfold execSlt
  try dsimp only
  repeat' first
    | with_reducible exact h | with_reducible apply Kept.next | with_reducible apply aluR_kept

theorem execSltu_kept (a1) (a2) (a3) (a4) {s : State} (h : Kept c q m o s) :
    KeptR c q m o (execSltu a1 a2 a3 a4 s) := by
  unfold execSltu
  try dsimp only
  repeat' first
    | with_reducible exact h | with_reducible apply Kept.next | with_reducible apply aluR_kept

theorem execMul_kept (a1) (a2) (a3) (a4) {s : State} (h : Kept c q m o s) :
    KeptR c q m o (execMul a1 a2 a3 a4 s) := by
  unfold execMul
  try dsimp only
  repeat' first
    | with_reducible exact h | with_reducible apply Kept.next | with_reducible apply aluR_kept

theorem execAddi_kept (a1) (a2) (a3) {s : State} (h : Kept c q m o s) :
    KeptR c q m o (execAddi a1 a2 a3 s) := by
  unfold execAddi
  try dsimp only
  repeat' first
    | with_reducible exact h | with_reducible apply Kept.next | with_reducible apply aluI_kept

theorem execAndi_kept (a1) (a2) (a3) {s : State} (h : Kept c q m o s) :
    KeptR c q m o (execAndi a1 a2 a3 s) := by
  unfold execAndi
  try dsimp only
  repeat' first
    | with_reducible exact h | with_reducible apply Kept.next | with_reducible apply aluI_kept

theorem execOri_kept (a1) (a2) (a3) {s : State} (h : Kept c q m o s) :
    KeptR c q m o (execOri a1 a2 a3 s) := by
  unfold execOri
  try dsimp only
  repeat' first
    | with_reducible exact h | with_reducible apply Kept.next | with_reducible apply aluI_kept

theorem execXori_kept (a1) (a2) (a3) {s : State} (h : Kept c q m o s) :
    KeptR c q m o (execXori a1 a2 a3 s) := by
  unfold execXori
  try dsimp only
  repeat' first
    | with_reducible exact h | with_reducible apply Kept.next | with_reducible apply aluI_kept

theorem execSlti_kept (a1) (a2) (a3) {s : State} (h : Kept c q m o s) :
    KeptR c q m o (execSlti a1 a2 a3 s) := by
  unfold execSlti
  try dsimp only
  repeat' first
    | with_reducible exact h | with_reducible apply Kept.next | with_reducible apply aluI_kept

theorem execSltiu_kept (a1) (a2) (a3) {s : State} (h : Kept c q m o s) :
    KeptR c q m o (execSltiu a1 a2 a3 s) := by
  unfold execSltiu
  try dsimp only
  repeat' first
    | with_reducible exact h | with_reducible apply Kept.next | with_reducible apply aluI_kept

theorem shiftI_kept (a1) (a2) (a3) (a4) {s : State} (h : Kept c q m o s) :
    KeptR c q m o (shiftI a1 a2 a3 a4 s) := by
  unfold shiftI
  try dsimp only
  repeat' first
    | with_reducible exact h | with_reducible apply Kept.next | with_reducible apply atX_kept
    | with_reducible apply illegal_kept | with_reducible apply complete_kept | with_reducible apply setG_kept
    | (intro _ _; try dsimp only) | with_reducible assumption | exact id | rfl | exact fun _ => rfl | split

theorem execSlli_kept (a1) (a2) (a3) (a4) {s : State} (h : Kept c q m o s) :
    KeptR c q m o (execSlli a1 a2 a3 a4 s) := by
  unfold execSlli
  try dsimp only
  repeat' first
    | with_reducible exact h | with_reducible apply Kept.next | with_reducible apply shiftI_kept

theorem execSrli_kept (a1) (a2) (a3) (a4) {s : State} (h : Kept c q m o s) :
    KeptR c q m o (execSrli a1 a2 a3 a4 s) := by
  unfold execSrli
  try dsimp only
  repeat' first
    | with_reducible exact h | with_reducible apply Kept.next | with_reducible apply shiftI_kept

theorem execSrai_kept (a1) (a2) (a3) (a4) {s : State} (h : Kept c q m o s) :
    KeptR c q m o (execSrai a1 a2 a3 a4 s) := by
  unfold execSrai
  try dsimp only
  repeat' first
    | with_reducible exact h | with_reducible apply Kept.next | with_reducible apply shiftI_kept

theorem execLui_kept (a1) (a2) (a3) {s : State} (h : Kept c q m o s) :
    KeptR c q m o (execLui a1 a2 a3 s) := by
  unfold execLui
  try dsimp only
  repeat' first
    | with_reducible exact h | with_reducible apply Kept.next | with_reducible apply atX_kept
    | with_reducible apply illegal_kept | with_reducible apply complete_kept | with_reducible apply setG_kept
    | (intro _ _; try dsimp only) | with_reducible assumption | exact id | rfl | exact fun _ => rfl | split

theorem branch_kept (a1) (a2) (a3) (a4) {s : State} (h : Kept c q m o s) :
    KeptR c q m o (branch a1 a2 a3 a4 s) := by
  unfold branch
  try dsimp only
  repeat' first
    | with_reducible exact h | with_reducible apply Kept.next | with_reducible apply atX_kept | with_reducible apply jump_kept
    | with_reducible apply complete_kept | (intro _ _; try dsimp only) | with_reducible assumption
    | (simp only [id_eq]; assumption) | exact id | rfl | exact fun _ => rfl | split

theorem execBeq_kept (a1) (a2) (a3) {s : State} (h : Kept c q m o s) :
    KeptR c q m o (execBeq a1 a2 a3 s) := by
  unfold execBeq
  try dsimp only
  repeat' first
    | with_reducible exact h | with_reducible apply Kept.next | with_reducible apply branch_kept

theorem execBne_kept (a1) (a2) (a3) {s : State} (h : Kept c q m o s) :
    KeptR c q m o (execBne a1 a2 a3 s) := by
  unfold execBne
  try dsimp only
  repeat' first
    | with_reducible exact h | with_reducible apply Kept.next | with_reducible apply branch_kept

theorem execBlt_kept (a1) (a2) (a3) {s : State} (h : Kept c q m o s) :
    KeptR c q m o (execBlt a1 a2 a3 s) := by
  unfold execBlt
  try dsimp only
  repeat' first
    | with_reducible exact h | with_reducible apply Kept.next | with_reducible apply branch_kept

theorem execBge_kept (a1) (a2) (a3) {s : State} (h : Kept c q m o s) :
    KeptR c q m o (execBge a1 a2 a3 s) := by
  unfold execBge
  try dsimp only
  repeat' first
    | with_reducible exact h | with_reducible apply Kept.next | with_reducible apply branch_kept

theorem execBltu_kept (a1) (a2) (a3) {s : State} (h : Kept c q m o s) :
    KeptR c q m o (execBltu a1 a2 a3 s) := by
  unfold execBltu
  try dsimp only
  repeat' first
    | with_reducible exact h | with_reducible apply Kept.next | with_reducible apply branch_kept

theorem execBgeu_kept (a1) (a2) (a3) {s : State} (h : Kept c q m o s) :
    KeptR c q m o (execBgeu a1 a2 a3 s) := by
  unfold execBgeu
  try dsimp only
  repeat' first
    | with_reducible exact h | with_reducible apply Kept.next | with_reducible apply branch_kept

theorem execJal_kept (a1) (a2) {s : State} (h : Kept c q m o s) :
    KeptR c q m o (execJal a1 a2 s) := by
  unfold execJal
  try dsimp only
  repeat' first
    | with_reducible exact h | with_reducible apply Kept.next | with_reducible apply atX_kept | with_reducible apply jump_kept
    | with_reducible apply setG_kept | (intro _ _; try dsimp only) | with_reducible assumption

theorem execJalr_kept (a1) (a2) (a3) {s : State} (h : Kept c q m o s) :
    KeptR c q m o (execJalr a1 a2 a3 s) := by
  unfold execJalr
  try dsimp only
  repeat' first
    | with_reducible exact h | with_reducible apply Kept.next | with_reducible apply atX_kept | with_reducible apply jump_kept
    | with_reducible apply setG_kept | (intro _ _; try dsimp only) | with_reducible assumption

theorem execLoopH_kept (a1) (a2) (a3) {s : State} (h : Kept c q m o s) :
    KeptR c q m o (execLoopH a1 a2 a3 s) := by
  unfold execLoopH
  try dsimp only
  repeat' first
    | with_reducible exact h | with_reducible apply Kept.next | with_reducible apply atX_kept
    | with_reducible apply illegal_kept | with_reducible apply exception_kept | with_reducible apply jump_kept
    | with_reducible apply boundary_kept | with_reducible apply clocks_kept | with_reducible apply setCs_kept
    | (intro _ _; try dsimp only) | with_reducible assumption | (simp only [id_eq]; assumption) | exact id | rfl
    | exact fun _ => rfl | split

theorem ckGuard_kept (a1) (a2) (a3 : State → State) {s : State} (k : ∀ y, Kept c q m o y → Kept c q m o (a3 y)) (h : Kept c q m o s) :
    KeptR c q m o (ckGuard a1 a2 a3 s) := by
  unfold ckGuard
  try dsimp only
  repeat' first
    | with_reducible exact h | with_reducible apply Kept.next | with_reducible apply atX_kept
    | with_reducible apply ckCatchUp_kept | with_reducible apply illegal_kept | with_reducible apply exception_kept
    | with_reducible apply k | (intro _ _; try dsimp only) | with_reducible assumption | exact id | rfl | exact fun _ => rfl
    | split

theorem ckSend_kept (a1) (a2) {s : State} (h : Kept c q m o s) :
    Kept c q m o (ckSend a1 a2 s) := by
  unfold ckSend
  try dsimp only
  repeat' first
    | with_reducible exact h | with_reducible apply complete_kept | with_reducible apply ckIssue_kept
    | (intro _ _; try dsimp only) | with_reducible assumption | exact id | rfl | exact fun _ => rfl | split

theorem execCkinit_kept (a1) (a2) {s : State} (h : Kept c q m o s) :
    KeptR c q m o (execCkinit a1 a2 s) := by
  unfold execCkinit
  try dsimp only
  repeat' first
    | with_reducible exact h | with_reducible apply Kept.next | with_reducible apply ckGuard_kept
    | with_reducible apply ckSend_kept

theorem execCkset_kept (a1) (a2) (a3) {s : State} (h : Kept c q m o s) :
    KeptR c q m o (execCkset a1 a2 a3 s) := by
  unfold execCkset
  try dsimp only
  repeat' first
    | with_reducible exact h | with_reducible apply Kept.next | with_reducible apply ckGuard_kept
    | with_reducible apply ckSend_kept | (intro _ _; try dsimp only) | with_reducible assumption

theorem execCkexp_kept (a1) (a2) (a3) {s : State} (h : Kept c q m o s) :
    KeptR c q m o (execCkexp a1 a2 a3 s) := by
  unfold execCkexp
  try dsimp only
  repeat' first
    | with_reducible exact h | with_reducible apply Kept.next | with_reducible apply ckGuard_kept
    | with_reducible apply ckSend_kept | (intro _ _; try dsimp only) | with_reducible assumption

theorem execCkfeed_kept (a1) (a2) (a3) (a4) {s : State} (h : Kept c q m o s) :
    KeptR c q m o (execCkfeed a1 a2 a3 a4 s) := by
  unfold execCkfeed
  try dsimp only
  repeat' first
    | with_reducible exact h | with_reducible apply Kept.next | with_reducible apply ckGuard_kept
    | with_reducible apply ckSend_kept | (intro _ _; try dsimp only) | with_reducible assumption

theorem execCkblk_kept (a1) (a2) (a3) (a4) (a5) {s : State} (h : Kept c q m o s) :
    KeptR c q m o (execCkblk a1 a2 a3 a4 a5 s) := by
  unfold execCkblk
  try dsimp only
  repeat' first
    | with_reducible exact h | with_reducible apply Kept.next | with_reducible apply ckGuard_kept
    | with_reducible apply exception_kept | with_reducible apply ckSend_kept | (intro _ _; try dsimp only)
    | with_reducible assumption | exact id | rfl | exact fun _ => rfl | split

theorem ckWait_kept (a1) {s : State} (h : Kept c q m o s) :
    Kept c q m o (ckWait a1 s) := by
  unfold ckWait
  try dsimp only
  repeat' first
    | with_reducible exact h | with_reducible apply stall_kept | with_reducible apply ckIssue_kept
    | with_reducible assumption | exact id | rfl | exact fun _ => rfl | split

theorem ckReturn_kept (a1) (a2) (a3 : State → State) {s : State} (k : ∀ y, Kept c q m o y → Kept c q m o (a3 y))
    (h : Kept c q m o s) : Kept c q m o (ckReturn a1 a2 a3 s) := by
  unfold ckReturn
  split
  · exact ckWait_kept _ h
  · split
    · exact exception_kept _ _ (Kept.of ‹_› (ckFound_kept _ _ h))
    · split
      · exact exception_kept _ _ (draw_kept (setCk_kept _ _ h))
      · exact complete_kept _ _ k h

theorem execCkget_kept (a1) (a2) (a3) (a4) {s : State} (h : Kept c q m o s) : KeptR c q m o (execCkget a1 a2 a3 s a4) :=
  ckGuard_kept _ _ _ (fun _ h => ckReturn_kept _ _ _ (fun _ k => setG_kept _ _ k) h) h

theorem execCkfin_kept (a1) (a2) (a3) (a4) {s : State} (h : Kept c q m o s) : KeptR c q m o (execCkfin a1 a2 a3 s a4) :=
  ckGuard_kept _ _ _ (fun _ h => ckReturn_kept _ _ _ (fun _ k => setG_kept _ _ k) h) h

theorem execCkcmp_kept (a1) (a2) (a3) (a4) (a5) {s : State} (h : Kept c q m o s) : KeptR c q m o (execCkcmp a1 a2 a3 a4 s a5) :=
  ckGuard_kept _ _ _ (fun _ h => ckReturn_kept _ _ _ (fun _ k => setG_kept _ _ (ckCompare_kept _ _ k)) h) h

theorem execMfs_kept (a1) (a2) (a3) {s : State} (h : Kept c q m o s) :
    KeptR c q m o (execMfs a1 a2 a3 s) := by
  unfold execMfs
  try dsimp only
  repeat' first
    | with_reducible exact h | with_reducible apply Kept.next | with_reducible apply atX_kept
    | with_reducible apply complete_kept | with_reducible apply setG_kept | with_reducible apply illegal_kept
    | (intro _ _; try dsimp only) | with_reducible assumption | exact id | rfl | exact fun _ => rfl | split

theorem sregWrite_mem {r v c d} (h : sregWrite r v c = some d) : d.imem = c.imem ∧ d.dmem = c.dmem := by
  unfold sregWrite at h
  split at h <;> simp only [Option.some.injEq, reduceCtorEq] at h <;> subst h <;> exact ⟨rfl, rfl⟩

theorem sregWrite_getD {s t : State} {r v w d} (h : sregWrite r v s.cs = some d) (k : Kept c q m o t) (e : t.cs.imem = s.cs.imem ∧ t.cs.dmem = s.cs.dmem) :
    Kept c q m o { t with cs := (sregWrite r w t.cs).getD d } := by
  cases hw : sregWrite r w t.cs with
  | none =>
    have := sregWrite_mem h
    exact k.put rfl rfl rfl rfl rfl rfl rfl (this.1.trans e.1.symm) (this.2.trans e.2.symm) id id
  | some x =>
    have := sregWrite_mem hw
    exact k.put rfl rfl rfl rfl rfl rfl rfl this.1 this.2 id id

theorem clocks_mem (k s) : (clocks k s).cs.imem = s.cs.imem ∧ (clocks k s).cs.dmem = s.cs.dmem := by
  unfold clocks
  split <;> exact ⟨rfl, rfl⟩

theorem stepPc_mem (s) : (stepPc s).cs.imem = s.cs.imem ∧ (stepPc s).cs.dmem = s.cs.dmem := by
  unfold stepPc
  dsimp only
  split
  · split
    · exact ⟨rfl, rfl⟩
    · exact clocks_mem _ _
  · exact ⟨rfl, rfl⟩

theorem execMts_kept (a1) (a2) (a3) {s : State} (h : Kept c q m o s) :
    KeptR c q m o (execMts a1 a2 a3 s) := by
  refine Kept.next (atX_kept _ (fun y hy => ?_) h)
  dsimp only
  split
  · exact illegal_kept hy
  · rename_i d e
    refine boundary_kept _ _ (sregWrite_getD (s := y) (r := a1) (v := gr a2 y) (d := d) ?_ (clocks_kept _ (stepPc_kept hy)) ?_)
    · split at e <;> simp_all
    · exact ⟨(clocks_mem _ _).1.trans (stepPc_mem _).1, (clocks_mem _ _).2.trans (stepPc_mem _).2⟩

theorem execRth_kept (a1) {s : State} (h : Kept c q m o s) :
    KeptR c q m o (execRth a1 s) := by
  unfold execRth
  try dsimp only
  repeat' first
    | with_reducible exact h | with_reducible apply Kept.next | with_reducible apply atX_kept
    | with_reducible apply illegal_kept | with_reducible apply boundary_kept | with_reducible apply clocks_kept
    | with_reducible apply setCs_kept | (intro _ _; try dsimp only) | with_reducible assumption | exact id | rfl
    | exact fun _ => rfl | split

theorem execWaitd_kept (a1) {s : State} (h : Kept c q m o s) :
    KeptR c q m o (execWaitd a1 s) := by
  unfold execWaitd
  try dsimp only
  repeat' first
    | with_reducible exact h | with_reducible apply Kept.next | with_reducible apply atX_kept
    | with_reducible apply illegal_kept | with_reducible apply complete_kept | with_reducible apply monStop_kept
    | with_reducible apply clocks_kept | with_reducible apply stepPc_kept | (intro _ _; try dsimp only)
    | with_reducible assumption | (simp only [id_eq]; assumption) | exact id | rfl | exact fun _ => rfl | split

theorem termEvent_kept (a1) {s : State} (h : Kept c q m o s) :
    Kept c q m o (termEvent a1 s) := by
  unfold termEvent
  try dsimp only
  repeat' first
    | with_reducible exact h | with_reducible apply raise_kept | with_reducible apply setCs_kept | with_reducible assumption
    | exact id | rfl | exact fun _ => rfl | split
    | (with_reducible refine Kept.put ?_ rfl rfl rfl rfl rfl rfl rfl rfl rfl id id)

theorem termPut_kept (a1) {s : State} (h : Kept c q m o s) :
    Kept c q m o (termPut a1 s) := by
  unfold termPut
  try dsimp only
  repeat' first
    | with_reducible exact h | with_reducible apply setDb_kept | with_reducible apply termEvent_kept | with_reducible assumption
    | exact id | rfl | exact fun _ => rfl | split

theorem termGet_kept (a1) {s : State} (h : Kept c q m o s) :
    Kept c q m o (termGet a1 s) := by
  unfold termGet
  try dsimp only
  repeat' first
    | with_reducible exact h | with_reducible apply setG_kept | with_reducible apply setDb_kept | with_reducible assumption
    | exact id | rfl | exact fun _ => rfl | split

theorem termBrk_kept (a1 : State → State) {s : State} (k : ∀ y, Kept c q m o y → Kept c q m o (a1 y)) (h : Kept c q m o s) :
    Kept c q m o (termBrk a1 s) := by
  unfold termBrk
  try dsimp only
  repeat' first
    | with_reducible exact h | with_reducible apply complete_kept | with_reducible apply exception_kept | with_reducible apply k
    | (intro _ _; try dsimp only) | with_reducible assumption | exact id | rfl | exact fun _ => rfl | split

theorem execVtPut_kept (a1) {s : State} (h : Kept c q m o s) :
    KeptR c q m o (execVtPut a1 s) := by
  unfold execVtPut
  try dsimp only
  repeat' first
    | with_reducible exact h | with_reducible apply Kept.next | with_reducible apply atX_kept
    | with_reducible apply termBrk_kept | with_reducible apply termPut_kept | (intro _ _; try dsimp only)
    | with_reducible assumption

theorem execVtGet_kept (a1) {s : State} (h : Kept c q m o s) :
    KeptR c q m o (execVtGet a1 s) := by
  unfold execVtGet
  try dsimp only
  repeat' first
    | with_reducible exact h | with_reducible apply Kept.next | with_reducible apply atX_kept
    | with_reducible apply termBrk_kept | with_reducible apply termGet_kept | (intro _ _; try dsimp only)
    | with_reducible assumption

theorem execBrk_kept (a1) (a2) {s : State} (h : Kept c q m o s) :
    KeptR c q m o (execBrk a1 a2 s) := by
  unfold execBrk
  try dsimp only
  repeat' first
    | with_reducible exact h | with_reducible apply Kept.next | with_reducible apply atX_kept
    | with_reducible apply illegal_kept | with_reducible apply termBrk_kept | with_reducible apply termPut_kept
    | with_reducible apply termGet_kept | with_reducible apply exception_kept | with_reducible apply complete_kept
    | with_reducible apply setDb_kept | with_reducible apply monStop_kept | with_reducible apply clocks_kept
    | with_reducible apply stepPc_kept | (intro _ _; try dsimp only) | with_reducible assumption | exact id | rfl
    | exact fun _ => rfl | split

end Sys2Proof.Machine
end

