-- ==== Sys2Proof/Laws/KeptCantleScan.lean ====
section
/-! SUPPORT. The operations of Machine/CantleScan.lean keep what Kept says. -/

namespace Sys2Proof.Machine

open Sys2Proof

variable {c : Image} {q : List Instr} {m : Mode} {o : Bool}

theorem scanLatch_kept (a1) (a2) (a3) {s : State} (h : Kept c q m o s) :
    Kept c q m o (scanLatch a1 a2 a3 s) := by
  unfold scanLatch
  try dsimp only
  repeat' first
    | with_reducible exact h | with_reducible apply tapOut_kept | with_reducible apply setCs_kept | with_reducible assumption
    | exact id | rfl

theorem keepImage_kept {s : State} (h : Kept c q m o s) :
    Kept c q m o (keepImage s) := by
  unfold keepImage
  try dsimp only
  repeat' first
    | with_reducible exact h | with_reducible apply setCs_kept | with_reducible assumption | exact id | rfl
    | exact fun _ => rfl | split | (with_reducible refine Kept.put ?_ rfl rfl rfl rfl rfl rfl rfl rfl rfl id id)

theorem wdClear_kept {s : State} (h : Kept c q m o s) :
    Kept c q m o (wdClear s) := by
  unfold wdClear
  try dsimp only
  repeat' first
    | with_reducible exact h | with_reducible apply clearItem_kept | with_reducible apply raise_kept
    | with_reducible apply setCs_kept | with_reducible assumption | exact id | rfl

theorem scanBegin_kept (a1) {s : State} (h : Kept c q m o s) :
    Kept c q m o (scanBegin a1 s) := by
  unfold scanBegin
  try dsimp only
  repeat' first
    | with_reducible exact h | with_reducible apply wdClear_kept | with_reducible apply scanLatch_kept
    | with_reducible apply setCs_kept | with_reducible apply boundary_kept | with_reducible apply stepPc_kept
    | with_reducible assumption | exact id | rfl | exact fun _ => rfl | split
    | (with_reducible refine Kept.put ?_ rfl rfl rfl rfl rfl rfl rfl rfl rfl id id)

theorem scanOverrun_kept {s : State} (h : Kept c q m o s) :
    Kept c q m o (scanOverrun s) := by
  unfold scanOverrun
  try dsimp only
  repeat' first
    | with_reducible exact h | with_reducible apply ipendSet_kept | with_reducible apply setCs_kept
    | with_reducible apply wdFault_kept | with_reducible apply raise_kept | with_reducible assumption | exact id | rfl
    | exact fun _ => rfl | split | (with_reducible refine Kept.put ?_ rfl rfl rfl rfl rfl rfl rfl rfl rfl id id)

theorem execScanStart_kept {s : State} (h : Kept c q m o s) :
    KeptR c q m o (execScanStart s) := by
  unfold execScanStart
  try dsimp only
  repeat' first
    | with_reducible exact h | with_reducible apply Kept.next | with_reducible apply scanBegin_kept
    | with_reducible apply scanOverrun_kept | with_reducible assumption | exact id | rfl | exact fun _ => rfl | split

theorem execScanw_kept (a1) {s : State} (h : Kept c q m o s) :
    KeptR c q m o (execScanw a1 s) := by
  unfold execScanw
  try dsimp only
  repeat' first
    | with_reducible exact h | with_reducible apply Kept.next | with_reducible apply atX_kept
    | with_reducible apply illegal_kept | with_reducible apply complete_kept | with_reducible apply scanLatch_kept
    | with_reducible apply setCs_kept | with_reducible apply clocks_kept | (intro _ _; try dsimp only)
    | with_reducible assumption | exact id | rfl | exact fun _ => rfl | split

theorem cantleMemories_kept {s : State} (h : Kept c q m o s) : Kept c q m o (cantleMemories s) := by
  obtain ⟨k1, _, _, k4⟩ := h.mems
  exact h.store k1 k4 (memWriteList_wf (m := []) _ 0 rfl) (memWriteList_wf (m := []) _ 0 rfl)

theorem cantleStart_kept {s : State} (h : Kept c q m o s) :
    Kept c q m o (cantleStart s) := by
  unfold cantleStart
  try dsimp only
  repeat' first
    | with_reducible exact h | with_reducible apply setCs_kept | with_reducible assumption | exact id | rfl

theorem csControl_kept (a1) (a2) {s : State} (h : Kept c q m o s) :
    Kept c q m o (csControl a1 a2 s) := by
  unfold csControl
  try dsimp only
  repeat' first
    | with_reducible exact h | with_reducible apply setCs_kept | with_reducible apply cantleHalted_kept
    | with_reducible apply cantleStop_kept | with_reducible assumption | exact id | rfl | exact fun _ => rfl | split

theorem execCantleHalt_kept (a1) (a2) {s : State} (h : Kept c q m o s) :
    KeptR c q m o (execCantleHalt a1 a2 s) := by
  unfold execCantleHalt
  try dsimp only
  repeat' first
    | with_reducible exact h | with_reducible apply Kept.next | with_reducible apply portWrite_kept
    | with_reducible apply csControl_kept

theorem execCantleRestart_kept (a1) (a2) {s : State} (h : Kept c q m o s) :
    KeptR c q m o (execCantleRestart a1 a2 s) := by
  unfold execCantleRestart
  try dsimp only
  repeat' first
    | with_reducible exact h | with_reducible apply Kept.next | with_reducible apply portWrite_kept
    | with_reducible apply csControl_kept

theorem execCantleReloadDone_kept {s : State} (h : Kept c q m o s) :
    KeptR c q m o (execCantleReloadDone s) := by
  unfold execCantleReloadDone
  try dsimp only
  repeat' first
    | with_reducible exact h | with_reducible apply Kept.next | with_reducible apply raise_kept
    | with_reducible apply setDb_kept | with_reducible apply cantleStart_kept | with_reducible apply cantleMemories_kept
    | with_reducible assumption | exact id | rfl | exact fun _ => rfl | split

theorem execCantleTimerExpiry_kept {s : State} (h : Kept c q m o s) :
    KeptR c q m o (execCantleTimerExpiry s) := by
  unfold execCantleTimerExpiry
  try dsimp only
  repeat' first
    | with_reducible exact h | with_reducible apply Kept.next | with_reducible apply ipendSet_kept
    | with_reducible apply setCs_kept | with_reducible assumption | exact id | rfl | exact fun _ => rfl | split

theorem execInstructionRewriteDone_kept (a1) {s : State} (h : Kept c q m o s) :
    KeptR c q m o (execInstructionRewriteDone a1 s) := by
  unfold execInstructionRewriteDone
  try dsimp only
  repeat' first
    | with_reducible exact h | with_reducible apply Kept.next | with_reducible apply setCs_kept
    | with_reducible apply rewriteImem_kept | with_reducible apply eccUncorrectable_kept | with_reducible apply enterSafe_kept
    | with_reducible assumption | exact id | rfl | exact fun _ => rfl | split

theorem mailSend_kept (a1) {s : State} (h : Kept c q m o s) :
    Kept c q m o (mailSend a1 s) := by
  unfold mailSend
  try dsimp only
  repeat' first
    | with_reducible exact h | with_reducible apply raise_kept | with_reducible apply setCs_kept
    | with_reducible apply ipendSet_kept | with_reducible apply tapOut_kept | with_reducible assumption | exact id | rfl
    | exact fun _ => rfl | split | (with_reducible refine Kept.put ?_ rfl rfl rfl rfl rfl rfl rfl rfl rfl id id)

theorem mailPost_kept (a1) {s : State} (h : Kept c q m o s) :
    Kept c q m o (mailPost a1 s) := by
  unfold mailPost
  try dsimp only
  repeat' first
    | with_reducible exact h | with_reducible apply raise_kept | with_reducible apply setCs_kept
    | with_reducible apply tapOut_kept | with_reducible assumption | exact id | rfl | exact fun _ => rfl | split
    | (with_reducible refine Kept.put ?_ rfl rfl rfl rfl rfl rfl rfl rfl rfl id id)

theorem mailTake_kept {s : State} (h : Kept c q m o s) :
    Kept c q m o (mailTake s) := by
  unfold mailTake
  try dsimp only
  repeat' first
    | with_reducible exact h | with_reducible apply ipendSet_kept | with_reducible apply setCs_kept | with_reducible assumption
    | exact id | rfl | exact fun _ => rfl | split

theorem execMailboxSend_kept (a1) (a2) {s : State} (h : Kept c q m o s) :
    KeptR c q m o (execMailboxSend a1 a2 s) := by
  unfold execMailboxSend
  try dsimp only
  repeat' first
    | with_reducible exact h | with_reducible apply Kept.next | with_reducible apply portWrite_kept
    | with_reducible apply mailSend_kept

theorem mailAck_kept (a1) {s : State} (h : Kept c q m o s) :
    Kept c q m o (mailAck a1 s) := by
  unfold mailAck
  try dsimp only
  repeat' first
    | with_reducible exact h | with_reducible apply mailTake_kept | with_reducible assumption | exact id | rfl
    | exact fun _ => rfl | split

theorem execMailboxAck_kept (a1) (a2) {s : State} (h : Kept c q m o s) :
    KeptR c q m o (execMailboxAck a1 a2 s) := by
  unfold execMailboxAck
  try dsimp only
  repeat' first
    | with_reducible exact h | with_reducible apply Kept.next | with_reducible apply portWrite_kept
    | with_reducible apply mailAck_kept

end Sys2Proof.Machine
end

