-- ==== Sys2Proof/Laws/KeptDebug.lean ====
section
/-! SUPPORT. The operations of Machine/Debug.lean keep what Kept says. -/

namespace Sys2Proof.Machine

open Sys2Proof

variable {c : Image} {q : List Instr} {m : Mode} {o : Bool}

theorem dbAnswer_kept (a1) (a2) (a3) {s : State} (h : Kept c q m o s) :
    Kept c q m o (dbAnswer a1 a2 a3 s) := by
  unfold dbAnswer
  try dsimp only
  repeat' first
    | with_reducible exact h | with_reducible apply setDb_kept | with_reducible assumption | exact id | rfl
    | exact fun _ => rfl | split | (with_reducible refine Kept.put ?_ rfl rfl rfl rfl rfl rfl rfl rfl rfl id id)

theorem dbData_kept (a1) (a2) {s : State} (h : Kept c q m o s) :
    Kept c q m o (dbData a1 a2 s) := by
  unfold dbData
  try dsimp only
  repeat' first
    | with_reducible exact h | with_reducible apply dbAnswer_kept | with_reducible assumption | exact id | rfl
    | exact fun _ => rfl | split

theorem dbOk_kept {s : State} (h : Kept c q m o s) :
    Kept c q m o (dbOk s) := by
  unfold dbOk
  try dsimp only
  repeat' first
    | with_reducible exact h | with_reducible apply dbAnswer_kept | with_reducible assumption | exact id | rfl
    | exact fun _ => rfl | split

theorem dbReject_kept {s : State} (h : Kept c q m o s) :
    Kept c q m o (dbReject s) := by
  unfold dbReject
  try dsimp only
  repeat' first
    | with_reducible exact h | with_reducible apply dbAnswer_kept | with_reducible assumption | exact id | rfl
    | exact fun _ => rfl | split

theorem dbFrameIn_kept (a1) (a2 : State → State) {s : State} (k : ∀ y, Kept c q m o y → Kept c q m o (a2 y)) (h : Kept c q m o s) :
    Kept c q m o (dbFrameIn a1 a2 s) := by
  unfold dbFrameIn
  try dsimp only
  repeat' first
    | with_reducible exact h | with_reducible apply dbAnswer_kept | with_reducible apply setDb_kept | with_reducible apply k
    | with_reducible assumption | exact id | rfl | exact fun _ => rfl | split

theorem dbInSession_kept (a1) (a2 : State → State) {s : State} (k : ∀ y, Kept c q m o y → Kept c q m o (a2 y)) (h : Kept c q m o s) :
    Kept c q m o (dbInSession a1 a2 s) := by
  unfold dbInSession
  try dsimp only
  repeat' first
    | with_reducible exact h | with_reducible apply dbFrameIn_kept | with_reducible apply dbReject_kept | with_reducible apply k
    | (intro _ _; try dsimp only) | with_reducible assumption | exact id | rfl | exact fun _ => rfl | split

theorem sessionBegin_kept (a1) {s : State} (h : Kept c q m o s) :
    Kept c q m o (sessionBegin a1 s) := by
  unfold sessionBegin
  try dsimp only
  repeat' first
    | with_reducible exact h | with_reducible apply raise_kept | with_reducible apply setDb_kept | with_reducible assumption
    | exact id | rfl | exact fun _ => rfl | split

theorem sessionStop_kept {s : State} (h : Kept c q m o s) :
    Kept c q m o (sessionStop s) := by
  unfold sessionStop
  try dsimp only
  repeat' first
    | with_reducible exact h | with_reducible apply raise_kept | with_reducible apply sessionEnd_kept
    | with_reducible assumption | exact id | rfl | exact fun _ => rfl | split

theorem dbStop_kept {s : State} (h : Kept c q m o s) :
    Kept c q m o (dbStop s) := by
  unfold dbStop
  try dsimp only
  repeat' first
    | with_reducible exact h | with_reducible apply monStop_kept | with_reducible apply setDb_kept | with_reducible assumption
    | exact id | rfl | exact fun _ => rfl | split

theorem dbGo_kept (a1) {s : State} (h : Kept c q m o s) :
    Kept c q m o (dbGo a1 s) := by
  unfold dbGo
  try dsimp only
  repeat' first
    | with_reducible exact h | with_reducible apply setCs_kept | with_reducible apply setDb_kept | with_reducible assumption
    | exact id | rfl | exact fun _ => rfl | split

theorem dbResume_kept {s : State} (h : Kept c q m o s) :
    Kept c q m o (dbResume s) := by
  unfold dbResume
  try dsimp only
  repeat' first
    | with_reducible exact h | with_reducible apply dbGo_kept | with_reducible apply raise_kept
    | with_reducible apply setDb_kept | with_reducible assumption | exact id | rfl | exact fun _ => rfl | split

theorem dbCmdDo_kept (a1) {s : State} (h : Kept c q m o s) :
    Kept c q m o (dbCmdDo a1 s) := by
  unfold dbCmdDo
  try dsimp only
  repeat' first
    | with_reducible exact h | with_reducible apply dbStop_kept | with_reducible apply dbResume_kept
    | with_reducible apply dbGo_kept | with_reducible assumption | exact id | rfl | exact fun _ => rfl | split

theorem ctlWrite_kept (a1) (a2) {s : State} (h : Kept c q m o s) :
    Kept c q m o (ctlWrite a1 a2 s) := by
  unfold ctlWrite
  try dsimp only
  repeat' first
    | with_reducible exact h | with_reducible apply dbReject_kept | with_reducible apply dbOk_kept
    | with_reducible apply sessionStop_kept | with_reducible apply dbCmdDo_kept | with_reducible apply setDb_kept
    | with_reducible apply sessionBegin_kept | with_reducible assumption | exact id | rfl | exact fun _ => rfl | split

theorem ctlFrame_kept (a1) (a2) {s : State} (h : Kept c q m o s) :
    KeptR c q m o (ctlFrame a1 a2 s) := by
  unfold ctlFrame
  try dsimp only
  repeat' first
    | with_reducible exact h | with_reducible apply Kept.next | with_reducible apply dbFrameIn_kept
    | with_reducible apply ctlWrite_kept

theorem execSessionOpen_kept (a1) (a2) {s : State} (h : Kept c q m o s) :
    KeptR c q m o (execSessionOpen a1 a2 s) := by
  unfold execSessionOpen
  try dsimp only
  repeat' first
    | with_reducible exact h | with_reducible apply Kept.next | with_reducible apply ctlFrame_kept

theorem execSessionClose_kept (a1) (a2) {s : State} (h : Kept c q m o s) :
    KeptR c q m o (execSessionClose a1 a2 s) := by
  unfold execSessionClose
  try dsimp only
  repeat' first
    | with_reducible exact h | with_reducible apply Kept.next | with_reducible apply ctlFrame_kept

theorem execDebugStop_kept (a1) (a2) {s : State} (h : Kept c q m o s) :
    KeptR c q m o (execDebugStop a1 a2 s) := by
  unfold execDebugStop
  try dsimp only
  repeat' first
    | with_reducible exact h | with_reducible apply Kept.next | with_reducible apply ctlFrame_kept

theorem execDebugResume_kept (a1) (a2) {s : State} (h : Kept c q m o s) :
    KeptR c q m o (execDebugResume a1 a2 s) := by
  unfold execDebugResume
  try dsimp only
  repeat' first
    | with_reducible exact h | with_reducible apply Kept.next | with_reducible apply ctlFrame_kept

theorem execDebugStep_kept (a1) (a2) {s : State} (h : Kept c q m o s) :
    KeptR c q m o (execDebugStep a1 a2 s) := by
  unfold execDebugStep
  try dsimp only
  repeat' first
    | with_reducible exact h | with_reducible apply Kept.next | with_reducible apply ctlFrame_kept

theorem execSessionTimeout_kept {s : State} (h : Kept c q m o s) :
    KeptR c q m o (execSessionTimeout s) := by
  unfold execSessionTimeout
  try dsimp only
  repeat' first
    | with_reducible exact h | with_reducible apply Kept.next | with_reducible apply raiseRec_kept
    | with_reducible apply sessionEnd_kept | with_reducible assumption | exact id | rfl | exact fun _ => rfl | split

theorem execDebugFrameReset_kept (a1) {s : State} (h : Kept c q m o s) :
    KeptR c q m o (execDebugFrameReset a1 s) := by
  unfold execDebugFrameReset
  try dsimp only
  repeat' first
    | with_reducible exact h | with_reducible apply Kept.next | with_reducible apply setDb_kept | with_reducible assumption
    | exact id | rfl | exact fun _ => rfl | split

theorem dbWritten_kept (a1) {s : State} (h : Kept c q m o s) :
    Kept c q m o (dbWritten a1 s) := by
  unfold dbWritten
  try dsimp only
  repeat' first
    | with_reducible exact h | with_reducible apply setDb_kept | with_reducible apply raise_kept
    | with_reducible apply eventRecord_kept | with_reducible assumption | exact id | rfl | exact fun _ => rfl | split

theorem gdataAccess_kept (a1) (a2) {s : State} (h : Kept c q m o s) :
    Kept c q m o (gdataAccess a1 a2 s) := by
  unfold gdataAccess
  try dsimp only
  repeat' first
    | with_reducible exact h | with_reducible apply dbReject_kept | with_reducible apply dbOk_kept
    | with_reducible apply dbWritten_kept | with_reducible apply setG_kept | with_reducible apply dbData_kept
    | with_reducible assumption | exact id | rfl | exact fun _ => rfl | split

theorem maWrite_kept (a1) {s : State} (h : Kept c q m o s) : Kept c q m o (maWrite a1 s) := by
  obtain ⟨k1, k2, k3, k4⟩ := h.mems
  unfold maWrite
  exact ite_kept (h.store k1 k4 (memWrite32_wf _ _ k2) k3) (h.store k1 k4 k2 (memWrite32_wf _ _ k3))

theorem maNext_kept {s : State} (h : Kept c q m o s) :
    Kept c q m o (maNext s) := by
  unfold maNext
  try dsimp only
  repeat' first
    | with_reducible exact h | with_reducible apply setDb_kept | with_reducible assumption | exact id | rfl | exact fun _ => rfl
    | split

theorem mdataAccess_kept (a1) (a2) (a3) {s : State} (h : Kept c q m o s) :
    Kept c q m o (mdataAccess a1 a2 a3 s) := by
  unfold mdataAccess
  try dsimp only
  repeat' first
    | with_reducible exact h | with_reducible apply dbReject_kept | with_reducible apply dbAnswer_kept
    | with_reducible apply dbOk_kept | with_reducible apply dbWritten_kept | with_reducible apply maNext_kept
    | with_reducible apply maWrite_kept | with_reducible apply eccFound_kept | with_reducible apply draw_kept
    | with_reducible apply dbData_kept | with_reducible assumption | exact id | rfl | exact fun _ => rfl | split

theorem execDebugRegisterAccess_kept (a1) (a2) (a3) {s : State} (h : Kept c q m o s) :
    KeptR c q m o (execDebugRegisterAccess a1 a2 a3 s) := by
  unfold execDebugRegisterAccess
  try dsimp only
  repeat' first
    | with_reducible exact h | with_reducible apply Kept.next | with_reducible apply dbInSession_kept
    | with_reducible apply gdataAccess_kept

theorem execDebugMemoryAccess_kept (a1) (a2) (a3) (a4) {s : State} (h : Kept c q m o s) :
    KeptR c q m o (execDebugMemoryAccess a1 a2 a3 a4 s) := by
  unfold execDebugMemoryAccess
  try dsimp only
  repeat' first
    | with_reducible exact h | with_reducible apply Kept.next | with_reducible apply dbInSession_kept
    | with_reducible apply mdataAccess_kept

theorem wdrawWrite_kept (a1) {s : State} (h : Kept c q m o s) :
    Kept c q m o (wdrawWrite a1 s) := by
  unfold wdrawWrite
  try dsimp only
  repeat' first
    | with_reducible exact h | with_reducible apply noteLatch_kept | with_reducible apply setDb_kept
    | with_reducible apply eventRecord_kept | with_reducible apply raiseAt_kept | with_reducible assumption | exact id | rfl
    | exact fun _ => rfl | split | (with_reducible refine Kept.put ?_ rfl rfl rfl rfl rfl rfl rfl rfl rfl id id)

theorem execDebugWithdraw_kept (a1) (a2) {s : State} (h : Kept c q m o s) :
    KeptR c q m o (execDebugWithdraw a1 a2 s) := by
  unfold execDebugWithdraw
  try dsimp only
  repeat' first
    | with_reducible exact h | with_reducible apply Kept.next | with_reducible apply dbInSession_kept
    | with_reducible apply dbOk_kept | with_reducible apply wdrawWrite_kept | (intro _ _; try dsimp only)
    | with_reducible assumption

theorem execWithdrawCopyMismatch_kept {s : State} (h : Kept c q m o s) :
    KeptR c q m o (execWithdrawCopyMismatch s) := by
  unfold execWithdrawCopyMismatch
  try dsimp only
  repeat' first
    | with_reducible exact h | with_reducible apply Kept.next | with_reducible apply raiseRec_kept
    | with_reducible apply setDb_kept | with_reducible assumption | exact id | rfl | exact fun _ => rfl | split

theorem vtRead_kept {s : State} (h : Kept c q m o s) :
    Kept c q m o (vtRead s) := by
  unfold vtRead
  try dsimp only
  repeat' first
    | with_reducible exact h | with_reducible apply dbData_kept | with_reducible apply setDb_kept | with_reducible assumption
    | exact id | rfl | exact fun _ => rfl | split
    | (with_reducible refine Kept.put ?_ rfl rfl rfl rfl rfl rfl rfl rfl rfl id id)

theorem vtWrite_kept (a1) {s : State} (h : Kept c q m o s) :
    Kept c q m o (vtWrite a1 s) := by
  unfold vtWrite
  try dsimp only
  repeat' first
    | with_reducible exact h | with_reducible apply dbOk_kept | with_reducible apply setDb_kept
    | with_reducible apply dbReject_kept | with_reducible apply termEvent_kept | with_reducible assumption | exact id | rfl
    | exact fun _ => rfl | split

theorem execVtOutputRead_kept (a1) {s : State} (h : Kept c q m o s) :
    KeptR c q m o (execVtOutputRead a1 s) := by
  unfold execVtOutputRead
  try dsimp only
  repeat' first
    | with_reducible exact h | with_reducible apply Kept.next | with_reducible apply dbInSession_kept
    | with_reducible apply vtRead_kept

theorem execVtInputWrite_kept (a1) (a2) {s : State} (h : Kept c q m o s) :
    KeptR c q m o (execVtInputWrite a1 a2 s) := by
  unfold execVtInputWrite
  try dsimp only
  repeat' first
    | with_reducible exact h | with_reducible apply Kept.next | with_reducible apply dbInSession_kept
    | with_reducible apply vtWrite_kept

theorem dbWriteReg_kept (a1) (a2) {s : State} (h : Kept c q m o s) :
    Kept c q m o (dbWriteReg a1 a2 s) := by
  unfold dbWriteReg
  try dsimp only
  repeat' first
    | with_reducible exact h | with_reducible apply gdataAccess_kept | with_reducible apply mdataAccess_kept
    | with_reducible apply dbOk_kept | with_reducible apply wdrawWrite_kept | with_reducible apply vtWrite_kept
    | with_reducible apply setDb_kept | with_reducible assumption | exact id | rfl | exact fun _ => rfl | split

theorem dbReadReg_kept (a1) {s : State} (h : Kept c q m o s) :
    Kept c q m o (dbReadReg a1 s) := by
  unfold dbReadReg
  try dsimp only
  repeat' first
    | with_reducible exact h | with_reducible apply gdataAccess_kept | with_reducible apply mdataAccess_kept
    | with_reducible apply vtRead_kept | with_reducible apply dbData_kept | with_reducible assumption | exact id | rfl
    | exact fun _ => rfl | split

theorem dbReadAny_kept (a1) (a2) {s : State} (h : Kept c q m o s) :
    Kept c q m o (dbReadAny a1 a2 s) := by
  unfold dbReadAny
  try dsimp only
  repeat' first
    | with_reducible exact h | with_reducible apply dbReadReg_kept | with_reducible apply dbData_kept
    | with_reducible apply dbReject_kept | with_reducible assumption | exact id | rfl | exact fun _ => rfl | split

theorem dbBadFrame_kept (a1) {s : State} (h : Kept c q m o s) :
    Kept c q m o (dbBadFrame a1 s) := by
  unfold dbBadFrame
  try dsimp only
  repeat' first
    | with_reducible exact h | with_reducible apply dbAnswer_kept | with_reducible apply setDb_kept
    | with_reducible assumption | exact id | rfl | exact fun _ => rfl | split
    | (with_reducible refine Kept.put ?_ rfl rfl rfl rfl rfl rfl rfl rfl rfl id id)

theorem execDebugFrame_kept (a1) {s : State} (h : Kept c q m o s) :
    KeptR c q m o (execDebugFrame a1 s) := by
  unfold execDebugFrame
  try dsimp only
  repeat' first
    | with_reducible exact h | with_reducible apply Kept.next | with_reducible apply dbBadFrame_kept
    | with_reducible apply dbFrameIn_kept | with_reducible apply ctlWrite_kept | with_reducible apply dbInSession_kept
    | with_reducible apply dbWriteReg_kept | with_reducible apply dbReadAny_kept | (intro _ _; try dsimp only)
    | with_reducible assumption | exact id | rfl | exact fun _ => rfl | split

end Sys2Proof.Machine
end

