-- ==== Sys2Proof/Laws/KeptLedger.lean ====
section
/-! SUPPORT. The operations of Machine/Ledger.lean keep what Kept says. -/

namespace Sys2Proof.Machine

open Sys2Proof

variable {c : Image} {q : List Instr} {m : Mode} {o : Bool}

theorem setPart_kept (a1) (a2) {s : State} (h : Kept c q m o s) :
    Kept c q m o (setPart a1 a2 s) := by
  unfold setPart
  try dsimp only
  repeat' first
    | with_reducible exact h | with_reducible apply setNv_kept | with_reducible assumption | exact id | rfl | exact fun _ => rfl
    | split

theorem unlogged_kept (a1) {s : State} (h : Kept c q m o s) :
    Kept c q m o (unlogged a1 s) := by
  unfold unlogged
  try dsimp only
  repeat' first
    | with_reducible exact h | with_reducible apply mirror_kept | with_reducible apply setNv_kept | with_reducible assumption
    | exact id | rfl

theorem drainQueue_kept (a1 : List (LRec × Nat)) {s : State} (h : Kept c q m o s) : Kept c q m o (drainQueue a1 s) := by
  induction a1 generalizing s with
  | nil => exact h
  | cons x l ih => exact ih (recordLost_kept _ h)

theorem markLost_kept (a1) (a2) {s : State} (h : Kept c q m o s) :
    Kept c q m o (markLost a1 a2 s) := by
  unfold markLost
  try dsimp only
  repeat' first
    | with_reducible exact h | with_reducible apply setNv_kept | with_reducible apply setPart_kept | with_reducible assumption
    | exact id | rfl

theorem firstCell_kept (a1) {s : State} (h : Kept c q m o s) :
    Kept c q m o (firstCell a1 s) := by
  unfold firstCell
  try dsimp only
  repeat' first
    | with_reducible exact h | with_reducible apply setNv_kept | with_reducible apply cellPut_kept
    | with_reducible assumption | exact id | rfl | exact fun _ => rfl | split
    | (with_reducible refine Kept.put ?_ rfl rfl rfl rfl rfl rfl rfl rfl rfl id id)

theorem lostRecord_kept (a1) (a2) {s : State} (h : Kept c q m o s) :
    Kept c q m o (lostRecord a1 a2 s) := by
  unfold lostRecord
  try dsimp only
  repeat' first
    | with_reducible exact h | with_reducible apply drainQueue_kept | with_reducible apply setNv_kept
    | with_reducible apply unlogged_kept | with_reducible apply recordLost_kept | with_reducible apply queueRec_kept
    | with_reducible assumption | exact id | rfl | exact fun _ => rfl | split
    | (with_reducible refine Kept.put ?_ rfl rfl rfl rfl rfl rfl rfl rfl rfl id id)

theorem lose_kept (a1) (a2) (a3) {s : State} (h : Kept c q m o s) :
    Kept c q m o (lose a1 a2 a3 s) := by
  unfold lose
  try dsimp only
  repeat' first
    | with_reducible exact h | with_reducible apply setNv_kept | with_reducible apply markLost_kept
    | with_reducible apply firstCell_kept | with_reducible apply setItem_kept | with_reducible apply lostRecord_kept
    | with_reducible apply raise_kept | with_reducible assumption | exact id | rfl | exact fun _ => rfl | split
    | (with_reducible refine Kept.put ?_ rfl rfl rfl rfl rfl rfl rfl rfl rfl id id)

theorem retireStart_kept (a1) (a2) (a3) (a4) {s : State} (h : Kept c q m o s) :
    Kept c q m o (retireStart a1 a2 a3 a4 s) := by
  unfold retireStart
  try dsimp only
  repeat' first
    | with_reducible exact h | with_reducible apply setPart_kept | with_reducible apply lose_kept | with_reducible assumption
    | exact id | rfl | exact fun _ => rfl | split

theorem retireData_kept (a1) (a2) (a3) {s : State} (h : Kept c q m o s) :
    Kept c q m o (retireData a1 a2 a3 s).2 := by
  unfold retireData
  try dsimp only
  repeat' first
    | with_reducible exact h | with_reducible apply draw_kept | with_reducible assumption | exact id | rfl | exact fun _ => rfl
    | split

theorem retireEnd_kept (a1) (a2) {s : State} (h : Kept c q m o s) :
    Kept c q m o (retireEnd a1 a2 s) := by
  unfold retireEnd
  try dsimp only
  repeat' first
    | with_reducible exact h | with_reducible apply retireData_kept | with_reducible apply mapAppend_kept
    | with_reducible apply setPart_kept | with_reducible apply raise_kept | with_reducible apply record_kept

theorem ledgerWrite_kept (a1) (a2) {s : State} (h : Kept c q m o s) :
    Kept c q m o (ledgerWrite a1 a2 s) := by
  unfold ledgerWrite
  try dsimp only
  repeat' first
    | with_reducible exact h | with_reducible apply setNv_kept | with_reducible apply tapOut_kept
    | with_reducible apply mirror_kept | with_reducible assumption | exact id | rfl

theorem execLedgerAppend_kept (a1) {s : State} (h : Kept c q m o s) :
    KeptR c q m o (execLedgerAppend a1 s) := by
  unfold execLedgerAppend
  try dsimp only
  repeat' first
    | with_reducible exact h | with_reducible apply Kept.next | with_reducible apply ledgerWrite_kept
    | with_reducible apply setNv_kept | with_reducible apply retireStart_kept | with_reducible assumption | exact id | rfl
    | exact fun _ => rfl | split

theorem writeAgain_kept {s : State} (h : Kept c q m o s) :
    Kept c q m o (writeAgain s) := by
  unfold writeAgain
  try dsimp only
  repeat' first
    | with_reducible exact h | with_reducible apply ledgerWrite_kept | with_reducible apply setNv_kept
    | with_reducible assumption | exact id | rfl | exact fun _ => rfl | split

theorem execRetirementDone_kept {s : State} (h : Kept c q m o s) :
    KeptR c q m o (execRetirementDone s) := by
  unfold execRetirementDone
  try dsimp only
  repeat' first
    | with_reducible exact h | with_reducible apply Kept.next | with_reducible apply retireEnd_kept
    | with_reducible apply recovery_kept | with_reducible apply writeAgain_kept | with_reducible assumption | exact id | rfl
    | exact fun _ => rfl | split

theorem execAppendEngineTimeout_kept (a1) {s : State} (h : Kept c q m o s) :
    KeptR c q m o (execAppendEngineTimeout a1 s) := by
  unfold execAppendEngineTimeout
  try dsimp only
  repeat' first
    | with_reducible exact h | with_reducible apply Kept.next | with_reducible apply lose_kept | with_reducible assumption
    | exact id | rfl | exact fun _ => rfl | split

theorem execEraseAhead_kept (a1) (a2) {s : State} (h : Kept c q m o s) :
    KeptR c q m o (execEraseAhead a1 a2 s) := by
  unfold execEraseAhead
  try dsimp only
  repeat' first
    | with_reducible exact h | with_reducible apply Kept.next | with_reducible apply setPart_kept
    | with_reducible apply retireStart_kept | with_reducible assumption | exact id | rfl | exact fun _ => rfl | split

theorem clogPut_kept (a1) {s : State} (h : Kept c q m o s) :
    Kept c q m o (clogPut a1 s) := by
  unfold clogPut
  try dsimp only
  repeat' first
    | with_reducible exact h | with_reducible apply setNv_kept | with_reducible apply tapOut_kept | with_reducible assumption
    | exact id | rfl

theorem clogWrite_kept (a1) (a2) {s : State} (h : Kept c q m o s) :
    KeptO c q m o (clogWrite a1 a2 s) := by
  unfold clogWrite
  try dsimp only
  repeat' first
    | with_reducible exact h | with_reducible apply Kept.some | with_reducible exact Kept.none
    | with_reducible apply retireStart_kept | with_reducible apply retireEnd_kept | with_reducible apply setPart_kept
    | with_reducible apply clogPut_kept | with_reducible assumption | exact id | rfl | exact fun _ => rfl | split

theorem clogFailed_kept (a1) {s : State} (h : Kept c q m o s) :
    Kept c q m o (clogFailed a1 s) := by
  unfold clogFailed
  try dsimp only
  repeat' first
    | with_reducible exact h | with_reducible apply retireStart_kept | with_reducible assumption | exact id | rfl
    | exact fun _ => rfl | split

theorem minuteStep_kept {s : State} (a1) (h : Kept c q m o s) :
    Kept c q m o (minuteStep s a1) := by
  unfold minuteStep
  try dsimp only
  repeat' first
    | with_reducible exact h | with_reducible apply setNv_kept | with_reducible assumption | exact id | rfl | exact fun _ => rfl
    | split

theorem execFaultCellMinute_kept (a1) {s : State} (h : Kept c q m o s) :
    KeptR c q m o (execFaultCellMinute a1 s) := by
  unfold execFaultCellMinute
  try dsimp only
  repeat' first
    | with_reducible exact h | with_reducible apply Kept.next | with_reducible apply minuteStep_kept
    | with_reducible apply setNv_kept | (with_reducible apply foldl_kept; intro _ _ _) | with_reducible assumption | exact id
    | rfl | exact fun _ => rfl | split

theorem drawWords_kept (a1 : Nat) {s : State} (h : Kept c q m o s) : Kept c q m o (drawWords a1 s).2 := by
  induction a1 generalizing s with
  | zero => exact h
  | succ n ih => exact ih (draw_kept h)

theorem fetched_kept (a1) (a2) {s : State} (h : Kept c q m o s) :
    Kept c q m o (fetched a1 a2 s) := by
  unfold fetched
  try dsimp only
  repeat' first
    | with_reducible exact h | with_reducible apply setNv_kept | with_reducible assumption | exact id | rfl

theorem fetchItem_kept {α : Type} (a1 : α → W32) (a2 : α → List Byte) (a3) (a4 : Part α) (a5) {s : State} (h : Kept c q m o s) :
    Kept c q m o (fetchItem a1 a2 a3 a4 a5 s) := by
  unfold fetchItem
  try dsimp only
  repeat' first
    | with_reducible exact h | with_reducible apply fetched_kept | with_reducible apply drawWords_kept
    | with_reducible assumption | exact id | rfl | exact fun _ => rfl | split

theorem fetchLedger_kept (a1) {s : State} (h : Kept c q m o s) :
    Kept c q m o (fetchLedger a1 s) := by
  unfold fetchLedger
  try dsimp only
  repeat' first
    | with_reducible exact h | with_reducible apply fetchItem_kept

theorem fetchClog_kept (a1) {s : State} (h : Kept c q m o s) :
    Kept c q m o (fetchClog a1 s) := by
  unfold fetchClog
  try dsimp only
  repeat' first
    | with_reducible exact h | with_reducible apply fetchItem_kept

theorem execFetchLedgerRecord_kept (a1) (a2) {s : State} (h : Kept c q m o s) :
    KeptR c q m o (execFetchLedgerRecord a1 a2 s) := by
  unfold execFetchLedgerRecord
  try dsimp only
  repeat' first
    | with_reducible exact h | with_reducible apply Kept.next | with_reducible apply portWrite_kept
    | with_reducible apply fetchLedger_kept

theorem fetchCell_kept (a1) {s : State} (h : Kept c q m o s) :
    Kept c q m o (fetchCell a1 s) := by
  unfold fetchCell
  try dsimp only
  repeat' first
    | with_reducible exact h | with_reducible apply raiseRec_kept | with_reducible apply fetched_kept
    | with_reducible assumption | exact id | rfl | exact fun _ => rfl | split

theorem execFetchFaultCell_kept (a1) (a2) {s : State} (h : Kept c q m o s) :
    KeptR c q m o (execFetchFaultCell a1 a2 s) := by
  unfold execFetchFaultCell
  try dsimp only
  repeat' first
    | with_reducible exact h | with_reducible apply Kept.next | with_reducible apply portWrite_kept
    | with_reducible apply fetchCell_kept

theorem execFetchChangeLogEntry_kept (a1) (a2) {s : State} (h : Kept c q m o s) :
    KeptR c q m o (execFetchChangeLogEntry a1 a2 s) := by
  unfold execFetchChangeLogEntry
  try dsimp only
  repeat' first
    | with_reducible exact h | with_reducible apply Kept.next | with_reducible apply portWrite_kept
    | with_reducible apply fetchClog_kept

theorem rdataRead_kept (a1) {s : State} (h : Kept c q m o s) :
    Kept c q m o (rdataRead a1 s) := by
  unfold rdataRead
  try dsimp only
  repeat' first
    | with_reducible exact h | with_reducible apply portData_kept | with_reducible apply setNv_kept | with_reducible assumption
    | exact id | rfl | exact fun _ => rfl | split

theorem execLgRdataRead_kept (a1) (a2) {s : State} (h : Kept c q m o s) :
    KeptR c q m o (execLgRdataRead a1 s a2) :=
  Kept.next (readCycle_kept _ _ _ (fun _ k => rdataRead_kept _ k) h)

theorem cellsClear_kept (a1) (a2) {s : State} (h : Kept c q m o s) :
    Kept c q m o (cellsClear a1 a2 s) := by
  unfold cellsClear
  try dsimp only
  repeat' first
    | with_reducible exact h | with_reducible apply setNv_kept | with_reducible assumption | exact id | rfl | exact fun _ => rfl
    | split

theorem execFaultCellClear_kept (a1) (a2) {s : State} (h : Kept c q m o s) :
    KeptR c q m o (execFaultCellClear a1 a2 s) := by
  unfold execFaultCellClear
  try dsimp only
  repeat' first
    | with_reducible exact h | with_reducible apply Kept.next | with_reducible apply portWrite_kept
    | with_reducible apply cellsClear_kept

end Sys2Proof.Machine
end

