-- ==== Sys2Proof/Laws/KeptVault.lean ====
section
/-! SUPPORT. The operations of Machine/Vault.lean keep what Kept says. -/

namespace Sys2Proof.Machine

open Sys2Proof

variable {c : Image} {q : List Instr} {m : Mode} {o : Bool}

theorem setVault_kept (a1) {s : State} (h : Kept c q m o s) :
    Kept c q m o (setVault a1 s) := by
  unfold setVault
  try dsimp only
  repeat' first
    | with_reducible exact h | with_reducible apply setNv_kept | with_reducible assumption | exact id | rfl

theorem vaultDead_kept {s : State} (h : Kept c q m o s) :
    Kept c q m o (vaultDead s) := by
  unfold vaultDead
  try dsimp only
  repeat' first
    | with_reducible exact h | with_reducible apply enterSafe_kept | with_reducible assumption | exact id | rfl
    | exact fun _ => rfl | split | (with_reducible refine Kept.put ?_ rfl rfl rfl rfl rfl rfl rfl rfl rfl id id)

theorem pageNext_mem (v : Nv) : (pageNext v).mem = v.mem := by unfold pageNext; dsimp only; split <;> rfl

theorem vaultStored_mem (v : Nv) : (vaultStored v).mem = v.mem := pageNext_mem v

theorem vaultFailed_kept {s : State} (h : Kept c q m o s) : Kept c q m o (vaultFailed s) := by
  have h1 : Kept c q m o (setNv (fun v => { pageNext v with pageFails := v.pageFails + 1 }) s) := setNv_kept _ h (pageNext_mem _)
  exact ite_kept (enterSafe_kept _ _ ((setNv_kept _ h1 rfl).put rfl rfl rfl rfl rfl rfl rfl rfl rfl id id)) h1

theorem execVaultWrite_kept (a1) {s : State} (h : Kept c q m o s) : KeptR c q m o (execVaultWrite a1 s) :=
  Kept.next (ite_kept h (ite_kept (sendWaiting_kept (setNv_kept _ h (vaultStored_mem _))) (vaultFailed_kept h)))

theorem execVaultWearMove_kept {s : State} (h : Kept c q m o s) :
    KeptR c q m o (execVaultWearMove s) := by
  unfold execVaultWearMove
  try dsimp only
  repeat' first
    | with_reducible exact h | with_reducible apply Kept.next | with_reducible apply setNv_kept | with_reducible assumption
    | exact id | rfl | exact fun _ => rfl | split

theorem setLogin_kept (a1) (a2) {s : State} (h : Kept c q m o s) :
    Kept c q m o (setLogin a1 a2 s) := by
  unfold setLogin
  try dsimp only
  repeat' first
    | with_reducible exact h | with_reducible apply setNv_kept | with_reducible assumption | exact id | rfl

theorem access_kept (a1) (a2) (a3) {s : State} (h : Kept c q m o s) :
    Kept c q m o (access a1 a2 a3 s) := by
  unfold access
  try dsimp only
  repeat' first
    | with_reducible exact h | with_reducible apply record_kept

theorem pwClear_kept (a1) {s : State} (h : Kept c q m o s) :
    Kept c q m o (pwClear a1 s) := by
  unfold pwClear
  try dsimp only
  repeat' first
    | with_reducible exact h | with_reducible apply setLogin_kept

theorem pwWrite_kept (a1) (a2) {s : State} (h : Kept c q m o s) :
    Kept c q m o (pwWrite a1 a2 s) := by
  unfold pwWrite
  try dsimp only
  repeat' first
    | with_reducible exact h | with_reducible apply setLogin_kept

theorem execPasswordBufferWrite_kept (a1) (a2) {s : State} (h : Kept c q m o s) :
    KeptR c q m o (execPasswordBufferWrite a1 a2 s) := by
  unfold execPasswordBufferWrite
  try dsimp only
  repeat' first
    | with_reducible exact h | with_reducible apply Kept.next | with_reducible apply portWrite_kept
    | with_reducible apply pwWrite_kept

theorem lockTick_kept {s : State} (h : Kept c q m o s) :
    Kept c q m o (lockTick s) := by
  unfold lockTick
  try dsimp only
  repeat' first
    | with_reducible exact h | with_reducible apply setNv_kept | with_reducible assumption | exact id | rfl | exact fun _ => rfl
    | split

theorem wrongPw_kept (a1) {s : State} (h : Kept c q m o s) :
    Kept c q m o (wrongPw a1 s) := by
  unfold wrongPw
  try dsimp only
  repeat' first
    | with_reducible exact h | with_reducible apply access_kept | with_reducible apply setVault_kept
    | with_reducible apply setNv_kept | with_reducible assumption | exact id | rfl | exact fun _ => rfl | split

theorem loginDo_kept (a1) {s : State} (h : Kept c q m o s) :
    Kept c q m o (loginDo a1 s) := by
  unfold loginDo
  try dsimp only
  repeat' first
    | with_reducible exact h | with_reducible apply lockTick_kept | with_reducible apply pwClear_kept
    | with_reducible apply access_kept | with_reducible apply setVault_kept | with_reducible apply setLogin_kept
    | with_reducible apply wrongPw_kept | with_reducible assumption | exact id | rfl | exact fun _ => rfl | split

theorem cvCommand_kept (a1) (a2) (a3 : State → State) {s : State} (k : ∀ y, Kept c q m o y → Kept c q m o (a3 y)) (h : Kept c q m o s) :
    KeptR c q m o (cvCommand a1 a2 a3 s) := by
  unfold cvCommand
  try dsimp only
  repeat' first
    | with_reducible exact h | with_reducible apply Kept.next | with_reducible apply portWrite_kept | with_reducible apply k
    | (intro _ _; try dsimp only) | with_reducible assumption | exact id | rfl | exact fun _ => rfl | split

theorem execLogin_kept (a1) (a2) {s : State} (h : Kept c q m o s) :
    KeptR c q m o (execLogin a1 a2 s) := by
  unfold execLogin
  try dsimp only
  repeat' first
    | with_reducible exact h | with_reducible apply Kept.next | with_reducible apply cvCommand_kept
    | with_reducible apply loginDo_kept

theorem execLogout_kept (a1) (a2) {s : State} (h : Kept c q m o s) :
    KeptR c q m o (execLogout a1 a2 s) := by
  unfold execLogout
  try dsimp only
  repeat' first
    | with_reducible exact h | with_reducible apply Kept.next | with_reducible apply cvCommand_kept
    | with_reducible apply endLogin_kept

theorem execLoginTimeout_kept (a1) {s : State} (h : Kept c q m o s) :
    KeptR c q m o (execLoginTimeout a1 s) := by
  unfold execLoginTimeout
  try dsimp only
  repeat' first
    | with_reducible exact h | with_reducible apply Kept.next | with_reducible apply endLogin_kept | with_reducible assumption
    | exact id | rfl | exact fun _ => rfl | split

theorem execLoginLockExpiry_kept {s : State} (h : Kept c q m o s) :
    KeptR c q m o (execLoginLockExpiry s) := by
  unfold execLoginLockExpiry
  try dsimp only
  repeat' first
    | with_reducible exact h | with_reducible apply Kept.next | with_reducible apply lockTick_kept | with_reducible assumption
    | exact id | rfl | exact fun _ => rfl | split

theorem pwStore_kept (a1) (a2) {s : State} (h : Kept c q m o s) :
    Kept c q m o (pwStore a1 a2 s) := by
  unfold pwStore
  try dsimp only
  repeat' first
    | with_reducible exact h | with_reducible apply setVault_kept | with_reducible apply setNv_kept
    | with_reducible apply vaultDead_kept | with_reducible assumption | exact id | rfl | exact fun _ => rfl
    | exact vaultStored_mem _ | split | (with_reducible refine Kept.put ?_ rfl rfl rfl rfl rfl rfl rfl rfl rfl id id)

theorem setpwdDo_kept (a1) (a2) (a3) {s : State} (h : Kept c q m o s) :
    Kept c q m o (setpwdDo a1 a2 a3 s) := by
  unfold setpwdDo
  try dsimp only
  repeat' first
    | with_reducible exact h | with_reducible apply pwClear_kept | with_reducible apply setResult_kept
    | with_reducible refine Kept.of ‹clogWrite _ _ _ = some _› ?_ | with_reducible apply clogWrite_kept
    | with_reducible apply clogFailed_kept | with_reducible apply endLogin_kept | with_reducible apply access_kept
    | with_reducible apply pwStore_kept | with_reducible assumption | exact id | rfl | exact fun _ => rfl | split

theorem execSetpwd_kept (a1) (a2) (a3) (a4) {s : State} (h : Kept c q m o s) :
    KeptR c q m o (execSetpwd a1 a2 a3 a4 s) := by
  unfold execSetpwd
  try dsimp only
  repeat' first
    | with_reducible exact h | with_reducible apply Kept.next | with_reducible apply cvCommand_kept
    | with_reducible apply setpwdDo_kept

theorem setLast_kept (a1) {s : State} (h : Kept c q m o s) :
    Kept c q m o (setLast a1 s) := by
  unfold setLast
  try dsimp only
  repeat' first
    | with_reducible exact h | with_reducible apply setNv_kept | with_reducible assumption | exact id | rfl

theorem clearstageDo_kept (a1) {s : State} (h : Kept c q m o s) :
    Kept c q m o (clearstageDo a1 s) := by
  unfold clearstageDo
  try dsimp only
  repeat' first
    | with_reducible exact h | with_reducible apply setLast_kept | with_reducible apply access_kept
    | with_reducible apply setNv_kept | with_reducible assumption | exact id | rfl | exact fun _ => rfl | split

theorem execClearstage_kept (a1) (a2) {s : State} (h : Kept c q m o s) :
    KeptR c q m o (execClearstage a1 a2 s) := by
  unfold execClearstage
  try dsimp only
  repeat' first
    | with_reducible exact h | with_reducible apply Kept.next | with_reducible apply cvCommand_kept
    | with_reducible apply clearstageDo_kept

theorem execClearstageDone_kept {s : State} (h : Kept c q m o s) : KeptR c q m o (execClearstageDone s) :=
  Kept.next (ite_kept h (h.nvMem (memErase_wf _ _ (memErase_wf _ _ h.mems.1))))

theorem chunkOpen_kept (a1) {s : State} (h : Kept c q m o s) :
    Kept c q m o (chunkOpen a1 s) := by
  unfold chunkOpen
  try dsimp only
  repeat' first
    | with_reducible exact h | with_reducible apply setNv_kept | with_reducible assumption | exact id | rfl | exact fun _ => rfl
    | split | (with_reducible refine Kept.put ?_ rfl rfl rfl rfl rfl rfl rfl rfl rfl id id)

theorem execChunkOpen_kept (a1) (a2) {s : State} (h : Kept c q m o s) :
    KeptR c q m o (execChunkOpen a1 a2 s) := by
  unfold execChunkOpen
  try dsimp only
  repeat' first
    | with_reducible exact h | with_reducible apply Kept.next | with_reducible apply portWrite_kept
    | with_reducible apply chunkOpen_kept

theorem chunkWord_kept (a1) (a2) {s : State} (h : Kept c q m o s) :
    Kept c q m o (chunkWord a1 a2 s) := by
  unfold chunkWord
  try dsimp only
  repeat' first
    | with_reducible exact h | with_reducible apply setNv_kept | with_reducible assumption | exact id | rfl | exact fun _ => rfl
    | split | (with_reducible refine Kept.put ?_ rfl rfl rfl rfl rfl rfl rfl rfl rfl id id)

theorem execChunkData_kept (a1) (a2) {s : State} (h : Kept c q m o s) :
    KeptR c q m o (execChunkData a1 a2 s) := by
  unfold execChunkData
  try dsimp only
  repeat' first
    | with_reducible exact h | with_reducible apply Kept.next | with_reducible apply portWrite_kept
    | with_reducible apply chunkWord_kept

theorem chunkStore_kept {s : State} (h : Kept c q m o s) : Kept c q m o (chunkStore s) :=
  ite_kept (h.nvMem (memWriteList_wf _ _ h.mems.1)) (h.nvMem (memWriteList_wf _ _ h.mems.1))

theorem mixNote_kept {s : State} (h : Kept c q m o s) :
    Kept c q m o (mixNote s) := by
  unfold mixNote
  try dsimp only
  repeat' first
    | with_reducible exact h | with_reducible assumption | exact id | rfl | exact fun _ => rfl | split
    | (with_reducible refine Kept.put ?_ rfl rfl rfl rfl rfl rfl rfl rfl rfl id id)

theorem chunkEnd_kept (a1) (a2) (a3) {s : State} (h : Kept c q m o s) :
    Kept c q m o (chunkEnd a1 a2 a3 s) := by
  unfold chunkEnd
  try dsimp only
  repeat' first
    | with_reducible exact h | with_reducible apply setLast_kept | with_reducible apply chunkStore_kept
    | with_reducible apply setNv_kept | with_reducible apply mixNote_kept | with_reducible assumption | exact id | rfl
    | exact fun _ => rfl | split

theorem execChunkComplete_kept (a1) (a2) (a3) {s : State} (h : Kept c q m o s) :
    KeptR c q m o (execChunkComplete a1 a2 a3 s) := by
  unfold execChunkComplete
  try dsimp only
  repeat' first
    | with_reducible exact h | with_reducible apply Kept.next | with_reducible apply portWrite_kept
    | with_reducible apply chunkEnd_kept

end Sys2Proof.Machine
end

