-- ==== Sys2Proof/Laws/KeptCommit.lean ====
section
/-! SUPPORT. The operations of Machine/Commit.lean keep what Kept says. -/

namespace Sys2Proof.Machine

open Sys2Proof

variable {c : Image} {q : List Instr} {m : Mode} {o : Bool}

theorem commitNext_kept (a1) {s : State} (h : Kept c q m o s) :
    Kept c q m o (commitNext a1 s) := by
  unfold commitNext
  try dsimp only
  repeat' first
    | with_reducible exact h | with_reducible apply setNv_kept | with_reducible assumption | exact id | rfl

theorem commitCheck_kept (a1) (a2) {s : State} (h : Kept c q m o s) :
    Kept c q m o (commitCheck a1 a2 s) := by
  unfold commitCheck
  try dsimp only
  repeat' first
    | with_reducible exact h | with_reducible apply commitNext_kept | with_reducible apply commitEnd_kept
    | with_reducible assumption | exact id | rfl | exact fun _ => rfl | split

theorem commitProgram_kept (a1) (a2) {s : State} (h : Kept c q m o s) :
    Kept c q m o (commitProgram a1 a2 s) := by
  unfold commitProgram
  try dsimp only
  repeat' first
    | with_reducible exact h | with_reducible apply commitCheck_kept

theorem commitLog_kept (a1) (a2) {s : State} (h : Kept c q m o s) : Kept c q m o (commitLog a1 a2 s) := by
  have k : Kept c q m o (if a1.f.entryOk then s else retireStart true s.nv.clog.cur false false s) :=
    ite_kept h (retireStart_kept _ _ _ _ h)
  unfold commitLog
  dsimp only
  generalize (if a1.f.entryOk then s else retireStart true s.nv.clog.cur false false s) = s at k ⊢
  split
  · exact setNv_kept _ k rfl
  · split
    · exact commitEnd_kept _ _ _ _ _ _ k
    · exact commitNext_kept _ ((Kept.of ‹_› (clogWrite_kept _ _ k)).put rfl rfl rfl rfl rfl rfl rfl rfl rfl id id)

theorem commitBanks_kept (a1) (a2) {s : State} (h : Kept c q m o s) :
    Kept c q m o (commitBanks a1 a2 s) := by
  unfold commitBanks
  try dsimp only
  repeat' first
    | with_reducible exact h | with_reducible apply commitNext_kept | with_reducible apply setNv_kept
    | with_reducible apply setVault_kept | with_reducible apply vaultDead_kept | with_reducible apply commitEnd_kept
    | with_reducible assumption | exact id | rfl | exact fun _ => rfl | exact vaultStored_mem _ | split

theorem commitFinish_kept (a1) {s : State} (h : Kept c q m o s) :
    Kept c q m o (commitFinish a1 s) := by
  unfold commitFinish
  try dsimp only
  repeat' first
    | with_reducible exact h | with_reducible apply commitEnd_kept | with_reducible apply setNv_kept | with_reducible assumption
    | exact id | rfl

theorem commitStep_kept (a1) {s : State} (h : Kept c q m o s) :
    Kept c q m o (commitStep a1 s) := by
  unfold commitStep
  try dsimp only
  repeat' first
    | with_reducible exact h | with_reducible apply commitCheck_kept | with_reducible apply commitProgram_kept
    | with_reducible apply commitLog_kept | with_reducible apply commitBanks_kept | with_reducible apply commitFinish_kept
    | with_reducible assumption | exact id | rfl | exact fun _ => rfl | split

theorem commitTick_kept {s : State} (h : Kept c q m o s) :
    Kept c q m o (commitTick s) := by
  unfold commitTick
  try dsimp only
  repeat' first
    | with_reducible exact h | with_reducible apply commitStep_kept | (with_reducible apply foldl_kept; intro _ _ _)
    | with_reducible assumption | exact id | rfl | exact fun _ => rfl | split

theorem commitDo_kept (a1) (a2) {s : State} (h : Kept c q m o s) :
    Kept c q m o (commitDo a1 a2 s) := by
  unfold commitDo
  try dsimp only
  repeat' first
    | with_reducible exact h | with_reducible apply commitRecord_kept | with_reducible apply commitEnd_kept
    | with_reducible apply setResult_kept | with_reducible apply setNv_kept | with_reducible assumption | exact id | rfl
    | exact fun _ => rfl | split

theorem execCommitImage_kept (a1) (a2) (a3) {s : State} (h : Kept c q m o s) :
    KeptR c q m o (execCommitImage a1 a2 a3 s) := by
  unfold execCommitImage
  try dsimp only
  repeat' first
    | with_reducible exact h | with_reducible apply Kept.next | with_reducible apply cvCommand_kept
    | with_reducible apply commitDo_kept

end Sys2Proof.Machine
end

