-- ==== Sys2Proof/Laws/KeptBurnish.lean ====
section
/-! SUPPORT. The operations of Machine/Burnish.lean keep what Kept says. -/

namespace Sys2Proof.Machine

open Sys2Proof

variable {c : Image} {q : List Instr} {m : Mode} {o : Bool}

theorem setBurn_kept (a1) (a2) {s : State} (h : Kept c q m o s) :
    Kept c q m o (setBurn a1 a2 s) := by
  unfold setBurn
  try dsimp only
  repeat' first
    | with_reducible exact h | with_reducible apply setSt_kept

theorem burnNext_kept (a1) {s : State} (h : Kept c q m o s) :
    Kept c q m o (burnNext a1 s) := by
  unfold burnNext
  try dsimp only
  repeat' first
    | with_reducible exact h | with_reducible apply setBurn_kept

theorem sramUnc_kept (a1) {s : State} (h : Kept c q m o s) :
    Kept c q m o (sramUnc a1 s) := by
  unfold sramUnc
  try dsimp only
  repeat' first
    | with_reducible exact h | with_reducible apply eccUncorrectable_kept | with_reducible apply refreshStart_kept
    | with_reducible apply damaged_kept | with_reducible apply setRing_kept | with_reducible assumption | exact id | rfl
    | exact fun _ => rfl | split

theorem cantleUnc_kept (a1) {s : State} (h : Kept c q m o s) :
    Kept c q m o (cantleUnc a1 s) := by
  unfold cantleUnc
  try dsimp only
  repeat' first
    | with_reducible exact h | with_reducible apply eccUncorrectable_kept | with_reducible apply rewriteImem_kept
    | with_reducible assumption | exact id | rfl | exact fun _ => rfl | split

theorem burnWord_kept (a1) (a2) (a3) {s : State} (h : Kept c q m o s) :
    Kept c q m o (burnWord a1 a2 a3 s) := by
  unfold burnWord
  try dsimp only
  repeat' first
    | with_reducible exact h | with_reducible apply eccCorrected_kept | with_reducible apply stitchRow_kept
    | with_reducible apply sramUnc_kept | with_reducible apply cantleUnc_kept | with_reducible assumption | exact id | rfl
    | exact fun _ => rfl | split

theorem execBurnishRead_kept (a1) (a2) (a3) {s : State} (h : Kept c q m o s) :
    KeptR c q m o (execBurnishRead a1 a2 a3 s) := by
  unfold execBurnishRead
  try dsimp only
  repeat' first
    | with_reducible exact h | with_reducible apply Kept.next | with_reducible apply reach_kept
    | with_reducible apply burnNext_kept | with_reducible apply burnWord_kept | with_reducible assumption | exact id | rfl
    | exact fun _ => rfl | split | (with_reducible refine Kept.put ?_ rfl rfl rfl rfl rfl rfl rfl rfl rfl id id)

theorem execBurnishOverrun_kept (a1) {s : State} (h : Kept c q m o s) :
    KeptR c q m o (execBurnishOverrun a1 s) := by
  unfold execBurnishOverrun
  try dsimp only
  repeat' first
    | with_reducible exact h | with_reducible apply Kept.next | with_reducible apply setSt_kept
    | with_reducible apply setBurn_kept | with_reducible apply raiseRec_kept | with_reducible assumption | exact id | rfl
    | exact fun _ => rfl | split | (with_reducible refine Kept.put ?_ rfl rfl rfl rfl rfl rfl rfl rfl rfl id id)

theorem nvmLow_kept (a1) {s : State} (h : Kept c q m o s) :
    Kept c q m o (nvmLow a1 s) := by
  unfold nvmLow
  try dsimp only
  repeat' first
    | with_reducible exact h | with_reducible apply raiseRec_kept | with_reducible apply setSt_kept | with_reducible assumption
    | exact id | rfl | exact fun _ => rfl | split

theorem sectorNoSpare_kept (a1) {s : State} (h : Kept c q m o s) :
    Kept c q m o (sectorNoSpare a1 s) := by
  unfold sectorNoSpare
  try dsimp only
  repeat' first
    | with_reducible exact h | with_reducible apply raiseRec_kept | with_reducible apply setNv_kept | with_reducible assumption
    | exact id | rfl | exact fun _ => rfl | split

theorem stitchSector_kept (a1) (a2) {s : State} (h : Kept c q m o s) :
    Kept c q m o (stitchSector a1 a2 s) := by
  unfold stitchSector
  try dsimp only
  repeat' first
    | with_reducible exact h | with_reducible apply sectorNoSpare_kept | with_reducible apply setSt_kept
    | with_reducible apply raise_kept | with_reducible apply nvmLow_kept | with_reducible apply recordStitch_kept
    | with_reducible assumption | exact id | rfl | exact fun _ => rfl | split

theorem stagingFailed_kept (a1) {s : State} (h : Kept c q m o s) :
    Kept c q m o (stagingFailed a1 s) := by
  unfold stagingFailed
  try dsimp only
  repeat' first
    | with_reducible exact h | with_reducible apply eventRecord_kept | with_reducible apply setNv_kept
    | with_reducible assumption | exact id | rfl | exact fun _ => rfl | split

theorem sectorBad_kept (a1) (a2) {s : State} (h : Kept c q m o s) :
    Kept c q m o (sectorBad a1 a2 s) := by
  unfold sectorBad
  try dsimp only
  repeat' first
    | with_reducible exact h | with_reducible apply raise_kept | with_reducible apply retireStart_kept
    | with_reducible apply setCopy_kept | with_reducible apply enterSafe_kept | with_reducible apply stitchSector_kept
    | with_reducible apply stagingFailed_kept | with_reducible assumption | exact id | rfl | exact fun _ => rfl | split
    | (with_reducible refine Kept.put ?_ rfl rfl rfl rfl rfl rfl rfl rfl rfl id id)

theorem verifyNext_kept (a1) {s : State} (h : Kept c q m o s) :
    Kept c q m o (verifyNext a1 s) := by
  unfold verifyNext
  try dsimp only
  repeat' first
    | with_reducible exact h | with_reducible apply setSt_kept

theorem execReadVerify_kept (a1) {s : State} (h : Kept c q m o s) :
    KeptR c q m o (execReadVerify a1 s) := by
  unfold execReadVerify
  try dsimp only
  repeat' first
    | with_reducible exact h | with_reducible apply Kept.next | with_reducible apply setSt_kept
    | with_reducible apply verifyNext_kept | with_reducible apply sectorBad_kept | with_reducible assumption | exact id | rfl
    | exact fun _ => rfl | split

theorem verifyItem_kept {s : State} (h : Kept c q m o s) :
    Kept c q m o (verifyItem s).2 := by
  unfold verifyItem
  try dsimp only
  repeat' first
    | with_reducible exact h | with_reducible apply draw_kept | with_reducible assumption | exact id | rfl | exact fun _ => rfl
    | split

theorem telemSet_kept (a1) (a2) {s : State} (h : Kept c q m o s) :
    Kept c q m o (telemSet a1 a2 s).2 := by
  unfold telemSet
  try dsimp only
  repeat' first
    | with_reducible exact h | with_reducible apply verifyItem_kept

theorem tempStep_kept (a1) {s : State} (h : Kept c q m o s) :
    Kept c q m o (tempStep a1 s) := by
  unfold tempStep
  try dsimp only
  repeat' first
    | with_reducible exact h | with_reducible apply raiseRec_kept | with_reducible apply setSt_kept
    | with_reducible apply raise_kept | with_reducible assumption | exact id | rfl | exact fun _ => rfl | split

theorem supplyStep_kept (a1) {s : State} (a2) (h : Kept c q m o s) :
    Kept c q m o (supplyStep a1 s a2) := by
  unfold supplyStep
  try dsimp only
  repeat' first
    | with_reducible exact h | with_reducible apply setSt_kept | with_reducible apply raiseRec_kept
    | with_reducible apply raise_kept | with_reducible assumption | exact id | rfl | exact fun _ => rfl | split

theorem extremes_kept (a1) {s : State} (h : Kept c q m o s) :
    Kept c q m o (extremes a1 s) := by
  unfold extremes
  try dsimp only
  repeat' first
    | with_reducible exact h | with_reducible apply setSt_kept

theorem execTelemetrySample_kept (a1) (a2) {s : State} (h : Kept c q m o s) :
    KeptR c q m o (execTelemetrySample a1 a2 s) := by
  unfold execTelemetrySample
  try dsimp only
  repeat' first
    | with_reducible exact h | with_reducible apply Kept.next | with_reducible apply reach_kept
    | with_reducible apply extremes_kept | with_reducible apply supplyStep_kept | with_reducible apply tempStep_kept
    | with_reducible apply telemSet_kept | with_reducible apply setSt_kept | (with_reducible apply foldl_kept; intro _ _ _)
    | with_reducible assumption | exact id | rfl | exact fun _ => rfl | split
    | (with_reducible refine Kept.put ?_ rfl rfl rfl rfl rfl rfl rfl rfl rfl id id)

theorem telemSelect_kept (a1) {s : State} (h : Kept c q m o s) :
    Kept c q m o (telemSelect a1 s) := by
  unfold telemSelect
  try dsimp only
  repeat' first
    | with_reducible exact h | with_reducible apply setSt_kept

theorem execTelemetrySelect_kept (a1) (a2) {s : State} (h : Kept c q m o s) :
    KeptR c q m o (execTelemetrySelect a1 a2 s) := by
  unfold execTelemetrySelect
  try dsimp only
  repeat' first
    | with_reducible exact h | with_reducible apply Kept.next | with_reducible apply portWrite_kept
    | with_reducible apply telemSelect_kept

theorem telemRead_kept (a1) {s : State} (h : Kept c q m o s) :
    Kept c q m o (telemRead a1 s) := by
  unfold telemRead
  try dsimp only
  repeat' first
    | with_reducible exact h | with_reducible apply portData_kept | with_reducible apply setSt_kept | with_reducible assumption
    | exact id | rfl | exact fun _ => rfl | split

theorem execTelemetryRead_kept (a1) (a2) {s : State} (h : Kept c q m o s) :
    KeptR c q m o (execTelemetryRead a1 s a2) :=
  Kept.next (readCycle_kept _ _ _ (fun _ k => telemRead_kept _ k) h)

end Sys2Proof.Machine
end

