-- ==== Sys2Proof/Laws/KeptResets.lean ====
section
/-! SUPPORT. The operations of Machine/Resets.lean keep what Kept says. -/

namespace Sys2Proof.Machine

open Sys2Proof

variable {c : Image} {q : List Instr} {m : Mode} {o : Bool}

theorem setSys_kept (a1) {s : State} (h : Kept c q m o s) (k1 : (a1 s.sys).mode = s.sys.mode) (k2 : (a1 s.sys).stop = s.sys.stop)
    (k3 : (a1 s.sys).pendMode = s.sys.pendMode) (k4 : (a1 s.sys).safeHi = s.sys.safeHi) (k5 : (a1 s.sys).lifeHi = s.sys.lifeHi) :
    Kept c q m o (setSys a1 s) :=
  h.put k1 k2 k3 k4 k5 rfl rfl rfl rfl id id

/-- A stop sequence or a waiting mode change is noted where one belongs. -/
theorem setSys_plans (a1) {s : State} (h : Kept c q m o s) (k1 : (a1 s.sys).mode = s.sys.mode)
    (k2 : (a1 s.sys).stop.isSome = true → inService s = true) (k3 : (a1 s.sys).pendMode.isSome = true → s.sys.mode = .prove)
    (k4 : (a1 s.sys).safeHi = s.sys.safeHi) (k5 : (a1 s.sys).lifeHi = s.sys.lifeHi) : Kept c q m o (setSys a1 s) := by
  refine ⟨h.image, h.queue, by simpa [setSys, k1] using h.mode, h.mems, fun e => ?_, ?_, ?_⟩
  · rcases h.off e with a | ⟨d1, d2, d3, d4⟩
    · exact .inl (by simpa [setSys, inService, k1] using a)
    · exact .inr ⟨d1, d2, by simpa [setSys, k4] using d3, by simpa [setSys, k5] using d4⟩
  · simpa [setSys, inService, k1] using k2
  · simpa [setSys, k1] using k3

theorem entryUndo_kept {s : State} (a1) (h : Kept c q m o s) :
    Kept c q m o (entryUndo s a1) := by
  unfold entryUndo
  try dsimp only
  repeat' first
    | with_reducible exact h | with_reducible apply setSt_kept | with_reducible apply setPart_kept | with_reducible assumption
    | exact id | rfl | exact fun _ => rfl | split

theorem jobUndo_kept {s : State} (a1) (h : Kept c q m o s) :
    Kept c q m o (jobUndo s a1) := by
  unfold jobUndo
  try dsimp only
  repeat' first
    | with_reducible exact h | with_reducible apply setSt_kept

theorem mapCut_kept (a1) {s : State} (h : Kept c q m o s) :
    Kept c q m o (mapCut a1 s) := by
  unfold mapCut
  try dsimp only
  repeat' first
    | with_reducible exact h | with_reducible apply setSt_kept | with_reducible apply entryUndo_kept
    | (with_reducible apply foldl_kept; intro _ _ _) | with_reducible assumption | exact id | rfl | exact fun _ => rfl
    | split | (with_reducible refine Kept.put ?_ rfl rfl rfl rfl rfl rfl rfl rfl rfl id id)

theorem mapKept_kept {s : State} (h : Kept c q m o s) :
    Kept c q m o (mapKept s) := by
  unfold mapKept
  try dsimp only
  repeat' first
    | with_reducible exact h | with_reducible apply mapCut_kept | with_reducible apply setSt_kept
    | with_reducible apply jobUndo_kept | (with_reducible apply foldl_kept; intro _ _ _) | with_reducible assumption
    | exact id | rfl | exact fun _ => rfl | split
    | (with_reducible refine Kept.put ?_ rfl rfl rfl rfl rfl rfl rfl rfl rfl id id)

theorem mapLanes_kept {s : State} (h : Kept c q m o s) :
    Kept c q m o (mapLanes s) := by
  unfold mapLanes
  try dsimp only
  repeat' first
    | with_reducible exact h | (with_reducible apply foldl_kept; intro _ _ _) | with_reducible assumption | exact id | rfl
    | exact fun _ => rfl | split | (with_reducible refine Kept.put ?_ rfl rfl rfl rfl rfl rfl rfl rfl rfl id id)

theorem enterReset_kept (a1) (a2) {s : State} (h : Kept c q m o s) : Kept c q m o (enterReset a1 a2 s) := by
  unfold enterReset
  dsimp only
  split
  · exact setSys_kept _ h rfl rfl rfl rfl rfl
  · have k := mapKept_kept h
    refine ⟨.inr rfl, k.queue, moves_reset m, ⟨k.mems.1, rfl, rfl, rfl⟩, fun _ => .inr ⟨fun b => ?_, ⟨rfl, rfl, fun i => ?_⟩, rfl, rfl⟩,
      ?_, ?_⟩
    · simp
    · simp [torqueOn]
    · simp
    · simp

theorem execPowerOnReset_kept {s : State} (h : Kept c q m o s) :
    KeptR c q m o (execPowerOnReset s) := by
  unfold execPowerOnReset
  try dsimp only
  repeat' first
    | with_reducible exact h | with_reducible apply Kept.next | with_reducible apply enterReset_kept

theorem execBrownOut_kept (a1) (a2) (a3) {s : State} (h : Kept c q m o s) :
    KeptR c q m o (execBrownOut a1 a2 a3 s) := by
  unfold execBrownOut
  try dsimp only
  repeat' first
    | with_reducible exact h | with_reducible apply Kept.next | with_reducible apply enterReset_kept
    | with_reducible apply drawBit_kept | with_reducible assumption | exact id | rfl | exact fun _ => rfl | split

theorem symbolBad_kept {s : State} (h : Kept c q m o s) :
    Kept c q m o (symbolBad s) := by
  unfold symbolBad
  try dsimp only
  repeat' first
    | with_reducible exact h | with_reducible apply setDb_kept

theorem symbolBit_kept (a1) {s : State} (h : Kept c q m o s) :
    Kept c q m o (symbolBit a1 s) := by
  unfold symbolBit
  try dsimp only
  repeat' first
    | with_reducible exact h | with_reducible apply setDb_kept

theorem symbol_kept (a1) {s : State} (h : Kept c q m o s) :
    Kept c q m o (symbol a1 s) := by
  unfold symbol
  try dsimp only
  repeat' first
    | with_reducible exact h | with_reducible apply drawBit_kept | with_reducible apply symbolBit_kept
    | with_reducible apply symbolBad_kept | with_reducible assumption | exact id | rfl | exact fun _ => rfl | split

theorem pulse_kept (a1) (a2) {s : State} (h : Kept c q m o s) :
    Kept c q m o (pulse a1 a2 s) := by
  unfold pulse
  try dsimp only
  repeat' first
    | with_reducible exact h | with_reducible apply symbol_kept | with_reducible apply setSys_kept
    | with_reducible apply enterReset_kept | with_reducible assumption | exact id | rfl | exact fun _ => rfl | split

theorem execRstdLowPulse_kept (a1) {s : State} (h : Kept c q m o s) :
    KeptR c q m o (execRstdLowPulse a1 s) := by
  unfold execRstdLowPulse
  try dsimp only
  repeat' first
    | with_reducible exact h | with_reducible apply Kept.next | with_reducible apply pulse_kept
    | with_reducible apply drawBit_kept | with_reducible assumption | exact id | rfl | exact fun _ => rfl | split

theorem resetEnds_kept (a1) {s : State} (h : Kept c q m o s) (k : s.sys.mode = .reset) (k' : m = .reset) :
    Kept c q m o (resetEnds a1 s) := by
  obtain ⟨a1, a2, _, a4, a5, a6, a7⟩ := h
  refine usbConnect_kept (setNv_kept _ ⟨a1, a2, by subst k'; rfl, a4, fun e => ?_, ?_, ?_⟩ rfl)
  · rcases a5 e with b | b
    · simp [inService, k] at b
    · exact .inr b
  · intro e
    have := a6 e
    simp [inService, k] at this
  · intro e
    have := a7 e
    simp [k] at this

theorem execResetExit_kept (a1) (a2) {s : State} (h : Kept c q m o s) (k : m = s.sys.mode) :
    KeptR c q m o (execResetExit a1 a2 s) := by
  unfold execResetExit
  split
  · exact h
  · rename_i e
    have e : s.sys.mode = .reset := by simp at e; exact e.1
    exact (resetEnds_kept a1 h e (k.trans e)).put rfl rfl rfl rfl rfl rfl rfl rfl rfl id id

theorem execPllLockTimeout_kept (a1) {s : State} (h : Kept c q m o s) (k : m = s.sys.mode) :
    KeptR c q m o (execPllLockTimeout a1 s) := by
  unfold execPllLockTimeout
  split
  · exact h
  · rename_i e
    have e : s.sys.mode = .reset := by simpa using e
    refine enterSafe_kept _ _ (setSys_kept _ (resetEnds_kept a1 (advance_kept _ ?_) e (k.trans e)) rfl rfl rfl rfl rfl)
    exact h.put rfl rfl rfl rfl rfl rfl rfl rfl rfl id id

theorem reqReject_kept {s : State} (h : Kept c q m o s) :
    Kept c q m o (reqReject s) := by
  unfold reqReject
  try dsimp only
  repeat' first
    | with_reducible exact h | with_reducible apply setSys_kept | with_reducible assumption | exact id | rfl

theorem resetRequest_kept {s : State} (h : Kept c q m o s) : Kept c q m o (resetRequest s) := by
  have key : inService s = true → Kept c q m o
      (if s.nv.login[0].on && s.sys.stop.isNone then setSys (fun y => { y with stop := some .resetHost }) s else reqReject s) :=
    fun e => ite_kept (setSys_plans _ h rfl (fun _ => e) h.plans.2 rfl rfl) (reqReject_kept h)
  unfold resetRequest
  split
  · exact h
  · exact reqReject_kept h
  · exact enterReset_kept _ _ h
  · exact enterReset_kept _ _ h
  · exact key (by simp [inService, *])
  · exact key (by simp [inService, *])

theorem resetKey_kept (a1) {s : State} (h : Kept c q m o s) :
    Kept c q m o (resetKey a1 s) := by
  unfold resetKey
  try dsimp only
  repeat' first
    | with_reducible exact h | with_reducible apply setSys_kept | with_reducible apply resetRequest_kept
    | with_reducible assumption | exact id | rfl | exact fun _ => rfl | split

theorem execHostResetRequest_kept (a1) (a2) {s : State} (h : Kept c q m o s) :
    KeptR c q m o (execHostResetRequest a1 a2 s) := by
  unfold execHostResetRequest
  try dsimp only
  repeat' first
    | with_reducible exact h | with_reducible apply Kept.next | with_reducible apply portWrite_kept
    | with_reducible apply resetKey_kept | (intro _ _; try dsimp only) | with_reducible assumption | exact id | rfl
    | exact fun _ => rfl | split

theorem configureAsk_kept {s : State} (h : Kept c q m o s) : Kept c q m o (configureAsk s) := by
  unfold configureAsk
  split
  · rename_i e
    exact setSys_plans _ h rfl (fun _ => by simp at e; exact e.1.1) h.plans.2 rfl rfl
  · exact reqReject_kept h

theorem execConfigureRequest_kept (a1) {s : State} (h : Kept c q m o s) :
    KeptR c q m o (execConfigureRequest a1 s) := by
  unfold execConfigureRequest
  try dsimp only
  repeat' first
    | with_reducible exact h | with_reducible apply Kept.next | with_reducible apply portWrite_kept
    | with_reducible apply configureAsk_kept | (intro _ _; try dsimp only) | with_reducible assumption | exact id | rfl
    | exact fun _ => rfl | split

theorem restartAsk_kept {s : State} (h : Kept c q m o s) :
    Kept c q m o (restartAsk s) := by
  unfold restartAsk
  try dsimp only
  repeat' first
    | with_reducible exact h | with_reducible apply enterReset_kept | with_reducible apply reqReject_kept
    | with_reducible assumption | exact id | rfl | exact fun _ => rfl | split

theorem execRestartRequest_kept (a1) {s : State} (h : Kept c q m o s) :
    KeptR c q m o (execRestartRequest a1 s) := by
  unfold execRestartRequest
  try dsimp only
  repeat' first
    | with_reducible exact h | with_reducible apply Kept.next | with_reducible apply portWrite_kept
    | with_reducible apply restartAsk_kept | (intro _ _; try dsimp only) | with_reducible assumption | exact id | rfl
    | exact fun _ => rfl | split

end Sys2Proof.Machine
end

