-- ==== Sys2Proof/Laws/KeptProve.lean ====
section
/-! SUPPORT. The operations of Machine/Prove.lean keep what Kept says. -/

namespace Sys2Proof.Machine

open Sys2Proof

variable {c : Image} {q : List Instr} {m : Mode} {o : Bool}

theorem proveRecord_kept (a1) {s : State} (h : Kept c q m o s) :
    Kept c q m o (proveRecord a1 s) := by
  unfold proveRecord
  try dsimp only
  repeat' first
    | with_reducible exact h | with_reducible apply record_kept

@[simp] theorem advance_keeps_sys (d : Nat) (s : State) : (advance d s).sys = s.sys := rfl

theorem proveStep_kept (a1) (a2) (a3) (a4 : State → State) {s : State}
    (k : ∀ y, y.sys.mode = .prove → Kept c q m o y → Kept c q m o (a4 y)) (h : Kept c q m o s) :
    Kept c q m o (proveStep a1 a2 a3 a4 s) := by
  unfold proveStep
  split
  · exact h
  · rename_i e
    have e : s.sys.mode = .prove := by simp at e; exact e.1.1
    have := k (advance (min (a1.ends.getD (a3 - 1) (proveLimit a3)) (proveLimit a3) - s.tstamp.toNat)
      (setSys (fun y => { y with proveStep := BitVec.ofNat 4 a3 }) s)) e
      (advance_kept _ (setSys_kept _ h rfl rfl rfl rfl rfl))
    exact ite_kept (setSys_kept _ this rfl rfl rfl rfl rfl) this

theorem proveFails_kept (a1) (a2) {s : State} (h : Kept c q m o s) :
    Kept c q m o (proveFails a1 a2 s) := by
  unfold proveFails
  try dsimp only
  repeat' first
    | with_reducible exact h | with_reducible apply setSys_kept | with_reducible apply enterSafe_kept
    | with_reducible apply proveRecord_kept | with_reducible assumption | exact id | rfl

theorem proveSurvives_kept (a1) (a2) {s : State} (h : Kept c q m o s) :
    Kept c q m o (proveSurvives a1 a2 s) := by
  unfold proveSurvives
  try dsimp only
  repeat' first
    | with_reducible exact h | with_reducible apply setSys_kept | with_reducible assumption | exact id | rfl
    | exact fun _ => rfl | split | (with_reducible refine Kept.put ?_ rfl rfl rfl rfl rfl rfl rfl rfl rfl id id)

theorem proveClock_kept (a1) {s : State} (h : Kept c q m o s) :
    Kept c q m o (proveClock a1 s) := by
  unfold proveClock
  try dsimp only
  repeat' first
    | with_reducible exact h | with_reducible apply setSys_kept | with_reducible apply enterSafe_kept
    | with_reducible apply raise_kept | with_reducible assumption | exact id | rfl | exact fun _ => rfl | split

theorem mapsEqual_kept {s : State} (h : Kept c q m o s) :
    Kept c q m o (mapsEqual s) := by
  unfold mapsEqual
  try dsimp only
  repeat' first
    | with_reducible exact h | with_reducible apply setSt_kept

theorem mapApply_kept (a1) {s : State} (h : Kept c q m o s) :
    Kept c q m o (mapApply a1 s) := by
  unfold mapApply
  try dsimp only
  repeat' first
    | with_reducible exact h | with_reducible apply mapLanes_kept | with_reducible apply mapCut_kept
    | with_reducible apply setSt_kept | with_reducible apply mapsEqual_kept | with_reducible assumption | exact id | rfl
    | exact fun _ => rfl | split | (with_reducible refine Kept.put ?_ rfl rfl rfl rfl rfl rfl rfl rfl rfl id id)

theorem mapFrom_kept (a1) (a2) {s : State} (h : Kept c q m o s) :
    Kept c q m o (mapFrom a1 a2 s) := by
  unfold mapFrom
  try dsimp only
  repeat' first
    | with_reducible exact h | with_reducible apply mapApply_kept | with_reducible apply raiseRec_kept
    | with_reducible assumption | exact id | rfl | exact fun _ => rfl | split

theorem proveMaps_kept (a1) {s : State} (h : Kept c q m o s) :
    Kept c q m o (proveMaps a1 s) := by
  unfold proveMaps
  try dsimp only
  repeat' first
    | with_reducible exact h | with_reducible apply mapApply_kept | with_reducible apply mapFrom_kept
    | with_reducible apply draw_kept | with_reducible apply setSt_kept | with_reducible apply proveFails_kept
    | with_reducible apply raise_kept | with_reducible assumption | exact id | rfl | exact fun _ => rfl | split
    | (with_reducible refine Kept.put ?_ rfl rfl rfl rfl rfl rfl rfl rfl rfl id id)

theorem proveSpare_kept (a1) (a2) (a3 : Nat) {s : State} (h : Kept c q m o s) : KeptO c q m o (proveSpare a1 a2 a3 s) := by
  induction a3 generalizing s with
  | zero =>
    unfold proveSpare
    split
    · trivial
    · exact recordStitch_kept _ _ _ _ _ (raise_kept _ _ (lowCheck_kept _ _ (useSpare_kept _ h)))
  | succ n ih =>
    unfold proveSpare
    split
    · trivial
    · exact ih (recordStitch_kept _ _ _ _ _ (raise_kept _ _ (lowCheck_kept _ _ (useSpare_kept _ h))))

theorem proveRow_kept {s : State} (a1) (h : Kept c q m o s) :
    Kept c q m o (proveRow s a1) := by
  unfold proveRow
  try dsimp only
  repeat' first
    | with_reducible exact h | with_reducible refine Kept.of ‹proveSpare _ _ _ _ = some _› ?_
    | with_reducible apply proveSpare_kept | with_reducible apply proveFails_kept | with_reducible apply raise_kept
    | with_reducible assumption | exact id | rfl | exact fun _ => rfl | split

theorem burnStart_kept {s : State} (h : Kept c q m o s) :
    Kept c q m o (burnStart s) := by
  unfold burnStart
  try dsimp only
  repeat' first
    | with_reducible exact h | with_reducible apply setSt_kept | with_reducible assumption | exact id | rfl
    | exact fun _ => rfl | split | (with_reducible refine Kept.put ?_ rfl rfl rfl rfl rfl rfl rfl rfl rfl id id)

theorem proveRows_kept (a1) {s : State} (h : Kept c q m o s) :
    Kept c q m o (proveRows a1 s) := by
  unfold proveRows
  try dsimp only
  repeat' first
    | with_reducible exact h | with_reducible apply proveFails_kept | with_reducible apply raise_kept
    | with_reducible apply burnStart_kept | with_reducible apply proveRow_kept
    | (with_reducible apply foldl_kept; intro _ _ _) | with_reducible assumption | exact id | rfl | exact fun _ => rfl
    | split

theorem cellAgain_kept {s : State} (a1) (h : Kept c q m o s) :
    Kept c q m o (cellAgain s a1) := by
  unfold cellAgain
  try dsimp only
  repeat' first
    | with_reducible exact h | with_reducible apply queueRec_kept | with_reducible apply setNv_kept
    | with_reducible assumption | exact id | rfl | exact fun _ => rfl | split
    | (with_reducible refine Kept.put ?_ rfl rfl rfl rfl rfl rfl rfl rfl rfl id id)

theorem cellsAgain_kept {s : State} (h : Kept c q m o s) :
    Kept c q m o (cellsAgain s) := by
  unfold cellsAgain
  try dsimp only
  repeat' first
    | with_reducible exact h | with_reducible apply record_kept | with_reducible apply unlogged_kept
    | with_reducible apply cellAgain_kept | (with_reducible apply foldl_kept; intro _ _ _) | with_reducible assumption
    | exact id | rfl | exact fun _ => rfl | split

theorem partBack_kept (a1) {s : State} (h : Kept c q m o s) :
    Kept c q m o (partBack a1 s) := by
  unfold partBack
  try dsimp only
  repeat' first
    | with_reducible exact h | with_reducible apply clearItem_kept | with_reducible apply raise_kept
    | with_reducible assumption | exact id | rfl | exact fun _ => rfl | split

theorem restoreParts_kept (a1) (a2) {s : State} (h : Kept c q m o s) :
    Kept c q m o (restoreParts a1 a2 s) := by
  unfold restoreParts
  try dsimp only
  repeat' first
    | with_reducible exact h | with_reducible apply setPart_kept | with_reducible apply cellsAgain_kept
    | with_reducible apply partBack_kept | with_reducible assumption | exact id | rfl | exact fun _ => rfl | split
    | (with_reducible refine Kept.put ?_ rfl rfl rfl rfl rfl rfl rfl rfl rfl id id)

theorem lossStands_kept (a1) {s : State} (h : Kept c q m o s) :
    Kept c q m o (lossStands a1 s) := by
  unfold lossStands
  try dsimp only
  repeat' first
    | with_reducible exact h | with_reducible apply setItem_kept | with_reducible apply setSys_kept | with_reducible assumption
    | exact id | rfl

theorem provePart_kept (a1) (a2) (a3) {s : State} (h : Kept c q m o s) :
    Kept c q m o (provePart a1 a2 a3 s) := by
  unfold provePart
  try dsimp only
  repeat' first
    | with_reducible exact h | with_reducible apply lossStands_kept | with_reducible apply lose_kept
    | with_reducible apply retireStart_kept | with_reducible assumption | exact id | rfl | exact fun _ => rfl | split

theorem proveNvm_kept (a1) {s : State} (h : Kept c q m o s) :
    Kept c q m o (proveNvm a1 s) := by
  unfold proveNvm
  try dsimp only
  repeat' first
    | with_reducible exact h | with_reducible apply setNv_kept | with_reducible apply restoreParts_kept
    | with_reducible apply provePart_kept | with_reducible apply setSys_kept | with_reducible apply proveSurvives_kept
    | with_reducible assumption | exact id | rfl | exact fun _ => rfl | split
    | (with_reducible refine Kept.put ?_ rfl rfl rfl rfl rfl rfl rfl rfl rfl id id)

theorem laneUnspared_kept (a1) (a2) (a3) {s : State} (h : Kept c q m o s) :
    Kept c q m o (laneUnspared a1 a2 a3 s) := by
  unfold laneUnspared
  try dsimp only
  repeat' first
    | with_reducible exact h | with_reducible apply laneFault_kept | with_reducible apply raiseFault_kept
    | with_reducible apply proveSurvives_kept | with_reducible assumption | exact id | rfl | exact fun _ => rfl | split

theorem proveHome_kept (a1) (a2) {s : State} (a3) (h : Kept c q m o s) :
    Kept c q m o (proveHome a1 a2 s a3) := by
  unfold proveHome
  try dsimp only
  repeat' first
    | with_reducible exact h | with_reducible apply laneProved_kept | with_reducible apply permanentStitch_kept
    | with_reducible apply laneUnspared_kept | with_reducible assumption | exact id | rfl | exact fun _ => rfl | split

theorem proveGroup_kept (a1) {s : State} (a2) (h : Kept c q m o s) :
    Kept c q m o (proveGroup a1 s a2) := by
  unfold proveGroup
  try dsimp only
  repeat' first
    | with_reducible exact h | with_reducible apply laneProved_kept | with_reducible apply faultSpare_kept
    | with_reducible apply laneUnspared_kept | with_reducible apply proveHome_kept
    | (with_reducible apply foldl_kept; intro _ _ _) | with_reducible assumption | exact id | rfl | exact fun _ => rfl | split

theorem proveLanes_kept (a1) {s : State} (h : Kept c q m o s) (k : s.cfg = c ∨ s.cfg = {}) : Kept c q m o (proveLanes a1 s) := by
  have key : ∀ i y, Kept i q m o y → Kept c q m o { (List.finRange 8).foldl (proveGroup a1) y with cfg := s.cfg } := by
    intro i y h1
    have h2 : Kept i q m o ((List.finRange 8).foldl (proveGroup a1) y) := foldl_kept (fun _ _ z => proveGroup_kept _ _ z) _ h1
    have h3 := h2.reimage s.cfg
    exact ⟨k, h3.queue, h3.mode, h3.mems, h3.off, h3.plans⟩
  unfold proveLanes
  dsimp only
  split
  · exact key _ _ (h.reimage _)
  · exact key _ _ h

theorem proveStage_kept (a1) (a2) {s : State} (a3) (h : Kept c q m o s) :
    Kept c q m o (proveStage a1 a2 s a3) := by
  unfold proveStage
  try dsimp only
  repeat' first
    | with_reducible exact h | with_reducible apply rbEvent_kept | with_reducible assumption | exact id | rfl
    | exact fun _ => rfl | split

theorem proveDoors_kept (a1) {s : State} (h : Kept c q m o s) :
    Kept c q m o (proveDoors a1 s) := by
  unfold proveDoors
  try dsimp only
  repeat' first
    | with_reducible exact h | with_reducible apply proveStage_kept | with_reducible apply sourceLatch_kept
    | with_reducible apply proveSurvives_kept | (with_reducible apply foldl_kept; intro _ _ _) | with_reducible assumption
    | exact id | rfl | exact fun _ => rfl | split
    | (with_reducible refine Kept.put ?_ rfl rfl rfl rfl rfl rfl rfl rfl rfl id id)
    | (with_reducible refine Kept.put ?_ rfl rfl rfl rfl rfl rfl rfl rfl rfl ?_ ?_)
    | (intro hb i; have hb := hb i; simp only [get_upd, get_mapv]; (repeat' split) <;> simp_all; done)

theorem proveUnit_kept (a1) {s : State} (a2) (h : Kept c q m o s) :
    Kept c q m o (proveUnit a1 s a2) := by
  unfold proveUnit
  try dsimp only
  repeat' first
    | with_reducible exact h | with_reducible apply raise_kept | with_reducible apply setCk_kept | with_reducible assumption
    | exact id | rfl | exact fun _ => rfl | split

theorem setCkTested_kept {s : State} (h : Kept c q m o s) : Kept c q m o (proveUnits.setCkTested s) :=
  h.put rfl rfl rfl rfl rfl rfl rfl rfl rfl id id

theorem proveUnits_kept (a1) {s : State} (h : Kept c q m o s) : Kept c q m o (proveUnits a1 s) := by
  unfold proveUnits
  have h1 : Kept c q m o ((List.finRange 8).foldl (proveUnit a1) s) := foldl_kept (fun _ _ z => proveUnit_kept _ _ z) _ h
  generalize (List.finRange 8).foldl (proveUnit a1) s = y at h1
  dsimp only
  split
  · exact setCkTested_kept h1
  · exact ite_kept (proveFails_kept _ _ h1) (setCkTested_kept (proveSurvives_kept _ _ h1))

theorem proveEnds_kept {s : State} (e : s.sys.mode = .prove) (h : Kept c q m o s) : Kept c q m o (proveEnds s) := by
  unfold proveEnds
  dsimp only
  apply proveRecord_kept
  exact setSys_plans _ h rfl h.plans.1 (fun _ => e) rfl rfl

theorem execProve_kept (a1) (a2) {s : State} (h : Kept c q m o s) : KeptR c q m o (execProve a1 a2 s) := by
  refine Kept.next (ite_kept h ?_)
  refine proveStep_kept _ _ _ _ (fun y e k => proveEnds_kept e k) ?_
  refine proveStep_kept _ _ _ _ (fun y e k => proveUnits_kept _ k) ?_
  refine proveStep_kept _ _ _ _ (fun y e k => proveDoors_kept _ k) ?_
  refine proveStep_kept _ _ _ _ (fun y e k => proveLanes_kept _ k k.image) ?_
  refine proveStep_kept _ _ _ _ (fun y e k => proveNvm_kept _ k) ?_
  refine proveStep_kept _ _ _ _ (fun y e k => proveRows_kept _ k) ?_
  refine proveStep_kept _ _ _ _ (fun y e k => ite_kept k (proveFails_kept _ _ k)) ?_
  refine proveStep_kept _ _ _ _ (fun y e k => proveMaps_kept _ k) ?_
  exact proveStep_kept _ _ _ _ (fun y e k => proveClock_kept _ k) h

theorem loadRecord_kept (a1) {s : State} (h : Kept c q m o s) :
    Kept c q m o (loadRecord a1 s) := by
  unfold loadRecord
  try dsimp only
  repeat' first
    | with_reducible exact h | with_reducible apply draw_kept | with_reducible apply record_kept | with_reducible assumption
    | exact id | rfl | exact fun _ => rfl | split

theorem loadFails_kept (a1) (a2) {s : State} (e : s.sys.mode = .prove) (h : Kept c q m o s) : Kept c q m o (loadFails a1 a2 s) :=
  loadRecord_kept _ (setSys_plans _ h rfl h.plans.1 (fun _ => e) rfl rfl)

theorem loadFields_kept (a1) {s : State} (h : Kept c q m o s) : Kept a1 q m o (loadFields a1 s) := by
  have h1 := h.reimage a1
  unfold loadFields
  dsimp only
  refine setDb_kept _ (cantleMemories_kept (ringsLoad_kept (tackLoad_kept ?_)))
  exact h1.put rfl rfl rfl rfl rfl rfl rfl rfl rfl id id

theorem streamLoad_kept {s : State} (a1) (h : Kept c q m o s) :
    Kept c q m o (streamLoad s a1) := by
  unfold streamLoad
  try dsimp only
  repeat' first
    | with_reducible exact h | with_reducible apply setVault_kept | with_reducible apply setTg_kept | with_reducible assumption
    | exact id | rfl | exact fun _ => rfl | split

theorem headLoad_kept {s : State} (a1) (h : Kept c q m o s) :
    Kept c q m o (headLoad s a1) := by
  unfold headLoad
  try dsimp only
  repeat' first
    | with_reducible exact h | with_reducible apply setHead_kept | with_reducible apply headFault_kept
    | with_reducible assumption | exact id | rfl | exact fun _ => rfl | split

theorem sectLoad_kept {s : State} (a1) (h : Kept c q m o s) :
    Kept c q m o (sectLoad s a1) := by
  unfold sectLoad
  try dsimp only
  repeat' first
    | with_reducible exact h | with_reducible apply secSet_kept | with_reducible assumption | exact id | rfl
    | exact fun _ => rfl | split

theorem timersLoad_kept {s : State} (h : Kept c q m o s) :
    Kept c q m o (timersLoad s) := by
  unfold timersLoad
  try dsimp only
  repeat' first
    | with_reducible exact h | with_reducible assumption | exact id | rfl | exact fun _ => rfl | split
    | (with_reducible refine Kept.put ?_ rfl rfl rfl rfl rfl rfl rfl rfl rfl id id)
    | (with_reducible refine Kept.put ?_ rfl rfl rfl rfl rfl rfl rfl rfl rfl ?_ ?_)
    | (intro hb i; have hb := hb i; simp only [get_upd, get_mapv]; (repeat' split) <;> simp_all; done)

theorem loadUnits_kept {s : State} (h : Kept c q m o s) :
    Kept c q m o (loadUnits s) := by
  unfold loadUnits
  try dsimp only
  repeat' first
    | with_reducible exact h | with_reducible apply sectLoad_kept | with_reducible apply streamLoad_kept
    | with_reducible apply ethOn_kept | with_reducible apply doorsLoad_kept | with_reducible apply headLoad_kept
    | with_reducible apply timersLoad_kept | (with_reducible apply foldl_kept; intro _ _ _) | with_reducible assumption
    | exact id | rfl | exact fun _ => rfl | split

theorem loadStored_kept (a1) {s : State} (h : Kept c q m o s) :
    Kept c q m o (loadStored a1 s) := by
  unfold loadStored
  try dsimp only
  repeat' first
    | with_reducible exact h | with_reducible apply setNv_kept | with_reducible apply vaultDead_kept | with_reducible assumption
    | exact id | rfl | exact fun _ => rfl | exact vaultStored_mem _ | split

theorem loadEnds_kept {s : State} (e : s.sys.mode = .prove) (h : Kept c q m o s) : Kept c q m o (loadEnds s) := by
  unfold loadEnds
  dsimp only
  have h1 := setSt_kept (fun x => { x with verify := { run := true, start := (recovery 7 0 (loadRecord true (setSys (fun y =>
      { y with loaded := true, loadDue := false, pendMode := some .operate }) s))).now, due := (recovery 7 0 (loadRecord true (setSys
      (fun y => { y with loaded := true, loadDue := false, pendMode := some .operate }) s))).now + 120000000 } })
    (recovery_kept 7 0 (loadRecord_kept true (setSys_plans (fun y =>
      { y with loaded := true, loadDue := false, pendMode := some .operate }) h rfl h.plans.1 (fun _ => e) rfl rfl)))
  split
  · exact enterSafe_kept _ _ h1
  · exact cantleStart_kept h1

theorem loadStep_kept (a1) (a2) (a3) (a4 : State → State) {s : State}
    (k : ∀ i y, y.sys.mode = .prove → Kept i q m o y → ∃ j, Kept j q m o (a4 y)) (h : ∃ i, Kept i q m o s) :
    ∃ i, Kept i q m o (loadStep a1 a2 a3 a4 s) := by
  unfold loadStep
  split
  · exact h
  · rename_i e
    have e : s.sys.mode = .prove := by simp at e; exact e.1.1.1
    obtain ⟨i, h⟩ := h
    exact k i _ e (setSys_kept _ (advance_kept _ h) rfl rfl rfl rfl rfl)

theorem loadBank_kept (a1) {s : State} (e : s.sys.mode = .prove) (h : Kept c q m o s) : Kept c q m o (loadBank a1 s) :=
  ite_kept (loadFails_kept _ _ e h) h

theorem loadReadback_kept (a1) {s : State} (h : Kept c q m o s) :
    Kept c q m o (loadReadback a1 s) := by
  unfold loadReadback
  try dsimp only
  repeat' first
    | with_reducible exact h | with_reducible apply enterSafe_kept | with_reducible apply setSys_kept
    | with_reducible assumption | exact id | rfl | exact fun _ => rfl | split

theorem loadStart_kept (a1) {s : State} (h : Kept c q m o s) :
    Kept c q m o (loadStart a1 s) := by
  unfold loadStart
  try dsimp only
  repeat' first
    | with_reducible exact h | with_reducible apply loadStored_kept | with_reducible apply setVault_kept
    | with_reducible apply loadUnits_kept | with_reducible assumption | exact id | rfl | exact fun _ => rfl | split

/-- The load puts the image of a bank in force. -/
theorem execConfigurationLoad_kept (a1) (a2) {s : State} (h : Kept c q m o s) :
    ∃ i, KeptR i q m o (execConfigurationLoad a1 a2 s) := by
  refine loadStep_kept _ _ _ _ (fun i y e k => ⟨i, loadEnds_kept e k⟩) ?_
  refine loadStep_kept _ _ _ _ (fun i y e k => ⟨i, loadStart_kept _ k⟩) ?_
  refine loadStep_kept _ _ _ _ (fun i y e k => ⟨i, loadReadback_kept _ k⟩) ?_
  refine loadStep_kept _ _ _ _ (fun i y e k => ⟨_, loadFields_kept _ k⟩) ?_
  refine loadStep_kept _ _ _ _ (fun i y e k => ⟨i, ite_kept (loadFails_kept _ _ e k) k⟩) ?_
  exact loadStep_kept _ _ _ _ (fun i y e k => ⟨i, loadBank_kept _ e k⟩) ⟨_, h⟩

end Sys2Proof.Machine
end

