-- ==== Sys2Proof/Laws/KeptTicks.lean ====
section
/-! SUPPORT. The operations of Machine/Ticks.lean keep what Kept says. -/

namespace Sys2Proof.Machine

open Sys2Proof

variable {c : Image} {q : List Instr} {m : Mode} {o : Bool}

theorem modeChange_kept (a1) {s : State} {b : Bool} (h : Kept c q m b s) (k1 : moves m a1 = true)
    (k2 : s.sys.stop.isSome = true → a1 = .operate ∨ a1 = .degraded) (k3 : s.sys.pendMode = none)
    (k4 : o = true → (a1 = .operate ∨ a1 = .degraded) ∨ OutputsOff s) : Kept c q m o (modeChange a1 s) := by
  have h1 : Kept c q m o (setSys (fun y => { y with mode := a1 }) s) := by
    refine ⟨h.image, h.queue, k1, h.mems, fun e => ?_, ?_, ?_⟩
    · rcases k4 e with g | g
      · exact .inl (by rcases g with g | g <;> subst g <;> rfl)
      · exact .inr g
    · intro e
      rcases k2 e with g | g <;> subst g <;> rfl
    · simp [setSys, k3]
  unfold modeChange
  dsimp only
  split
  · rename_i e
    subst e
    exact h1
  · exact record_kept _ _ _ (raise_kept _ _ h1)

theorem modeChange_dc (a1 : Mode) (s : State) : (modeChange a1 s).dc = s.dc := by
  unfold modeChange
  dsimp only
  split
  · rfl
  · simp [setSys]

theorem drivePins_kept {s : State} (h : Kept c q m o s) : Kept c q m o (drivePins s) := by
  refine ⟨h.image, h.queue, h.mode, h.mems, fun e => ?_, h.plans.1, h.plans.2⟩
  cases hs : inService s with
  | true => exact .inl hs
  | false =>
    rcases h.off e with a | ⟨d1, d2, _, _⟩
    · exact absurd (hs.symm.trans a) (by decide)
    · exact .inr ⟨d1, d2, by simp [drivePins, setSys, hs], by simp [drivePins, setSys, lifeLevel, hs]⟩

theorem configOutputs_kept {s : State} (h : Kept c q m false s) (k : ∀ i : Fin 16, torqueOn s.dc.chan[i.1].state = false ∧
    s.dc.chan[i.1].sto[0].on = false ∧ s.dc.chan[i.1].sto[1].on = false) : Kept c q m o (configOutputs s) := by
  have h1 := drpFalls_kept h
  have h2 := drpFalls_dc s
  unfold configOutputs
  dsimp only
  generalize drpFalls s = y at h1 h2
  refine Kept.tight ⟨h1.image, h1.queue, h1.mode, h1.mems, fun e => absurd e (by decide), h1.plans⟩
    ⟨fun b => ?_, ⟨rfl, rfl, fun i => ?_⟩, rfl, rfl⟩
  · simp
  · simpa [h2] using k i

theorem moves_configure {old : Mode} (h : old = .operate ∨ old = .degraded) (k : moves m old = true) : moves m .configure = true := by
  revert h k
  cases m <;> cases old <;> decide

theorem toConfigure_kept {s : State} (h : Kept c q m o s) (e : inService s = true) (k : stoAllOff s = true) :
    Kept c q m o (toConfigure s) := by
  have e' : s.sys.mode = .operate ∨ s.sys.mode = .degraded := by simpa [inService] using e
  have hp : s.sys.pendMode = none := by
    cases hq : s.sys.pendMode with
    | none => rfl
    | some x =>
      have := h.plans.2 (by simp [hq])
      simp [this] at e'
  have h1 : Kept c q m false (setSys (fun y => { y with stop := none }) s) :=
    setSys_plans _ h.loose rfl (by simp) (by simp [hp]) rfl rfl
  have h2 : Kept c q m false (modeChange .configure (setSys (fun y => { y with stop := none }) s)) :=
    modeChange_kept .configure h1 (moves_configure e' h.mode) (by simp [setSys]) hp (fun e => absurd e (by decide))
  have h3 : Kept c q m o (configOutputs (modeChange .configure (setSys (fun y => { y with stop := none }) s))) := by
    refine configOutputs_kept h2 fun i => ?_
    rw [modeChange_dc]
    simp only [stoAllOff, List.all_eq_true, List.mem_finRange, forall_const] at k
    have := k i
    simp_all [setSys]
  unfold toConfigure
  dsimp only
  generalize configOutputs (modeChange .configure (setSys (fun y => { y with stop := none }) s)) = y at h3
  have h4 := disturbAll_kept h3
  generalize disturbAll y = z at h4
  exact portsStandby_kept (cantleStop_kept _ (setCs_kept _ h4 rfl rfl))

theorem moves_service {old new : Mode} (h : old = .prove ∨ old = .operate ∨ old = .degraded) (k : moves m old = true)
    (g : old = .prove ∨ new = .operate ∨ new = .degraded) : moves m new = true := by
  revert h k g
  cases m <;> cases old <;> cases new <;> decide

theorem serviceMode_service (s : State) : serviceMode s = .operate ∨ serviceMode s = .degraded := by
  unfold serviceMode
  split <;> simp

theorem modeStep_kept {s : State} (h : Kept c q m o s) : Kept c q m o (modeStep s) := by
  have key : ∀ x, s.sys.pendMode = some x → s.sys.mode = .prove ∧ s.sys.stop = none := by
    intro x e
    have e1 := h.plans.2 (by simp [e])
    refine ⟨e1, ?_⟩
    cases hs : s.sys.stop with
    | none => rfl
    | some y =>
      have := h.plans.1 (by simp [hs])
      simp [inService, e1] at this
  have h1 : Kept c q m o (setSys (fun y => { y with pendMode := none }) s) := setSys_plans _ h rfl h.plans.1 (by simp) rfl rfl
  unfold modeStep
  split
  · rename_i e
    obtain ⟨e1, e2⟩ := key _ e
    have g := serviceMode_service (setSys (fun y => { y with pendMode := none }) s)
    exact pairsEnter_kept (modeChange_kept _ h1 (moves_service (.inl e1) h.mode (.inl e1)) (fun _ => g) rfl
      (fun _ => .inl g))
  · rename_i x y e
    obtain ⟨e1, e2⟩ := key _ e
    refine modeChange_kept _ h1 (moves_service (.inl e1) h.mode (.inl e1)) (by simp [setSys, e2]) rfl (fun g => ?_)
    rcases h.off g with a | a
    · simp [inService, e1] at a
    · exact .inr a
  · rename_i e
    split
    · rename_i f
      have f' : s.sys.mode = .operate ∨ s.sys.mode = .degraded := by simpa [inService] using f
      have g := serviceMode_service s
      exact modeChange_kept _ h (moves_service (.inr f') h.mode (.inr g)) (fun _ => g) e (fun _ => .inl g)
    · exact h

theorem timerStart_kept {s : State} (a1) (h : Kept c q m o s) :
    Kept c q m o (timerStart s a1) := by
  unfold timerStart
  try dsimp only
  repeat' first
    | with_reducible exact h | with_reducible apply setSys_kept | with_reducible assumption | exact id | rfl
    | exact fun _ => rfl | split

theorem escalate_kept (a1) {s : State} (h : Kept c q m o s) :
    Kept c q m o (escalate a1 s) := by
  unfold escalate
  try dsimp only
  repeat' first
    | with_reducible exact h | with_reducible apply raise_kept | with_reducible apply record_kept
    | with_reducible apply pairLose_kept | with_reducible apply setSys_kept | with_reducible apply setNv_kept
    | with_reducible apply enterSafe_kept | with_reducible assumption | exact id | rfl | exact fun _ => rfl | split

theorem execDegradedTimerExpiry_kept (a1) {s : State} (h : Kept c q m o s) :
    KeptR c q m o (execDegradedTimerExpiry a1 s) := by
  unfold execDegradedTimerExpiry
  try dsimp only
  repeat' first
    | with_reducible exact h | with_reducible apply Kept.next | with_reducible apply reachTick_kept
    | with_reducible apply escalate_kept | with_reducible assumption | exact id | rfl | exact fun _ => rfl | split

theorem execStopSequenceComplete_kept {s : State} (h : Kept c q m o s) : KeptR c q m o (execStopSequenceComplete s) := by
  unfold execStopSequenceComplete
  refine Kept.next ?_
  split
  · exact h
  · rename_i g e
    have h1 := reachTick_kept h
    have e1 : inService (reachTick s) = true := h1.plans.1 (by show s.sys.stop.isSome = true; simp [e])
    dsimp only
    split
    · exact h1
    · rename_i k
      split
      · exact toConfigure_kept h1 e1 (by simpa using k)
      · exact enterReset_kept _ _ h1
      · exact ite_kept (enterReset_kept _ _ h1) h1

theorem usbReset_kept {s : State} (h : Kept c q m o s) :
    Kept c q m o (usbReset s) := by
  unfold usbReset
  try dsimp only
  repeat' first
    | with_reducible exact h | with_reducible apply enterReset_kept | with_reducible assumption | exact id | rfl
    | exact fun _ => rfl | split

theorem tickLatch_kept (a1) {s : State} (h : Kept c q m o s) :
    Kept c q m o (tickLatch a1 s) := by
  unfold tickLatch
  try dsimp only
  repeat' first
    | with_reducible exact h | with_reducible apply timerStart_kept | with_reducible apply modeStep_kept
    | with_reducible apply applyOrders_kept | with_reducible apply stoLatchChan_kept | with_reducible apply lapseAll_kept
    | (with_reducible apply foldl_kept; intro _ _ _) | with_reducible assumption | exact id | rfl | exact fun _ => rfl | split

theorem tickDiag_kept (a1) {s : State} (h : Kept c q m o s) :
    Kept c q m o (tickDiag a1 s) := by
  unfold tickDiag
  try dsimp only
  repeat' first
    | with_reducible exact h | with_reducible apply enterSafe_kept | with_reducible apply setNv_kept | with_reducible assumption
    | exact id | rfl | exact fun _ => rfl | split

theorem tickSteps_kept {s : State} (h : Kept c q m o s) :
    Kept c q m o (tickSteps s) := by
  unfold tickSteps
  try dsimp only
  repeat' first
    | with_reducible exact h | with_reducible apply doorsDrive_kept | with_reducible apply doorsStep_kept
    | with_reducible apply berthsStep_kept | with_reducible apply drivePins_kept | with_reducible apply tapOut_kept
    | with_reducible apply sendStops_kept | with_reducible apply cycleTick_kept | with_reducible assumption | exact id | rfl
    | exact fun _ => rfl | split | (with_reducible refine Kept.put ?_ rfl rfl rfl rfl rfl rfl rfl rfl rfl id id)

theorem execSafetyTick_kept (a1) {s : State} (h : Kept c q m o s) :
    KeptR c q m o (execSafetyTick a1 s) := by
  unfold execSafetyTick
  try dsimp only
  repeat' first
    | with_reducible exact h | with_reducible apply Kept.next | with_reducible apply reachTick_kept
    | with_reducible apply usbReset_kept | with_reducible apply commitTick_kept | with_reducible apply keepImage_kept
    | with_reducible apply tickSteps_kept | with_reducible apply tickDiag_kept | with_reducible apply tickLatch_kept
    | with_reducible assumption | exact id | rfl | exact fun _ => rfl | split
    | (with_reducible refine Kept.put ?_ rfl rfl rfl rfl rfl rfl rfl rfl rfl id id)

theorem execClockWindow_kept (a1) (a2) (a3) {s : State} (h : Kept c q m o s) :
    KeptR c q m o (execClockWindow a1 a2 a3 s) := by
  unfold execClockWindow
  try dsimp only
  repeat' first
    | with_reducible exact h | with_reducible apply Kept.next | with_reducible apply reach_kept
    | with_reducible apply setSys_kept | with_reducible apply raise_kept | with_reducible apply enterSafe_kept
    | with_reducible assumption | exact id | rfl | exact fun _ => rfl | split
    | (with_reducible refine Kept.put ?_ rfl rfl rfl rfl rfl rfl rfl rfl rfl id id)

theorem execPinReadbackSample_kept (a1) (a2) {s : State} (h : Kept c q m o s) :
    KeptR c q m o (execPinReadbackSample a1 a2 s) := by
  unfold execPinReadbackSample
  try dsimp only
  repeat' first
    | with_reducible exact h | with_reducible apply Kept.next | with_reducible apply setSys_kept
    | with_reducible apply reach_kept | with_reducible apply drivePins_kept | with_reducible apply enterSafe_kept
    | with_reducible assumption | exact id | rfl | exact fun _ => rfl | split
    | (with_reducible refine Kept.put ?_ rfl rfl rfl rfl rfl rfl rfl rfl rfl id id)

theorem execTemperatureSafe_kept (a1) {s : State} (h : Kept c q m o s) :
    KeptR c q m o (execTemperatureSafe a1 s) := by
  unfold execTemperatureSafe
  try dsimp only
  repeat' first
    | with_reducible exact h | with_reducible apply Kept.next | with_reducible apply setSys_kept
    | with_reducible apply enterSafe_kept | with_reducible assumption | exact id | rfl | exact fun _ => rfl | split

end Sys2Proof.Machine
end

