-- ==== Sys2Proof/Laws/KeptFlags.lean ====
section
/-! SUPPORT. The operations of Machine/Flags.lean keep what Kept says. -/

namespace Sys2Proof.Machine

open Sys2Proof

variable {c : Image} {q : List Instr} {m : Mode} {o : Bool}

theorem latchUpper_kept (a1) (a2) (a3 : Nat) {s : State} (h : Kept c q m o s) : Kept c q m o (latchUpper a1 a2 a3 s) := by
  induction a3 generalizing s with
  | zero => exact h
  | succ n ih => exact ih (snapPut_kept _ _ _ h)

theorem readSnap_kept (a1) (a2) {s : State} (h : Kept c q m o s) :
    Kept c q m o (readSnap a1 a2 s) := by
  unfold readSnap
  try dsimp only
  repeat' first
    | with_reducible exact h | with_reducible apply portData_kept | with_reducible apply latchUpper_kept
    | with_reducible assumption | exact id | rfl | exact fun _ => rfl | split
    | (with_reducible refine Kept.put ?_ rfl rfl rfl rfl rfl rfl rfl rfl rfl id id)

end Sys2Proof.Machine
end

