-- ==== Sys2Proof/Laws/KeptCantleMem.lean ====
section
/-! SUPPORT. The operations of Machine/CantleMem.lean keep what Kept says. -/

namespace Sys2Proof.Machine

open Sys2Proof

variable {c : Image} {q : List Instr} {m : Mode} {o : Bool}

theorem hostLoad_kept (a1) {s : State} (h : Kept c q m o s) :
    Kept c q m o (hostLoad a1 s).2 := by
  unfold hostLoad
  try dsimp only
  repeat' first
    | with_reducible exact h | with_reducible apply draw_kept | with_reducible assumption | exact id | rfl | exact fun _ => rfl
    | split | (with_reducible refine Kept.put ?_ rfl rfl rfl rfl rfl rfl rfl rfl rfl id id)

theorem wordLoad_kept (a1) {s : State} (h : Kept c q m o s) :
    Kept c q m o (wordLoad a1 s).2 := by
  unfold wordLoad
  try dsimp only
  repeat' first
    | with_reducible exact h | with_reducible apply hostLoad_kept | with_reducible assumption | exact id | rfl
    | exact fun _ => rfl | split

theorem ioStore_kept (a1) (a2) {s : State} (h : Kept c q m o s) :
    Kept c q m o (ioStore a1 a2 s) := by
  unfold ioStore
  try dsimp only
  repeat' first
    | with_reducible exact h | with_reducible apply tapOut_kept | with_reducible apply noteLatch_kept
    | with_reducible apply setCs_kept | with_reducible apply mailPost_kept | with_reducible assumption | exact id | rfl
    | exact fun _ => rfl | split | (with_reducible refine Kept.put ?_ rfl rfl rfl rfl rfl rfl rfl rfl rfl id id)

theorem accessEnd_kept (a1) (a2) (a3) {s : State} (h : Kept c q m o s) :
    Kept c q m o (accessEnd a1 a2 a3 s) := by
  unfold accessEnd
  try dsimp only
  repeat' first
    | with_reducible exact h | with_reducible apply setDb_kept | with_reducible apply boundary_kept
    | with_reducible apply clocks_kept | with_reducible apply stepPc_kept | with_reducible assumption | exact id | rfl
    | exact fun _ => rfl | split

theorem dmemEcc_kept (a1) (a2) {s : State} (h : Kept c q m o s) :
    Kept c q m o (dmemEcc a1 a2 s) := by
  unfold dmemEcc
  try dsimp only
  repeat' first
    | with_reducible exact h | with_reducible apply eccFound_kept | with_reducible assumption | exact id | rfl
    | exact fun _ => rfl | split

theorem load_kept (a1) (a2) (a3) (a4) (a5) (a6) {s : State} (h : Kept c q m o s) :
    KeptR c q m o (load a1 a2 a3 a4 a5 a6 s) := by
  unfold load
  try dsimp only
  repeat' first
    | with_reducible exact h | with_reducible apply Kept.next | with_reducible apply atX_kept
    | with_reducible apply exception_kept | with_reducible apply dmemEcc_kept | with_reducible apply wordLoad_kept
    | with_reducible apply accessEnd_kept | with_reducible apply setG_kept | (intro _ _; try dsimp only)
    | with_reducible assumption | exact id | rfl | exact fun _ => rfl | split

theorem execLw_kept (a1) (a2) (a3) (a4) {s : State} (h : Kept c q m o s) :
    KeptR c q m o (execLw a1 a2 a3 a4 s) := by
  unfold execLw
  try dsimp only
  repeat' first
    | with_reducible exact h | with_reducible apply Kept.next | with_reducible apply load_kept

theorem execLh_kept (a1) (a2) (a3) (a4) {s : State} (h : Kept c q m o s) :
    KeptR c q m o (execLh a1 a2 a3 a4 s) := by
  unfold execLh
  try dsimp only
  repeat' first
    | with_reducible exact h | with_reducible apply Kept.next | with_reducible apply load_kept

theorem execLhu_kept (a1) (a2) (a3) (a4) {s : State} (h : Kept c q m o s) :
    KeptR c q m o (execLhu a1 a2 a3 a4 s) := by
  unfold execLhu
  try dsimp only
  repeat' first
    | with_reducible exact h | with_reducible apply Kept.next | with_reducible apply load_kept

theorem execLb_kept (a1) (a2) (a3) (a4) {s : State} (h : Kept c q m o s) :
    KeptR c q m o (execLb a1 a2 a3 a4 s) := by
  unfold execLb
  try dsimp only
  repeat' first
    | with_reducible exact h | with_reducible apply Kept.next | with_reducible apply load_kept

theorem execLbu_kept (a1) (a2) (a3) (a4) {s : State} (h : Kept c q m o s) :
    KeptR c q m o (execLbu a1 a2 a3 a4 s) := by
  unfold execLbu
  try dsimp only
  repeat' first
    | with_reducible exact h | with_reducible apply Kept.next | with_reducible apply load_kept

theorem dmemStore_kept (a1) (a2) (a3) {s : State} (h : Kept c q m o s) : Kept c q m o (dmemStore a1 a2 a3 s) :=
  h.store h.mems.1 h.mems.2.2.2 h.mems.2.1 (memWriteList_wf _ _ h.mems.2.2.1)

theorem storeDo_kept (a1) (a2) (a3) (a4) {s : State} (h : Kept c q m o s) :
    Kept c q m o (storeDo a1 a2 a3 a4 s) := by
  unfold storeDo
  try dsimp only
  repeat' first
    | with_reducible exact h | with_reducible apply ioStore_kept | with_reducible apply accessEnd_kept
    | with_reducible apply stall_kept | with_reducible apply dmemEcc_kept | with_reducible apply exception_kept
    | with_reducible apply dmemStore_kept | with_reducible assumption | exact id | rfl | exact fun _ => rfl | split

theorem store_kept (a1) (a2) (a3) (a4) (a5) {s : State} (h : Kept c q m o s) :
    KeptR c q m o (store a1 a2 a3 a4 a5 s) := by
  unfold store
  try dsimp only
  repeat' first
    | with_reducible exact h | with_reducible apply Kept.next | with_reducible apply atX_kept
    | with_reducible apply exception_kept | with_reducible apply storeDo_kept | (intro _ _; try dsimp only)
    | with_reducible assumption | exact id | rfl | exact fun _ => rfl | split

theorem execSw_kept (a1) (a2) (a3) (a4) {s : State} (h : Kept c q m o s) :
    KeptR c q m o (execSw a1 a2 a3 a4 s) := by
  unfold execSw
  try dsimp only
  repeat' first
    | with_reducible exact h | with_reducible apply Kept.next | with_reducible apply store_kept

theorem execSh_kept (a1) (a2) (a3) (a4) {s : State} (h : Kept c q m o s) :
    KeptR c q m o (execSh a1 a2 a3 a4 s) := by
  unfold execSh
  try dsimp only
  repeat' first
    | with_reducible exact h | with_reducible apply Kept.next | with_reducible apply store_kept

theorem execSb_kept (a1) (a2) (a3) (a4) {s : State} (h : Kept c q m o s) :
    KeptR c q m o (execSb a1 a2 a3 a4 s) := by
  unfold execSb
  try dsimp only
  repeat' first
    | with_reducible exact h | with_reducible apply Kept.next | with_reducible apply store_kept

end Sys2Proof.Machine
end

