-- ==== Sys2Proof/Laws/KeptHostBus.lean ====
section
/-! SUPPORT. The operations of Machine/HostBus.lean keep what Kept says. -/

namespace Sys2Proof.Machine

open Sys2Proof

variable {c : Image} {q : List Instr} {m : Mode} {o : Bool}

theorem setHb_kept (a1) {s : State} (h : Kept c q m o s) :
    Kept c q m o (setHb a1 s) := by
  unfold setHb
  try dsimp only
  repeat' first
    | with_reducible exact h | with_reducible assumption | exact id | rfl | exact fun _ => rfl | split
    | (with_reducible refine Kept.put ?_ rfl rfl rfl rfl rfl rfl rfl rfl rfl id id)

theorem setSel_kept (a1) (a2) {s : State} (h : Kept c q m o s) :
    Kept c q m o (setSel a1 a2 s) := by
  unfold setSel
  try dsimp only
  repeat' first
    | with_reducible exact h | with_reducible apply setPort_kept

theorem execStrobeConflict_kept {s : State} (h : Kept c q m o s) :
    KeptR c q m o (execStrobeConflict s) := by
  unfold execStrobeConflict
  try dsimp only
  repeat' first
    | with_reducible exact h | with_reducible apply Kept.next | with_reducible apply protError_kept
    | with_reducible assumption | exact id | rfl | exact fun _ => rfl | split

theorem ownerDeny_kept (a1) {s : State} (h : Kept c q m o s) :
    Kept c q m o (ownerDeny a1 s) := by
  unfold ownerDeny
  try dsimp only
  repeat' first
    | with_reducible exact h | with_reducible apply setPort_kept

theorem ownerClaim_kept (a1) (a2) {s : State} (h : Kept c q m o s) :
    Kept c q m o (ownerClaim a1 a2 s) := by
  unfold ownerClaim
  try dsimp only
  repeat' first
    | with_reducible exact h | with_reducible apply setHb_kept | with_reducible apply ownerDeny_kept | with_reducible assumption
    | exact id | rfl | exact fun _ => rfl | split

theorem ownerRelease_kept (a1) {s : State} (h : Kept c q m o s) :
    Kept c q m o (ownerRelease a1 s) := by
  unfold ownerRelease
  try dsimp only
  repeat' first
    | with_reducible exact h | with_reducible apply setHb_kept | with_reducible apply ownerDeny_kept | with_reducible assumption
    | exact id | rfl | exact fun _ => rfl | split

theorem ownerForce_kept (a1) (a2) {s : State} (h : Kept c q m o s) :
    Kept c q m o (ownerForce a1 a2 s) := by
  unfold ownerForce
  try dsimp only
  repeat' first
    | with_reducible exact h | with_reducible apply setHb_kept | with_reducible apply ownerDeny_kept | with_reducible assumption
    | exact id | rfl | exact fun _ => rfl | split

theorem execOwnerClaim_kept (a1) (a2) {s : State} (h : Kept c q m o s) :
    KeptR c q m o (execOwnerClaim a1 a2 s) := by
  unfold execOwnerClaim
  try dsimp only
  repeat' first
    | with_reducible exact h | with_reducible apply Kept.next | with_reducible apply portWrite_kept
    | with_reducible apply ownerClaim_kept

theorem execOwnerRelease_kept (a1) (a2) {s : State} (h : Kept c q m o s) :
    KeptR c q m o (execOwnerRelease a1 a2 s) := by
  unfold execOwnerRelease
  try dsimp only
  repeat' first
    | with_reducible exact h | with_reducible apply Kept.next | with_reducible apply portWrite_kept
    | with_reducible apply ownerRelease_kept

theorem execOwnerForce_kept (a1) (a2) {s : State} (h : Kept c q m o s) :
    KeptR c q m o (execOwnerForce a1 a2 s) := by
  unfold execOwnerForce
  try dsimp only
  repeat' first
    | with_reducible exact h | with_reducible apply Kept.next | with_reducible apply portWrite_kept
    | with_reducible apply ownerForce_kept

theorem ownerReq_kept (a1) (a2) {s : State} (h : Kept c q m o s) :
    Kept c q m o (ownerReq a1 a2 s) := by
  unfold ownerReq
  try dsimp only
  repeat' first
    | with_reducible exact h | with_reducible apply ownerClaim_kept | with_reducible apply ownerRelease_kept
    | with_reducible apply ownerForce_kept | with_reducible assumption | exact id | rfl | exact fun _ => rfl | split

theorem execSnapshotRead_kept (a1) (a2) (a3) {s : State} (h : Kept c q m o s) :
    KeptR c q m o (execSnapshotRead a1 a2 s a3) :=
  Kept.next (readCycle_kept _ _ _ (fun _ k => readSnap_kept _ _ k) h)

theorem lowWrite_kept (a1) (a2) (a3) {s : State} (h : Kept c q m o s) :
    Kept c q m o (lowWrite a1 a2 a3 s) := by
  unfold lowWrite
  try dsimp only
  repeat' first
    | with_reducible exact h | with_reducible apply ite_kept | with_reducible apply setSys_kept
    | with_reducible apply setPort_kept | with_reducible apply irqUpdate_kept | with_reducible apply setRing_kept
    | with_reducible apply setEv_kept | with_reducible apply setSel_kept | with_reducible assumption | exact id | rfl

theorem highWrite_kept (a1) (a2) (a3) {s : State} (h : Kept c q m o s) :
    Kept c q m o (highWrite a1 a2 a3 s) := by
  unfold highWrite
  try dsimp only
  repeat' first
    | with_reducible exact h | with_reducible apply ite_kept | with_reducible apply setSel_kept
    | with_reducible apply setCk_kept | with_reducible apply setNv_kept | with_reducible apply setSt_kept
    | with_reducible apply setCs_kept | with_reducible assumption | exact id | rfl | exact fun _ => rfl | split
    | (with_reducible refine Kept.put ?_ rfl rfl rfl rfl rfl rfl rfl rfl rfl id id)

theorem cvWrite_kept (a1) (a2) (a3) {s : State} (h : Kept c q m o s) :
    Kept c q m o (cvWrite a1 a2 a3 s) := by
  unfold cvWrite
  try dsimp only
  repeat' first
    | with_reducible exact h | with_reducible apply loginDo_kept | with_reducible apply endLogin_kept
    | with_reducible apply setpwdDo_kept | with_reducible apply clearstageDo_kept | with_reducible apply commitDo_kept
    | with_reducible assumption | exact id | rfl | exact fun _ => rfl | split

theorem rcmdWrite_kept (a1) (a2) {s : State} (h : Kept c q m o s) :
    Kept c q m o (rcmdWrite a1 a2 s) := by
  unfold rcmdWrite
  try dsimp only
  repeat' first
    | with_reducible exact h | with_reducible apply fetchLedger_kept | with_reducible apply fetchCell_kept
    | with_reducible apply fetchClog_kept | with_reducible assumption | exact id | rfl | exact fun _ => rfl | split

theorem modeReqWrite_kept (a1) {s : State} (h : Kept c q m o s) :
    Kept c q m o (modeReqWrite a1 s) := by
  unfold modeReqWrite
  try dsimp only
  repeat' first
    | with_reducible exact h | with_reducible apply configureAsk_kept | with_reducible apply restartAsk_kept
    | with_reducible assumption | exact id | rfl | exact fun _ => rfl | split

theorem rowWrite_kept (a1) (a2) (a3) (a4) {s : State} (h : Kept c q m o s) :
    Kept c q m o (rowWrite a1 a2 a3 a4 s) := by
  unfold rowWrite
  try dsimp only
  repeat' first
    | with_reducible exact h | with_reducible apply ite_kept | with_reducible apply modeReqWrite_kept
    | with_reducible apply resetKey_kept | with_reducible apply ownerReq_kept | with_reducible apply proveRequest_kept
    | with_reducible apply unlockWrite_kept | with_reducible apply mdioRequest_kept | with_reducible apply recoverWrite_kept
    | with_reducible apply pwWrite_kept | with_reducible apply cvWrite_kept | with_reducible apply chunkOpen_kept
    | with_reducible apply chunkWord_kept | with_reducible apply chunkEnd_kept | with_reducible apply rcmdWrite_kept
    | with_reducible apply cellsClear_kept | with_reducible apply telemSelect_kept | with_reducible apply csControl_kept
    | with_reducible apply mailSend_kept | with_reducible apply mailAck_kept

theorem wordWrite_kept (a1) (a2) (a3) (a4) {s : State} (h : Kept c q m o s) :
    Kept c q m o (wordWrite a1 a2 a3 a4 s) := by
  unfold wordWrite
  try dsimp only
  repeat' first
    | with_reducible exact h | with_reducible apply rowWrite_kept | with_reducible apply lowWrite_kept
    | with_reducible apply highWrite_kept | with_reducible assumption | exact id | rfl | exact fun _ => rfl | split

theorem regWrite_kept (a1) (a2) (a3) (a4) {s : State} (h : Kept c q m o s) :
    Kept c q m o (regWrite a1 a2 a3 a4 s) := by
  unfold regWrite
  try dsimp only
  repeat' first
    | with_reducible exact h | with_reducible apply portWrite_kept | with_reducible apply wordWrite_kept
    | with_reducible apply touchLogin_kept
    | (intro _ _; try dsimp only) | with_reducible assumption | exact id | rfl | exact fun _ => rfl | split

theorem execRegisterWrite_kept (a1) (a2) (a3) (a4) {s : State} (h : Kept c q m o s) :
    KeptR c q m o (execRegisterWrite a1 a2 a3 s a4) := by
  unfold execRegisterWrite
  try dsimp only
  repeat' first
    | with_reducible exact h | with_reducible apply Kept.next | with_reducible apply regWrite_kept
    | with_reducible apply busSoon_kept | with_reducible assumption | exact id | rfl | exact fun _ => rfl | split

end Sys2Proof.Machine
end

