-- ==== Sys2Proof/Laws/KeptUsb.lean ====
section
/-! SUPPORT. The operations of Machine/Usb.lean keep what Kept says. -/

namespace Sys2Proof.Machine

open Sys2Proof

variable {c : Image} {q : List Instr} {m : Mode} {o : Bool}

theorem setUm_kept (a1) {s : State} (h : Kept c q m o s) :
    Kept c q m o (setUm a1 s) := by
  unfold setUm
  try dsimp only
  repeat' first
    | with_reducible exact h | with_reducible assumption | exact id | rfl | exact fun _ => rfl | split
    | (with_reducible refine Kept.put ?_ rfl rfl rfl rfl rfl rfl rfl rfl rfl id id)

theorem usbAnswer_kept (a1) {s : State} (h : Kept c q m o s) :
    Kept c q m o (usbAnswer a1 s) := by
  unfold usbAnswer
  try dsimp only
  repeat' first
    | with_reducible exact h | with_reducible apply setUm_kept

theorem usbStall_kept {s : State} (h : Kept c q m o s) :
    Kept c q m o (usbStall s) := by
  unfold usbStall
  try dsimp only
  repeat' first
    | with_reducible exact h | with_reducible apply usbAnswer_kept | with_reducible apply setUm_kept

theorem usbSetup_kept {s : State} (h : Kept c q m o s) :
    Kept c q m o (usbSetup s) := by
  unfold usbSetup
  try dsimp only
  repeat' first
    | with_reducible exact h | with_reducible apply setUm_kept | with_reducible assumption | exact id | rfl | exact fun _ => rfl
    | split

theorem usbRequest_kept (a1 : State → State) {s : State} (k : ∀ y, Kept c q m o y → Kept c q m o (a1 y)) (h : Kept c q m o s) :
    Kept c q m o (usbRequest a1 s) := by
  unfold usbRequest
  try dsimp only
  repeat' first
    | with_reducible exact h | with_reducible apply usbSetup_kept | with_reducible apply usbAnswer_kept | with_reducible apply k
    | with_reducible assumption | exact id | rfl | exact fun _ => rfl | split

theorem usbData_kept (a1) (a2) {s : State} (h : Kept c q m o s) :
    Kept c q m o (usbData a1 a2 s) := by
  unfold usbData
  try dsimp only
  repeat' first
    | with_reducible exact h | with_reducible apply usbAnswer_kept

theorem usbStandard_kept (a1) (a2 : State → State) {s : State} (k : ∀ y, Kept c q m o y → Kept c q m o (a2 y)) (h : Kept c q m o s) :
    KeptR c q m o (usbStandard a1 a2 s) := by
  unfold usbStandard
  try dsimp only
  repeat' first
    | with_reducible exact h | with_reducible apply Kept.next | with_reducible apply usbRequest_kept
    | with_reducible apply usbStall_kept | with_reducible apply k | (intro _ _; try dsimp only) | with_reducible assumption
    | exact id | rfl | exact fun _ => rfl | split

theorem execGetStatus_kept (a1) {s : State} (h : Kept c q m o s) :
    KeptR c q m o (execGetStatus a1 s) := by
  unfold execGetStatus
  try dsimp only
  repeat' first
    | with_reducible exact h | with_reducible apply Kept.next | with_reducible apply usbStandard_kept
    | with_reducible apply usbData_kept | (intro _ _; try dsimp only) | with_reducible assumption

theorem execClearFeature_kept (a1) {s : State} (h : Kept c q m o s) :
    KeptR c q m o (execClearFeature a1 s) := by
  unfold execClearFeature
  try dsimp only
  repeat' first
    | with_reducible exact h | with_reducible apply Kept.next | with_reducible apply usbStandard_kept
    | with_reducible apply usbAnswer_kept | with_reducible apply setUm_kept | (intro _ _; try dsimp only)
    | with_reducible assumption

theorem execSetFeature_kept (a1) {s : State} (h : Kept c q m o s) :
    KeptR c q m o (execSetFeature a1 s) := by
  unfold execSetFeature
  try dsimp only
  repeat' first
    | with_reducible exact h | with_reducible apply Kept.next | with_reducible apply usbStandard_kept
    | with_reducible apply usbAnswer_kept | with_reducible apply setUm_kept | (intro _ _; try dsimp only)
    | with_reducible assumption

theorem execSetAddress_kept (a1) {s : State} (h : Kept c q m o s) :
    KeptR c q m o (execSetAddress a1 s) := by
  unfold execSetAddress
  try dsimp only
  repeat' first
    | with_reducible exact h | with_reducible apply Kept.next | with_reducible apply usbStandard_kept
    | with_reducible apply usbAnswer_kept | with_reducible apply setUm_kept | (intro _ _; try dsimp only)
    | with_reducible assumption

theorem execGetDescriptor_kept (a1) {s : State} (h : Kept c q m o s) :
    KeptR c q m o (execGetDescriptor a1 s) := by
  unfold execGetDescriptor
  try dsimp only
  repeat' first
    | with_reducible exact h | with_reducible apply Kept.next | with_reducible apply usbStandard_kept
    | with_reducible apply usbData_kept | (intro _ _; try dsimp only) | with_reducible assumption

theorem execGetConfiguration_kept (a1) {s : State} (h : Kept c q m o s) :
    KeptR c q m o (execGetConfiguration a1 s) := by
  unfold execGetConfiguration
  try dsimp only
  repeat' first
    | with_reducible exact h | with_reducible apply Kept.next | with_reducible apply usbStandard_kept
    | with_reducible apply usbData_kept | (intro _ _; try dsimp only) | with_reducible assumption

theorem execSetConfiguration_kept (a1) {s : State} (h : Kept c q m o s) :
    KeptR c q m o (execSetConfiguration a1 s) := by
  unfold execSetConfiguration
  try dsimp only
  repeat' first
    | with_reducible exact h | with_reducible apply Kept.next | with_reducible apply usbStandard_kept
    | with_reducible apply usbAnswer_kept | with_reducible apply setUm_kept | (intro _ _; try dsimp only)
    | with_reducible assumption

theorem execGetInterface_kept (a1) {s : State} (h : Kept c q m o s) :
    KeptR c q m o (execGetInterface a1 s) := by
  unfold execGetInterface
  try dsimp only
  repeat' first
    | with_reducible exact h | with_reducible apply Kept.next | with_reducible apply usbStandard_kept
    | with_reducible apply usbData_kept

theorem execSetInterface_kept (a1) {s : State} (h : Kept c q m o s) :
    KeptR c q m o (execSetInterface a1 s) := by
  unfold execSetInterface
  try dsimp only
  repeat' first
    | with_reducible exact h | with_reducible apply Kept.next | with_reducible apply usbStandard_kept
    | with_reducible apply usbAnswer_kept | with_reducible apply setUm_kept | (intro _ _; try dsimp only)
    | with_reducible assumption

theorem vendorDone_kept (a1) (a2) {s : State} (h : Kept c q m o s) :
    Kept c q m o (vendorDone a1 a2 s) := by
  unfold vendorDone
  try dsimp only
  repeat' first
    | with_reducible exact h | with_reducible apply setUm_kept

theorem vendorIn_kept (a1) (a2) (a3) (a4 : State → List Byte × State) {s : State} (k : ∀ y, Kept c q m o y → Kept c q m o (a4 y).2) (h : Kept c q m o s) :
    KeptR c q m o (vendorIn a1 a2 a3 a4 s) := by
  unfold vendorIn
  try dsimp only
  repeat' first
    | with_reducible exact h | with_reducible apply Kept.next | with_reducible apply usbRequest_kept
    | with_reducible apply vendorDone_kept | with_reducible apply usbAnswer_kept | with_reducible apply usbStall_kept
    | with_reducible apply k | (intro _ _; try dsimp only) | with_reducible assumption | exact id | rfl | exact fun _ => rfl
    | split

theorem vendorRun_kept (a1) (a2) (a3) (a4 : State → ℕ × State) {s : State} (k : ∀ y, Kept c q m o y → Kept c q m o (a4 y).2) (h : Kept c q m o s) :
    Kept c q m o (vendorRun a1 a2 a3 a4 s) := by
  unfold vendorRun
  try dsimp only
  repeat' first
    | with_reducible exact h | with_reducible apply vendorDone_kept | with_reducible apply usbAnswer_kept
    | with_reducible apply k | with_reducible assumption | exact id | rfl | exact fun _ => rfl | split

theorem vendorOut_kept (a1) (a2) (a3) (a4) (a5) (a6 : State → ℕ × State) {s : State} (k : ∀ y, Kept c q m o y → Kept c q m o (a6 y).2) (h : Kept c q m o s) :
    KeptR c q m o (vendorOut a1 a2 a3 a4 a5 a6 s) := by
  unfold vendorOut
  try dsimp only
  repeat' first
    | with_reducible exact h | with_reducible apply Kept.next | with_reducible apply usbRequest_kept
    | with_reducible apply usbStall_kept | with_reducible apply usbAnswer_kept | with_reducible apply setUm_kept
    | with_reducible apply vendorRun_kept | with_reducible apply k | (intro _ _; try dsimp only) | with_reducible assumption
    | exact id | rfl | exact fun _ => rfl | split

theorem usbWrite_kept (a1) (a2) (a3) {s : State} (h : Kept c q m o s) :
    Kept c q m o (usbWrite a1 a2 a3 s) := by
  unfold usbWrite
  try dsimp only
  repeat' first
    | with_reducible exact h | with_reducible apply regWrite_kept

theorem execGetInfo_kept (a1) {s : State} (h : Kept c q m o s) :
    KeptR c q m o (execGetInfo a1 s) := by
  unfold execGetInfo
  try dsimp only
  repeat' first
    | with_reducible exact h | with_reducible apply Kept.next | with_reducible apply vendorIn_kept | (intro _ _; try dsimp only)
    | with_reducible assumption

theorem usbRead_kept (a1) {s : State} (h : Kept c q m o s) :
    Kept c q m o (usbRead a1 s) := by
  unfold usbRead
  try dsimp only
  repeat' first
    | with_reducible exact h | with_reducible apply rdataRead_kept | with_reducible apply telemRead_kept
    | with_reducible apply readSnap_kept | with_reducible assumption | exact id | rfl | exact fun _ => rfl | split

theorem usbReads_kept (a1 : Nat) (a2) {s : State} (h : Kept c q m o s) : Kept c q m o (usbReads a1 a2 s).2 := by
  induction a1 generalizing s a2 with
  | zero => exact h
  | succ n ih => exact ih _ (usbRead_kept _ h)

theorem execReadRegs_kept (a1) {s : State} (h : Kept c q m o s) :
    KeptR c q m o (execReadRegs a1 s) := by
  unfold execReadRegs
  try dsimp only
  repeat' first
    | with_reducible exact h | with_reducible apply Kept.next | with_reducible apply vendorIn_kept
    | with_reducible apply usbReads_kept

theorem usbWrites_kept (a1) (a2) (a3 : List W16) {s : State} (h : Kept c q m o s) : Kept c q m o (usbWrites a1 a2 a3 s) := by
  induction a3 generalizing s a2 with
  | nil => exact h
  | cons x l ih => exact ih _ (usbWrite_kept _ _ _ h)

theorem execWriteRegs_kept (a1) (a2) {s : State} (h : Kept c q m o s) :
    KeptR c q m o (execWriteRegs a1 a2 s) := by
  unfold execWriteRegs
  try dsimp only
  repeat' first
    | with_reducible exact h | with_reducible apply Kept.next | with_reducible apply vendorOut_kept
    | with_reducible apply usbWrites_kept

theorem execGetLast_kept (a1) {s : State} (h : Kept c q m o s) :
    KeptR c q m o (execGetLast a1 s) := by
  unfold execGetLast
  try dsimp only
  repeat' first
    | with_reducible exact h | with_reducible apply Kept.next | with_reducible apply vendorIn_kept | (intro _ _; try dsimp only)
    | with_reducible assumption

theorem pwWrites_kept (a1 : List W16) {s : State} (h : Kept c q m o s) : Kept c q m o (pwWrites a1 s) := by
  induction a1 generalizing s with
  | nil => exact h
  | cons x l ih => exact ih (usbWrite_kept _ _ _ h)

theorem execUsbLogin_kept (a1) {s : State} (h : Kept c q m o s) :
    KeptR c q m o (execUsbLogin a1 s) := by
  unfold execUsbLogin
  try dsimp only
  repeat' first
    | with_reducible exact h | with_reducible apply Kept.next | with_reducible apply vendorOut_kept
    | with_reducible apply pwWrites_kept | with_reducible apply usbWrite_kept | (intro _ _; try dsimp only)
    | with_reducible assumption

theorem execUsbLogout_kept (a1) {s : State} (h : Kept c q m o s) :
    KeptR c q m o (execUsbLogout a1 s) := by
  unfold execUsbLogout
  try dsimp only
  repeat' first
    | with_reducible exact h | with_reducible apply Kept.next | with_reducible apply vendorOut_kept
    | with_reducible apply usbWrite_kept

theorem execUsbSetpwd_kept (a1) (a2) (a3) {s : State} (h : Kept c q m o s) :
    KeptR c q m o (execUsbSetpwd a1 a2 a3 s) := by
  unfold execUsbSetpwd
  try dsimp only
  repeat' first
    | with_reducible exact h | with_reducible apply Kept.next | with_reducible apply vendorOut_kept
    | with_reducible apply pwWrites_kept | with_reducible apply usbWrite_kept | (intro _ _; try dsimp only)
    | with_reducible assumption

theorem execUsbClearstage_kept (a1) {s : State} (h : Kept c q m o s) :
    KeptR c q m o (execUsbClearstage a1 s) := by
  unfold execUsbClearstage
  try dsimp only
  repeat' first
    | with_reducible exact h | with_reducible apply Kept.next | with_reducible apply vendorOut_kept
    | with_reducible apply usbWrite_kept

theorem chunkWrites_kept (a1 : List W16) {s : State} (h : Kept c q m o s) : Kept c q m o (chunkWrites a1 s) := by
  induction a1 generalizing s with
  | nil => exact h
  | cons x l ih => exact ih (usbWrite_kept _ _ _ h)

theorem execStage_kept (a1) (a2) {s : State} (h : Kept c q m o s) :
    KeptR c q m o (execStage a1 a2 s) := by
  unfold execStage
  try dsimp only
  repeat' first
    | with_reducible exact h | with_reducible apply Kept.next | with_reducible apply vendorOut_kept
    | with_reducible apply usbWrite_kept | with_reducible apply chunkWrites_kept | (intro _ _; try dsimp only)
    | with_reducible assumption

theorem execUsbCommit_kept (a1) (a2) {s : State} (h : Kept c q m o s) :
    KeptR c q m o (execUsbCommit a1 a2 s) := by
  unfold execUsbCommit
  try dsimp only
  repeat' first
    | with_reducible exact h | with_reducible apply Kept.next | with_reducible apply vendorOut_kept
    | with_reducible apply usbWrite_kept | (intro _ _; try dsimp only) | with_reducible assumption

theorem execCommitStatus_kept (a1) {s : State} (h : Kept c q m o s) :
    KeptR c q m o (execCommitStatus a1 s) := by
  unfold execCommitStatus
  try dsimp only
  repeat' first
    | with_reducible exact h | with_reducible apply Kept.next | with_reducible apply vendorIn_kept | (intro _ _; try dsimp only)
    | with_reducible assumption

theorem downloadStart_kept (a1) (a2) (a3) {s : State} (h : Kept c q m o s) :
    Kept c q m o (downloadStart a1 a2 a3 s) := by
  unfold downloadStart
  try dsimp only
  repeat' first
    | with_reducible exact h | with_reducible apply setUm_kept

theorem execLogStart_kept (a1) {s : State} (h : Kept c q m o s) :
    KeptR c q m o (execLogStart a1 s) := by
  unfold execLogStart
  try dsimp only
  repeat' first
    | with_reducible exact h | with_reducible apply Kept.next | with_reducible apply vendorOut_kept
    | with_reducible apply downloadStart_kept

theorem execLogStop_kept (a1) {s : State} (h : Kept c q m o s) :
    KeptR c q m o (execLogStop a1 s) := by
  unfold execLogStop
  try dsimp only
  repeat' first
    | with_reducible exact h | with_reducible apply Kept.next | with_reducible apply vendorOut_kept
    | with_reducible apply setUm_kept

theorem execDownloadInToken_kept (a1) (a2) {s : State} (h : Kept c q m o s) :
    KeptR c q m o (execDownloadInToken a1 a2 s) := by
  unfold execDownloadInToken
  try dsimp only
  repeat' first
    | with_reducible exact h | with_reducible apply Kept.next | with_reducible apply setUm_kept | with_reducible assumption
    | exact id | rfl | exact fun _ => rfl | split

theorem execUsbUnlock_kept (a1) {s : State} (h : Kept c q m o s) :
    KeptR c q m o (execUsbUnlock a1 s) := by
  unfold execUsbUnlock
  try dsimp only
  repeat' first
    | with_reducible exact h | with_reducible apply Kept.next | with_reducible apply vendorOut_kept
    | with_reducible apply unlockRequest_kept | with_reducible assumption | exact id | rfl | exact fun _ => rfl | split

theorem usbResetAsk_kept {s : State} (h : Kept c q m o s) : Kept c q m o (usbResetAsk s).2 := by
  have h1 := setUm_kept (fun u => { u with resetAt := some (s.now + 1000) }) h
  unfold usbResetAsk
  dsimp only
  split
  · exact h1
  · split
    · exact reqReject_kept h
    · split
      · exact reqReject_kept h
      · rename_i e
        simp only [Bool.or_eq_true, Bool.not_eq_true', not_or, Bool.not_eq_false] at e
        exact setSys_plans (fun y => { y with stop := some .resetUsb }) h1 rfl (fun _ => e.2) h1.plans.2 rfl rfl

theorem execResetDevice_kept (a1) {s : State} (h : Kept c q m o s) :
    KeptR c q m o (execResetDevice a1 s) := by
  unfold execResetDevice
  try dsimp only
  repeat' first
    | with_reducible exact h | with_reducible apply Kept.next | with_reducible apply vendorOut_kept
    | with_reducible apply usbResetAsk_kept

theorem execUsbBusReset_kept {s : State} (h : Kept c q m o s) :
    KeptR c q m o (execUsbBusReset s) := by
  unfold execUsbBusReset
  try dsimp only
  repeat' first
    | with_reducible exact h | with_reducible apply Kept.next | with_reducible apply usbSetup_kept
    | with_reducible apply setUm_kept | with_reducible apply setHb_kept | with_reducible apply endLogin_kept
    | with_reducible assumption | exact id | rfl | exact fun _ => rfl | split

theorem execVbusChange_kept (a1) {s : State} (h : Kept c q m o s) :
    KeptR c q m o (execVbusChange a1 s) := by
  unfold execVbusChange
  try dsimp only
  repeat' first
    | with_reducible exact h | with_reducible apply Kept.next | with_reducible apply setUm_kept
    | with_reducible apply usbConnect_kept | with_reducible apply endLogin_kept | with_reducible apply usbDisconnect_kept
    | with_reducible assumption | exact id | rfl | exact fun _ => rfl | split

theorem execUsbSuspend_kept {s : State} (h : Kept c q m o s) :
    KeptR c q m o (execUsbSuspend s) := by
  unfold execUsbSuspend
  try dsimp only
  repeat' first
    | with_reducible exact h | with_reducible apply Kept.next | with_reducible apply setUm_kept | with_reducible assumption
    | exact id | rfl | exact fun _ => rfl | split

theorem execUsbResume_kept {s : State} (h : Kept c q m o s) :
    KeptR c q m o (execUsbResume s) := by
  unfold execUsbResume
  try dsimp only
  repeat' first
    | with_reducible exact h | with_reducible apply Kept.next | with_reducible apply setUm_kept

end Sys2Proof.Machine
end

