-- ==== Sys2Proof/Laws/State.lean ====
section
/-! SUPPORT. One lemma per field of the state for each update of the machine, each true by unfolding. -/

namespace Sys2Proof.Machine

open Sys2Proof

/-! ### advance -/

@[simp] theorem advance_now (d : Nat) (s : State) : (advance d s).now = s.now + d := rfl
@[simp] theorem advance_tstamp (d : Nat) (s : State) : (advance d s).tstamp = if s.tsRun then s.tstamp + BitVec.ofNat 48 d else s.tstamp := rfl
@[simp] theorem advance_tsRun (d : Nat) (s : State) : (advance d s).tsRun = s.tsRun := rfl
@[simp] theorem advance_free (d : Nat) (s : State) : (advance d s).free = s.free := rfl
@[simp] theorem advance_grid (d : Nat) (s : State) : (advance d s).grid = s.grid := rfl
@[simp] theorem advance_cfg (d : Nat) (s : State) : (advance d s).cfg = s.cfg := rfl
@[simp] theorem advance_sys (d : Nat) (s : State) : (advance d s).sys = s.sys := rfl
@[simp] theorem advance_ev (d : Nat) (s : State) : (advance d s).ev = s.ev := rfl
@[simp] theorem advance_nv (d : Nat) (s : State) : (advance d s).nv = s.nv := rfl
@[simp] theorem advance_wf (d : Nat) (s : State) : (advance d s).wf = s.wf := rfl
@[simp] theorem advance_hd (d : Nat) (s : State) : (advance d s).hd = s.hd := rfl
@[simp] theorem advance_sc (d : Nat) (s : State) : (advance d s).sc = s.sc := rfl
@[simp] theorem advance_berth (d : Nat) (s : State) : (advance d s).berth = s.berth := rfl
@[simp] theorem advance_dc (d : Nat) (s : State) : (advance d s).dc = s.dc := rfl
@[simp] theorem advance_tg (d : Nat) (s : State) : (advance d s).tg = s.tg := rfl
@[simp] theorem advance_ports (d : Nat) (s : State) : (advance d s).ports = s.ports := rfl
@[simp] theorem advance_ck (d : Nat) (s : State) : (advance d s).ck = s.ck := rfl
@[simp] theorem advance_st (d : Nat) (s : State) : (advance d s).st = s.st := rfl
@[simp] theorem advance_cs (d : Nat) (s : State) : (advance d s).cs = csTime d s := rfl
@[simp] theorem advance_db (d : Nat) (s : State) : (advance d s).db = s.db := rfl
@[simp] theorem advance_hb (d : Nat) (s : State) : (advance d s).hb = s.hb := rfl
@[simp] theorem advance_um (d : Nat) (s : State) : (advance d s).um = s.um := rfl
@[simp] theorem advance_pending (d : Nat) (s : State) : (advance d s).pending = s.pending := rfl

/-! ### setSys -/

@[simp] theorem setSys_now (f : Sys → Sys) (s : State) : (setSys f s).now = s.now := rfl
@[simp] theorem setSys_tstamp (f : Sys → Sys) (s : State) : (setSys f s).tstamp = s.tstamp := rfl
@[simp] theorem setSys_tsRun (f : Sys → Sys) (s : State) : (setSys f s).tsRun = s.tsRun := rfl
@[simp] theorem setSys_free (f : Sys → Sys) (s : State) : (setSys f s).free = s.free := rfl
@[simp] theorem setSys_grid (f : Sys → Sys) (s : State) : (setSys f s).grid = s.grid := rfl
@[simp] theorem setSys_cfg (f : Sys → Sys) (s : State) : (setSys f s).cfg = s.cfg := rfl
@[simp] theorem setSys_sys (f : Sys → Sys) (s : State) : (setSys f s).sys = f s.sys := rfl
@[simp] theorem setSys_ev (f : Sys → Sys) (s : State) : (setSys f s).ev = s.ev := rfl
@[simp] theorem setSys_nv (f : Sys → Sys) (s : State) : (setSys f s).nv = s.nv := rfl
@[simp] theorem setSys_wf (f : Sys → Sys) (s : State) : (setSys f s).wf = s.wf := rfl
@[simp] theorem setSys_hd (f : Sys → Sys) (s : State) : (setSys f s).hd = s.hd := rfl
@[simp] theorem setSys_sc (f : Sys → Sys) (s : State) : (setSys f s).sc = s.sc := rfl
@[simp] theorem setSys_berth (f : Sys → Sys) (s : State) : (setSys f s).berth = s.berth := rfl
@[simp] theorem setSys_dc (f : Sys → Sys) (s : State) : (setSys f s).dc = s.dc := rfl
@[simp] theorem setSys_tg (f : Sys → Sys) (s : State) : (setSys f s).tg = s.tg := rfl
@[simp] theorem setSys_ports (f : Sys → Sys) (s : State) : (setSys f s).ports = s.ports := rfl
@[simp] theorem setSys_ck (f : Sys → Sys) (s : State) : (setSys f s).ck = s.ck := rfl
@[simp] theorem setSys_st (f : Sys → Sys) (s : State) : (setSys f s).st = s.st := rfl
@[simp] theorem setSys_cs (f : Sys → Sys) (s : State) : (setSys f s).cs = s.cs := rfl
@[simp] theorem setSys_db (f : Sys → Sys) (s : State) : (setSys f s).db = s.db := rfl
@[simp] theorem setSys_hb (f : Sys → Sys) (s : State) : (setSys f s).hb = s.hb := rfl
@[simp] theorem setSys_um (f : Sys → Sys) (s : State) : (setSys f s).um = s.um := rfl
@[simp] theorem setSys_pending (f : Sys → Sys) (s : State) : (setSys f s).pending = s.pending := rfl

/-! ### setNv -/

@[simp] theorem setNv_now (f : Nv → Nv) (s : State) : (setNv f s).now = s.now := rfl
@[simp] theorem setNv_tstamp (f : Nv → Nv) (s : State) : (setNv f s).tstamp = s.tstamp := rfl
@[simp] theorem setNv_tsRun (f : Nv → Nv) (s : State) : (setNv f s).tsRun = s.tsRun := rfl
@[simp] theorem setNv_free (f : Nv → Nv) (s : State) : (setNv f s).free = s.free := rfl
@[simp] theorem setNv_grid (f : Nv → Nv) (s : State) : (setNv f s).grid = s.grid := rfl
@[simp] theorem setNv_cfg (f : Nv → Nv) (s : State) : (setNv f s).cfg = s.cfg := rfl
@[simp] theorem setNv_sys (f : Nv → Nv) (s : State) : (setNv f s).sys = s.sys := rfl
@[simp] theorem setNv_ev (f : Nv → Nv) (s : State) : (setNv f s).ev = s.ev := rfl
@[simp] theorem setNv_nv (f : Nv → Nv) (s : State) : (setNv f s).nv = f s.nv := rfl
@[simp] theorem setNv_wf (f : Nv → Nv) (s : State) : (setNv f s).wf = s.wf := rfl
@[simp] theorem setNv_hd (f : Nv → Nv) (s : State) : (setNv f s).hd = s.hd := rfl
@[simp] theorem setNv_sc (f : Nv → Nv) (s : State) : (setNv f s).sc = s.sc := rfl
@[simp] theorem setNv_berth (f : Nv → Nv) (s : State) : (setNv f s).berth = s.berth := rfl
@[simp] theorem setNv_dc (f : Nv → Nv) (s : State) : (setNv f s).dc = s.dc := rfl
@[simp] theorem setNv_tg (f : Nv → Nv) (s : State) : (setNv f s).tg = s.tg := rfl
@[simp] theorem setNv_ports (f : Nv → Nv) (s : State) : (setNv f s).ports = s.ports := rfl
@[simp] theorem setNv_ck (f : Nv → Nv) (s : State) : (setNv f s).ck = s.ck := rfl
@[simp] theorem setNv_st (f : Nv → Nv) (s : State) : (setNv f s).st = s.st := rfl
@[simp] theorem setNv_cs (f : Nv → Nv) (s : State) : (setNv f s).cs = s.cs := rfl
@[simp] theorem setNv_db (f : Nv → Nv) (s : State) : (setNv f s).db = s.db := rfl
@[simp] theorem setNv_hb (f : Nv → Nv) (s : State) : (setNv f s).hb = s.hb := rfl
@[simp] theorem setNv_um (f : Nv → Nv) (s : State) : (setNv f s).um = s.um := rfl
@[simp] theorem setNv_pending (f : Nv → Nv) (s : State) : (setNv f s).pending = s.pending := rfl

/-! ### setEv -/

@[simp] theorem setEv_now (f : Ev → Ev) (s : State) : (setEv f s).now = s.now := rfl
@[simp] theorem setEv_tstamp (f : Ev → Ev) (s : State) : (setEv f s).tstamp = s.tstamp := rfl
@[simp] theorem setEv_tsRun (f : Ev → Ev) (s : State) : (setEv f s).tsRun = s.tsRun := rfl
@[simp] theorem setEv_free (f : Ev → Ev) (s : State) : (setEv f s).free = s.free := rfl
@[simp] theorem setEv_grid (f : Ev → Ev) (s : State) : (setEv f s).grid = s.grid := rfl
@[simp] theorem setEv_cfg (f : Ev → Ev) (s : State) : (setEv f s).cfg = s.cfg := rfl
@[simp] theorem setEv_sys (f : Ev → Ev) (s : State) : (setEv f s).sys = s.sys := rfl
@[simp] theorem setEv_ev (f : Ev → Ev) (s : State) : (setEv f s).ev = f s.ev := rfl
@[simp] theorem setEv_nv (f : Ev → Ev) (s : State) : (setEv f s).nv = s.nv := rfl
@[simp] theorem setEv_wf (f : Ev → Ev) (s : State) : (setEv f s).wf = s.wf := rfl
@[simp] theorem setEv_hd (f : Ev → Ev) (s : State) : (setEv f s).hd = s.hd := rfl
@[simp] theorem setEv_sc (f : Ev → Ev) (s : State) : (setEv f s).sc = s.sc := rfl
@[simp] theorem setEv_berth (f : Ev → Ev) (s : State) : (setEv f s).berth = s.berth := rfl
@[simp] theorem setEv_dc (f : Ev → Ev) (s : State) : (setEv f s).dc = s.dc := rfl
@[simp] theorem setEv_tg (f : Ev → Ev) (s : State) : (setEv f s).tg = s.tg := rfl
@[simp] theorem setEv_ports (f : Ev → Ev) (s : State) : (setEv f s).ports = s.ports := rfl
@[simp] theorem setEv_ck (f : Ev → Ev) (s : State) : (setEv f s).ck = s.ck := rfl
@[simp] theorem setEv_st (f : Ev → Ev) (s : State) : (setEv f s).st = s.st := rfl
@[simp] theorem setEv_cs (f : Ev → Ev) (s : State) : (setEv f s).cs = s.cs := rfl
@[simp] theorem setEv_db (f : Ev → Ev) (s : State) : (setEv f s).db = s.db := rfl
@[simp] theorem setEv_hb (f : Ev → Ev) (s : State) : (setEv f s).hb = s.hb := rfl
@[simp] theorem setEv_um (f : Ev → Ev) (s : State) : (setEv f s).um = s.um := rfl
@[simp] theorem setEv_pending (f : Ev → Ev) (s : State) : (setEv f s).pending = s.pending := rfl

/-! ### setCs -/

@[simp] theorem setCs_now (f : Cs → Cs) (s : State) : (setCs f s).now = s.now := rfl
@[simp] theorem setCs_tstamp (f : Cs → Cs) (s : State) : (setCs f s).tstamp = s.tstamp := rfl
@[simp] theorem setCs_tsRun (f : Cs → Cs) (s : State) : (setCs f s).tsRun = s.tsRun := rfl
@[simp] theorem setCs_free (f : Cs → Cs) (s : State) : (setCs f s).free = s.free := rfl
@[simp] theorem setCs_grid (f : Cs → Cs) (s : State) : (setCs f s).grid = s.grid := rfl
@[simp] theorem setCs_cfg (f : Cs → Cs) (s : State) : (setCs f s).cfg = s.cfg := rfl
@[simp] theorem setCs_sys (f : Cs → Cs) (s : State) : (setCs f s).sys = s.sys := rfl
@[simp] theorem setCs_ev (f : Cs → Cs) (s : State) : (setCs f s).ev = s.ev := rfl
@[simp] theorem setCs_nv (f : Cs → Cs) (s : State) : (setCs f s).nv = s.nv := rfl
@[simp] theorem setCs_wf (f : Cs → Cs) (s : State) : (setCs f s).wf = s.wf := rfl
@[simp] theorem setCs_hd (f : Cs → Cs) (s : State) : (setCs f s).hd = s.hd := rfl
@[simp] theorem setCs_sc (f : Cs → Cs) (s : State) : (setCs f s).sc = s.sc := rfl
@[simp] theorem setCs_berth (f : Cs → Cs) (s : State) : (setCs f s).berth = s.berth := rfl
@[simp] theorem setCs_dc (f : Cs → Cs) (s : State) : (setCs f s).dc = s.dc := rfl
@[simp] theorem setCs_tg (f : Cs → Cs) (s : State) : (setCs f s).tg = s.tg := rfl
@[simp] theorem setCs_ports (f : Cs → Cs) (s : State) : (setCs f s).ports = s.ports := rfl
@[simp] theorem setCs_ck (f : Cs → Cs) (s : State) : (setCs f s).ck = s.ck := rfl
@[simp] theorem setCs_st (f : Cs → Cs) (s : State) : (setCs f s).st = s.st := rfl
@[simp] theorem setCs_cs (f : Cs → Cs) (s : State) : (setCs f s).cs = f s.cs := rfl
@[simp] theorem setCs_db (f : Cs → Cs) (s : State) : (setCs f s).db = s.db := rfl
@[simp] theorem setCs_hb (f : Cs → Cs) (s : State) : (setCs f s).hb = s.hb := rfl
@[simp] theorem setCs_um (f : Cs → Cs) (s : State) : (setCs f s).um = s.um := rfl
@[simp] theorem setCs_pending (f : Cs → Cs) (s : State) : (setCs f s).pending = s.pending := rfl

/-! ### setDb -/

@[simp] theorem setDb_now (f : Db → Db) (s : State) : (setDb f s).now = s.now := rfl
@[simp] theorem setDb_tstamp (f : Db → Db) (s : State) : (setDb f s).tstamp = s.tstamp := rfl
@[simp] theorem setDb_tsRun (f : Db → Db) (s : State) : (setDb f s).tsRun = s.tsRun := rfl
@[simp] theorem setDb_free (f : Db → Db) (s : State) : (setDb f s).free = s.free := rfl
@[simp] theorem setDb_grid (f : Db → Db) (s : State) : (setDb f s).grid = s.grid := rfl
@[simp] theorem setDb_cfg (f : Db → Db) (s : State) : (setDb f s).cfg = s.cfg := rfl
@[simp] theorem setDb_sys (f : Db → Db) (s : State) : (setDb f s).sys = s.sys := rfl
@[simp] theorem setDb_ev (f : Db → Db) (s : State) : (setDb f s).ev = s.ev := rfl
@[simp] theorem setDb_nv (f : Db → Db) (s : State) : (setDb f s).nv = s.nv := rfl
@[simp] theorem setDb_wf (f : Db → Db) (s : State) : (setDb f s).wf = s.wf := rfl
@[simp] theorem setDb_hd (f : Db → Db) (s : State) : (setDb f s).hd = s.hd := rfl
@[simp] theorem setDb_sc (f : Db → Db) (s : State) : (setDb f s).sc = s.sc := rfl
@[simp] theorem setDb_berth (f : Db → Db) (s : State) : (setDb f s).berth = s.berth := rfl
@[simp] theorem setDb_dc (f : Db → Db) (s : State) : (setDb f s).dc = s.dc := rfl
@[simp] theorem setDb_tg (f : Db → Db) (s : State) : (setDb f s).tg = s.tg := rfl
@[simp] theorem setDb_ports (f : Db → Db) (s : State) : (setDb f s).ports = s.ports := rfl
@[simp] theorem setDb_ck (f : Db → Db) (s : State) : (setDb f s).ck = s.ck := rfl
@[simp] theorem setDb_st (f : Db → Db) (s : State) : (setDb f s).st = s.st := rfl
@[simp] theorem setDb_cs (f : Db → Db) (s : State) : (setDb f s).cs = s.cs := rfl
@[simp] theorem setDb_db (f : Db → Db) (s : State) : (setDb f s).db = f s.db := rfl
@[simp] theorem setDb_hb (f : Db → Db) (s : State) : (setDb f s).hb = s.hb := rfl
@[simp] theorem setDb_um (f : Db → Db) (s : State) : (setDb f s).um = s.um := rfl
@[simp] theorem setDb_pending (f : Db → Db) (s : State) : (setDb f s).pending = s.pending := rfl

/-! ### setSt -/

@[simp] theorem setSt_now (f : St → St) (s : State) : (setSt f s).now = s.now := rfl
@[simp] theorem setSt_tstamp (f : St → St) (s : State) : (setSt f s).tstamp = s.tstamp := rfl
@[simp] theorem setSt_tsRun (f : St → St) (s : State) : (setSt f s).tsRun = s.tsRun := rfl
@[simp] theorem setSt_free (f : St → St) (s : State) : (setSt f s).free = s.free := rfl
@[simp] theorem setSt_grid (f : St → St) (s : State) : (setSt f s).grid = s.grid := rfl
@[simp] theorem setSt_cfg (f : St → St) (s : State) : (setSt f s).cfg = s.cfg := rfl
@[simp] theorem setSt_sys (f : St → St) (s : State) : (setSt f s).sys = s.sys := rfl
@[simp] theorem setSt_ev (f : St → St) (s : State) : (setSt f s).ev = s.ev := rfl
@[simp] theorem setSt_nv (f : St → St) (s : State) : (setSt f s).nv = s.nv := rfl
@[simp] theorem setSt_wf (f : St → St) (s : State) : (setSt f s).wf = s.wf := rfl
@[simp] theorem setSt_hd (f : St → St) (s : State) : (setSt f s).hd = s.hd := rfl
@[simp] theorem setSt_sc (f : St → St) (s : State) : (setSt f s).sc = s.sc := rfl
@[simp] theorem setSt_berth (f : St → St) (s : State) : (setSt f s).berth = s.berth := rfl
@[simp] theorem setSt_dc (f : St → St) (s : State) : (setSt f s).dc = s.dc := rfl
@[simp] theorem setSt_tg (f : St → St) (s : State) : (setSt f s).tg = s.tg := rfl
@[simp] theorem setSt_ports (f : St → St) (s : State) : (setSt f s).ports = s.ports := rfl
@[simp] theorem setSt_ck (f : St → St) (s : State) : (setSt f s).ck = s.ck := rfl
@[simp] theorem setSt_st (f : St → St) (s : State) : (setSt f s).st = f s.st := rfl
@[simp] theorem setSt_cs (f : St → St) (s : State) : (setSt f s).cs = s.cs := rfl
@[simp] theorem setSt_db (f : St → St) (s : State) : (setSt f s).db = s.db := rfl
@[simp] theorem setSt_hb (f : St → St) (s : State) : (setSt f s).hb = s.hb := rfl
@[simp] theorem setSt_um (f : St → St) (s : State) : (setSt f s).um = s.um := rfl
@[simp] theorem setSt_pending (f : St → St) (s : State) : (setSt f s).pending = s.pending := rfl

/-! ### setTg -/

@[simp] theorem setTg_now (f : Tg → Tg) (s : State) : (setTg f s).now = s.now := rfl
@[simp] theorem setTg_tstamp (f : Tg → Tg) (s : State) : (setTg f s).tstamp = s.tstamp := rfl
@[simp] theorem setTg_tsRun (f : Tg → Tg) (s : State) : (setTg f s).tsRun = s.tsRun := rfl
@[simp] theorem setTg_free (f : Tg → Tg) (s : State) : (setTg f s).free = s.free := rfl
@[simp] theorem setTg_grid (f : Tg → Tg) (s : State) : (setTg f s).grid = s.grid := rfl
@[simp] theorem setTg_cfg (f : Tg → Tg) (s : State) : (setTg f s).cfg = s.cfg := rfl
@[simp] theorem setTg_sys (f : Tg → Tg) (s : State) : (setTg f s).sys = s.sys := rfl
@[simp] theorem setTg_ev (f : Tg → Tg) (s : State) : (setTg f s).ev = s.ev := rfl
@[simp] theorem setTg_nv (f : Tg → Tg) (s : State) : (setTg f s).nv = s.nv := rfl
@[simp] theorem setTg_wf (f : Tg → Tg) (s : State) : (setTg f s).wf = s.wf := rfl
@[simp] theorem setTg_hd (f : Tg → Tg) (s : State) : (setTg f s).hd = s.hd := rfl
@[simp] theorem setTg_sc (f : Tg → Tg) (s : State) : (setTg f s).sc = s.sc := rfl
@[simp] theorem setTg_berth (f : Tg → Tg) (s : State) : (setTg f s).berth = s.berth := rfl
@[simp] theorem setTg_dc (f : Tg → Tg) (s : State) : (setTg f s).dc = s.dc := rfl
@[simp] theorem setTg_tg (f : Tg → Tg) (s : State) : (setTg f s).tg = f s.tg := rfl
@[simp] theorem setTg_ports (f : Tg → Tg) (s : State) : (setTg f s).ports = s.ports := rfl
@[simp] theorem setTg_ck (f : Tg → Tg) (s : State) : (setTg f s).ck = s.ck := rfl
@[simp] theorem setTg_st (f : Tg → Tg) (s : State) : (setTg f s).st = s.st := rfl
@[simp] theorem setTg_cs (f : Tg → Tg) (s : State) : (setTg f s).cs = s.cs := rfl
@[simp] theorem setTg_db (f : Tg → Tg) (s : State) : (setTg f s).db = s.db := rfl
@[simp] theorem setTg_hb (f : Tg → Tg) (s : State) : (setTg f s).hb = s.hb := rfl
@[simp] theorem setTg_um (f : Tg → Tg) (s : State) : (setTg f s).um = s.um := rfl
@[simp] theorem setTg_pending (f : Tg → Tg) (s : State) : (setTg f s).pending = s.pending := rfl

/-! ### setHb -/

@[simp] theorem setHb_now (f : Hb → Hb) (s : State) : (setHb f s).now = s.now := rfl
@[simp] theorem setHb_tstamp (f : Hb → Hb) (s : State) : (setHb f s).tstamp = s.tstamp := rfl
@[simp] theorem setHb_tsRun (f : Hb → Hb) (s : State) : (setHb f s).tsRun = s.tsRun := rfl
@[simp] theorem setHb_free (f : Hb → Hb) (s : State) : (setHb f s).free = s.free := rfl
@[simp] theorem setHb_grid (f : Hb → Hb) (s : State) : (setHb f s).grid = s.grid := rfl
@[simp] theorem setHb_cfg (f : Hb → Hb) (s : State) : (setHb f s).cfg = s.cfg := rfl
@[simp] theorem setHb_sys (f : Hb → Hb) (s : State) : (setHb f s).sys = s.sys := rfl
@[simp] theorem setHb_ev (f : Hb → Hb) (s : State) : (setHb f s).ev = s.ev := rfl
@[simp] theorem setHb_nv (f : Hb → Hb) (s : State) : (setHb f s).nv = s.nv := rfl
@[simp] theorem setHb_wf (f : Hb → Hb) (s : State) : (setHb f s).wf = s.wf := rfl
@[simp] theorem setHb_hd (f : Hb → Hb) (s : State) : (setHb f s).hd = s.hd := rfl
@[simp] theorem setHb_sc (f : Hb → Hb) (s : State) : (setHb f s).sc = s.sc := rfl
@[simp] theorem setHb_berth (f : Hb → Hb) (s : State) : (setHb f s).berth = s.berth := rfl
@[simp] theorem setHb_dc (f : Hb → Hb) (s : State) : (setHb f s).dc = s.dc := rfl
@[simp] theorem setHb_tg (f : Hb → Hb) (s : State) : (setHb f s).tg = s.tg := rfl
@[simp] theorem setHb_ports (f : Hb → Hb) (s : State) : (setHb f s).ports = s.ports := rfl
@[simp] theorem setHb_ck (f : Hb → Hb) (s : State) : (setHb f s).ck = s.ck := rfl
@[simp] theorem setHb_st (f : Hb → Hb) (s : State) : (setHb f s).st = s.st := rfl
@[simp] theorem setHb_cs (f : Hb → Hb) (s : State) : (setHb f s).cs = s.cs := rfl
@[simp] theorem setHb_db (f : Hb → Hb) (s : State) : (setHb f s).db = s.db := rfl
@[simp] theorem setHb_hb (f : Hb → Hb) (s : State) : (setHb f s).hb = f s.hb := rfl
@[simp] theorem setHb_um (f : Hb → Hb) (s : State) : (setHb f s).um = s.um := rfl
@[simp] theorem setHb_pending (f : Hb → Hb) (s : State) : (setHb f s).pending = s.pending := rfl

/-! ### setCk -/

@[simp] theorem setCk_now (n : Fin 8) (f : Ck → Ck) (s : State) : (setCk n f s).now = s.now := rfl
@[simp] theorem setCk_tstamp (n : Fin 8) (f : Ck → Ck) (s : State) : (setCk n f s).tstamp = s.tstamp := rfl
@[simp] theorem setCk_tsRun (n : Fin 8) (f : Ck → Ck) (s : State) : (setCk n f s).tsRun = s.tsRun := rfl
@[simp] theorem setCk_free (n : Fin 8) (f : Ck → Ck) (s : State) : (setCk n f s).free = s.free := rfl
@[simp] theorem setCk_grid (n : Fin 8) (f : Ck → Ck) (s : State) : (setCk n f s).grid = s.grid := rfl
@[simp] theorem setCk_cfg (n : Fin 8) (f : Ck → Ck) (s : State) : (setCk n f s).cfg = s.cfg := rfl
@[simp] theorem setCk_sys (n : Fin 8) (f : Ck → Ck) (s : State) : (setCk n f s).sys = s.sys := rfl
@[simp] theorem setCk_ev (n : Fin 8) (f : Ck → Ck) (s : State) : (setCk n f s).ev = s.ev := rfl
@[simp] theorem setCk_nv (n : Fin 8) (f : Ck → Ck) (s : State) : (setCk n f s).nv = s.nv := rfl
@[simp] theorem setCk_wf (n : Fin 8) (f : Ck → Ck) (s : State) : (setCk n f s).wf = s.wf := rfl
@[simp] theorem setCk_hd (n : Fin 8) (f : Ck → Ck) (s : State) : (setCk n f s).hd = s.hd := rfl
@[simp] theorem setCk_sc (n : Fin 8) (f : Ck → Ck) (s : State) : (setCk n f s).sc = s.sc := rfl
@[simp] theorem setCk_berth (n : Fin 8) (f : Ck → Ck) (s : State) : (setCk n f s).berth = s.berth := rfl
@[simp] theorem setCk_dc (n : Fin 8) (f : Ck → Ck) (s : State) : (setCk n f s).dc = s.dc := rfl
@[simp] theorem setCk_tg (n : Fin 8) (f : Ck → Ck) (s : State) : (setCk n f s).tg = s.tg := rfl
@[simp] theorem setCk_ports (n : Fin 8) (f : Ck → Ck) (s : State) : (setCk n f s).ports = s.ports := rfl
@[simp] theorem setCk_ck (n : Fin 8) (f : Ck → Ck) (s : State) : (setCk n f s).ck = upd s.ck n f := rfl
@[simp] theorem setCk_st (n : Fin 8) (f : Ck → Ck) (s : State) : (setCk n f s).st = s.st := rfl
@[simp] theorem setCk_cs (n : Fin 8) (f : Ck → Ck) (s : State) : (setCk n f s).cs = s.cs := rfl
@[simp] theorem setCk_db (n : Fin 8) (f : Ck → Ck) (s : State) : (setCk n f s).db = s.db := rfl
@[simp] theorem setCk_hb (n : Fin 8) (f : Ck → Ck) (s : State) : (setCk n f s).hb = s.hb := rfl
@[simp] theorem setCk_um (n : Fin 8) (f : Ck → Ck) (s : State) : (setCk n f s).um = s.um := rfl
@[simp] theorem setCk_pending (n : Fin 8) (f : Ck → Ck) (s : State) : (setCk n f s).pending = s.pending := rfl

/-! ### setPort -/

@[simp] theorem setPort_now (p : Port) (f : PortRegs → PortRegs) (s : State) : (setPort p f s).now = s.now := rfl
@[simp] theorem setPort_tstamp (p : Port) (f : PortRegs → PortRegs) (s : State) : (setPort p f s).tstamp = s.tstamp := rfl
@[simp] theorem setPort_tsRun (p : Port) (f : PortRegs → PortRegs) (s : State) : (setPort p f s).tsRun = s.tsRun := rfl
@[simp] theorem setPort_free (p : Port) (f : PortRegs → PortRegs) (s : State) : (setPort p f s).free = s.free := rfl
@[simp] theorem setPort_grid (p : Port) (f : PortRegs → PortRegs) (s : State) : (setPort p f s).grid = s.grid := rfl
@[simp] theorem setPort_cfg (p : Port) (f : PortRegs → PortRegs) (s : State) : (setPort p f s).cfg = s.cfg := rfl
@[simp] theorem setPort_sys (p : Port) (f : PortRegs → PortRegs) (s : State) : (setPort p f s).sys = s.sys := rfl
@[simp] theorem setPort_ev (p : Port) (f : PortRegs → PortRegs) (s : State) : (setPort p f s).ev = s.ev := rfl
@[simp] theorem setPort_nv (p : Port) (f : PortRegs → PortRegs) (s : State) : (setPort p f s).nv = s.nv := rfl
@[simp] theorem setPort_wf (p : Port) (f : PortRegs → PortRegs) (s : State) : (setPort p f s).wf = s.wf := rfl
@[simp] theorem setPort_hd (p : Port) (f : PortRegs → PortRegs) (s : State) : (setPort p f s).hd = s.hd := rfl
@[simp] theorem setPort_sc (p : Port) (f : PortRegs → PortRegs) (s : State) : (setPort p f s).sc = s.sc := rfl
@[simp] theorem setPort_berth (p : Port) (f : PortRegs → PortRegs) (s : State) : (setPort p f s).berth = s.berth := rfl
@[simp] theorem setPort_dc (p : Port) (f : PortRegs → PortRegs) (s : State) : (setPort p f s).dc = s.dc := rfl
@[simp] theorem setPort_tg (p : Port) (f : PortRegs → PortRegs) (s : State) : (setPort p f s).tg = s.tg := rfl
@[simp] theorem setPort_ports (p : Port) (f : PortRegs → PortRegs) (s : State) : (setPort p f s).ports = s.ports := rfl
@[simp] theorem setPort_ck (p : Port) (f : PortRegs → PortRegs) (s : State) : (setPort p f s).ck = s.ck := rfl
@[simp] theorem setPort_st (p : Port) (f : PortRegs → PortRegs) (s : State) : (setPort p f s).st = s.st := rfl
@[simp] theorem setPort_cs (p : Port) (f : PortRegs → PortRegs) (s : State) : (setPort p f s).cs = s.cs := rfl
@[simp] theorem setPort_db (p : Port) (f : PortRegs → PortRegs) (s : State) : (setPort p f s).db = s.db := rfl
@[simp] theorem setPort_hb (p : Port) (f : PortRegs → PortRegs) (s : State) : (setPort p f s).hb = { s.hb with port := upd s.hb.port p.ix f } := rfl
@[simp] theorem setPort_um (p : Port) (f : PortRegs → PortRegs) (s : State) : (setPort p f s).um = s.um := rfl
@[simp] theorem setPort_pending (p : Port) (f : PortRegs → PortRegs) (s : State) : (setPort p f s).pending = s.pending := rfl

/-! ### setRing -/

@[simp] theorem setRing_now (n : Fin 8) (f : Ring → Ring) (s : State) : (setRing n f s).now = s.now := rfl
@[simp] theorem setRing_tstamp (n : Fin 8) (f : Ring → Ring) (s : State) : (setRing n f s).tstamp = s.tstamp := rfl
@[simp] theorem setRing_tsRun (n : Fin 8) (f : Ring → Ring) (s : State) : (setRing n f s).tsRun = s.tsRun := rfl
@[simp] theorem setRing_free (n : Fin 8) (f : Ring → Ring) (s : State) : (setRing n f s).free = s.free := rfl
@[simp] theorem setRing_grid (n : Fin 8) (f : Ring → Ring) (s : State) : (setRing n f s).grid = s.grid := rfl
@[simp] theorem setRing_cfg (n : Fin 8) (f : Ring → Ring) (s : State) : (setRing n f s).cfg = s.cfg := rfl
@[simp] theorem setRing_sys (n : Fin 8) (f : Ring → Ring) (s : State) : (setRing n f s).sys = s.sys := rfl
@[simp] theorem setRing_ev (n : Fin 8) (f : Ring → Ring) (s : State) : (setRing n f s).ev = { s.ev with rings := upd s.ev.rings n f } := rfl
@[simp] theorem setRing_nv (n : Fin 8) (f : Ring → Ring) (s : State) : (setRing n f s).nv = s.nv := rfl
@[simp] theorem setRing_wf (n : Fin 8) (f : Ring → Ring) (s : State) : (setRing n f s).wf = s.wf := rfl
@[simp] theorem setRing_hd (n : Fin 8) (f : Ring → Ring) (s : State) : (setRing n f s).hd = s.hd := rfl
@[simp] theorem setRing_sc (n : Fin 8) (f : Ring → Ring) (s : State) : (setRing n f s).sc = s.sc := rfl
@[simp] theorem setRing_berth (n : Fin 8) (f : Ring → Ring) (s : State) : (setRing n f s).berth = s.berth := rfl
@[simp] theorem setRing_dc (n : Fin 8) (f : Ring → Ring) (s : State) : (setRing n f s).dc = s.dc := rfl
@[simp] theorem setRing_tg (n : Fin 8) (f : Ring → Ring) (s : State) : (setRing n f s).tg = s.tg := rfl
@[simp] theorem setRing_ports (n : Fin 8) (f : Ring → Ring) (s : State) : (setRing n f s).ports = s.ports := rfl
@[simp] theorem setRing_ck (n : Fin 8) (f : Ring → Ring) (s : State) : (setRing n f s).ck = s.ck := rfl
@[simp] theorem setRing_st (n : Fin 8) (f : Ring → Ring) (s : State) : (setRing n f s).st = s.st := rfl
@[simp] theorem setRing_cs (n : Fin 8) (f : Ring → Ring) (s : State) : (setRing n f s).cs = s.cs := rfl
@[simp] theorem setRing_db (n : Fin 8) (f : Ring → Ring) (s : State) : (setRing n f s).db = s.db := rfl
@[simp] theorem setRing_hb (n : Fin 8) (f : Ring → Ring) (s : State) : (setRing n f s).hb = s.hb := rfl
@[simp] theorem setRing_um (n : Fin 8) (f : Ring → Ring) (s : State) : (setRing n f s).um = s.um := rfl
@[simp] theorem setRing_pending (n : Fin 8) (f : Ring → Ring) (s : State) : (setRing n f s).pending = s.pending := rfl

/-! ### setInput -/

@[simp] theorem setInput_now (n : Fin 64) (f : Input → Input) (s : State) : (setInput n f s).now = s.now := rfl
@[simp] theorem setInput_tstamp (n : Fin 64) (f : Input → Input) (s : State) : (setInput n f s).tstamp = s.tstamp := rfl
@[simp] theorem setInput_tsRun (n : Fin 64) (f : Input → Input) (s : State) : (setInput n f s).tsRun = s.tsRun := rfl
@[simp] theorem setInput_free (n : Fin 64) (f : Input → Input) (s : State) : (setInput n f s).free = s.free := rfl
@[simp] theorem setInput_grid (n : Fin 64) (f : Input → Input) (s : State) : (setInput n f s).grid = s.grid := rfl
@[simp] theorem setInput_cfg (n : Fin 64) (f : Input → Input) (s : State) : (setInput n f s).cfg = s.cfg := rfl
@[simp] theorem setInput_sys (n : Fin 64) (f : Input → Input) (s : State) : (setInput n f s).sys = s.sys := rfl
@[simp] theorem setInput_ev (n : Fin 64) (f : Input → Input) (s : State) : (setInput n f s).ev = s.ev := rfl
@[simp] theorem setInput_nv (n : Fin 64) (f : Input → Input) (s : State) : (setInput n f s).nv = s.nv := rfl
@[simp] theorem setInput_wf (n : Fin 64) (f : Input → Input) (s : State) : (setInput n f s).wf = { s.wf with input := upd s.wf.input n f } := rfl
@[simp] theorem setInput_hd (n : Fin 64) (f : Input → Input) (s : State) : (setInput n f s).hd = s.hd := rfl
@[simp] theorem setInput_sc (n : Fin 64) (f : Input → Input) (s : State) : (setInput n f s).sc = s.sc := rfl
@[simp] theorem setInput_berth (n : Fin 64) (f : Input → Input) (s : State) : (setInput n f s).berth = s.berth := rfl
@[simp] theorem setInput_dc (n : Fin 64) (f : Input → Input) (s : State) : (setInput n f s).dc = s.dc := rfl
@[simp] theorem setInput_tg (n : Fin 64) (f : Input → Input) (s : State) : (setInput n f s).tg = s.tg := rfl
@[simp] theorem setInput_ports (n : Fin 64) (f : Input → Input) (s : State) : (setInput n f s).ports = s.ports := rfl
@[simp] theorem setInput_ck (n : Fin 64) (f : Input → Input) (s : State) : (setInput n f s).ck = s.ck := rfl
@[simp] theorem setInput_st (n : Fin 64) (f : Input → Input) (s : State) : (setInput n f s).st = s.st := rfl
@[simp] theorem setInput_cs (n : Fin 64) (f : Input → Input) (s : State) : (setInput n f s).cs = s.cs := rfl
@[simp] theorem setInput_db (n : Fin 64) (f : Input → Input) (s : State) : (setInput n f s).db = s.db := rfl
@[simp] theorem setInput_hb (n : Fin 64) (f : Input → Input) (s : State) : (setInput n f s).hb = s.hb := rfl
@[simp] theorem setInput_um (n : Fin 64) (f : Input → Input) (s : State) : (setInput n f s).um = s.um := rfl
@[simp] theorem setInput_pending (n : Fin 64) (f : Input → Input) (s : State) : (setInput n f s).pending = s.pending := rfl

/-! ### setGroup -/

@[simp] theorem setGroup_now (g : Fin 8) (f : Group → Group) (s : State) : (setGroup g f s).now = s.now := rfl
@[simp] theorem setGroup_tstamp (g : Fin 8) (f : Group → Group) (s : State) : (setGroup g f s).tstamp = s.tstamp := rfl
@[simp] theorem setGroup_tsRun (g : Fin 8) (f : Group → Group) (s : State) : (setGroup g f s).tsRun = s.tsRun := rfl
@[simp] theorem setGroup_free (g : Fin 8) (f : Group → Group) (s : State) : (setGroup g f s).free = s.free := rfl
@[simp] theorem setGroup_grid (g : Fin 8) (f : Group → Group) (s : State) : (setGroup g f s).grid = s.grid := rfl
@[simp] theorem setGroup_cfg (g : Fin 8) (f : Group → Group) (s : State) : (setGroup g f s).cfg = s.cfg := rfl
@[simp] theorem setGroup_sys (g : Fin 8) (f : Group → Group) (s : State) : (setGroup g f s).sys = s.sys := rfl
@[simp] theorem setGroup_ev (g : Fin 8) (f : Group → Group) (s : State) : (setGroup g f s).ev = s.ev := rfl
@[simp] theorem setGroup_nv (g : Fin 8) (f : Group → Group) (s : State) : (setGroup g f s).nv = s.nv := rfl
@[simp] theorem setGroup_wf (g : Fin 8) (f : Group → Group) (s : State) : (setGroup g f s).wf = { s.wf with group := upd s.wf.group g f } := rfl
@[simp] theorem setGroup_hd (g : Fin 8) (f : Group → Group) (s : State) : (setGroup g f s).hd = s.hd := rfl
@[simp] theorem setGroup_sc (g : Fin 8) (f : Group → Group) (s : State) : (setGroup g f s).sc = s.sc := rfl
@[simp] theorem setGroup_berth (g : Fin 8) (f : Group → Group) (s : State) : (setGroup g f s).berth = s.berth := rfl
@[simp] theorem setGroup_dc (g : Fin 8) (f : Group → Group) (s : State) : (setGroup g f s).dc = s.dc := rfl
@[simp] theorem setGroup_tg (g : Fin 8) (f : Group → Group) (s : State) : (setGroup g f s).tg = s.tg := rfl
@[simp] theorem setGroup_ports (g : Fin 8) (f : Group → Group) (s : State) : (setGroup g f s).ports = s.ports := rfl
@[simp] theorem setGroup_ck (g : Fin 8) (f : Group → Group) (s : State) : (setGroup g f s).ck = s.ck := rfl
@[simp] theorem setGroup_st (g : Fin 8) (f : Group → Group) (s : State) : (setGroup g f s).st = s.st := rfl
@[simp] theorem setGroup_cs (g : Fin 8) (f : Group → Group) (s : State) : (setGroup g f s).cs = s.cs := rfl
@[simp] theorem setGroup_db (g : Fin 8) (f : Group → Group) (s : State) : (setGroup g f s).db = s.db := rfl
@[simp] theorem setGroup_hb (g : Fin 8) (f : Group → Group) (s : State) : (setGroup g f s).hb = s.hb := rfl
@[simp] theorem setGroup_um (g : Fin 8) (f : Group → Group) (s : State) : (setGroup g f s).um = s.um := rfl
@[simp] theorem setGroup_pending (g : Fin 8) (f : Group → Group) (s : State) : (setGroup g f s).pending = s.pending := rfl

/-! ### setLane -/

@[simp] theorem setLane_now (l : Fin 72) (f : Lane → Lane) (s : State) : (setLane l f s).now = s.now := rfl
@[simp] theorem setLane_tstamp (l : Fin 72) (f : Lane → Lane) (s : State) : (setLane l f s).tstamp = s.tstamp := rfl
@[simp] theorem setLane_tsRun (l : Fin 72) (f : Lane → Lane) (s : State) : (setLane l f s).tsRun = s.tsRun := rfl
@[simp] theorem setLane_free (l : Fin 72) (f : Lane → Lane) (s : State) : (setLane l f s).free = s.free := rfl
@[simp] theorem setLane_grid (l : Fin 72) (f : Lane → Lane) (s : State) : (setLane l f s).grid = s.grid := rfl
@[simp] theorem setLane_cfg (l : Fin 72) (f : Lane → Lane) (s : State) : (setLane l f s).cfg = s.cfg := rfl
@[simp] theorem setLane_sys (l : Fin 72) (f : Lane → Lane) (s : State) : (setLane l f s).sys = s.sys := rfl
@[simp] theorem setLane_ev (l : Fin 72) (f : Lane → Lane) (s : State) : (setLane l f s).ev = s.ev := rfl
@[simp] theorem setLane_nv (l : Fin 72) (f : Lane → Lane) (s : State) : (setLane l f s).nv = s.nv := rfl
@[simp] theorem setLane_wf (l : Fin 72) (f : Lane → Lane) (s : State) : (setLane l f s).wf = { s.wf with lane := upd s.wf.lane l f } := rfl
@[simp] theorem setLane_hd (l : Fin 72) (f : Lane → Lane) (s : State) : (setLane l f s).hd = s.hd := rfl
@[simp] theorem setLane_sc (l : Fin 72) (f : Lane → Lane) (s : State) : (setLane l f s).sc = s.sc := rfl
@[simp] theorem setLane_berth (l : Fin 72) (f : Lane → Lane) (s : State) : (setLane l f s).berth = s.berth := rfl
@[simp] theorem setLane_dc (l : Fin 72) (f : Lane → Lane) (s : State) : (setLane l f s).dc = s.dc := rfl
@[simp] theorem setLane_tg (l : Fin 72) (f : Lane → Lane) (s : State) : (setLane l f s).tg = s.tg := rfl
@[simp] theorem setLane_ports (l : Fin 72) (f : Lane → Lane) (s : State) : (setLane l f s).ports = s.ports := rfl
@[simp] theorem setLane_ck (l : Fin 72) (f : Lane → Lane) (s : State) : (setLane l f s).ck = s.ck := rfl
@[simp] theorem setLane_st (l : Fin 72) (f : Lane → Lane) (s : State) : (setLane l f s).st = s.st := rfl
@[simp] theorem setLane_cs (l : Fin 72) (f : Lane → Lane) (s : State) : (setLane l f s).cs = s.cs := rfl
@[simp] theorem setLane_db (l : Fin 72) (f : Lane → Lane) (s : State) : (setLane l f s).db = s.db := rfl
@[simp] theorem setLane_hb (l : Fin 72) (f : Lane → Lane) (s : State) : (setLane l f s).hb = s.hb := rfl
@[simp] theorem setLane_um (l : Fin 72) (f : Lane → Lane) (s : State) : (setLane l f s).um = s.um := rfl
@[simp] theorem setLane_pending (l : Fin 72) (f : Lane → Lane) (s : State) : (setLane l f s).pending = s.pending := rfl

/-! ### setHead -/

@[simp] theorem setHead_now (h : Fin 32) (f : Head → Head) (s : State) : (setHead h f s).now = s.now := rfl
@[simp] theorem setHead_tstamp (h : Fin 32) (f : Head → Head) (s : State) : (setHead h f s).tstamp = s.tstamp := rfl
@[simp] theorem setHead_tsRun (h : Fin 32) (f : Head → Head) (s : State) : (setHead h f s).tsRun = s.tsRun := rfl
@[simp] theorem setHead_free (h : Fin 32) (f : Head → Head) (s : State) : (setHead h f s).free = s.free := rfl
@[simp] theorem setHead_grid (h : Fin 32) (f : Head → Head) (s : State) : (setHead h f s).grid = s.grid := rfl
@[simp] theorem setHead_cfg (h : Fin 32) (f : Head → Head) (s : State) : (setHead h f s).cfg = s.cfg := rfl
@[simp] theorem setHead_sys (h : Fin 32) (f : Head → Head) (s : State) : (setHead h f s).sys = s.sys := rfl
@[simp] theorem setHead_ev (h : Fin 32) (f : Head → Head) (s : State) : (setHead h f s).ev = s.ev := rfl
@[simp] theorem setHead_nv (h : Fin 32) (f : Head → Head) (s : State) : (setHead h f s).nv = s.nv := rfl
@[simp] theorem setHead_wf (h : Fin 32) (f : Head → Head) (s : State) : (setHead h f s).wf = s.wf := rfl
@[simp] theorem setHead_hd (h : Fin 32) (f : Head → Head) (s : State) : (setHead h f s).hd = { s.hd with head := upd s.hd.head h f } := rfl
@[simp] theorem setHead_sc (h : Fin 32) (f : Head → Head) (s : State) : (setHead h f s).sc = s.sc := rfl
@[simp] theorem setHead_berth (h : Fin 32) (f : Head → Head) (s : State) : (setHead h f s).berth = s.berth := rfl
@[simp] theorem setHead_dc (h : Fin 32) (f : Head → Head) (s : State) : (setHead h f s).dc = s.dc := rfl
@[simp] theorem setHead_tg (h : Fin 32) (f : Head → Head) (s : State) : (setHead h f s).tg = s.tg := rfl
@[simp] theorem setHead_ports (h : Fin 32) (f : Head → Head) (s : State) : (setHead h f s).ports = s.ports := rfl
@[simp] theorem setHead_ck (h : Fin 32) (f : Head → Head) (s : State) : (setHead h f s).ck = s.ck := rfl
@[simp] theorem setHead_st (h : Fin 32) (f : Head → Head) (s : State) : (setHead h f s).st = s.st := rfl
@[simp] theorem setHead_cs (h : Fin 32) (f : Head → Head) (s : State) : (setHead h f s).cs = s.cs := rfl
@[simp] theorem setHead_db (h : Fin 32) (f : Head → Head) (s : State) : (setHead h f s).db = s.db := rfl
@[simp] theorem setHead_hb (h : Fin 32) (f : Head → Head) (s : State) : (setHead h f s).hb = s.hb := rfl
@[simp] theorem setHead_um (h : Fin 32) (f : Head → Head) (s : State) : (setHead h f s).um = s.um := rfl
@[simp] theorem setHead_pending (h : Fin 32) (f : Head → Head) (s : State) : (setHead h f s).pending = s.pending := rfl

/-! ### setSect -/

@[simp] theorem setSect_now (i : Fin 32) (f : Sect → Sect) (s : State) : (setSect i f s).now = s.now := rfl
@[simp] theorem setSect_tstamp (i : Fin 32) (f : Sect → Sect) (s : State) : (setSect i f s).tstamp = s.tstamp := rfl
@[simp] theorem setSect_tsRun (i : Fin 32) (f : Sect → Sect) (s : State) : (setSect i f s).tsRun = s.tsRun := rfl
@[simp] theorem setSect_free (i : Fin 32) (f : Sect → Sect) (s : State) : (setSect i f s).free = s.free := rfl
@[simp] theorem setSect_grid (i : Fin 32) (f : Sect → Sect) (s : State) : (setSect i f s).grid = s.grid := rfl
@[simp] theorem setSect_cfg (i : Fin 32) (f : Sect → Sect) (s : State) : (setSect i f s).cfg = s.cfg := rfl
@[simp] theorem setSect_sys (i : Fin 32) (f : Sect → Sect) (s : State) : (setSect i f s).sys = s.sys := rfl
@[simp] theorem setSect_ev (i : Fin 32) (f : Sect → Sect) (s : State) : (setSect i f s).ev = s.ev := rfl
@[simp] theorem setSect_nv (i : Fin 32) (f : Sect → Sect) (s : State) : (setSect i f s).nv = s.nv := rfl
@[simp] theorem setSect_wf (i : Fin 32) (f : Sect → Sect) (s : State) : (setSect i f s).wf = s.wf := rfl
@[simp] theorem setSect_hd (i : Fin 32) (f : Sect → Sect) (s : State) : (setSect i f s).hd = s.hd := rfl
@[simp] theorem setSect_sc (i : Fin 32) (f : Sect → Sect) (s : State) : (setSect i f s).sc = { s.sc with sect := upd s.sc.sect i f } := rfl
@[simp] theorem setSect_berth (i : Fin 32) (f : Sect → Sect) (s : State) : (setSect i f s).berth = s.berth := rfl
@[simp] theorem setSect_dc (i : Fin 32) (f : Sect → Sect) (s : State) : (setSect i f s).dc = s.dc := rfl
@[simp] theorem setSect_tg (i : Fin 32) (f : Sect → Sect) (s : State) : (setSect i f s).tg = s.tg := rfl
@[simp] theorem setSect_ports (i : Fin 32) (f : Sect → Sect) (s : State) : (setSect i f s).ports = s.ports := rfl
@[simp] theorem setSect_ck (i : Fin 32) (f : Sect → Sect) (s : State) : (setSect i f s).ck = s.ck := rfl
@[simp] theorem setSect_st (i : Fin 32) (f : Sect → Sect) (s : State) : (setSect i f s).st = s.st := rfl
@[simp] theorem setSect_cs (i : Fin 32) (f : Sect → Sect) (s : State) : (setSect i f s).cs = s.cs := rfl
@[simp] theorem setSect_db (i : Fin 32) (f : Sect → Sect) (s : State) : (setSect i f s).db = s.db := rfl
@[simp] theorem setSect_hb (i : Fin 32) (f : Sect → Sect) (s : State) : (setSect i f s).hb = s.hb := rfl
@[simp] theorem setSect_um (i : Fin 32) (f : Sect → Sect) (s : State) : (setSect i f s).um = s.um := rfl
@[simp] theorem setSect_pending (i : Fin 32) (f : Sect → Sect) (s : State) : (setSect i f s).pending = s.pending := rfl

/-! ### setChan -/

@[simp] theorem setChan_now (c : Fin 16) (f : Chan → Chan) (s : State) : (setChan c f s).now = s.now := rfl
@[simp] theorem setChan_tstamp (c : Fin 16) (f : Chan → Chan) (s : State) : (setChan c f s).tstamp = s.tstamp := rfl
@[simp] theorem setChan_tsRun (c : Fin 16) (f : Chan → Chan) (s : State) : (setChan c f s).tsRun = s.tsRun := rfl
@[simp] theorem setChan_free (c : Fin 16) (f : Chan → Chan) (s : State) : (setChan c f s).free = s.free := rfl
@[simp] theorem setChan_grid (c : Fin 16) (f : Chan → Chan) (s : State) : (setChan c f s).grid = s.grid := rfl
@[simp] theorem setChan_cfg (c : Fin 16) (f : Chan → Chan) (s : State) : (setChan c f s).cfg = s.cfg := rfl
@[simp] theorem setChan_sys (c : Fin 16) (f : Chan → Chan) (s : State) : (setChan c f s).sys = s.sys := rfl
@[simp] theorem setChan_ev (c : Fin 16) (f : Chan → Chan) (s : State) : (setChan c f s).ev = s.ev := rfl
@[simp] theorem setChan_nv (c : Fin 16) (f : Chan → Chan) (s : State) : (setChan c f s).nv = s.nv := rfl
@[simp] theorem setChan_wf (c : Fin 16) (f : Chan → Chan) (s : State) : (setChan c f s).wf = s.wf := rfl
@[simp] theorem setChan_hd (c : Fin 16) (f : Chan → Chan) (s : State) : (setChan c f s).hd = s.hd := rfl
@[simp] theorem setChan_sc (c : Fin 16) (f : Chan → Chan) (s : State) : (setChan c f s).sc = s.sc := rfl
@[simp] theorem setChan_berth (c : Fin 16) (f : Chan → Chan) (s : State) : (setChan c f s).berth = s.berth := rfl
@[simp] theorem setChan_dc (c : Fin 16) (f : Chan → Chan) (s : State) : (setChan c f s).dc = { s.dc with chan := upd s.dc.chan c f } := rfl
@[simp] theorem setChan_tg (c : Fin 16) (f : Chan → Chan) (s : State) : (setChan c f s).tg = s.tg := rfl
@[simp] theorem setChan_ports (c : Fin 16) (f : Chan → Chan) (s : State) : (setChan c f s).ports = s.ports := rfl
@[simp] theorem setChan_ck (c : Fin 16) (f : Chan → Chan) (s : State) : (setChan c f s).ck = s.ck := rfl
@[simp] theorem setChan_st (c : Fin 16) (f : Chan → Chan) (s : State) : (setChan c f s).st = s.st := rfl
@[simp] theorem setChan_cs (c : Fin 16) (f : Chan → Chan) (s : State) : (setChan c f s).cs = s.cs := rfl
@[simp] theorem setChan_db (c : Fin 16) (f : Chan → Chan) (s : State) : (setChan c f s).db = s.db := rfl
@[simp] theorem setChan_hb (c : Fin 16) (f : Chan → Chan) (s : State) : (setChan c f s).hb = s.hb := rfl
@[simp] theorem setChan_um (c : Fin 16) (f : Chan → Chan) (s : State) : (setChan c f s).um = s.um := rfl
@[simp] theorem setChan_pending (c : Fin 16) (f : Chan → Chan) (s : State) : (setChan c f s).pending = s.pending := rfl

/-! ### setContact -/

@[simp] theorem setContact_now (i : Fin 66) (f : Contact → Contact) (s : State) : (setContact i f s).now = s.now := rfl
@[simp] theorem setContact_tstamp (i : Fin 66) (f : Contact → Contact) (s : State) : (setContact i f s).tstamp = s.tstamp := rfl
@[simp] theorem setContact_tsRun (i : Fin 66) (f : Contact → Contact) (s : State) : (setContact i f s).tsRun = s.tsRun := rfl
@[simp] theorem setContact_free (i : Fin 66) (f : Contact → Contact) (s : State) : (setContact i f s).free = s.free := rfl
@[simp] theorem setContact_grid (i : Fin 66) (f : Contact → Contact) (s : State) : (setContact i f s).grid = s.grid := rfl
@[simp] theorem setContact_cfg (i : Fin 66) (f : Contact → Contact) (s : State) : (setContact i f s).cfg = s.cfg := rfl
@[simp] theorem setContact_sys (i : Fin 66) (f : Contact → Contact) (s : State) : (setContact i f s).sys = s.sys := rfl
@[simp] theorem setContact_ev (i : Fin 66) (f : Contact → Contact) (s : State) : (setContact i f s).ev = s.ev := rfl
@[simp] theorem setContact_nv (i : Fin 66) (f : Contact → Contact) (s : State) : (setContact i f s).nv = s.nv := rfl
@[simp] theorem setContact_wf (i : Fin 66) (f : Contact → Contact) (s : State) : (setContact i f s).wf = s.wf := rfl
@[simp] theorem setContact_hd (i : Fin 66) (f : Contact → Contact) (s : State) : (setContact i f s).hd = s.hd := rfl
@[simp] theorem setContact_sc (i : Fin 66) (f : Contact → Contact) (s : State) : (setContact i f s).sc = s.sc := rfl
@[simp] theorem setContact_berth (i : Fin 66) (f : Contact → Contact) (s : State) : (setContact i f s).berth = s.berth := rfl
@[simp] theorem setContact_dc (i : Fin 66) (f : Contact → Contact) (s : State) : (setContact i f s).dc = { s.dc with contact := upd s.dc.contact i f } := rfl
@[simp] theorem setContact_tg (i : Fin 66) (f : Contact → Contact) (s : State) : (setContact i f s).tg = s.tg := rfl
@[simp] theorem setContact_ports (i : Fin 66) (f : Contact → Contact) (s : State) : (setContact i f s).ports = s.ports := rfl
@[simp] theorem setContact_ck (i : Fin 66) (f : Contact → Contact) (s : State) : (setContact i f s).ck = s.ck := rfl
@[simp] theorem setContact_st (i : Fin 66) (f : Contact → Contact) (s : State) : (setContact i f s).st = s.st := rfl
@[simp] theorem setContact_cs (i : Fin 66) (f : Contact → Contact) (s : State) : (setContact i f s).cs = s.cs := rfl
@[simp] theorem setContact_db (i : Fin 66) (f : Contact → Contact) (s : State) : (setContact i f s).db = s.db := rfl
@[simp] theorem setContact_hb (i : Fin 66) (f : Contact → Contact) (s : State) : (setContact i f s).hb = s.hb := rfl
@[simp] theorem setContact_um (i : Fin 66) (f : Contact → Contact) (s : State) : (setContact i f s).um = s.um := rfl
@[simp] theorem setContact_pending (i : Fin 66) (f : Contact → Contact) (s : State) : (setContact i f s).pending = s.pending := rfl

/-! ### setEth -/

@[simp] theorem setEth_now (x : Fin 2) (f : Eth → Eth) (s : State) : (setEth x f s).now = s.now := rfl
@[simp] theorem setEth_tstamp (x : Fin 2) (f : Eth → Eth) (s : State) : (setEth x f s).tstamp = s.tstamp := rfl
@[simp] theorem setEth_tsRun (x : Fin 2) (f : Eth → Eth) (s : State) : (setEth x f s).tsRun = s.tsRun := rfl
@[simp] theorem setEth_free (x : Fin 2) (f : Eth → Eth) (s : State) : (setEth x f s).free = s.free := rfl
@[simp] theorem setEth_grid (x : Fin 2) (f : Eth → Eth) (s : State) : (setEth x f s).grid = s.grid := rfl
@[simp] theorem setEth_cfg (x : Fin 2) (f : Eth → Eth) (s : State) : (setEth x f s).cfg = s.cfg := rfl
@[simp] theorem setEth_sys (x : Fin 2) (f : Eth → Eth) (s : State) : (setEth x f s).sys = s.sys := rfl
@[simp] theorem setEth_ev (x : Fin 2) (f : Eth → Eth) (s : State) : (setEth x f s).ev = s.ev := rfl
@[simp] theorem setEth_nv (x : Fin 2) (f : Eth → Eth) (s : State) : (setEth x f s).nv = s.nv := rfl
@[simp] theorem setEth_wf (x : Fin 2) (f : Eth → Eth) (s : State) : (setEth x f s).wf = s.wf := rfl
@[simp] theorem setEth_hd (x : Fin 2) (f : Eth → Eth) (s : State) : (setEth x f s).hd = s.hd := rfl
@[simp] theorem setEth_sc (x : Fin 2) (f : Eth → Eth) (s : State) : (setEth x f s).sc = s.sc := rfl
@[simp] theorem setEth_berth (x : Fin 2) (f : Eth → Eth) (s : State) : (setEth x f s).berth = s.berth := rfl
@[simp] theorem setEth_dc (x : Fin 2) (f : Eth → Eth) (s : State) : (setEth x f s).dc = s.dc := rfl
@[simp] theorem setEth_tg (x : Fin 2) (f : Eth → Eth) (s : State) : (setEth x f s).tg = s.tg := rfl
@[simp] theorem setEth_ports (x : Fin 2) (f : Eth → Eth) (s : State) : (setEth x f s).ports = { s.ports with eth := upd s.ports.eth x f } := rfl
@[simp] theorem setEth_ck (x : Fin 2) (f : Eth → Eth) (s : State) : (setEth x f s).ck = s.ck := rfl
@[simp] theorem setEth_st (x : Fin 2) (f : Eth → Eth) (s : State) : (setEth x f s).st = s.st := rfl
@[simp] theorem setEth_cs (x : Fin 2) (f : Eth → Eth) (s : State) : (setEth x f s).cs = s.cs := rfl
@[simp] theorem setEth_db (x : Fin 2) (f : Eth → Eth) (s : State) : (setEth x f s).db = s.db := rfl
@[simp] theorem setEth_hb (x : Fin 2) (f : Eth → Eth) (s : State) : (setEth x f s).hb = s.hb := rfl
@[simp] theorem setEth_um (x : Fin 2) (f : Eth → Eth) (s : State) : (setEth x f s).um = s.um := rfl
@[simp] theorem setEth_pending (x : Fin 2) (f : Eth → Eth) (s : State) : (setEth x f s).pending = s.pending := rfl

/-! ### setCan -/

@[simp] theorem setCan_now (x : Fin 2) (f : Can → Can) (s : State) : (setCan x f s).now = s.now := rfl
@[simp] theorem setCan_tstamp (x : Fin 2) (f : Can → Can) (s : State) : (setCan x f s).tstamp = s.tstamp := rfl
@[simp] theorem setCan_tsRun (x : Fin 2) (f : Can → Can) (s : State) : (setCan x f s).tsRun = s.tsRun := rfl
@[simp] theorem setCan_free (x : Fin 2) (f : Can → Can) (s : State) : (setCan x f s).free = s.free := rfl
@[simp] theorem setCan_grid (x : Fin 2) (f : Can → Can) (s : State) : (setCan x f s).grid = s.grid := rfl
@[simp] theorem setCan_cfg (x : Fin 2) (f : Can → Can) (s : State) : (setCan x f s).cfg = s.cfg := rfl
@[simp] theorem setCan_sys (x : Fin 2) (f : Can → Can) (s : State) : (setCan x f s).sys = s.sys := rfl
@[simp] theorem setCan_ev (x : Fin 2) (f : Can → Can) (s : State) : (setCan x f s).ev = s.ev := rfl
@[simp] theorem setCan_nv (x : Fin 2) (f : Can → Can) (s : State) : (setCan x f s).nv = s.nv := rfl
@[simp] theorem setCan_wf (x : Fin 2) (f : Can → Can) (s : State) : (setCan x f s).wf = s.wf := rfl
@[simp] theorem setCan_hd (x : Fin 2) (f : Can → Can) (s : State) : (setCan x f s).hd = s.hd := rfl
@[simp] theorem setCan_sc (x : Fin 2) (f : Can → Can) (s : State) : (setCan x f s).sc = s.sc := rfl
@[simp] theorem setCan_berth (x : Fin 2) (f : Can → Can) (s : State) : (setCan x f s).berth = s.berth := rfl
@[simp] theorem setCan_dc (x : Fin 2) (f : Can → Can) (s : State) : (setCan x f s).dc = s.dc := rfl
@[simp] theorem setCan_tg (x : Fin 2) (f : Can → Can) (s : State) : (setCan x f s).tg = s.tg := rfl
@[simp] theorem setCan_ports (x : Fin 2) (f : Can → Can) (s : State) : (setCan x f s).ports = { s.ports with can := upd s.ports.can x f } := rfl
@[simp] theorem setCan_ck (x : Fin 2) (f : Can → Can) (s : State) : (setCan x f s).ck = s.ck := rfl
@[simp] theorem setCan_st (x : Fin 2) (f : Can → Can) (s : State) : (setCan x f s).st = s.st := rfl
@[simp] theorem setCan_cs (x : Fin 2) (f : Can → Can) (s : State) : (setCan x f s).cs = s.cs := rfl
@[simp] theorem setCan_db (x : Fin 2) (f : Can → Can) (s : State) : (setCan x f s).db = s.db := rfl
@[simp] theorem setCan_hb (x : Fin 2) (f : Can → Can) (s : State) : (setCan x f s).hb = s.hb := rfl
@[simp] theorem setCan_um (x : Fin 2) (f : Can → Can) (s : State) : (setCan x f s).um = s.um := rfl
@[simp] theorem setCan_pending (x : Fin 2) (f : Can → Can) (s : State) : (setCan x f s).pending = s.pending := rfl

end Sys2Proof.Machine
end

