-- ==== Sys2Proof/WellFormed.lean ====
section
/-! DEFINITION. Which commands the outside of the block can bring. The machine answers an ill-formed command too. -/

namespace Sys2Proof

/-- Each entry is at least the one before it. -/
def rising : List Nat → Bool
  | a :: b :: l => decide (a ≤ b) && rising (b :: l)
  | _ => true

/-- One rising end time for each of `n` steps. -/
def stepTimes (n : Nat) (l : List Nat) : Bool := l.length = n && rising l

/-- Every entry is at most its limit. -/
def within : List Nat → List Nat → Bool
  | a :: l, b :: m => decide (a ≤ b) && within l m
  | _, _ => true

/-- A PROVE finding (Table SY-7): nine end times within the limits of the table, and a clock code of Table SY-12. -/
def proveForm (f : ProveFindings) : Bool :=
  stepTimes 9 f.ends && within f.ends [2000, 7000, 257000, 457000, 857000, 1457000, 1757000, 1767000, 1769000] &&
    decide (f.clock.toNat ≤ 4)

/-- A load finding (Table SY-8). -/
def loadForm (f : LoadFindings) : Bool :=
  stepTimes 6 f.ends && within f.ends [20000, 60000, 140000, 180000, 200000, 220000]

/-- Commit times (Table LV-4), each longer by up to 60 ms during a change-log retirement (R501). -/
def commitTimes (l : List Nat) : Bool := stepTimes 6 l && within l [310000, 460000, 610000, 620000, 630000, 640000]

/-- A data length of a CAN FD frame, or of a classic frame (R376). -/
def canForm (f : CanFrame) : Bool :=
  let n := f.data.length
  if f.classic then decide (n ≤ 8) else decide (n ≤ 8) || [12, 16, 20, 24, 32, 48, 64].contains n

/-- A block code of Table SY-15, 0 for none. -/
def diagForm (i : TickInputs) : Bool := decide (i.diag.toNat ≤ 8)

/-- A USB request: an IN request brings no data, an OUT request no more than wLength (R716). -/
def usbForm (r : UsbReq) : Bool :=
  if r.rtype.getLsbD 7 then r.data.isEmpty else decide (r.data.length ≤ r.length.toNat)

/-- The form of a command's operands. -/
def wellFormed (i : Instr) : Bool :=
  match i with
  | .brownOut supply _ _ => supply != 0
  | .prove _ f => proveForm f
  | .configurationLoad _ f => loadForm f
  | .safetyTick i => diagForm i
  | .commitImage _ _ f => commitTimes f.ends
  | .usbCommit r f => usbForm r && commitTimes f.ends
  | .writeRegs r f => usbForm r && commitTimes f.ends
  | .canFrameReceive _ f => canForm f
  | .canError _ e => decide (1 ≤ e.lec.toNat) && decide (e.lec.toNat ≤ 6)
  | .getStatus r => usbForm r
  | .clearFeature r => usbForm r
  | .setFeature r => usbForm r
  | .setAddress r => usbForm r
  | .getDescriptor r => usbForm r
  | .getConfiguration r => usbForm r
  | .setConfiguration r => usbForm r
  | .getInterface r => usbForm r
  | .setInterface r => usbForm r
  | .getInfo r => usbForm r
  | .readRegs r => usbForm r
  | .getLast r => usbForm r
  | .usbLogin r => usbForm r
  | .usbLogout r => usbForm r
  | .usbSetpwd r _ _ => usbForm r
  | .usbClearstage r => usbForm r
  | .stage r _ => usbForm r
  | .commitStatus r => usbForm r
  | .logStart r => usbForm r
  | .logStop r => usbForm r
  | .usbUnlock r => usbForm r
  | .resetDevice r => usbForm r
  | .powerOnReset | .rstdLowPulse .. | .resetExit .. | .pllLockTimeout .. | .laneSample .. | .headBusy ..
  | .standingTimeout .. | .walk .. | .tackRefreshDone .. | .sectionMaskMismatch .. | .maskReloadDone ..
  | .countCopyMismatch .. | .sectionResetApply | .provingStart .. | .agreementWindowExpiry .. | .burstStart ..
  | .burstEnd .. | .provingOverdue .. | .faultCheckExpiry .. | .inputFaultClear .. | .groupReferenceFault ..
  | .proveRequest .. | .contactSample .. | .contactFilterExpiry .. | .pairDiscrepancyTimeout .. | .obPairRecovery ..
  | .tpsPulse .. | .darkCheck .. | .sourceFault .. | .tachEdge .. | .tachTimeout .. | .stoDarkPulse .. | .dcUnlock ..
  | .unlockStageTestDone .. | .degradedMinute .. | .degradedTimerExpiry .. | .stopSequenceComplete
  | .configureRequest .. | .restartRequest .. | .hostResetRequest .. | .clockWindow .. | .pinReadbackSample ..
  | .temperatureSafe .. | .copyReceive .. | .slotExpiry .. | .lapse .. | .ethernetCycle | .canCycle
  | .ethFrameReceive .. | .ethTransmitDone .. | .mdioPoll .. | .portStart | .mdioReadRequest .. | .mdioReadDone ..
  | .canTransmitDone .. | .busOffRecoveryDone .. | .canRecover .. | .standbyExit | .snoopBlock .. | .ckblkDone ..
  | .ckSelfTest .. | .ckSelfTestOverdue .. | .eventFabricWrite | .ringPop .. | .ringAgeExpiry .. | .routeTableMismatch
  | .ringControlMismatch .. | .ledgerAppend .. | .retirementDone | .appendEngineTimeout .. | .faultCellMinute ..
  | .vaultWrite .. | .vaultWearMove | .passwordBufferWrite .. | .login .. | .logout .. | .setpwd .. | .clearstage ..
  | .clearstageDone | .loginTimeout .. | .loginLockExpiry | .chunkOpen .. | .chunkData .. | .chunkComplete ..
  | .fetchLedgerRecord .. | .fetchFaultCell .. | .fetchChangeLogEntry .. | .lgRdataRead .. | .faultCellClear ..
  | .readVerify .. | .burnishRead .. | .rowStitchDone | .stitchMapAppend .. | .burnishOverrun .. | .telemetrySample ..
  | .telemetrySelect .. | .telemetryRead .. | .scanStart | .interruptEntry | .cantleTimerExpiry
  | .instructionRewriteDone .. | .addR .. | .subR .. | .andR .. | .orR .. | .xorR .. | .sll .. | .srl .. | .sra ..
  | .slt .. | .sltu .. | .mul .. | .addi .. | .andi .. | .ori .. | .xori .. | .slti .. | .sltiu .. | .slli ..
  | .srli .. | .srai .. | .lui .. | .lw .. | .lh .. | .lhu .. | .lb .. | .lbu .. | .sw .. | .sh .. | .sb .. | .beq ..
  | .bne .. | .blt .. | .bge .. | .bltu .. | .bgeu .. | .jal .. | .jalr .. | .loopH .. | .ckinit .. | .ckset ..
  | .ckexp .. | .ckfeed .. | .ckblk .. | .ckget .. | .ckfin .. | .ckcmp .. | .mfs .. | .mts .. | .rth .. | .scanw ..
  | .waitd .. | .brk .. | .vtPut .. | .vtGet .. | .mailboxSend .. | .mailboxAck .. | .cantleHalt ..
  | .cantleRestart .. | .cantleReloadDone | .debugFrame .. | .debugFrameReset .. | .sessionOpen .. | .sessionClose ..
  | .sessionTimeout | .debugStop .. | .debugResume .. | .debugStep .. | .debugRegisterAccess ..
  | .debugMemoryAccess .. | .debugWithdraw .. | .withdrawCopyMismatch | .vtOutputRead .. | .vtInputWrite ..
  | .registerWrite .. | .strobeConflict | .snapshotRead .. | .ownerClaim .. | .ownerRelease .. | .ownerForce ..
  | .downloadInToken .. | .usbBusReset | .vbusChange .. | .usbSuspend | .eraseAhead .. | .usbResume => true

end Sys2Proof
end

