-- ==== Sys2Proof/Tests/Slice0.lean ====
section
/-! SUPPORT. Tests: states and operands that meet the hypotheses of every clause of the statements, ill-formed commands that the
check refuses, and values of the spec's tables.

`test_met_<Name>` names states (below) and operands at which the hypotheses of each clause of the statement `<Name>` hold together; a clause
with several forms of its condition, or a bound, stands at several. Where a statement joins others, the docstring names it. -/

namespace Sys2Proof.Tests

set_option Elab.async false

open Sys2Proof Sys2Proof.Machine

/-! ### Small states -/

def setCfg (f : Image → Image) (s : State) : State := { s with cfg := f s.cfg }
def setSc (f : Sc → Sc) (s : State) : State := { s with sc := f s.sc }
def setDc (f : Dc → Dc) (s : State) : State := { s with dc := f s.dc }
def setWf (f : Wf → Wf) (s : State) : State := { s with wf := f s.wf }
def setPorts (f : Ports → Ports) (s : State) : State := { s with ports := f s.ports }
def setUm (f : Um → Um) (s : State) : State := { s with um := f s.um }
def setVault (f : Vault → Vault) (s : State) : State := setNv (fun v => { v with vault := f v.vault }) s
def setLogin (p : Fin 2) (f : Login → Login) (s : State) : State := setNv (fun v => { v with login := upd v.login p f }) s
def time (n : Nat) (s : State) : State := { s with now := n, tstamp := BitVec.ofNat 48 n }
def mode (m : Mode) (s : State) : State := setSys (fun y => { y with mode := m }) s

/-- A state with an image in a mode. -/
def in_ (m : Mode) : State := setSys (fun y => { y with mode := m, loaded := true }) State.reset

/-- OPERATE with nothing configured. -/
def op : State := in_ .operate

/-- OPERATE with input 0 in a mode, threshold 100 and hysteresis 10. -/
def laneCfg (m : Nat) (bit : Nat) : State :=
  setCfg (fun c => { c with input := upd c.input 0 fun y => { y with icfg := BitVec.ofNat 16 (m + bit), ith := 100, ihy := 10 } }) op

/-- This instant is a sample of the lanes. -/
def sampled (s : State) : State := { s with grid := { s.grid with lane := some s.now } }

/-- OPERATE with head 1 enabled over inputs 0 and 8. -/
def headed : State :=
  setCfg (fun c => { c with head := upd c.head 1 fun y => { y with cfg := 0x8200, tstand := 1 }, input := c.input.map fun y => { y with icfg := 1 } }) op

/-- An axle of head 2 that waits for its walk. -/
def walkEntry : WEntry := { head := 2, inward := true, ts := 0, at_ := 0, seq := 0 }

/-- OPERATE with one waiting axle of head 2, whose one link goes to section 5, turned about. -/
def walking : State :=
  setSc (fun y => { y with
    fifo := [walkEntry],
    tack := memWriteList 0 [] 0x7E018 (bytesLE 4 (2 * 2 ^ 26 + 2 ^ 20 + 0x7E100)) |> fun m =>
      memWriteList 0 m 0x7E100 (bytesLE 4 ((0xFFFF - 37) * 2 ^ 16 + 37)) }) (setHead 2 (fun y => { y with mask1 := 0x20 }) op)

/-- OPERATE with section 5 disturbed, bounded by head 1 idle for 10 s, and one reset order waiting. -/
def ordered (direct : Bool) (cfg : W16) : State :=
  setCfg (fun c => { c with section_ := c.section_.set 5 cfg })
    (setHead 1 (fun y => { y with phase := .idle, idleSince := some 0, mask1 := 0x20 })
      (setSect 5 (fun y => { y with st := .disturbed }) (setSc (fun y => { y with orders := [⟨5, direct, 9⟩] })
        (time 10000000 headed))))

/-- OPERATE with door channel 15 enabled in its parts (cfg), with every time at its least. -/
def door (cfg : W16) : State :=
  setCfg (fun c => { c with chan := upd c.chan 15 fun y => { y with cfg := cfg, time := 0x0101, disc := 0x0101 } }) op

/-- The slot of output A of channel 15, after its tick. -/
def darkAt15 (s : State) : State :=
  let t := time 9375000 s
  { t with grid := { t.grid with tick := some t.now } }

/-- Four bytes, the highest first. -/
def be4 (n : Nat) : List Byte :=
  [BitVec.ofNat 8 (n / 16777216), BitVec.ofNat 8 (n / 65536), BitVec.ofNat 8 (n / 256), BitVec.ofNat 8 n]

/-- A COMMAND of node 7 to node 9 with SEQ 5, ALIVE 3, TIME 1, the ECHO of telegram 2 and one berth enable. -/
def commandT : List Byte :=
  let h : List Byte := [0x12, 12, 7] ++ be4 5 ++ [3] ++ be4 1 ++ [0, 0] ++ be4 2 ++ [0, 0, 1, 0, 0, 0]
  h ++ be4 (safetyCode 9 h).toNat

/-- OPERATE with the telegram layer set for that COMMAND; telegram 2 was sent at time 0. -/
def linked : State :=
  setTg (fun y => { y with
    stream := upd y.stream 0 fun z => { z with sent := [(2, 0)] },
    source := upd y.source 0 fun z => { z with sync := true, seq := 4, alive := 2 } })
    (setCfg (fun c => { c with tg := { c.tg with node := 0x0709, cpeer0 := 0x0003, win := 0x050A, skew := 0x0505, efresh := 100 } }) op)

/-- The pair of the interlocking with copies held. -/
def holding (l : List Slot) : State := setTg (fun y => { y with pair := upd y.pair 0 fun z => { z with slots := l } }) linked

def slotB (at_ : Nat) (b : List Byte) : Slot := ⟨1, 7, 5, b, at_⟩

/-- OPERATE with both ports of a pair up and a transmit cycle due. -/
def dueCycle : State :=
  setCfg (fun c => { c with en := { c.en with cycle := 10 }, cn := { c.cn with cycle := 10 } })
    (setPorts (fun y => { y with eth := y.eth.map fun z => { z with up := true, cause := 0 }, can := y.can.map fun z => { z with state := .active, stb := false } })
      (setTg (fun y => { y with stream := upd y.stream 1 fun z => { z with seq := 1 } })
        { time 100000 linked with grid := { tick := some 100000 } }))

/-- A frame of 60 octets for this device. -/
def frame60 : List Byte := [0, 0, 0, 0, 0, 0, 1, 2, 3, 4, 5, 6, 0x88, 0xB5] ++ List.replicate 46 0

/-- OPERATE with MDIO running and port 0 as given. -/
def mdio (up : Bool) (good ffs : Nat) : State :=
  setPorts (fun y => { y with mdioOn := true, mdioRead := some (0, 1), eth := upd y.eth 0 fun z => { z with cause := 0, up := up, good := good, ffs := ffs } }) op

/-- A frame in transmission. -/
def canTx : CanTx := { stop := true, slot := 0, ident := 9, brs := false, bytes := [1], chans := 0x8000 }

/-- OPERATE with CAN controller 1 active and its counters as given. -/
def canAt (tec rec_ : Nat) : State :=
  setPorts (fun y => { y with can := upd y.can 1 fun z => { z with state := .active, stb := false, tec := tec, rec_ := rec_, sending := some canTx } })
    (setCfg (fun c => { c with cn := { c.cn with ctl := 1 } }) linked)

/-- OPERATE with Cantle running at 0x100, three registers set, the check units 4 to 7 owned by it. -/
def running : State :=
  { op with
    ck := mapv (fun n k => if 4 ≤ n.1 then { k with cfg := BitVec.ofNat 16 (2 + 4 * (n.1 % 3)) } else k) op.ck
    cs := { op.cs with state := .running, pc := 0x100, g := vec fun n => BitVec.ofNat 32 (n.1 * 0x1234560) } }

def withG (n : Nat) (v : W32) (s : State) : State := setCs (fun c => { c with g := vec fun k => if k.1 = n then v else c.g[k.1] }) s

def mon : State := setDb (fun d => { d with session := some .dio, monEn := true }) running

/-- A scan instant that is due. -/
def scanAt5 : State :=
  setCs (fun c => { c with first := false, scanned := true, scanAt := 4995000 })
    (setCfg (fun c => { c with seqr := { c.seqr with cfg := 0x0305 } }) { time 5000000 running with grid := { tick := some 5000000 } })

def intReady : State := setCs (fun c => { c with ie := true, ien := 0xF6, ipend := 0x14, timer := 500, timerAt := some 0 }) running

def loggedIn (s : State) : State := setLogin 1 (fun l => { l with on := true }) (setLogin 0 (fun l => { l with on := true }) s)

/-- A debug session on DIO, Cantle running, or stopped in WAITD. -/
def session : State := setDb (fun d => { d with session := some .dio, lastFrame := 5 }) (time 50 running)
def stopped : State := setDb (fun d => { d with mon := true, pc := 0x444 }) (setCs (fun c => { c with state := .waitD }) session)
def withdrawn (a : Nat) (sp : Bool) : State :=
  setDb (fun d => { d with wdraw := 0x100, maddr := BitVec.ofNat 20 a, mspace := sp }) stopped

/-- Check unit n as given. -/
def unit (n : Fin 8) (k : Ck) : State := { running with ck := upd running.ck n fun _ => k }
def block6 : Block := { bytes := [1, 2, 3, 4, 5, 6], tag := [9] }
def feed3 : Feed := { bytes := [1, 2, 3], cmp := false, addr := 0 }

/-- Ring 1 as given, with one event of class 0 in the fabric. -/
def ring (r : Ring) : State :=
  setEv (fun e => { e with fabric := [.event 0x010 0x1234 0x5566 false true], ien := 0xFF, itime := 3, rings := upd e.rings 1 fun _ => r })
    (time 9000 op)
def entry5 : Entry := { code := 5, data := 0x99, ts := 0x44332211, at_ := 2 }
def full15 : Ring := { depth := 1, q := List.replicate 15 entry5 }

def lrec (n : Nat) : LRec := { lseq := BitVec.ofNat 32 n, loadNo := 3, time := 99, type := 5, code := 0x10, data := [1, 2] }
def cent (n : Nat) : CEnt :=
  { cseq := BitVec.ofNat 32 n, origin := 1, state := 0x0F, type := 2, banks := 0, loadNo := 1, time := 2, code := 3, oldCode := 4,
    imageId := 5, length := 6, pcrc := 7 }
def setLedger (f : Sys2Proof.Machine.Part LRec → Sys2Proof.Machine.Part LRec) (s : State) : State := setNv (fun v => { v with ledger := f v.ledger }) s

/-- OPERATE with two ledger records, two entries, a fault cell, one record waiting and item n selected. -/
def logs (n : W16) : State :=
  setNv (fun v => { v with
    queue := [(lrec 9, 5)], rsel0 := n, cells := v.cells.set 4 (some (lrec 44)), ledger := { v.ledger with recs := [lrec 7, lrec 8] },
    clog := { v.clog with recs := [cent 3, cent 4] } }) (loggedIn (time 1000000000 op))

def phrase : List Byte := [0x41, 0x42, 0x43, 0x44, 0x45, 0x46, 0x47, 0x48]
def stagingState : State := setNv (fun v => { v with prep := true, vault := { v.vault with hash := phrase } }) (loggedIn (in_ .configure))
def words128 : List W16 := List.replicate 128 0x1234
def chunkState : State :=
  setNv (fun v => { v with ssel := 3, chunk := { opened := true, words := words128 }, scrc0 := word0 (crc32c (words128.flatMap fun w => bytesLE 2 w.toNat)) })
    stagingState
def staged : State := setNv (fun v => { v with dirD := [0], mem := memWriteList 0xFF [] (262144 + 8) (bytesLE 4 100) }) stagingState

def rowJob : RowJob := { area := 9, row := 7, spare := 9, cause := 4 }
def mentry : MEntry := { kind := 2, cause := 3, item := 1, spare := 1, loadNo := 1 }
def stitching : State :=
  setSt (fun x => { x with entries := [mentry], jobs := [rowJob], verify := { x.verify with run := true } }) (time 200000000 op)

/-- A configured USB port with a login. -/
def usb : State := setUm (fun u => { u with state := .configured, vbus := true, addr := 4 }) (loggedIn op)
def usbConf : State := setUm (fun u => { u with state := .configured, vbus := true, addr := 4 }) stagingState
def usbDownload (n : Nat) : State := setUm (fun u => { u with download := some { kind := 1, next := n, last := 15 } }) usb
def phraseHash (s : State) : State := setVault (fun v => { v with salt := [1], hash := sha256 ([1] ++ phrase) }) s

def x1 : State := in_ .reset

def x2 : State := in_ .prove

def x3 : State := setSys (fun y => { y with proveDone := 2 }) (in_ .prove)

def x4 : State := setSys (fun y => { y with proveDone := 8 }) (in_ .prove)

def x5 : State := setSys (fun y => { y with loadDue := true }) State.reset

def x6 : State := setSys (fun y => { y with loadDue := true, loadDone := 3 }) State.reset

def x7 : State := setSys (fun y => { y with loadDue := true, loadDone := 5 }) State.reset

def x8 : State := setLogin 0 (fun l => { l with on := true }) (setSys (fun y => { y with keyAt := some 0 }) op)

def x9 : State := setLogin 0 (fun l => { l with on := true }) (in_ .configure)

def x10 : State := setSys (fun y => { y with keyAt := some 0 }) (in_ .configure)

def x11 : State := setSys (fun y => { y with stop := some .configure }) op

def x12 : State := setSys (fun y => { y with stop := some .resetHost }) op

def x13 : State := setSys (fun y => { y with safeRb := { diff := 2 } }) op

def x14 : State := setSys (fun y => { y with hotSince := some 0 }) (time 10000 op)

def x15 : State := setCfg (fun c => { c with ledger := 0x0148 }) (setSys (fun y => { y with degsrc := 0x3FF, deg := Vector.replicate 10 { start := some 0 } }) (time 259200000000 op))

def x16 : State := setSys (fun y => { y with degsrc := 0x3FF, deg := Vector.replicate 10 { start := some 0 } }) (time 259200000000 op)

def x17 : State := setGroup 7 (fun y => { y with next := 7, lastStart := some 0 }) (time 6000000 op)

def x18 : State := setGroup 7 (fun y => { y with next := 7, spare := .serving }) (time 6000000 op)

def x19 : State := setGroup 7 (fun y => { y with next := 8 }) (time 6000000 op)

def x19s : State := setGroup 7 (fun y => { y with next := 8, spare := .serving, pos := 2 }) (time 6000000 op)

def x19f : State := setGroup 7 (fun y => { y with next := 7, spare := .faulted }) (time 6000000 op)

def x19r : State := setGroup 7 (fun y => { y with next := 0, front := [7, 3] }) (time 6000000 op)

def x20 : State := setGroup 7 (fun y => { y with lastStart := some 1 }) (time 6000000 op)

def x21 : State := sampled (setGroup 7 (fun y => { y with phase := .agree1 3 6000000 }) (time 6000000 op))

def x22 : State := setGroup 7 (fun y => { y with phase := .agree2 3 6000001 }) (time 6000000 op)

def x23 : State := sampled (setGroup 0 (fun y => { y with spare := .serving, under := 8 }) (time 5000 op))

def x24 : State := sampled (setInput 3 (fun y => { y with lastBurst := some 0 }) (setGroup 0 (fun y => { y with spare := .faulted, under := 8 }) (time 5000 op)))

def x25 : State := sampled (setInput 3 (fun y => { y with lastBurst := some 1 }) (setGroup 0 (fun y => { y with spare := .faulted, under := 8 }) (time 5000 op)))

def x25h : State := sampled (setInput 0 (fun y => { y with lastDet := some 0 }) (setGroup 0 (fun y => { y with spare := .serving, under := 1 })
  (setSect 5 (fun y => { y with st := .clear }) (setHead 1 (fun y => { y with mask1 := 0x20 }) (time 2000000 headed)))))

def x26 : State := sampled (time 199 (setInput 3 (fun y => { y with burst := some ⟨0, none⟩ }) op))

def x27 : State := sampled (setLane 3 (fun y => { y with bursts := 38 }) (setInput 3 (fun y => { y with burst := some ⟨0, none⟩ }) (time 200 op)))

def x28 : State := sampled (setLane 3 (fun y => { y with bursts := 39 }) (setInput 3 (fun y => { y with burst := some ⟨0, none⟩, faults := [(5, 0), (8, 0)] }) (time 200 (laneCfg 1 0))))

def x28a : State := sampled (setInput 3 (fun y => { y with burst := some ⟨0, some 100⟩ }) (time 200 op))

def x29 : State := sampled (time 86400000000 (setGroup 0 (fun y => { y with spare := .serving }) (setLane 3 (fun y => { y with provedAt := some 0 }) (setCfg (fun c => { c with input := upd c.input 3 fun y => { y with icfg := 1 } }) op))))

def x30 : State := sampled (time 600000000 (setGroup 0 (fun y => { y with spare := .serving }) (setLane 3 (fun y => { y with provedAt := some 0 }) op)))

def x31 : State := sampled (time 86399999999 (setGroup 0 (fun y => { y with spare := .serving }) (setLane 3 (fun y => { y with provedAt := some 0 }) op)))

def x32 : State := sampled (time 599999999 (setGroup 0 (fun y => { y with spare := .serving }) (setLane 3 (fun y => { y with provedAt := some 0 }) op)))

def x33 : State := sampled (setInput 20 (fun y => { y with faults := [(1, 0)] }) (setGroup 2 (fun y => { y with phase := .check 1 5 2000, pos := 4, spare := .shadow }) (time 2000 op)))

def x33b : State := sampled (setGroup 2 (fun y => { y with phase := .check 1 5 2001, pos := 4, spare := .shadow }) (time 2000 op))

def x34 : State := sampled (setInput 3 (fun y => { y with okSince := some 0, faults := [(8, 1), (1, 0)] }) (time 500000 op))

def x35 : State := sampled (setInput 3 (fun y => { y with okSince := some 0, faults := [(1, 0)] }) (time 499999 op))

def x36 : State := sampled headed

def x37 : State := sampled (time 300 (setHead 1 (fun y => { y with nonIdle := some 0, phase := .enter, changed := 0, mask1 := 2 }) headed))

def x38 : State := sampled (time 299 (setHead 1 (fun y => { y with nonIdle := some 0, phase := .enter, changed := 0, mask1 := 2 }) headed))

def x39 : State := sampled (time 10000 (setHead 1 (fun y => { y with nonIdle := some 0, phase := .enter, changed := 0, mask1 := 2 }) headed))

def x40 : State := sampled (time 9999 (setHead 1 (fun y => { y with nonIdle := some 0, phase := .enter, changed := 0, mask1 := 2 }) headed))

def x41 : State := setHead 2 (fun y => { y with reload := true }) walking

def x42 : State := setSc (fun y => { y with refreshed := some 0 }) (time 59999999 walking)

def x43 : State := setSc (fun y => { y with refresh := some 0 }) op

def x44 : State := setHead 31 (fun y => { y with reload := true }) op

def x45 : State := setSect 31 (fun y => { y with st := .clear }) op

def x46 : State := ordered false 3

def x47 : State := ordered true 3

def x48 : State := setContact 60 (fun y => { y with run := 100 }) (door 0x0201)

def x49 : State := setContact 60 (fun y => { y with run := 99 }) (door 0x0201)

def x50 : State := time 10001 (setChan 15 (fun y => { y with cl := { y.cl with eval := .transit, since := some 0 }, ob := { y.ob with eval := .transit, since := some 0 } }) (door 0x0201))

def x51 : State := time 10000 (setChan 15 (fun y => { y with cl := { y.cl with eval := .transit, since := some 0 }, ob := { y.ob with eval := .transit, since := some 0 } }) (door 0x0201))

def x52 : State := time 1000000 (setChan 15 (fun y => { y with ob := { y.ob with eval := .fault, antiSince := some 0 } }) (setContact 62 (fun y => { y with darkN := 10, filt := true }) (setContact 63 (fun y => { y with darkN := 10 }) (door 0x0201))))

def x53 : State := time 999999 (setChan 15 (fun y => { y with ob := { y.ob with eval := .fault, antiSince := some 0 } }) (setContact 62 (fun y => { y with darkN := 10, filt := true }) (setContact 63 (fun y => { y with darkN := 10 }) (door 0x0201))))

def x54 : State := door 1

def x55 : State := setDc (fun y => { y with tps := y.tps.map fun z => { z with fault := true } }) (door 1)

def x56 : State := setChan 15 (fun y => { y with state := .opening, edge := some 0 }) (door 0x0401)

def x57 : State := time 10000 (setChan 15 (fun y => { y with state := .opening, leftLock := true, grantAt := some 0, edge := none }) (door 0x0401))

def x58 : State := time 9999 (setChan 15 (fun y => { y with state := .opening, leftLock := true, grantAt := some 0, edge := none }) (door 0x0401))

def x58f : State := setChan 15 (fun y => { y with fastSince := some 0, edge := some 1000 }) (time 1000 (door 0x0401))

def x59 : State := darkAt15 (setChan 15 (fun y => { y with sto := Vector.replicate 2 { on := true } }) (door 1))

def x60 : State := darkAt15 (setChan 15 (fun y => { y with sto := Vector.replicate 2 { on := true } |>.set 1 { on := true, deg := true } }) (door 1))

def x61 : State := setLogin 0 (fun l => { l with on := true }) (setChan 15 (fun y => { y with state := .locked }) (door 1))

def x62 : State := setChan 15 (fun y => { y with lockSto := true }) (setLogin 0 (fun l => { l with on := true }) (setChan 15 (fun y => { y with state := .locked }) (door 1)))

def x63 : State := setChan 15 (fun y => { y with state := .closed }) (setLogin 0 (fun l => { l with on := true }) (setChan 15 (fun y => { y with state := .locked }) (door 1)))

def x64 : State := setChan 15 (fun y => { y with tachF := true }) (setLogin 0 (fun l => { l with on := true }) (setChan 15 (fun y => { y with state := .locked }) (door 1)))

def x65 : State := time 20000 (setDc (fun y => { y with unlock := [⟨15, false, 0⟩] }) (setChan 15 (fun y => { y with state := .locked, lockSto := true, degraded := true, nextMin := some 20000 }) (door 1)))

def x66 : State := time 20001 (setDc (fun y => { y with unlock := [⟨15, false, 0⟩] }) (setChan 15 (fun y => { y with state := .locked, lockSto := true, degraded := true, nextMin := some 20000 }) (door 1)))

def x67 : State := setChan 15 (fun y => { y with usedMin := 2046 }) x65

def x68 : State := time 19999 (setDc (fun y => { y with unlock := [⟨15, false, 0⟩] }) (setChan 15 (fun y => { y with state := .locked, lockSto := true, degraded := true, nextMin := some 20000 }) (door 1)))

def x68u : State := setChan 15 (fun y => { y with unlocking := some true }) x61

def x68f : State := setChan 15 (fun y => { y with unlocking := some false, tachF := true }) x61

def x69 : State := holding [slotB 0 (commandT.set 8 0xFF)]

def x70 : State := holding [slotB 0 commandT]

def x71 : State := time 5000 (holding [slotB 0 commandT])

def x72 : State := setTg (fun y => { y with pair := upd y.pair 0 fun z => { z with mode := .singleA } }) linked

def x73 : State := time 99999 (setTg (fun y => { y with pair := upd y.pair 0 fun z => { z with mode := .singleA } }) linked)

def x74 : State := time 100000 (setTg (fun y => { y with pair := upd y.pair 0 fun z => { z with mode := .singleA } }) linked)

def fullCk (k : Ck) : Ck := { k with cfg := 1 + 16 * 1, testing := some 100000, ops := List.replicate 32 .ret }

def x74f : State := { dueCycle with ck := upd dueCycle.ck 5 fullCk }

def x74m : State := setTg (fun y => { y with stream := upd y.stream 0 fun z => { z with seq := 0x20000 } }) dueCycle

def x75 : State := time 5001 (holding [slotB 0 commandT])

def x76 : State := time 100000 (setTg (fun y => { y with benValid := true, benFresh := true, benEcho := 2 }) linked)

def x77 : State := time 99000 (setTg (fun y => { y with benValid := true, benFresh := true, benEcho := 2 }) linked)

def x78 : State := mdio false 9 0

def x79 : State := mdio true 10 0

def x80 : State := mdio true 10 2

def x80n : State := setPorts (fun y => { y with eth := upd y.eth 0 fun z => { z with pollAt := some 1 } }) (time 10000 x79)

def x80p : State := setPorts (fun y => { y with eth := upd y.eth 0 fun z => { z with pollAt := some 0 } }) (time 10000 x79)

def x81 : State := canAt 119 127

def x82 : State := canAt 248 0

def x83 : State := setPorts (fun y => { y with can := upd y.can 1 fun z => { z with state := .busOff, recovering := true } }) op

def x84 : State := setPorts (fun y => { y with can := upd y.can 1 fun z => { z with exitAt := some 0 } }) op

def x85 : State := unit 5 { cfg := 0x0061, fifo := [block6] }

def x86 : State := unit 5 { cfg := 0x0461, fifo := [block6] }

def x86n : State := unit 3 { cfg := 0x0061, fifo := [block6] }

def x87 : State := unit 5 { cfg := 0x0061 }

def x88 : State := unit 5 { cfg := 2, feed := some feed3 }

def x89 : State := unit 3 { cfg := 2 }

def x90 : State := time 10000001 (unit 3 { cfg := 2 })

def x91 : State := time 60000000 running

def x92 : State := ring { depth := 1, q := [entry5] }

def x93 : State := ring { depth := 1, q := List.replicate 14 entry5 }

def x94 : State := ring full15

def x95 : State := ring { }

def x96 : State := time 3002 (ring { depth := 1, q := [entry5] })

def x97 : State := logs 8

def x98 : State := setLedger (fun l => { l with retired := List.replicate 7 (1, 2) }) (logs 8)

def x99 : State := setLedger (fun l => { l with retired := List.replicate 8 (1, 2) }) (logs 8)

def x100 : State := setLedger (fun l => { l with retiring := some 0 }) (logs 8)

def x101 : State := setSys (fun y => { y with degsrc := 0x100, deg := upd y.deg 8 fun d => { d with start := some 60000000, before := 2 } }) (time 300000000 op)

def x102 : State := setLedger (fun l => { l with ahead := false, full := 186 }) op

def x103 : State := setLedger (fun l => { l with ahead := false, full := 187 }) op

def x104 : State := setLedger (fun l => { l with ahead := false, retired := List.replicate 7 (1, 2) }) op

def x105 : State := setLedger (fun l => { l with ahead := true }) op

def x106 : State := logs 9

def x107 : State := logs 6

def x108 : State := logs 4

def x109 : State := logs 0

def x110 : State := logs 15

def x111 : State := logs 16

def x112 : State := setNv (fun v => { v with rdata := [7, 8] }) op

def x113 : State := phraseHash (setLogin 0 (fun l => { l with pw := { chars := phrase, words := 4 } }) op)

def x114 : State := setNv (fun v => { v with pageFails := 126 }) (phraseHash (setLogin 0 (fun l => { l with pw := { chars := phrase, words := 4 } }) op))

def x115 : State := setNv (fun v => { v with pageFails := 127 }) (phraseHash (setLogin 0 (fun l => { l with pw := { chars := phrase, words := 4 } }) op))

def x116 : State := setNv (fun v => { v with moveDue := true }) op

def x117 : State := setLogin 0 (fun l => { l with pw := { chars := [ ], words := 15 } }) op

def x118 : State := setVault (fun v => { v with salt := [2], wrong := 3 }) (phraseHash (setLogin 0 (fun l => { l with pw := { chars := phrase, words := 4 } }) op))

def x119 : State := setVault (fun v => { v with salt := [2], wrong := 4 }) (phraseHash (setLogin 0 (fun l => { l with pw := { chars := phrase, words := 4 } }) op))

def x120 : State := setNv (fun v => { v with lockNext := some 50, vault := { v.vault with lockMin := 4 } }) (time 49 op)

def x121 : State := setLogin 0 (fun l => { l with on := true, pw := { chars := phrase, words := 4 } }) (phraseHash (time 900000000 op))

def x122 : State := loggedIn op

def x123 : State := time 899999999 (setLogin 0 (fun l => { l with on := true, pw := { chars := phrase, words := 4 } }) (phraseHash (time 900000000 op)))

def x124 : State := setNv (fun v => { v with lockNext := some 50 }) (time 49 op)

def x125 : State := setNv (fun v => { v with lockNext := some 50, vault := { v.vault with lockMin := 2 } }) (time 50 op)

def x126 : State := setNv (fun v => { v with lockNext := some 50, vault := { v.vault with lockMin := 1 } }) (time 60000049 op)

def x127 : State := in_ .configure

def x128 : State := setNv (fun v => { v with erasing := true }) stagingState

def x129 : State := setNv (fun v => { v with chunk := { opened := true, words := words128.drop 1 } }) stagingState

def x130 : State := loggedIn (in_ .configure)

def x131 : State := setSt (fun x => { x with copies := upd x.copies 0 fun y => { y with written := 1 } }) stitching

def x132 : State := setSt (fun x => { x with copies := upd x.copies 1 fun y => { y with dead := true } }) stitching

def x133 : State := setSt (fun x => { x with burn := upd x.burn 0 fun y => { y with next := 131070 } }) op

def x134 : State := setSt (fun x => { x with burn := upd x.burn 1 fun y => { y with next := 24574 } }) op

def x135 : State := setSt (fun x => { x with burn := upd x.burn 1 fun y => { y with next := 24575 } }) op

def x136 : State := time 4000000 op

def x137 : State := time 3999999 op

def x138 : State := setSt (fun x => { x with verify := { x.verify with next := 60 } }) stitching

def x139 : State := setNv (fun v => { v with mem := [(7, 7)] }) stitching

def x140 : State := setSt (fun x => { x with verify := { x.verify with next := 68 } }) stitching

def x141 : State := setSt (fun x => { x with verify := { x.verify with due := 1 } }) op

def x142 : State := setSt (fun x => { x with tsel := 15 }) op

def x143 : State := setSt (fun x => { x with tsel := 16 }) op

def x144 : State := withG 1 0xF0000 running

def x145 : State := withG 1 0xEFFFC running

def x146 : State := withG 3 0xA55A (withG 1 0xF0000 running)

def x147 : State := setCs (fun c => { c with lcount := 1 }) running

def x148 : State := setCs (fun c => { c with lcount := 2, lend := 0x100 }) running

def x149 : State := setCs (fun c => { c with lcount := 1, lend := 0x100 }) running

def x150 : State := withG 1 0x7FF0 (withG 2 0x10 running)

def x151 : State := withG 3 (crcFinish (ckPreset running.ck[4]) running.ck[4].raw) running

def x152 : State := withG 1 0x7FF0 (withG 2 0x11 running)

def x153 : State := unit 4 { cfg := 2, feed := some feed3 }

def x153r : State := unit 4 { cfg := 2, feed := some feed3, ops := [.ret] }

def x153f : State := unit 4 { cfg := 2, feed := some feed3, ops := List.replicate 32 .init }

def x154 : State := setCs (fun c => { c with hl := true }) running

def x155 : State := setCs (fun c => { c with ovcnt := 2 }) running

def x155d : State := setCs (fun c => { c with ovcnt := 2 }) scanAt5

def x156 : State := setDb (fun d => { d with vtOut := List.replicate 15 3 }) mon

def x157 : State := setDb (fun d => { d with vtOut := List.replicate 16 3 }) mon

def x158 : State := setDb (fun d => { d with vtIn := [7, 8] }) mon

def x159 : State := setCs (fun c => { c with first := true }) scanAt5

def x160 : State := setCs (fun c => { c with state := .waitScan }) scanAt5

def x161 : State := setCs (fun c => { c with ovcnt := 1 }) scanAt5

def x162 : State := setCs (fun c => { c with ovcnt := 2 }) scanAt5

def x163 : State := setCs (fun c => { c with ien := 0x10 }) intReady

def x164 : State := setCs (fun c => { c with timerAt := some 1 }) intReady

def x165 : State := loggedIn running

def x166 : State := setCs (fun c => { c with inFull := true }) running

def x167 : State := setCs (fun c => { c with outFull := true }) running

def x168 : State := setCs (fun c => { c with restart := some 0 }) running

def x169 : State := time 10000005 session

def x170 : State := time 10000004 session

def x171 : State := setCs (fun c => { c with hl := true }) session

def x172 : State := withdrawn 0x7FFF false

def x173 : State := withdrawn 0xFFFF true

def x174 : State := withdrawn 0x8000 false

def x175 : State := setDb (fun d => { d with copyFault := true }) session

def x176 : State := setDb (fun d => { d with vtOut := [7, 8] }) session

def x177 : State := setDb (fun d => { d with vtIn := List.replicate 15 1 }) session

def x178 : State := setDb (fun d => { d with vtIn := List.replicate 16 1 }) session

def x179 : State := { op with hb := { op.hb with owner := 2, tag := 7 } }

def x180 : State := setUm (fun u => { u with state := .configured, vbus := true, addr := 4 }) op

def x181 : State := phraseHash (setUm (fun u => { u with state := .configured, vbus := true, addr := 4 }) op)

def x182 : State := setVault (fun v => { v with salt := [2], wrong := 3 }) (phraseHash (setUm (fun u => { u with state := .configured, vbus := true, addr := 4 }) op))

def x183 : State := setNv (fun v => { v with lockNext := some 50, vault := { v.vault with lockMin := 4 } }) (time 49 (setUm (fun u => { u with state := .configured, vbus := true, addr := 4 }) op))

def x184 : State := setUm (fun u => { u with state := .configured, vbus := true, addr := 4 }) staged

def x185 : State := { usb with dc := { usb.dc with chan := upd usb.dc.chan 15 fun c => { c with state := .locked, locked := true, usedCyc := 6 } } }

def x185s : State := { x185 with dc := { x185.dc with chan := upd x185.dc.chan 15 fun c => { c with lockSto := true } } }

def x185w : State := { x185 with dc := { x185.dc with chan := upd x185.dc.chan 15 fun c => { c with unlocking := some false } } }

def x186 : State := usbDownload 0

def x187 : State := usbDownload 14

def x188 : State := usbDownload 16

theorem test_met_ResetSourcesEnterResetAndKeepTheNvm :
    (let s : State := op
     s.sys.mode ≠ .reset) ∧
    (let s : State := op; let supply : BitVec 4 := 1; let ns : Nat := 2000
     s.sys.mode ≠ .reset ∧ supply ≠ 0 ∧ 2000 ≤ ns) ∧
    (let s : State := op; let ns : Nat := 52501
     s.sys.mode ≠ .reset ∧ 52500 < ns) ∧
    (let s : State := x1
     s.sys.mode = .reset) ∧
    (let s : State := x1; let supply : BitVec 4 := 1; let ns : Nat := 2000
     s.sys.mode = .reset ∧ supply ≠ 0 ∧ 2000 ≤ ns) ∧
    (let ns : Nat := 499
     ns < 500) := by
  refine ⟨?_, ?_, ?_, ?_, ?_, ?_⟩ <;> decide +kernel

theorem test_met_ResetSourcesEnterResetAndKeepTheNvm_2 :
    (let ns : Nat := 474
     ns < 475) ∧
    (let s : State := op; let ns : Nat := 4201
     4200 < ns ∧ ns < 47500 ∧ s.sys.mode ≠ .reset) ∧
    (let s : State := op; let ns : Nat := 47499
     4200 < ns ∧ ns < 47500 ∧ s.sys.mode ≠ .reset) := by
  refine ⟨?_, ?_, ?_⟩ <;> decide +kernel

theorem test_met_ResetExitStartsProveAndTstamp :
    (let s : State := x1
     s.sys.mode = .reset) ∧
    (let s : State := x1; let src : BitVec 2 := 1
     s.sys.mode = .reset ∧ src ≠ 0) := by
  refine ⟨?_, ?_⟩ <;> decide +kernel

/-- A part of Obligations.ProveAndLoadEndByTheirFindings. -/
theorem test_met_ProveEndsByBootselOrInSafe :
    (let s : State := x2
     let f : ProveFindings := { clock := 1 }
     s.sys.mode = .prove ∧ s.sys.provePass = false ∧ s.sys.proveDone = 0 ∧ f.clock ≠ 0) ∧
    (let s : State := x2
     let f : ProveFindings := { }
     s.sys.mode = .prove ∧ s.sys.provePass = false ∧ s.sys.proveDone = 0 ∧ f.clock = 0) ∧
    (let s : State := x3
     let f : ProveFindings := { bist := false }
     s.sys.mode = .prove ∧ s.sys.provePass = false ∧ s.sys.proveDone = 2 ∧ f.bist = false) ∧
    (let s : State := x4
     s.sys.mode = .prove ∧ s.sys.provePass = false ∧ s.sys.proveDone = 8) := by
  refine ⟨?_, ?_, ?_, ?_⟩ <;> decide +kernel

/-- A part of Obligations.ProveAndLoadEndByTheirFindings. -/
theorem test_met_LoadEndsInOperateOrWithoutAnImage :
    (let s : State := x5
     let f : LoadFindings := { bankReads := false, mismatch1 := true, mismatch2 := true }
     s.sys.mode = .prove ∧ s.sys.loadDue = true ∧ s.sys.loadDone = 0 ∧ f.bankReads = false) ∧
    (let s : State := x6
     let f : LoadFindings := { bankReads := false, mismatch1 := true, mismatch2 := true }
     s.sys.mode = .prove ∧ s.sys.loadDue = true ∧ s.sys.loadDone = 3 ∧ f.mismatch1 = true ∧ f.mismatch2 = true) ∧
    (let s : State := x7
     s.sys.mode = .prove ∧ s.sys.loadDue = true ∧ s.sys.loadDone = 5 ∧ bitOf s.cfg.ledger 8 = false) := by
  refine ⟨?_, ?_, ?_⟩ <;> decide +kernel

/-- A part of Obligations.HostRequestsAndTheStopSequence. -/
theorem test_met_HostRequestsStopTheServiceOrReset :
    (let s : State := x8
     s.sys.mode ≠ .safe ∧ s.nv.login[0].on = true ∧ inService s = true ∧ s.sys.stop = none ∧ s.sys.keyAt = some s.now ∧ s.sys.mode ≠
       .reset) ∧
    (let s : State := op
     s.sys.mode ≠ .safe ∧ s.nv.login[0].on = false ∧ inService s = true ∧ (s.sys.mode = .prove ∨ inService s = true)) ∧
    (let s : State := x9
     s.sys.mode ≠ .safe ∧ s.sys.mode = .configure ∧ s.nv.login[0].on = true) ∧
    (let s : State := x10
     s.sys.mode ≠ .safe ∧ s.sys.mode = .configure ∧ s.sys.keyAt = some s.now) ∧
    (let s : State := x2
     s.sys.mode ≠ .safe ∧ (s.sys.mode = .prove ∨ inService s = true)) := by
  refine ⟨?_, ?_, ?_, ?_, ?_⟩ <;> decide +kernel

/-- A part of Obligations.HostRequestsAndTheStopSequence. -/
theorem test_met_StopSequenceEndsInConfigureOrReset :
    (let s : State := x11
     inService s = true ∧ (∀ c : Fin 16, torqueOn s.dc.chan[c.1].state = false ∧ s.dc.chan[c.1].sto[0].on = false ∧
       s.dc.chan[c.1].sto[1].on = false) ∧ s.sys.stop = some .configure) ∧
    (let s : State := x12
     inService s = true ∧ (∀ c : Fin 16, torqueOn s.dc.chan[c.1].state = false ∧ s.dc.chan[c.1].sto[0].on = false ∧
       s.dc.chan[c.1].sto[1].on = false) ∧ s.sys.stop = some .resetHost) ∧
    (let s : State := op
     inService s = true ∧ (∀ c : Fin 16, torqueOn s.dc.chan[c.1].state = false ∧ s.dc.chan[c.1].sto[0].on = false ∧
       s.dc.chan[c.1].sto[1].on = false) ∧ s.sys.stop = none) := by
  refine ⟨?_, ?_, ?_⟩ <;> decide +kernel

theorem test_met_ClockMonitorWindowsEnterSafe :
    (let s : State := op; let r : Nat := 49000; let q : Nat := 196000
     s.sys.mode ≠ .reset ∧ s.sys.mode ≠ .safe ∧ 49000 ≤ r ∧ r ≤ 51000 ∧ 196000 ≤ q ∧ q ≤ 204000) ∧
    (let s : State := op; let r : Nat := 51000; let q : Nat := 204000
     s.sys.mode ≠ .reset ∧ s.sys.mode ≠ .safe ∧ 49000 ≤ r ∧ r ≤ 51000 ∧ 196000 ≤ q ∧ q ≤ 204000) ∧
    (let s : State := op; let r : Nat := 48999
     s.sys.mode ≠ .reset ∧ s.sys.mode ≠ .safe ∧ (r < 49000 ∨ 51000 < r)) ∧
    (let s : State := op; let r : Nat := 51001
     s.sys.mode ≠ .reset ∧ s.sys.mode ≠ .safe ∧ (r < 49000 ∨ 51000 < r)) ∧
    (let s : State := op; let r : Nat := 49000; let q : Nat := 195999
     s.sys.mode ≠ .reset ∧ s.sys.mode ≠ .safe ∧ 49000 ≤ r ∧ r ≤ 51000 ∧ (q < 196000 ∨ 204000 < q)) ∧
    (let s : State := op; let r : Nat := 49000; let q : Nat := 204001
     s.sys.mode ≠ .reset ∧ s.sys.mode ≠ .safe ∧ 49000 ≤ r ∧ r ≤ 51000 ∧ (q < 196000 ∨ 204000 < q)) := by
  refine ⟨?_, ?_, ?_, ?_, ?_, ?_⟩ <;> decide +kernel

/-- A part of Obligations.PinTemperatureAndDegradedTimersEscalate. -/
theorem test_met_PinAndTemperatureCausesEnterSafe :
    (let s : State := x13
     s.sys.mode ≠ .reset ∧ s.sys.mode ≠ .safe ∧ inService s = true ∧ s.sys.safeRb.diff = 2) ∧
    (let s : State := State.reset
     s.sys.mode ≠ .reset ∧ s.sys.mode ≠ .safe ∧ inService s = false ∧ s.sys.safeRb.diff = 0 ∧ s.sys.lifeRb.diff = 0) ∧
    (let s : State := x13; let v : W16 := 116
     s.sys.mode ≠ .reset ∧ s.sys.mode ≠ .safe ∧ 115 < v.toInt ∧ s.sys.hotSince = none) ∧
    (let s : State := x14; let v : W16 := 116
     s.sys.mode ≠ .reset ∧ s.sys.mode ≠ .safe ∧ 115 < v.toInt ∧ s.sys.hotDone = false ∧ (∃ t0, s.sys.hotSince = some t0 ∧ t0 + 10000
       ≤ s.now)) ∧
    (let s : State := x13; let v : W16 := 115
     s.sys.mode ≠ .reset ∧ s.sys.mode ≠ .safe ∧ v.toInt ≤ 115) := by
  refine ⟨?_, ?_, ?_, ?_, ?_⟩ <;> decide +kernel

/-- A part of Obligations.PinTemperatureAndDegradedTimersEscalate. -/
theorem test_met_ADegradedTimerAppliesItsEscalation :
    (let s : State := x15; let i : Fin 10 := 8; let t0 : Nat := 0; let lim : Nat := 259200000000
     s.sys.mode ≠ .reset ∧ s.sys.mode ≠ .safe ∧ bitOf s.sys.degsrc i.1 = true ∧ s.sys.deg[i.1].escalated = false ∧
       s.sys.deg[i.1].start = some t0 ∧ itemLimit i s = some lim ∧ t0 + lim ≤ s.now + 60000000 * s.sys.deg[i.1].before ∧ (i.1 = 8 ∨
       i.1 = 9) ∧ bitOf s.cfg.ledger 8 = true) ∧
    (let s : State := x15; let i : Fin 10 := 9; let t0 : Nat := 0; let lim : Nat := 259200000000
     s.sys.mode ≠ .reset ∧ s.sys.mode ≠ .safe ∧ bitOf s.sys.degsrc i.1 = true ∧ s.sys.deg[i.1].escalated = false ∧
       s.sys.deg[i.1].start = some t0 ∧ itemLimit i s = some lim ∧ t0 + lim ≤ s.now + 60000000 * s.sys.deg[i.1].before ∧ (i.1 = 8 ∨
       i.1 = 9) ∧ bitOf s.cfg.ledger 8 = true) ∧
    (let s : State := x16; let i : Fin 10 := 8; let t0 : Nat := 0; let lim : Nat := 259200000000
     s.sys.mode ≠ .reset ∧ s.sys.mode ≠ .safe ∧ bitOf s.sys.degsrc i.1 = true ∧ s.sys.deg[i.1].escalated = false ∧
       s.sys.deg[i.1].start = some t0 ∧ itemLimit i s = some lim ∧ t0 + lim ≤ s.now + 60000000 * s.sys.deg[i.1].before ∧ (i.1 = 8 ∨
       i.1 = 9) ∧ bitOf s.cfg.ledger 8 = false) ∧
    (let s : State := x16; let i : Fin 10 := 0; let t0 : Nat := 0; let lim : Nat := 0
     s.sys.mode ≠ .reset ∧ s.sys.mode ≠ .safe ∧ bitOf s.sys.degsrc i.1 = true ∧ s.sys.deg[i.1].escalated = false ∧
       s.sys.deg[i.1].start = some t0 ∧ itemLimit i s = some lim ∧ t0 + lim ≤ s.now + 60000000 * s.sys.deg[i.1].before ∧ i = 0) ∧
    (let s : State := x16; let i : Fin 10 := 2; let t0 : Nat := 0; let lim : Nat := 0
     s.sys.mode ≠ .reset ∧ s.sys.mode ≠ .safe ∧ bitOf s.sys.degsrc i.1 = true ∧ s.sys.deg[i.1].escalated = false ∧
       s.sys.deg[i.1].start = some t0 ∧ itemLimit i s = some lim ∧ t0 + lim ≤ s.now + 60000000 * s.sys.deg[i.1].before ∧ i = 2) := by
  refine ⟨?_, ?_, ?_, ?_, ?_⟩ <;> decide +kernel

theorem test_met_LaneSamplesSetTheDetectionBit :
    (let s : State := op
     s.sys.loaded = true ∧ s.sys.mode ≠ .reset ∧ clockSafe s = false) ∧
    (op.wf.group[0].spareServes = false ∧ op.wf.input[0].burst = none ∧ inMode 0 op = 0) ∧
    (inMode 0 (laneCfg 2 0) = 2) ∧
    (inMode 0 (laneCfg 1 0) = 1 ∧ bitOf (laneCfg 1 0).cfg.input[0].icfg 2 = false) ∧
    (inMode 0 (laneCfg 1 4) = 1 ∧ bitOf (laneCfg 1 4).cfg.input[0].icfg 2 = true) ∧
    ((100 : BitVec 12).toNat ≤ fld (laneCfg 1 4).cfg.input[0].ith 11 0 ∧ fld (laneCfg 1 4).cfg.input[0].ith 11 0 < (101 : BitVec
       12).toNat ∧ (110 : BitVec 12).toNat ≤ fld (laneCfg 1 4).cfg.input[0].ith 11 0 + fld (laneCfg 1 4).cfg.input[0].ihy 8 0 ∧ fld
       (laneCfg 1 4).cfg.input[0].ith 11 0 + fld (laneCfg 1 4).cfg.input[0].ihy 8 0 < (111 : BitVec 12).toNat) := by
  refine ⟨?_, ?_, ?_, ?_, ?_, ?_⟩ <;> decide +kernel

theorem test_met_LaneSamplesSetTheDetectionBit_2 :
    ((99 : BitVec 12).toNat < fld (laneCfg 1 4).cfg.input[0].ith 11 0 ∧ (89 : BitVec 12).toNat + fld (laneCfg 1 4).cfg.input[0].ihy 8
       0 < fld (laneCfg 1 4).cfg.input[0].ith 11 0 ∧ fld (laneCfg 1 4).cfg.input[0].ith 11 0 ≤ (90 : BitVec 12).toNat + fld (laneCfg
       1 4).cfg.input[0].ihy 8 0) := by
  decide +kernel

theorem test_met_ProvingsStartInRisingOrderAndWindowsExpire :
    (let s : State := x17; let g : Fin 8 := 7; let p : Fin 8 := 7; let x := s.wf.group[g.1]
     provingRuns s = true ∧ x.phase = .idle ∧ limitOk 6000000 x.lastStart s.now = true ∧ x.front = [] ∧ x.next = p.1 ∧
       bitOf x.out p.1 = false ∧ x.spare = .free) ∧
    (let s : State := x18; let g : Fin 8 := 7; let p : Fin 8 := 7; let x := s.wf.group[g.1]
     provingRuns s = true ∧ x.phase = .idle ∧ limitOk 6000000 x.lastStart s.now = true ∧ x.front = [] ∧ x.next = p.1 ∧
       bitOf x.out p.1 = false ∧ (x.spare = .serving ∨ x.spare = .faulted)) ∧
    (let s : State := x19f; let g : Fin 8 := 7; let p : Fin 8 := 7; let x := s.wf.group[g.1]
     provingRuns s = true ∧ x.phase = .idle ∧ limitOk 6000000 x.lastStart s.now = true ∧ x.front = [] ∧ x.next = p.1 ∧
       bitOf x.out p.1 = false ∧ (x.spare = .serving ∨ x.spare = .faulted)) ∧
    (let s : State := x19; let g : Fin 8 := 7; let x := s.wf.group[g.1]
     provingRuns s = true ∧ x.phase = .idle ∧ limitOk 6000000 x.lastStart s.now = true ∧ x.front = [] ∧ x.next = 8 ∧
       x.spare = .free) ∧
    (let s : State := x19s; let g : Fin 8 := 7; let x := s.wf.group[g.1]
     provingRuns s = true ∧ x.phase = .idle ∧ limitOk 6000000 x.lastStart s.now = true ∧ x.front = [] ∧ x.next = 8 ∧
       x.spare = .serving) ∧
    (let s : State := x19r; let g : Fin 8 := 7; let p : Fin 8 := 7; let r := ([3] : List (Fin 9)); let x := s.wf.group[g.1]
     provingRuns s = true ∧ x.phase = .idle ∧ limitOk 6000000 x.lastStart s.now = true ∧ x.front = p.castSucc :: r ∧
       (∀ f ∈ x.front, f.1 < 8 ∧ bitOf x.out f.1 = false) ∧ x.spare = .free ∧ nextPos g s ≠ p.1) := by
  refine ⟨?_, ?_, ?_, ?_, ?_, ?_⟩ <;> decide +kernel

theorem test_met_ProvingsStartInRisingOrderAndWindowsExpire_2 :
    (let s : State := x20; let g : Fin 8 := 7; let x := s.wf.group[g.1]
     provingRuns s = true ∧ limitOk 6000000 x.lastStart s.now = false) ∧
    (let s : State := x21; let g : Fin 8 := 7; let k := 3; let til := 6000000; let x := s.wf.group[g.1]
     provingRuns s = true ∧ (x.phase = .agree1 k til ∨ x.phase = .agree2 k til) ∧ til ≤ s.now ∧ s.grid.lane = some s.now) ∧
    (let s : State := x22; let g : Fin 8 := 7; let k := 3; let til := 6000001; let x := s.wf.group[g.1]
     provingRuns s = true ∧ (x.phase = .agree1 k til ∨ x.phase = .agree2 k til) ∧ s.now < til) := by
  refine ⟨?_, ?_, ?_⟩ <;> decide +kernel

theorem test_met_BurstsDisconnectALaneAndProveItAfterForty :
    (let s : State := x23; let n : Fin 64 := 3; let x := s.wf.group[(grpOf n).1]
     s.grid.lane = some s.now ∧ provingRuns s = true ∧ (x.spare = .serving ∨ x.spare = .faulted) ∧
       bitOf x.under (posOf n).1 = true ∧ s.wf.input[n.1].burst = none ∧
       limitOk 5000 s.wf.input[n.1].lastBurst s.now = true ∧ headOf n s = none) ∧
    (let s : State := x24; let n : Fin 64 := 3; let x := s.wf.group[(grpOf n).1]
     s.grid.lane = some s.now ∧ provingRuns s = true ∧ (x.spare = .serving ∨ x.spare = .faulted) ∧
       bitOf x.under (posOf n).1 = true ∧ s.wf.input[n.1].burst = none ∧
       limitOk 5000 s.wf.input[n.1].lastBurst s.now = true ∧ headOf n s = none) ∧
    (let s : State := x25h; let n : Fin 64 := 0; let h : Fin 32 := 1; let c := false; let k : Fin 64 := 8
     let x := s.wf.group[(grpOf n).1]
     s.grid.lane = some s.now ∧ provingRuns s = true ∧ (x.spare = .serving ∨ x.spare = .faulted) ∧
       bitOf x.under (posOf n).1 = true ∧ s.wf.input[n.1].burst = none ∧
       limitOk 5000 s.wf.input[n.1].lastBurst s.now = true ∧ headOf n s = some (h, c) ∧ partnerOf n s = some k ∧
       quiet2s n s = true ∧ quiet2s k s = true ∧
       (∀ i : Fin 32, bitOf s.hd.head[h.1].mask1 i.1 = true → s.sc.sect[i.1].st = .clear) ∧ s.wf.input[k.1].faults = [] ∧
       s.wf.input[k.1].burst = none ∧ ((grpOf n).1 ≤ (grpOf k).1 ∨ bitOf s.wf.group[(grpOf k).1].under (posOf k).1 = false)) ∧
    (let s : State := x25; let n : Fin 64 := 3
     s.grid.lane = some s.now ∧ limitOk 5000 s.wf.input[n.1].lastBurst s.now = false) ∧
    (let s : State := x26; let n : Fin 64 := 3; let b : Nat := 0
     s.grid.lane = some s.now ∧ s.wf.input[n.1].burst = some ⟨b, none⟩ ∧ s.now < b + 200) ∧
    (let s : State := x27; let n : Fin 64 := 3; let b : Nat := 0; let l := servingLane n s
     s.grid.lane = some s.now ∧ s.wf.input[n.1].burst = some ⟨b, none⟩ ∧ b + 200 ≤ s.now ∧ s.wf.lane[l.1].bursts < 39) := by
  refine ⟨?_, ?_, ?_, ?_, ?_, ?_⟩ <;> decide +kernel

theorem test_met_BurstsDisconnectALaneAndProveItAfterForty_2 :
    (let s : State := x28; let n : Fin 64 := 3; let b : Nat := 0; let l := servingLane n s
     s.grid.lane = some s.now ∧ s.wf.input[n.1].burst = some ⟨b, none⟩ ∧ b + 200 ≤ s.now ∧ s.wf.lane[l.1].bursts = 39) ∧
    (let m : ProveMeas := ⟨100, -100, 100, true⟩
     m.cmp = true ∧ m.off.toInt.natAbs ≤ 100 ∧ m.low.toInt.natAbs ≤ 100 ∧ m.high.toInt.natAbs ≤ 100) ∧
    (let m : ProveMeas := ⟨-101, 300, 300, true⟩
     m.cmp = true ∧ 100 < m.off.toInt.natAbs ∧ m.off.toInt.natAbs ≤ 300 ∧ m.low.toInt.natAbs ≤ 300 ∧ m.high.toInt.natAbs ≤ 300) ∧
    (let s : State := laneCfg 1 0; let n : Fin 64 := 0; let m : ProveMeas := ⟨0, 0, 301, true⟩
     (m.cmp = false ∨ 300 < m.off.toInt.natAbs ∨ 300 < m.low.toInt.natAbs ∨ 300 < m.high.toInt.natAbs) ∧ inputOn n s = true) ∧
    (let s : State := x28a; let n : Fin 64 := 3; let b : Nat := 0; let a := 100
     s.grid.lane = some s.now ∧ s.wf.input[n.1].burst = some ⟨b, some a⟩) := by
  refine ⟨?_, ?_, ?_, ?_, ?_⟩ <;> decide +kernel

/-- A part of Obligations.InputFaultsAndKeyedProveRequests. -/
theorem test_met_InputFaultsComeAndGo :
    (let s : State := x29; let n : Fin 64 := 3; let l := servingLane n s; let since := s.now - s.wf.lane[l.1].provedAt.getD 0
     provingRuns s = true ∧ s.grid.lane = some s.now ∧
       (s.wf.group[(grpOf n).1].spare = .serving ∨ s.wf.group[(grpOf n).1].spare = .faulted) ∧ 86400000000 ≤ since ∧
       s.wf.lane[l.1].over24h = false ∧ inputOn n s = true) ∧
    (let s : State := x30; let n : Fin 64 := 3; let l := servingLane n s; let since := s.now - s.wf.lane[l.1].provedAt.getD 0
     provingRuns s = true ∧ s.grid.lane = some s.now ∧
       (s.wf.group[(grpOf n).1].spare = .serving ∨ s.wf.group[(grpOf n).1].spare = .faulted) ∧ 600000000 ≤ since ∧
       since < 86400000000 ∧ s.wf.lane[l.1].over600 = false) ∧
    (let s : State := x31; let n : Fin 64 := 3; let l := servingLane n s; let since := s.now - s.wf.lane[l.1].provedAt.getD 0
     provingRuns s = true ∧ s.grid.lane = some s.now ∧
       (s.wf.group[(grpOf n).1].spare = .serving ∨ s.wf.group[(grpOf n).1].spare = .faulted) ∧ 600000000 ≤ since ∧
       since < 86400000000 ∧ s.wf.lane[l.1].over600 = false) ∧
    (let s : State := x32; let n : Fin 64 := 3; let l := servingLane n s; let since := s.now - s.wf.lane[l.1].provedAt.getD 0
     provingRuns s = true ∧ s.grid.lane = some s.now ∧
       (s.wf.group[(grpOf n).1].spare = .serving ∨ s.wf.group[(grpOf n).1].spare = .faulted) ∧ since < 600000000) ∧
    (let s : State := x33; let g : Fin 8 := 2; let c := 1; let k := 5; let til := 2000
     provingRuns s = true ∧ s.grid.lane = some s.now ∧ s.wf.group[g.1].phase = .check c k til ∧ til ≤ s.now) ∧
    (let s : State := x33b; let g : Fin 8 := 2; let c := 1; let k := 5; let til := 2001
     provingRuns s = true ∧ s.grid.lane = some s.now ∧ s.wf.group[g.1].phase = .check c k til ∧ s.now < til) := by
  refine ⟨?_, ?_, ?_, ?_, ?_, ?_⟩ <;> decide +kernel

/-- A part of Obligations.InputFaultsAndKeyedProveRequests. -/
theorem test_met_InputFaultsComeAndGo_2 :
    (let s : State := x34; let n : Fin 64 := 3; let o := 0; let f := ((1, 0) : BitVec 4 × Nat); let x := s.wf.input[n.1]
     provingRuns s = true ∧ s.grid.lane = some s.now ∧ x.okSince = some o ∧ f ∈ x.faults ∧ bandFault f.1 = true ∧
       o + 500000 ≤ s.now ∧ f.2 + 500000 ≤ s.now) ∧
    (let s : State := x35; let n : Fin 64 := 3; let o := 0; let x := s.wf.input[n.1]
     provingRuns s = true ∧ s.grid.lane = some s.now ∧ x.okSince = some o ∧ s.now < o + 500000) ∧
    (let s : State := x36; let n : Fin 64 := 3; let x := s.wf.input[n.1]
     provingRuns s = true ∧ s.grid.lane = some s.now ∧ x.okSince = none) ∧
    (let s : State := headed; let g : Fin 8 := 0; let p : Fin 8 := 0; let n : Fin 64 := 63
     imageRuns s = true ∧ clockSafe s = false ∧ headOf (inputAt g p) s ≠ none ∧ inputOn (inputAt g p) s = true ∧ grpOf n ≠ g) := by
  refine ⟨?_, ?_, ?_, ?_⟩ <;> decide +kernel

/-- A part of Obligations.InputFaultsAndKeyedProveRequests. -/
theorem test_met_KeyedProveRequestMovesTheInputToTheFront :
    (let s : State := op; let v : W16 := 0xB73F
     s.sys.mode ≠ .reset ∧ clockSafe s = false ∧ v.toNat / 256 = 0xB7) ∧
    (let s : State := op; let v : W16 := 0xB63F
     s.sys.mode ≠ .reset ∧ clockSafe s = false ∧ v.toNat / 256 ≠ 0xB7) := by
  refine ⟨?_, ?_⟩ <;> decide +kernel

theorem test_met_BusyAndStandingHeadsAreReported :
    (let s : State := x37; let h : Fin 32 := 1; let t0 := 0
     imageTaken s = true ∧ s.sys.mode ≠ .reset ∧ clockSafe s = false ∧ headOn h s = true ∧ s.grid.lane = some s.now ∧
       s.hd.head[h.1].nonIdle = some t0 ∧ s.hd.head[h.1].busy = false ∧ t0 + 20 * fld s.cfg.head[h.1].pfilt 6 0 ≤ s.now) ∧
    (let s : State := x38; let h : Fin 32 := 1; let t0 := 0
     imageTaken s = true ∧ s.sys.mode ≠ .reset ∧ clockSafe s = false ∧ headOn h s = true ∧ s.grid.lane = some s.now ∧
       s.hd.head[h.1].nonIdle = some t0 ∧ s.hd.head[h.1].busy = false ∧ s.now < t0 + 20 * fld s.cfg.head[h.1].pfilt 6 0) ∧
    (let s : State := x39; let h : Fin 32 := 1
     imageTaken s = true ∧ s.sys.mode ≠ .reset ∧ clockSafe s = false ∧ headOn h s = true ∧ s.grid.lane = some s.now ∧
       s.hd.head[h.1].standing = false ∧
       (s.hd.head[h.1].phase = .enter ∨ s.hd.head[h.1].phase = .both ∨ s.hd.head[h.1].phase = .leave) ∧
       s.hd.head[h.1].changed + 10000 * fld s.cfg.head[h.1].tstand 9 0 ≤ s.now) ∧
    (let s : State := x40; let h : Fin 32 := 1
     imageTaken s = true ∧ s.sys.mode ≠ .reset ∧ clockSafe s = false ∧ headOn h s = true ∧ s.grid.lane = some s.now ∧
       s.hd.head[h.1].standing = false ∧
       (s.hd.head[h.1].phase = .enter ∨ s.hd.head[h.1].phase = .both ∨ s.hd.head[h.1].phase = .leave) ∧
       s.now < s.hd.head[h.1].changed + 10000 * fld s.cfg.head[h.1].tstand 9 0) ∧
    (bounds 1 1 x37 = true ∧ (setSect 1 (fun y => { y with st := .clear }) x37).sc.sect[1].st = .clear) ∧
    (let s : State := setSect 2 (fun y => { y with st := .clear }) x37
     bounds 1 2 s = false ∧ s.sc.sect[2].count = 0 ∧ secPending 2 s = false ∧ anyBusy 2 s = false ∧ s.sc.sect[2].st = .clear) := by
  refine ⟨?_, ?_, ?_, ?_, ?_, ?_⟩ <;> decide +kernel

/-- A part of Obligations.WalksMoveCountsOrDisturbSections. -/
theorem test_met_AWalkMovesTheCountOfEachLinkedSection :
    (let s : State := walking; let e : WEntry := walkEntry; let q : List WEntry := [ ]; let lo : Nat := 0x7E100; let i : Fin 32 := 5
     let dir : Bool := true
     s.sys.loaded = true ∧ s.sys.mode ≠ .reset ∧ s.sys.mode ≠ .safe ∧ s.sc.refresh = none ∧ s.sc.fifo = e :: q ∧
       s.hd.head[e.head.1].reload = false ∧ memRead32 0 s.sc.tack (0x7E010 + 4 * e.head.1) = BitVec.ofNat 32 (e.head.1 * 2 ^ 26 + 2 ^
       20 + lo) ∧ lo % 4 = 0 ∧ 0x7E000 ≤ lo ∧ lo < 0x80000 ∧ memRead32 0 s.sc.tack lo = BitVec.ofNat 32 ((0xFFFF - (i.1 + if dir then
       32 else 0)) * 2 ^ 16 + i.1 + if dir then 32 else 0) ∧ bitOf s.hd.head[e.head.1].mask1 i.1 = true) ∧
    ((setSect 5 (fun y => { y with st := .clear, count := 2000 }) walking).sc.sect[5].st ≠ .disabled) := by
  refine ⟨?_, ?_⟩ <;> decide +kernel

/-- A part of Obligations.WalksMoveCountsOrDisturbSections. -/
theorem test_met_AWalkFaultDisturbsTheHeadsSections :
    (let s : State := x41; let e : WEntry := walkEntry; let q : List WEntry := [ ]
     s.sys.loaded = true ∧ s.sys.mode ≠ .reset ∧ s.sys.mode ≠ .safe ∧ s.sc.refresh = none ∧ s.sc.fifo = e :: q ∧
       s.hd.head[e.head.1].reload = true) ∧
    (let s : State := walking; let e : WEntry := walkEntry; let q : List WEntry := [ ]
     let ecc : Vector Ecc 33 := (Vector.replicate 33 .uncorrectable)
     s.sys.loaded = true ∧ s.sys.mode ≠ .reset ∧ s.sys.mode ≠ .safe ∧ s.sc.refresh = none ∧ s.sc.fifo = e :: q ∧
       s.hd.head[e.head.1].reload = false ∧ ecc[0] = .uncorrectable ∧ s.sc.refreshed = none) ∧
    (let s : State := x42; let e : WEntry := walkEntry; let q : List WEntry := [ ]
     let ecc : Vector Ecc 33 := (Vector.replicate 33 .uncorrectable)
     s.sys.loaded = true ∧ s.sys.mode ≠ .reset ∧ s.sys.mode ≠ .safe ∧ s.sc.refresh = none ∧ s.sc.fifo = e :: q ∧
       s.hd.head[e.head.1].reload = false ∧ ecc[0] = .uncorrectable ∧ (∃ r, s.sc.refreshed = some r ∧ s.now < r + 60000000)) := by
  refine ⟨?_, ?_, ?_⟩ <;> decide +kernel

theorem test_met_RepairsOfTheSectionsRestoreOrEnterSafe :
    (let s : State := x43; let r0 : Nat := 0
     s.sys.loaded = true ∧ s.sys.mode ≠ .reset ∧ s.sys.mode ≠ .safe ∧ s.sc.refresh = some r0) ∧
    (let s : State := x43; let a : W32 := 1; let a2 := 1
     s.sys.loaded = true ∧ s.sys.mode ≠ .reset ∧ s.sys.mode ≠ .safe ∧ a2 ≠ ~~~a) ∧
    (let s : State := x44; let h : Fin 32 := 31
     s.sys.loaded = true ∧ s.sys.mode ≠ .reset ∧ s.sys.mode ≠ .safe ∧ s.hd.head[h.1].reload = true) ∧
    (let s : State := x45; let i : Fin 32 := 31; let b : W16 := 5; let c : W16 := 6
     s.sys.loaded = true ∧ s.sys.mode ≠ .reset ∧ s.sys.mode ≠ .safe ∧ s.sc.sect[i.1].st ≠ .disabled ∧ c ≠ ~~~b) ∧
    (let s : State := x43; let i : Fin 32 := 31
     s.sys.loaded = true ∧ s.sys.mode ≠ .reset ∧ s.sys.mode ≠ .safe ∧ s.sc.sect[i.1].st = .disabled) ∧
    (op.cfg.tack.length ≤ 0x2000) := by
  refine ⟨?_, ?_, ?_, ?_, ?_, ?_⟩ <;> decide +kernel

theorem test_met_SectionResetsFollowTableScEight :
    (let s : State := x46; let o : ROrder := ⟨5, false, 9⟩
     inService s = true ∧ s.sc.orders = [o]) ∧
    (let s : State := x47; let o : ROrder := ⟨5, true, 9⟩
     inService s = true ∧ s.sc.orders = [o]) ∧
    ((ordered false 3).sc.sect[5].st = .disturbed ∧ anyFault 5 (ordered false 3) = false) ∧
    (anyFault 5 (setHead 1 (fun y => { y with phase := .fault }) (ordered false 3)) = true ∧ (ordered false 3).sc.sect[5].st =
       .disturbed) ∧
    ((ordered true 3).sc.sect[5].st = .disturbed ∧ bitOf (ordered true 3).cfg.section_[5] 1 = true ∧ anyFault 5 (ordered true 3) =
       false ∧ secPending 5 (ordered true 3) = false ∧ idle10s 5 (atTick (ordered true 3)) = true ∧ anyBusy 5 (ordered true 3) =
       false) ∧
    (bitOf (ordered true 1).cfg.section_[5] 1 = false ∧ (ordered true 1).sc.sect[5].st ≠ .disabled) := by
  refine ⟨?_, ?_, ?_, ?_, ?_, ?_⟩ <;> decide +kernel

/-- A part of Obligations.ContactSamplesFiltersAndPairs. -/
theorem test_met_ContactSamplesAndFiltersSetTheContacts :
    (let s : State := x48
     s.sys.loaded = true ∧ s.sys.mode ≠ .reset ∧ clockSafe s = false) ∧
    (let s : State := x48; let i : Fin 66 := 60
     s.sys.loaded = true ∧ s.sys.mode ≠ .reset ∧ clockSafe s = false ∧ contactUsed i s = true ∧ 0 < s.dc.contact[i.1].run ∧
       filtSamples i s ≤ s.dc.contact[i.1].run) ∧
    (let s : State := x49; let i : Fin 66 := 60
     s.sys.loaded = true ∧ s.sys.mode ≠ .reset ∧ clockSafe s = false ∧ contactUsed i s = true ∧ 0 < s.dc.contact[i.1].run ∧
       s.dc.contact[i.1].run < filtSamples i s) ∧
    (contactUsed 60 (door 1) = true ∧ blindSrc (sourceOf 60 (door 1)) (reach 10 (door 1).grid.contact (time 25000 (door 1))) = false) ∧
    (contactUsed 60 (door 1) = true ∧ blindSrc (sourceOf 60 (door 1)) (reach 10 (door 1).grid.contact (door 1)) = true) ∧
    (contactUsed 62 (door 1) = false) := by
  refine ⟨?_, ?_, ?_, ?_, ?_, ?_⟩ <;> decide +kernel

/-- A part of Obligations.ContactSamplesFiltersAndPairs. -/
theorem test_met_DiscrepantPairsFaultAndObstaclePairsRecover :
    (let s : State := x50; let c : Fin 16 := 15; let t0 : Nat := 0; let x := s.dc.chan[c.1]
     s.sys.loaded = true ∧ s.sys.mode ≠ .reset ∧ clockSafe s = false ∧ chanOn c s = true ∧ x.cl.eval = .transit ∧ x.cl.since = some
       t0 ∧ t0 + 10000 * fld s.cfg.chan[c.1].disc 7 0 < s.now ∧ x.locked = false ∧ x.ob.eval = .transit ∧ x.ob.since = some t0 ∧ t0 + 10000 * fld
       s.cfg.chan[c.1].disc 15 8 < s.now) ∧
    (let s : State := x51; let c : Fin 16 := 15; let t0 : Nat := 0; let x := s.dc.chan[c.1]
     s.sys.loaded = true ∧ s.sys.mode ≠ .reset ∧ clockSafe s = false ∧ chanOn c s = true ∧ x.cl.eval = .transit ∧ x.cl.since = some
       t0 ∧ s.now ≤ t0 + 10000 * fld s.cfg.chan[c.1].disc 7 0) ∧
    (let s : State := x52; let c : Fin 16 := 15; let t0 : Nat := 0; let x := s.dc.chan[c.1]
     s.sys.loaded = true ∧ s.sys.mode ≠ .reset ∧ clockSafe s = false ∧ chanOn c s = true ∧ x.ob.eval = .fault ∧ x.ob.bySource = false
       ∧ x.ob.antiSince = some t0 ∧ t0 + 1000000 ≤ s.now ∧ obUsed c s = true ∧ 10 ≤ s.dc.contact[(contactOf c 2).1].darkN ∧ 10 ≤
       s.dc.contact[(contactOf c 3).1].darkN ∧ pairFault (contactOf c 2) (contactOf c 3) s = none ∧ s.dc.contact[(contactOf c
       2).1].filt = true ∧ s.dc.contact[(contactOf c 3).1].filt = false) ∧
    (let s : State := x53; let c : Fin 16 := 15; let t0 : Nat := 0; let x := s.dc.chan[c.1]
     s.sys.loaded = true ∧ s.sys.mode ≠ .reset ∧ clockSafe s = false ∧ chanOn c s = true ∧ x.ob.eval = .fault ∧ x.ob.antiSince = some
       t0 ∧ s.now < t0 + 1000000) := by
  refine ⟨?_, ?_, ?_, ?_⟩ <;> decide +kernel

theorem test_met_TestPulsesCheckTheContacts :
    (let s : State := x54; let n : Fin 4 := 3
     inService s = true ∧ s.sys.loaded = true ∧ s.tsRun = true ∧ s.tstamp.toNat < 2 ^ 47 ∧ s.dc.tps[n.1].pulseAt ≠ some s.now ∧
       s.dc.tps[n.1].fault = false) ∧
    (let s : State := x54
     inService s = true ∧ s.sys.loaded = true) ∧
    (let s : State := x55; let n : Fin 4 := 3
     inService s = true ∧ s.sys.loaded = true ∧ s.dc.tps[n.1].fault = true) ∧
    (contactUsed 60 (door 1) = true ∧ sourceOf 60 (door 1) = 0 ∧ bitOf (0 : BitVec 66) 60 = false ∧ bitOf (BitVec.ofNat 66 (2 ^ 60))
       60 = true) ∧
    (chanOn 15 (door 1) = true ∧ sourceOf (contactOf 15 0) (door 1) = 0) := by
  refine ⟨?_, ?_, ?_, ?_, ?_⟩ <;> decide +kernel

theorem test_met_TachometerEdgesTimeAndTimeouts :
    (let s : State := x56; let c : Fin 16 := 15; let hi : Nat := 10000; let lo : Nat := 10000; let t0 : Nat := 0
     let x := s.dc.chan[c.1]
     tachRuns c s = true ∧ 10000 ≤ hi ∧ 10000 ≤ lo ∧ x.edge = some t0 ∧ (0 : Fin 16) ≠ c) ∧
    (let s : State := x56; let c : Fin 16 := 15; let hi : Nat := 9999; let lo : Nat := 10000
     tachRuns c s = true ∧ (hi < 10000 ∨ lo < 10000)) ∧
    (let s : State := x56; let c : Fin 16 := 15; let hi : Nat := 10000; let lo : Nat := 9999
     tachRuns c s = true ∧ (hi < 10000 ∨ lo < 10000)) ∧
    (let s : State := x57; let c : Fin 16 := 15; let t0 : Nat := 0; let x := s.dc.chan[c.1]
     tachRuns c s = true ∧ x.locked = false ∧ x.tachF = false ∧ torqueOn x.state = true ∧ x.leftLock = true ∧ x.edges = 0 ∧
       x.fastSince = none ∧ x.grantAt = some t0 ∧ t0 + 10000 * fld s.cfg.chan[c.1].time 15 8 ≤ s.now) ∧
    (let s : State := x58; let c : Fin 16 := 15; let t0 : Nat := 0; let x := s.dc.chan[c.1]
     tachRuns c s = true ∧ x.locked = false ∧ x.tachF = false ∧ torqueOn x.state = true ∧ x.leftLock = true ∧ x.edges = 0 ∧
       x.fastSince = none ∧ x.grantAt = some t0 ∧ s.now < t0 + 10000 * fld s.cfg.chan[c.1].time 15 8) ∧
    (let s : State := x58f; let c : Fin 16 := 15; let t0 : Nat := 0; let e := 1000; let x := s.dc.chan[c.1]
     tachRuns c s = true ∧ x.locked = false ∧ x.tachF = false ∧ x.fastSince = some t0 ∧ x.edge = some e ∧ t0 + 1000 ≤ e) := by
  refine ⟨?_, ?_, ?_, ?_, ?_, ?_⟩ <;> decide +kernel

theorem test_met_DarkPulsesTestTheTorqueOutputs :
    (let s : State := darkAt15 x54; let c : Fin 16 := 15; let b : Bool := false; let o : Fin 2 := if b then 1 else 0
     let y := s.dc.chan[c.1].sto[o.1]
     inService s = true ∧ chanOn c s = true ∧ (darkSlot c o s = false ∨ y.on = false)) ∧
    (let s : State := time 9375001 x59; let c : Fin 16 := 15; let b : Bool := false; let o : Fin 2 := if b then 1 else 0
     let y := s.dc.chan[c.1].sto[o.1]
     inService s = true ∧ chanOn c s = true ∧ (darkSlot c o s = false ∨ y.on = false)) ∧
    (let s : State := x59; let c : Fin 16 := 15; let b : Bool := false; let off : Nat := 250
     let o : Fin 2 := if b then 1 else 0; let y := s.dc.chan[c.1].sto[o.1]
     inService s = true ∧ chanOn c s = true ∧ darkSlot c o s = true ∧ y.on = true ∧ y.darkAt ≠ some s.now ∧ y.deg = false ∧
       off ≤ 250) ∧
    (let s : State := x59; let c : Fin 16 := 15; let b : Bool := false; let off : Nat := 251
     let o : Fin 2 := if b then 1 else 0; let y := s.dc.chan[c.1].sto[o.1]
     inService s = true ∧ chanOn c s = true ∧ darkSlot c o s = true ∧ y.on = true ∧ y.darkAt ≠ some s.now ∧ y.deg = false ∧
       250 < off ∧ s.dc.chan[c.1].sto[1 - o.1].deg = false ∧ s.dc.chan[c.1].locked = false) ∧
    (let s : State := x60; let c : Fin 16 := 15; let b : Bool := false; let off : Nat := 251
     let o : Fin 2 := if b then 1 else 0; let y := s.dc.chan[c.1].sto[o.1]
     inService s = true ∧ chanOn c s = true ∧ darkSlot c o s = true ∧ y.on = true ∧ y.darkAt ≠ some s.now ∧ y.deg = false ∧
       250 < off ∧ s.dc.chan[c.1].sto[1 - o.1].deg = true) := by
  refine ⟨?_, ?_, ?_, ?_, ?_⟩ <;> decide +kernel

/-- A part of Obligations.UnlocksStageTestsAndDegradedMinutes. -/
theorem test_met_UnlockNeedsAFaultFreeChannel :
    (let s : State := x61; let c : Fin 16 := 15; let v : W16 := 0x6C0F
     inService s = true ∧ v.toNat / 256 = 0x6C ∧ v.toNat % 16 = c.1 ∧ s.nv.login[0].on = true ∧ unlockWaits c s = false ∧
       s.dc.chan[c.1].state = .locked ∧ faultPresent c s = false ∧ s.dc.chan[c.1].lockSto = false) ∧
    (let s : State := x62; let c : Fin 16 := 15; let v : W16 := 0x6C0F
     inService s = true ∧ v.toNat / 256 = 0x6C ∧ v.toNat % 16 = c.1 ∧ s.nv.login[0].on = true ∧ unlockWaits c s = false ∧
       s.dc.chan[c.1].state = .locked ∧ faultPresent c s = false ∧ s.dc.chan[c.1].lockSto = true) ∧
    (let s : State := x63; let c : Fin 16 := 15; let v : W16 := 0x6C0F
     inService s = true ∧ v.toNat / 256 = 0x6C ∧ v.toNat % 16 = c.1 ∧
       (s.nv.login[0].on = false ∨ unlockWaits c s = true ∨ s.dc.chan[c.1].state ≠ .locked ∨ faultPresent c s = true)) ∧
    (let s : State := x64; let c : Fin 16 := 15; let v : W16 := 0x6C0F
     inService s = true ∧ v.toNat / 256 = 0x6C ∧ v.toNat % 16 = c.1 ∧
       (s.nv.login[0].on = false ∨ unlockWaits c s = true ∨ s.dc.chan[c.1].state ≠ .locked ∨ faultPresent c s = true)) ∧
    (let s : State := x68u; let c : Fin 16 := 15; let v : W16 := 0x6C0F
     inService s = true ∧ v.toNat / 256 = 0x6C ∧ v.toNat % 16 = c.1 ∧
       (s.nv.login[0].on = false ∨ unlockWaits c s = true ∨ s.dc.chan[c.1].state ≠ .locked ∨ faultPresent c s = true)) ∧
    (let s : State := setLogin 0 (fun l => { l with on := false }) x61
     let c : Fin 16 := 15; let v : W16 := 0x6C0F
     inService s = true ∧ v.toNat / 256 = 0x6C ∧ v.toNat % 16 = c.1 ∧
       (s.nv.login[0].on = false ∨ unlockWaits c s = true ∨ s.dc.chan[c.1].state ≠ .locked ∨ faultPresent c s = true)) := by
  refine ⟨?_, ?_, ?_, ?_, ?_, ?_⟩ <;> decide +kernel

/-- A part of Obligations.UnlocksStageTestsAndDegradedMinutes. -/
theorem test_met_StageTestsAndDegradedMinutesAct :
    (let s : State := x65; let u : UnlockReq := ⟨15, false, 0⟩; let r := ([] : List UnlockReq)
     inService s = true ∧ s.dc.unlock = u :: r ∧ s.now ≤ u.start + 20000 ∧ s.dc.chan[u.chan.1].state = .locked ∧
       faultPresent u.chan s = false) ∧
    (let s : State := x66; let u : UnlockReq := ⟨15, false, 0⟩; let r := ([] : List UnlockReq)
     inService s = true ∧ s.dc.unlock = u :: r ∧ u.start + 20000 < s.now) ∧
    (let s : State := op
     inService s = true ∧ s.dc.unlock = []) ∧
    (let s : State := x68u; let c : Fin 16 := 15; let usb := true
     inService s = true ∧ chanOn c s = true ∧ s.dc.chan[c.1].state = .locked ∧ s.dc.chan[c.1].unlocking = some usb ∧
       faultPresent c s = false) ∧
    (let s : State := x68f; let c : Fin 16 := 15; let usb := false
     inService s = true ∧ chanOn c s = true ∧ s.dc.chan[c.1].state = .locked ∧ s.dc.chan[c.1].unlocking = some usb ∧
       faultPresent c s = true) ∧
    (let s : State := x65; let c : Fin 16 := 15; let d0 : Nat := 20000
     inService s = true ∧ s.dc.chan[c.1].degraded = true ∧ s.dc.chan[c.1].nextMin = some d0 ∧
       s.dc.chan[c.1].usedMin.toNat < 2047 ∧ d0 ≤ s.now ∧
       fld s.cfg.chan[c.1].degtime 10 0 ≤ s.dc.chan[c.1].usedMin.toNat + 1 ∧ s.dc.chan[c.1].lockPend = false) := by
  refine ⟨?_, ?_, ?_, ?_, ?_, ?_⟩ <;> decide +kernel

/-- A part of Obligations.UnlocksStageTestsAndDegradedMinutes. -/
theorem test_met_StageTestsAndDegradedMinutesAct_2 :
    (let s : State := x67; let c : Fin 16 := 15; let d0 : Nat := 20000
     inService s = true ∧ s.dc.chan[c.1].degraded = true ∧ s.dc.chan[c.1].nextMin = some d0 ∧
       s.dc.chan[c.1].usedMin.toNat < 2047 ∧ d0 ≤ s.now) ∧
    (let s : State := x68; let c : Fin 16 := 15; let d0 : Nat := 20000
     inService s = true ∧ s.dc.chan[c.1].degraded = true ∧ s.dc.chan[c.1].nextMin = some d0 ∧
       s.dc.chan[c.1].usedMin.toNat < 2047 ∧ s.now < d0) := by
  refine ⟨?_, ?_⟩ <;> decide +kernel

theorem test_met_ACopyIsHeldPairedOrRejected :
    (let s : State := linked; let q : Fin 4 := 0; let b : List Byte := (commandT.set 8 0xFF); let p := (pairOf q).1
     let k := s.tg.pair[p]
     tgReceives s = true ∧ b.length ≤ 64 ∧ b.length = 16 + tLen b ∧ (pairOf q = 1 → canUnused s = false) ∧ k.slots = [] ∧ copyReason
       (pairOf q) b s ≠ 0) ∧
    (let s : State := linked; let q : Fin 4 := 0; let b : List Byte := commandT; let p := (pairOf q).1; let k := s.tg.pair[p]
     tgReceives s = true ∧ b.length ≤ 64 ∧ b.length = 16 + tLen b ∧ (pairOf q = 1 → canUnused s = false) ∧ k.slots = [] ∧ k.mode =
       .dual ∧ k.recent = [] ∧ copyReason (pairOf q) b s = 0) ∧
    (let s : State := x69; let q : Fin 4 := 0; let b : List Byte := commandT; let c : Slot := (slotB 0 (commandT.set 8 0xFF))
     let p := (pairOf q).1; let k := s.tg.pair[p]
     tgReceives s = true ∧ b.length ≤ 64 ∧ b.length = 16 + tLen b ∧ (pairOf q = 1 → canUnused s = false) ∧ k.slots = [c] ∧ k.mode =
       .dual ∧ k.recent = [] ∧ copyReason (pairOf q) b s = 0 ∧ c.net = 1 - netOf q ∧ c.src = tSrc b ∧ c.seq = tSeq b ∧ s.now ≤ c.at_
       + skewUs (pairOf q) s ∧ c.bytes ≠ b) ∧
    (let s : State := x70; let q : Fin 4 := 0; let b : List Byte := commandT; let c : Slot := (slotB 0 commandT)
     let p := (pairOf q).1; let k := s.tg.pair[p]
     tgReceives s = true ∧ b.length ≤ 64 ∧ b.length = 16 + tLen b ∧ (pairOf q = 1 → canUnused s = false) ∧ k.slots = [c] ∧ k.mode =
       .dual ∧ k.recent = [] ∧ copyReason (pairOf q) b s = 0 ∧ c.net = 1 - netOf q ∧ c.src = tSrc b ∧ c.seq = tSeq b ∧ s.now ≤ c.at_
       + skewUs (pairOf q) s ∧ c.bytes = b) ∧
    (let s : State := x71; let q : Fin 4 := 0; let b : List Byte := commandT; let c : Slot := (slotB 0 commandT)
     let p := (pairOf q).1; let k := s.tg.pair[p]
     tgReceives s = true ∧ b.length ≤ 64 ∧ b.length = 16 + tLen b ∧ (pairOf q = 1 → canUnused s = false) ∧ k.slots = [c] ∧ k.mode =
       .dual ∧ k.recent = [] ∧ copyReason (pairOf q) b s = 0 ∧ c.net = 1 - netOf q ∧ c.src = tSrc b ∧ c.seq = tSeq b ∧ s.now ≤ c.at_
       + skewUs (pairOf q) s ∧ c.bytes = b) := by
  refine ⟨?_, ?_, ?_, ?_, ?_⟩ <;> decide +kernel

/-- A part of Obligations.FreshCommandsAreUsedAndHeldCopiesExpire. -/
theorem test_met_AFreshCommandInSequenceIsUsed :
    (let s : State := x72; let b : List Byte := commandT; let k := s.tg.pair[0]; let x := s.tg.source[0]
     inService s = true ∧ s.sys.loaded = true ∧ b.length = 28 ∧ k.slots = [] ∧ k.mode = .singleA ∧ k.recent = [] ∧ copyReason 0 b s =
       0 ∧ peerOf 0 (tSrc b) s = some 0 ∧ tType b = 2 ∧ x.sync = true ∧ tSeq b = x.seq + 1 ∧ 1 ≤ seqWin s ∧ (tAlive b -
       x.alive).toNat ≤ aliveWin s ∧ tAlive b ≠ x.alive ∧ (tTime b - x.time).toNat < 2 ^ 31 ∧ tPay b 9 = 0 ∧ echoFresh 0 (tEcho b) s
       = true) ∧
    (let s : State := x73; let b : List Byte := commandT; let k := s.tg.pair[0]; let x := s.tg.source[0]
     inService s = true ∧ s.sys.loaded = true ∧ b.length = 28 ∧ k.slots = [] ∧ k.mode = .singleA ∧ k.recent = [] ∧ copyReason 0 b s =
       0 ∧ peerOf 0 (tSrc b) s = some 0 ∧ tType b = 2 ∧ x.sync = true ∧ tSeq b = x.seq + 1 ∧ 1 ≤ seqWin s ∧ (tAlive b -
       x.alive).toNat ≤ aliveWin s ∧ tAlive b ≠ x.alive ∧ (tTime b - x.time).toNat < 2 ^ 31 ∧ tPay b 9 = 0 ∧ echoFresh 0 (tEcho b) s
       = true) ∧
    (let s : State := x74; let b : List Byte := commandT; let k := s.tg.pair[0]; let x := s.tg.source[0]
     inService s = true ∧ s.sys.loaded = true ∧ b.length = 28 ∧ k.slots = [] ∧ k.mode = .singleA ∧ k.recent = [] ∧ copyReason 0 b s =
       0 ∧ peerOf 0 (tSrc b) s = some 0 ∧ tType b = 2 ∧ x.sync = true ∧ tSeq b = x.seq + 1 ∧ 1 ≤ seqWin s ∧ (tAlive b -
       x.alive).toNat ≤ aliveWin s ∧ tAlive b ≠ x.alive ∧ (tTime b - x.time).toNat < 2 ^ 31 ∧ tPay b 9 = 0 ∧ echoFresh 0 (tEcho b) s
       = false) := by
  refine ⟨?_, ?_, ?_⟩ <;> decide +kernel

/-- A part of Obligations.FreshCommandsAreUsedAndHeldCopiesExpire. -/
theorem test_met_HeldCopiesExpireAndContentLapses :
    (let s : State := x75; let p : Fin 2 := 0; let c : Slot := (slotB 0 commandT); let rest : List Slot := [ ]
     tgReceives s = true ∧ s.tg.pair[p.1].slots = c :: rest ∧ c.at_ + skewUs p s < s.now ∧ s.tg.pair[p.1].miss[(1 - c.net).1] = 0) ∧
    (let s : State := x71; let p : Fin 2 := 0; let c : Slot := (slotB 0 commandT); let rest : List Slot := [ ]
     s.tg.pair[p.1].slots = c :: rest ∧ s.now ≤ c.at_ + skewUs p s) ∧
    (let s : State := x76
     s.sys.mode ≠ .reset ∧ clockSafe s = false ∧ s.tg.benValid = true ∧ s.tg.benFresh = true ∧ echoFresh 0 s.tg.benEcho (atTick s) =
       false) ∧
    (let s : State := x77
     s.sys.mode ≠ .reset ∧ clockSafe s = false ∧ s.tg.benValid = true ∧ s.tg.benFresh = true ∧ echoFresh 0 s.tg.benEcho (atTick s) =
       true) := by
  refine ⟨?_, ?_, ?_, ?_⟩ <;> decide +kernel

theorem test_met_TransmitCyclesBuildOneTelegramForBothNetworks :
    (let s : State := dueCycle; let q := s.tg.stream[0].seq; let u : Unsent := ⟨0, tgBytes 0 1 s.tg.pay[0] s, none⟩
     cycleDue 0 s = true ∧ s.tg.unsent = [] ∧ (s.nv.vault.marks[0] = q ∨ q.toNat % 65536 ≠ 0) ∧
       s.nv.stored.marks[0] = s.nv.vault.marks[0] ∧ tapRoom 1 (sendBlock u s) s = true ∧ s.ports.eth[0].up = true ∧
       s.ports.eth[1].up = true ∧ s.ports.eth[0].sending = none ∧ s.ports.eth[1].sending = none) ∧
    (let s : State := x74f; let q := s.tg.stream[0].seq; let u : Unsent := ⟨0, tgBytes 0 1 s.tg.pay[0] s, none⟩
     cycleDue 0 s = true ∧ s.tg.unsent = [] ∧ (s.nv.vault.marks[0] = q ∨ q.toNat % 65536 ≠ 0) ∧
       s.nv.stored.marks[0] = s.nv.vault.marks[0] ∧ tapRoom 1 (sendBlock u s) s = false) ∧
    (let s : State := x74m; let q := s.tg.stream[0].seq; let u : Unsent := ⟨0, tgBytes 0 1 s.tg.pay[0] s, none⟩
     cycleDue 0 s = true ∧ s.tg.unsent = [] ∧ q.toNat % 65536 = 0 ∧ s.nv.vault.marks[0] ≠ q ∧ s.nv.stored.marks[0] ≠ q ∧
       s.tg.markBad = false) ∧
    (let s : State := dueCycle; let b := tgBytes 1 4 s.tg.pay[1] s; let x := canCopy false 0 0 b s
     cycleDue 1 s = true ∧ s.tg.unsent = [] ∧ nodeOf 1 s ≠ 0 ∧ nodeOf 2 s = 0 ∧ nodeOf 3 s = 0 ∧ nodeOf 4 s = 0 ∧
       s.tg.stream[1].seq.toNat % 65536 ≠ 0 ∧ s.nv.stored.marks[1] = s.nv.vault.marks[1] ∧ canRuns 0 s = true ∧
       canRuns 1 s = true ∧ s.ports.can[0].queue = [] ∧ s.ports.can[1].queue = [] ∧ s.ports.can[0].sending = none ∧
       s.ports.can[1].sending = none ∧ tapRoom 3 (sendBlock ⟨1, b, some x⟩ s) s = true) ∧
    (let s : State := op
     cycleDue 0 s = false ∧ cycleDue 1 s = false) := by
  refine ⟨?_, ?_, ?_, ?_, ?_⟩ <;> decide +kernel

/-- A part of Obligations.EthernetFramesAndMdioPolls. -/
theorem test_met_EthernetFramesAreFilteredAndSent :
    (let s : State := op; let f : EthFrame := ⟨frame60, false, false⟩
     ethReceives s = true ∧ (f.fcsOk = false ∨ f.rxer = true ∨ f.octets.length < 60 ∨ 1518 < f.octets.length)) ∧
    (let s : State := op; let f : EthFrame := ⟨frame60, true, true⟩
     ethReceives s = true ∧ (f.fcsOk = false ∨ f.rxer = true ∨ f.octets.length < 60 ∨ 1518 < f.octets.length)) ∧
    (let s : State := op; let f : EthFrame := ⟨frame60.drop 1, true, false⟩
     ethReceives s = true ∧ (f.fcsOk = false ∨ f.rxer = true ∨ f.octets.length < 60 ∨ 1518 < f.octets.length)) ∧
    (let s : State := op; let f : EthFrame := ⟨List.replicate 1519 0, true, false⟩
     ethReceives s = true ∧ (f.fcsOk = false ∨ f.rxer = true ∨ f.octets.length < 60 ∨ 1518 < f.octets.length)) ∧
    (let s : State := op; let f : EthFrame := ⟨frame60.set 0 2, true, false⟩
     ethReceives s = true ∧ f.fcsOk = true ∧ f.rxer = false ∧ 60 ≤ f.octets.length ∧ f.octets.length ≤ 1518 ∧ (macOk f.octets s =
       false ∨ etherOk f.octets s = false)) ∧
    (let s : State := op; let f : EthFrame := ⟨frame60.set 12 2, true, false⟩
     ethReceives s = true ∧ f.fcsOk = true ∧ f.rxer = false ∧ 60 ≤ f.octets.length ∧ f.octets.length ≤ 1518 ∧ (macOk f.octets s =
       false ∨ etherOk f.octets s = false)) := by
  refine ⟨?_, ?_, ?_, ?_, ?_, ?_⟩ <;> decide +kernel

/-- A part of Obligations.EthernetFramesAndMdioPolls. -/
theorem test_met_EthernetFramesAreFilteredAndSent_2 :
    (let s : State := op; let f : EthFrame := ⟨frame60, true, false⟩
     ethReceives s = true ∧ f.fcsOk = true ∧ f.rxer = false ∧ 60 ≤ f.octets.length ∧ f.octets.length ≤ 1518 ∧ macOk f.octets s = true
       ∧ etherOk f.octets s = true ∧ bitOf s.cfg.en.vlan 15 = false) ∧
    (let s : State := op
     ethReceives s = true) := by
  refine ⟨?_, ?_⟩ <;> decide +kernel

/-- A part of Obligations.EthernetFramesAndMdioPolls. -/
theorem test_met_MdioPollsDeclareThePortUpOrDown :
    (let s : State := x78; let x : Fin 2 := 0; let r1 : W16 := 0x24; let r5 : W16 := 0x100
     s.sys.mode ≠ .reset ∧ s.sys.mode ≠ .prove ∧ clockSafe s = false ∧ s.ports.mdioOn = true ∧ pollDue x s = true ∧
       s.ports.eth[x.1].cause ≠ 5 ∧ r1 ≠ 0xFFFF ∧ bitOf r1 2 = true ∧ bitOf r1 5 = true ∧ bitOf r5 8 = true ∧
       s.ports.eth[x.1].up = false ∧ s.ports.eth[x.1].good = 9) ∧
    (let s : State := x80p; let x : Fin 2 := 0; let r1 : W16 := 0x20
     s.sys.mode ≠ .reset ∧ s.sys.mode ≠ .prove ∧ clockSafe s = false ∧ s.ports.mdioOn = true ∧ pollDue x s = true ∧
       s.ports.eth[x.1].cause ≠ 5 ∧ r1 ≠ 0xFFFF ∧ bitOf r1 2 = false ∧ s.ports.eth[x.1].up = true) ∧
    (let s : State := x80; let x : Fin 2 := 0
     s.sys.mode ≠ .reset ∧ s.sys.mode ≠ .prove ∧ clockSafe s = false ∧ s.ports.mdioOn = true ∧ pollDue x s = true ∧
       s.ports.eth[x.1].cause ≠ 5 ∧ s.ports.eth[x.1].ffs = 2) ∧
    (let s : State := x80n; let x : Fin 2 := 0
     s.sys.mode ≠ .reset ∧ s.sys.mode ≠ .prove ∧ clockSafe s = false ∧ pollDue x s = false) ∧
    (let s : State := op
     s.sys.mode ≠ .reset ∧ s.sys.mode ≠ .prove ∧ clockSafe s = false ∧ s.ports.mdioOn = false ∧ s.sys.loaded = true) ∧
    (let s : State := x78; let v : W16 := 0x4D21
     s.sys.mode ≠ .reset ∧ s.sys.mode ≠ .prove ∧ clockSafe s = false ∧ v.toNat / 256 = 0x4D) := by
  refine ⟨?_, ?_, ?_, ?_, ?_, ?_⟩ <;> decide +kernel

/-- A part of Obligations.EthernetFramesAndMdioPolls. -/
theorem test_met_MdioPollsDeclareThePortUpOrDown_2 :
    (let s : State := x78
     s.sys.mode ≠ .reset ∧ s.sys.mode ≠ .prove ∧ clockSafe s = false ∧ s.ports.mdioOn = true ∧ s.ports.mdioRead ≠ none) := by
  decide +kernel

theorem test_met_CanControllersCountErrorsAndFilterFrames :
    (let s : State := x81; let x : Fin 2 := 1
     let e : CanErr := { lec := 1, tx := true }
     let t0 : CanTx := canTx; let c := s.ports.can[x.1]
     canRuns x s = true ∧ c.state = .active ∧ c.tec ≤ 119 ∧ c.rec_ ≤ 127 ∧ e.tx = true ∧ c.sending = some t0 ∧ errExempt e c =
       false) ∧
    (let s : State := x81; let x : Fin 2 := 1
     let e : CanErr := { lec := 1, tx := false }
     let c := s.ports.can[x.1]
     canRuns x s = true ∧ e.tx = false ∧ c.rec_ = 127 ∧ c.tec ≤ 127 ∧ c.state = .active) ∧
    (let s : State := x82; let x : Fin 2 := 1
     let e : CanErr := { lec := 1, tx := true }
     let c := s.ports.can[x.1]
     canRuns x s = true ∧ e.tx = true ∧ errExempt e c = false ∧ 248 ≤ c.tec ∧ c.state = .active ∧ c.boffAt = [] ∧ bitOf s.cfg.cn.ctl 0 = true) ∧
    (let s : State := x81; let x : Fin 2 := 1; let t0 : CanTx := canTx; let c := s.ports.can[x.1]
     canRuns x s = true ∧ c.sending = some t0 ∧ c.tec ≤ 127 ∧ c.rec_ ≤ 127 ∧ c.state = .active ∧ c.queue = []) ∧
    (let s : State := x81; let x : Fin 2 := 1
     let f : CanFrame := { ident := 3, remote := true, data := [ ] }
     let c := s.ports.can[x.1]
     canRuns x s = true ∧ c.state = .active ∧ c.tec ≤ 127 ∧ c.rec_ ≤ 127 ∧ (f.remote = true ∨ f.ext = true ∨ doorNode
       (f.ident.setWidth 8) s = false)) ∧
    (let s : State := x81; let x : Fin 2 := 1
     let f : CanFrame := { ident := 3, ext := true, data := [ ] }
     let c := s.ports.can[x.1]
     canRuns x s = true ∧ c.state = .active ∧ c.tec ≤ 127 ∧ c.rec_ ≤ 127 ∧ (f.remote = true ∨ f.ext = true ∨ doorNode
       (f.ident.setWidth 8) s = false)) := by
  refine ⟨?_, ?_, ?_, ?_, ?_, ?_⟩ <;> decide +kernel

theorem test_met_CanControllersCountErrorsAndFilterFrames_2 :
    (let s : State := x81; let x : Fin 2 := 1
     let f : CanFrame := { ident := 4, data := [ ] }
     let c := s.ports.can[x.1]
     canRuns x s = true ∧ c.state = .active ∧ c.tec ≤ 127 ∧ c.rec_ ≤ 127 ∧ (f.remote = true ∨ f.ext = true ∨ doorNode
       (f.ident.setWidth 8) s = false)) ∧
    (let s : State := x81; let x : Fin 2 := 1
     let f : CanFrame := { ident := 3, data := List.replicate 15 0 }
     let c := s.ports.can[x.1]
     canRuns x s = true ∧ c.state = .active ∧ c.tec ≤ 127 ∧ c.rec_ ≤ 127 ∧ f.remote = false ∧ f.ext = false ∧ doorNode
       (f.ident.setWidth 8) s = true ∧ (f.classic = true ∨ f.data.length < 16)) ∧
    (let s : State := x81; let x : Fin 2 := 1
     let f : CanFrame := { ident := 3, classic := true, data := List.replicate 16 0 }
     let c := s.ports.can[x.1]
     canRuns x s = true ∧ c.state = .active ∧ c.tec ≤ 127 ∧ c.rec_ ≤ 127 ∧ f.remote = false ∧ f.ext = false ∧ doorNode
       (f.ident.setWidth 8) s = true ∧ (f.classic = true ∨ f.data.length < 16)) ∧
    (canTx.stop = true ∧ bitOf canTx.chans 15 = true ∧ (canAt 0 0).dc.chan[15].stopAt = canTx.at_) := by
  refine ⟨?_, ?_, ?_, ?_⟩ <;> decide +kernel

theorem test_met_CanControllersRecoverAndLeaveStandby :
    (let s : State := x83; let x : Fin 2 := 1; let c := s.ports.can[x.1]
     c.state = .busOff ∧ c.recovering = true) ∧
    (let s : State := op; let x : Fin 2 := 1; let c := s.ports.can[x.1]
     c.state ≠ .busOff ∧ s.sys.mode ≠ .reset ∧ clockSafe s = false) ∧
    (let s : State := x83; let x : Fin 2 := 1; let v : W16 := 0xB502; let c := s.ports.can[x.1]
     s.sys.mode ≠ .reset ∧ clockSafe s = false ∧ v.toNat / 256 = 0xB5 ∧ bitOf v x.1 = true ∧ c.state = .busOff) ∧
    (let s : State := x83; let v : W16 := 0xB602
     s.sys.mode ≠ .reset ∧ clockSafe s = false ∧ v.toNat / 256 ≠ 0xB5) ∧
    (let s : State := x84; let x : Fin 2 := 1; let e0 : Nat := 0; let c := s.ports.can[x.1]
     c.exitAt = some e0 ∧ e0 ≤ s.now) := by
  refine ⟨?_, ?_, ?_, ?_, ?_⟩ <;> decide +kernel

theorem test_met_TheSafetyTickDrivesTheOutputs :
    (let s : State := State.reset
     Inv s ∧ s.sys.mode ≠ .reset ∧ clockSafe s = false ∧ s.um.resetAt = none) ∧
    (let s : State := op
     Inv s ∧ s.sys.mode ≠ .reset ∧ clockSafe s = false ∧ s.um.resetAt = none) ∧
    (let t : State := scanAt5
     scanDue t = true) := by
  refine ⟨?_, ?_, ?_⟩ <;> decide +kernel

theorem test_met_SnoopUnitsCheckBlocksAndTestThemselves :
    (let s : State := x85; let n : Fin 8 := 5; let b : Block := block6; let q : List Block := [ ]; let u := s.ck[n.1]
     let res := crcOf (ckPreset u) (ckFoldBytes u b ++ b.bytes.take (b.bytes.length - ckTrail u))
     ckOwner u = 1 ∧ u.disabled = false ∧ u.testing = none ∧ inService s = true ∧ u.fifo = b :: q ∧ ckShort u b = false ∧ ckAwin u =
       0 ∧ (ckCmp u = 0 ∨ (ckCmp u = 1 ∧ res = u.exp))) ∧
    (let s : State := x86; let n : Fin 8 := 5; let b : Block := block6; let q : List Block := [ ]; let u := s.ck[n.1]
     let res := crcOf (ckPreset u) (ckFoldBytes u b ++ b.bytes.take (b.bytes.length - ckTrail u))
     ckOwner u = 1 ∧ u.disabled = false ∧ u.testing = none ∧ inService s = true ∧ u.fifo = b :: q ∧ ckShort u b = false ∧ ckAwin u =
       0 ∧ ckCmp u = 1 ∧ res ≠ u.exp) ∧
    (let s : State := x87; let n : Fin 8 := 5; let u := s.ck[n.1]
     ckOwner u = 1 ∧ u.fifo = []) ∧
    (let s : State := x88; let n : Fin 8 := 5; let f := feed3; let u := s.ck[n.1]
     u.feed = some f ∧ u.ops = [] ∧ s.db.mon = false ∧ f.cmp = false) ∧
    (let s : State := x88; let n : Fin 8 := 5; let e : Ecc := .uncorrectable; let f := feed3; let u := s.ck[n.1]
     u.feed = some f ∧ u.ops = [] ∧ s.db.mon = false ∧ e = .uncorrectable) ∧
    (let s : State := running; let n : Fin 8 := 5; let u := s.ck[n.1]
     ckOwner u ≠ 0 ∧ u.disabled = false ∧ inService s = true ∧ u.fifo = [] ∧ u.feed = none ∧ u.ops = [] ∧ u.testing = none ∧ s.db.mon
       = false) := by
  refine ⟨?_, ?_, ?_, ?_, ?_, ?_⟩ <;> decide +kernel

theorem test_met_SnoopUnitsCheckBlocksAndTestThemselves_3 :
    (let s : State := x86n; let n : Fin 8 := 3; let b : Block := block6; let q : List Block := [ ]; let u := s.ck[n.1]
     ckOwner u = 1 ∧ u.disabled = false ∧ u.testing = none ∧ inService s = true ∧ u.fifo = b :: q ∧ ckShort u b = false ∧ ckAwin u =
       0 ∧ n.1 < 4) ∧
    (let s : State := x85; let n : Fin 8 := 5; let b : Block := block6; let q : List Block := [ ]; let u := s.ck[n.1]
     ckOwner u = 1 ∧ u.disabled = false ∧ u.testing = none ∧ inService s = true ∧ u.fifo = b :: q ∧ ckShort u b = false ∧ ckAwin u =
       0 ∧ 4 ≤ n.1) := by
  refine ⟨?_, ?_⟩ <;> decide +kernel

theorem test_met_SnoopUnitsCheckBlocksAndTestThemselves_2 :
    (let s : State := x89; let n : Fin 8 := 3; let u := s.ck[n.1]
     ckOwner u ≠ 0 ∧ u.disabled = false ∧ inService s = true ∧ u.fifo = [] ∧ u.feed = none ∧ u.ops = [] ∧ u.testing = none ∧ s.db.mon
       = false ∧ n.1 < 4) ∧
    (let s : State := running; let n : Fin 8 := 4; let u := s.ck[n.1]
     ckOwner u ≠ 0 ∧ u.disabled = false ∧ inService s = true ∧ u.fifo = [] ∧ u.feed = none ∧ u.ops = [] ∧ u.testing = none ∧ s.db.mon
       = false ∧ 4 ≤ n.1) ∧
    (let s : State := x90; let n : Fin 8 := 3; let u := s.ck[n.1]
     ckOwner u ≠ 0 ∧ u.disabled = false ∧ inService s = true ∧ n.1 < 4 ∧ u.lastTest + 10000000 < s.now) ∧
    (let s : State := x91; let n : Fin 8 := 4; let u := s.ck[n.1]
     ckOwner u ≠ 0 ∧ u.disabled = false ∧ inService s = true ∧ 4 ≤ n.1 ∧ u.lastTest + 60000000 ≤ s.now ∧ u.overdue = false) := by
  refine ⟨?_, ?_, ?_, ?_⟩ <;> decide +kernel

theorem test_met_EventsAreRoutedQueuedAndPopped :
    (let s : State := x92; let n : Fin 8 := 1; let code := (0x010 : BitVec 9); let data := (0x1234 : W16)
     let ts := (0x5566 : TStamp); let sr := false; let sl := true; let rest := ([] : List FabItem); let w := (0x0009 : W16)
     let r := s.ev.rings[n.1]
     s.ev.fabric = .event code data ts sr sl :: rest ∧ s.sys.mode ≠ .reset ∧ clockSafe s = false ∧ s.ev.routeBusy = none ∧ classWord
       (classOf code.toNat s) s = w ∧ bitOf w 3 = true ∧ fld w 2 0 = n.1 ∧ n ≠ 0 ∧ fld w 5 4 = 0 ∧ r.pend = [] ∧ r.q.length + 1 <
       depthOf r) ∧
    (let s : State := x93; let n : Fin 8 := 1; let code := (0x010 : BitVec 9); let data := (0x1234 : W16)
     let ts := (0x5566 : TStamp); let sr := false; let sl := true; let rest := ([] : List FabItem); let w := (0x0009 : W16)
     let r := s.ev.rings[n.1]
     s.ev.fabric = .event code data ts sr sl :: rest ∧ s.sys.mode ≠ .reset ∧ clockSafe s = false ∧ s.ev.routeBusy = none ∧ classWord
       (classOf code.toNat s) s = w ∧ bitOf w 3 = true ∧ fld w 2 0 = n.1 ∧ n ≠ 0 ∧ fld w 5 4 = 0 ∧ r.pend = [] ∧ r.q.length + 1 <
       depthOf r) ∧
    (let s : State := x94; let n : Fin 8 := 1; let code := (0x010 : BitVec 9); let data := (0x1234 : W16)
     let ts := (0x5566 : TStamp); let sr := false; let sl := true; let rest := ([] : List FabItem); let w := (0x0009 : W16)
     let r := s.ev.rings[n.1]
     s.ev.fabric = .event code data ts sr sl :: rest ∧ s.sys.mode ≠ .reset ∧ clockSafe s = false ∧ s.ev.routeBusy = none ∧ classWord
       (classOf code.toNat s) s = w ∧ bitOf w 3 = true ∧ fld w 2 0 = n.1 ∧ n ≠ 0 ∧ fld w 5 4 = 0 ∧ r.pend = [] ∧ depthOf r ≤
       r.q.length + 1 ∧ depthOf r ≠ 0 ∧ r.episode = false) ∧
    (let s : State := x92; let n : Fin 8 := 1; let e : Entry := entry5; let q : List Entry := [ ]; let r := s.ev.rings[n.1]
     s.sys.mode ≠ .reset ∧ r.removed = 0 ∧ r.q = e :: q ∧ r.pend = []) ∧
    (let s : State := x95; let n : Fin 8 := 1; let r := s.ev.rings[n.1]
     s.sys.mode ≠ .reset ∧ r.q = [] ∧ r.removed = 0) ∧
    (let s : State := x96; let n : Fin 8 := 1; let e : Entry := entry5; let q : List Entry := [ ]; let r := s.ev.rings[n.1]
     s.sys.mode ≠ .reset ∧ bitOf s.ev.ien n.1 = true ∧ s.ev.itime ≠ 0 ∧ r.q = e :: q ∧ e.at_ + 1000 * s.ev.itime.toNat ≤ s.now) := by
  refine ⟨?_, ?_, ?_, ?_, ?_, ?_⟩ <;> decide +kernel

theorem test_met_EventsAreRoutedQueuedAndPopped_2 :
    (let s : State := x92
     s.sys.mode ≠ .reset ∧ clockSafe s = false) := by
  decide +kernel

theorem test_met_LedgerAppendsRetirementsAndLosses :
    (let s : State := x97; let r : LRec := (lrec 9); let t0 : Nat := 5; let q : List (LRec × Nat) := [ ]
     inService s = true ∧ s.nv.ledger.lost = none ∧ s.nv.queue = (r, t0) :: q ∧ s.nv.ledger.retiring = none ∧ s.nv.ledger.recs.length
       + s.nv.ledger.fill < 511 * (s.nv.ledger.full + 1)) ∧
    (let s : State := x98; let r : LRec := (lrec 9); let t0 : Nat := 5; let q : List (LRec × Nat) := [ ]
     inService s = true ∧ s.nv.ledger.lost = none ∧ s.nv.queue = (r, t0) :: q ∧ s.nv.ledger.retiring = none ∧ s.nv.ledger.recs.length
       + s.nv.ledger.fill < 511 * (s.nv.ledger.full + 1) ∧ s.nv.ledger.retired.length < 8) ∧
    (let s : State := x99; let r : LRec := (lrec 9); let t0 : Nat := 5; let q : List (LRec × Nat) := [ ]
     inService s = true ∧ s.nv.ledger.lost = none ∧ s.nv.queue = (r, t0) :: q ∧ s.nv.ledger.retiring = none ∧ s.nv.ledger.recs.length
       + s.nv.ledger.fill < 511 * (s.nv.ledger.full + 1) ∧ 8 ≤ s.nv.ledger.retired.length) ∧
    (let s : State := op
     inService s = true ∧ s.nv.ledger.lost = none ∧ s.nv.queue = []) ∧
    (let s : State := x100; let i := 0
     inService s = true ∧ s.nv.ledger.lost = none ∧ s.nv.ledger.retiring = some i ∧ s.nv.ledger.again = false) ∧
    (let s : State := x97
     inService s = true ∧ s.nv.ledger.lost = none ∧ s.nv.ledger.retiring = none ∧ s.nv.clog.retiring = none ∧ s.nv.cellsBad = false ∧
       s.sys.deg[8].units = 0) := by
  refine ⟨?_, ?_, ?_, ?_, ?_, ?_⟩ <;> decide +kernel

theorem test_met_LedgerAppendsRetirementsAndLosses_2 :
    (let s : State := x101; let m := 6
     inService s = true ∧ s.nv.ledger.lost = none ∧ (∃ st0, s.sys.deg[8].start = some st0 ∧ m = s.sys.deg[8].before + (s.now - st0) /
       60000000) ∧ m < 65536 ∧ bitOf s.sys.degsrc 8 = true ∧ bitOf s.sys.degsrc 9 = false ∧ s.nv.hdrMin[0].toNat < m) ∧
    (let s : State := x102
     inService s = true ∧ s.nv.ledger.lost = none ∧ s.nv.ledger.retiring = none ∧ s.nv.ledger.ahead = false ∧ s.nv.ledger.full < 187) ∧
    (let s : State := x103
     inService s = true ∧ s.nv.ledger.lost = none ∧ s.nv.ledger.retiring = none ∧ s.nv.ledger.ahead = false ∧ 187 ≤ s.nv.ledger.full) ∧
    (let s : State := x104
     inService s = true ∧ s.nv.ledger.lost = none ∧ s.nv.ledger.retiring = none ∧ s.nv.ledger.ahead = false ∧
       s.nv.ledger.retired.length < 8) ∧
    (let s : State := x105
     inService s = true ∧ s.nv.ledger.lost = none ∧ s.nv.ledger.ahead = true) := by
  refine ⟨?_, ?_, ?_, ?_, ?_⟩ <;> decide +kernel

theorem test_met_FetchesDeliverLogItemsToTheReadRegister :
    (let s : State := x97; let x : LRec := (lrec 8); let pre : List LRec := [lrec 7]; let post : List LRec := [ ]
     let sel := join32 s.nv.rsel0 s.nv.rsel1
     s.sys.mode ≠ .reset ∧ clockSafe s = false ∧ s.nv.ledger.recs = pre ++ x :: post ∧ x.lseq = sel ∧ (∀ z ∈ pre, z.lseq ≠ sel)) ∧
    (let s : State := x106; let x : LRec := (lrec 8); let pre : List LRec := [lrec 7]; let sel := join32 s.nv.rsel0 s.nv.rsel1
     s.sys.mode ≠ .reset ∧ clockSafe s = false ∧ s.nv.ledger.recs = pre ++ [x] ∧ (∀ z ∈ s.nv.ledger.recs, z.lseq ≠ sel) ∧
       x.lseq.toNat < sel.toNat) ∧
    (let s : State := x107; let x : LRec := (lrec 8); let pre : List LRec := [lrec 7]; let sel := join32 s.nv.rsel0 s.nv.rsel1
     s.sys.mode ≠ .reset ∧ clockSafe s = false ∧ s.nv.ledger.recs = pre ++ [x] ∧ (∀ z ∈ s.nv.ledger.recs, z.lseq ≠ sel) ∧ sel.toNat <
       x.lseq.toNat) ∧
    (let s : State := x108; let y : CEnt := (cent 4); let pre' : List CEnt := [cent 3]; let post' : List CEnt := [ ]
     let sel := join32 s.nv.rsel0 s.nv.rsel1
     s.sys.mode ≠ .reset ∧ clockSafe s = false ∧ s.nv.clog.recs = pre' ++ y :: post' ∧ y.cseq = sel ∧ (∀ z ∈ pre', z.cseq ≠ sel)) ∧
    (let s : State := op
     s.sys.mode ≠ .reset ∧ clockSafe s = false ∧ s.nv.clog.recs = []) ∧
    (let s : State := x108; let x : LRec := (lrec 44); let k : Fin 16 := 4; let sel := join32 s.nv.rsel0 s.nv.rsel1
     s.sys.mode ≠ .reset ∧ clockSafe s = false ∧ sel.toNat = k.1 ∧ s.nv.cells[k.1] = some x) := by
  refine ⟨?_, ?_, ?_, ?_, ?_, ?_⟩ <;> decide +kernel

theorem test_met_FetchesDeliverLogItemsToTheReadRegister_2 :
    (let s : State := x109; let k : Fin 16 := 0; let sel := join32 s.nv.rsel0 s.nv.rsel1
     s.sys.mode ≠ .reset ∧ clockSafe s = false ∧ sel.toNat = k.1 ∧ s.nv.cells[k.1] = none) ∧
    (let s : State := x110; let k : Fin 16 := 15; let sel := join32 s.nv.rsel0 s.nv.rsel1
     s.sys.mode ≠ .reset ∧ clockSafe s = false ∧ sel.toNat = k.1 ∧ s.nv.cells[k.1] = none) ∧
    (let s : State := x111; let sel := join32 s.nv.rsel0 s.nv.rsel1
     s.sys.mode ≠ .reset ∧ clockSafe s = false ∧ 16 ≤ sel.toNat) ∧
    (let s : State := x112; let w := (7 : W16); let ws := ([8] : List W16)
     s.sys.mode ≠ .reset ∧ clockSafe s = false ∧ s.nv.rdata = w :: ws) ∧
    (let s : State := x97
     s.sys.mode ≠ .reset ∧ clockSafe s = false ∧ s.nv.rdata = []) ∧
    (let s : State := x97; let p : Port := .usb; let v : W16 := 0x3E55
     s.sys.mode ≠ .reset ∧ clockSafe s = false ∧ v.toNat / 256 = 0x3E ∧ s.nv.login[p.ix.1].on = true ∧ s.nv.ledger.lost = none ∧
       s.nv.clog.lost = none) := by
  refine ⟨?_, ?_, ?_, ?_, ?_, ?_⟩ <;> decide +kernel

theorem test_met_FetchesDeliverLogItemsToTheReadRegister_3 :
    (let s : State := x97; let p : Port := .usb; let v : W16 := 0x3F55
     s.sys.mode ≠ .reset ∧ clockSafe s = false ∧ (v.toNat / 256 ≠ 0x3E ∨ s.nv.login[p.ix.1].on = false ∨ s.nv.ledger.lost.isSome =
       true ∨ s.nv.clog.lost.isSome = true)) ∧
    (let s : State := op; let p : Port := .usb; let v : W16 := 0x3E55
     s.sys.mode ≠ .reset ∧ clockSafe s = false ∧ (v.toNat / 256 ≠ 0x3E ∨ s.nv.login[p.ix.1].on = false ∨ s.nv.ledger.lost.isSome =
       true ∨ s.nv.clog.lost.isSome = true)) := by
  refine ⟨?_, ?_⟩ <;> decide +kernel

/-- A part of Obligations.LoginsPasswordsAndTheVault. -/
theorem test_met_LoginsAndPasswordsAndTheVault :
    (let s : State := x113
     inService s = true ∧ s.nv.vault ≠ s.nv.stored ∧ s.tg.unsent = []) ∧
    (let s : State := x114
     inService s = true ∧ s.nv.vault ≠ s.nv.stored ∧ s.nv.pageFails < 127) ∧
    (let s : State := x115
     inService s = true ∧ s.nv.vault ≠ s.nv.stored ∧ 127 ≤ s.nv.pageFails ∧ s.tg.markBad = false) ∧
    (let s : State := op
     inService s = true ∧ s.nv.vault = s.nv.stored) ∧
    (let s : State := x116
     inService s = true ∧ s.nv.moveDue = true ∧ s.nv.vault = s.nv.stored ∧ s.nv.queue = [] ∧ s.nv.ledger.retiring = none ∧
       s.nv.clog.retiring = none) ∧
    (let s : State := x113; let p : Port := .bus; let lo : Byte := 0x62; let hi : Byte := 0x61; let l := s.nv.login[p.ix.1]
     inService s = true ∧ l.pw.words < 16 ∧ l.pw.ended = false ∧ lo ≠ 0 ∧ hi ≠ 0) := by
  refine ⟨?_, ?_, ?_, ?_, ?_, ?_⟩ <;> decide +kernel

/-- A part of Obligations.LoginsPasswordsAndTheVault. -/
theorem test_met_LoginsAndPasswordsAndTheVault_2 :
    (let s : State := x117; let p : Port := .bus; let lo : Byte := 0x62; let hi : Byte := 0x61; let l := s.nv.login[p.ix.1]
     inService s = true ∧ l.pw.words < 16 ∧ l.pw.ended = false ∧ lo ≠ 0 ∧ hi ≠ 0) ∧
    (let s : State := x113; let p : Port := .bus; let l := s.nv.login[p.ix.1]; let v := s.nv.vault
     inService s = true ∧ s.nv.lockNext = none ∧ v.lockMin = 0 ∧ v.hash ≠ List.replicate 32 0 ∧ sha256 (v.salt ++ l.pw.chars) =
       v.hash) ∧
    (let s : State := x118; let p : Port := .bus; let l := s.nv.login[p.ix.1]; let v := s.nv.vault
     inService s = true ∧ s.nv.lockNext = none ∧ v.lockMin = 0 ∧ v.hash ≠ List.replicate 32 0 ∧ sha256 (v.salt ++ l.pw.chars) ≠
       v.hash ∧ v.wrong.toNat < 4) ∧
    (let s : State := x119; let p : Port := .bus; let l := s.nv.login[p.ix.1]; let v := s.nv.vault
     inService s = true ∧ s.nv.lockNext = none ∧ v.lockMin = 0 ∧ v.hash ≠ List.replicate 32 0 ∧ sha256 (v.salt ++ l.pw.chars) ≠
       v.hash ∧ v.wrong = 4 ∧ v.k = 0) ∧
    (let s : State := x120; let t1 := 50; let v := s.nv.vault
     inService s = true ∧ s.nv.lockNext = some t1 ∧ v.lockMin ≠ 0 ∧ s.now < t1) ∧
    (let s : State := x113; let k : Byte := 1
     inService s = true ∧ k ≠ 0xC7) := by
  refine ⟨?_, ?_, ?_, ?_, ?_, ?_⟩ <;> decide +kernel

/-- A part of Obligations.LoginsPasswordsAndTheVault. -/
theorem test_met_LoginsAndPasswordsAndTheVault_3 :
    (let s : State := x121; let p : Port := .bus; let l := s.nv.login[p.ix.1]
     inService s = true ∧ l.on = true ∧ pwValid l.pw.chars = true ∧ s.nv.clog.lost = none ∧ s.nv.clog.retiring = none ∧
       s.nv.clog.recs.length + s.nv.clog.fill < 255 * (s.nv.clog.full + 1) ∧ l.last + 900000000 ≤ s.now) ∧
    (let s : State := op; let p : Port := .bus; let l := s.nv.login[p.ix.1]
     inService s = true ∧ l.on = false ∧ (l.on = false ∨ s.now < l.last + 900000000)) ∧
    (let s : State := x122; let p : Port := .bus; let l := s.nv.login[p.ix.1]
     inService s = true ∧ l.on = true ∧ pwValid l.pw.chars = false) ∧
    (let s : State := x123; let p : Port := .bus; let l := s.nv.login[p.ix.1]
     inService s = true ∧ (l.on = false ∨ s.now < l.last + 900000000)) ∧
    (let s : State := x124; let t1 := 50
     inService s = true ∧ s.nv.lockNext = some t1 ∧ s.now < t1) ∧
    (let s : State := x125; let t1 := 50; let v := s.nv.vault
     inService s = true ∧ s.nv.lockNext = some t1 ∧ t1 ≤ s.now ∧ s.now < t1 + 60000000 ∧ 2 ≤ v.lockMin.toNat) := by
  refine ⟨?_, ?_, ?_, ?_, ?_, ?_⟩ <;> decide +kernel

/-- A part of Obligations.LoginsPasswordsAndTheVault. -/
theorem test_met_LoginsAndPasswordsAndTheVault_4 :
    (let s : State := x126; let t1 := 50; let v := s.nv.vault
     inService s = true ∧ s.nv.lockNext = some t1 ∧ t1 ≤ s.now ∧ s.now < t1 + 60000000 ∧ v.lockMin = 1) := by
  decide +kernel

theorem test_met_StagingWritesChunksAndStartsCommits :
    (let s : State := stagingState; let p : Port := .usb; let l := s.nv.login[p.ix.1]
     s.sys.mode = .configure ∧ Memory.wf 0xFF s.nv.mem = true ∧ s.nv.erasing = false ∧ s.nv.commit = none ∧ l.on = true) ∧
    (let s : State := x127; let p : Port := .usb; let l := s.nv.login[p.ix.1]
     s.sys.mode = .configure ∧ Memory.wf 0xFF s.nv.mem = true ∧ s.nv.erasing = false ∧ s.nv.commit = none ∧ l.on = false) ∧
    (let s : State := x128
     s.sys.mode = .configure ∧ Memory.wf 0xFF s.nv.mem = true ∧ s.nv.erasing = true) ∧
    (let s : State := stagingState
     s.sys.mode = .configure ∧ Memory.wf 0xFF s.nv.mem = true ∧ s.nv.erasing = false ∧ (s.nv.chunk.opened = false ∨ 128 ≤
       s.nv.chunk.words.length)) ∧
    (let s : State := x129
     s.sys.mode = .configure ∧ Memory.wf 0xFF s.nv.mem = true ∧ s.nv.chunk.opened = true ∧ s.nv.chunk.words.length < 128) ∧
    (let s : State := chunkState
     s.sys.mode = .configure ∧ Memory.wf 0xFF s.nv.mem = true ∧ (s.nv.chunk.opened = false ∨ 128 ≤ s.nv.chunk.words.length)) := by
  refine ⟨?_, ?_, ?_, ?_, ?_, ?_⟩ <;> decide +kernel

theorem test_met_StagingWritesChunksAndStartsCommits_2 :
    (let s : State := staged; let p : Port := .usb
     s.sys.mode = .configure ∧ Memory.wf 0xFF s.nv.mem = true ∧ s.nv.commit = none ∧ commitRefused p.ix s = none) ∧
    (let s : State := x130; let p : Port := .usb; let l := s.nv.login[p.ix.1]
     s.sys.mode = .configure ∧ Memory.wf 0xFF s.nv.mem = true ∧ s.nv.commit = none ∧ l.on = true ∧ s.nv.vault.hash = List.replicate
       32 0) := by
  refine ⟨?_, ?_⟩ <;> decide +kernel

theorem test_met_RowStitchesMapAppendsBurnishingAndReadVerify :
    (let s : State := stitching; let j : RowJob := rowJob; let js : List RowJob := [ ]
     inService s = true ∧ s.st.jobs = j :: js) ∧
    (let s : State := op
     inService s = true ∧ s.st.jobs = []) ∧
    (let s : State := stitching; let c : Fin 2 := 0
     inService s = true ∧ s.st.copies[c.1].dead = false ∧ s.st.copies[c.1].written < s.st.entries.length ∧ (c = 0 ∨
       s.st.copies[0].dead = true ∨ s.st.copies[1].written < s.st.copies[0].written) ∧ s.st.copies[(1 - c).1].dead = false) ∧
    (let s : State := x131; let c : Fin 2 := 1
     inService s = true ∧ s.st.copies[c.1].dead = false ∧ s.st.copies[c.1].written < s.st.entries.length ∧ (c = 0 ∨
       s.st.copies[0].dead = true ∨ s.st.copies[1].written < s.st.copies[0].written)) ∧
    (let s : State := x132; let c : Fin 2 := 0
     inService s = true ∧ s.st.copies[c.1].dead = false ∧ s.st.copies[c.1].written < s.st.entries.length ∧ (c = 0 ∨
       s.st.copies[0].dead = true ∨ s.st.copies[1].written < s.st.copies[0].written) ∧ s.st.copies[(1 - c).1].dead = true) ∧
    (let s : State := x133
     inService s = true ∧ s.st.burn[0].next < 131071) := by
  refine ⟨?_, ?_, ?_, ?_, ?_, ?_⟩ <;> decide +kernel

theorem test_met_RowStitchesMapAppendsBurnishingAndReadVerify_2 :
    (let s : State := x134
     inService s = true ∧ s.st.burn[1].next < 24575) ∧
    (let s : State := stitching
     inService s = true) ∧
    (let s : State := x135
     inService s = true ∧ s.st.burn[1].next + 1 = 24576) ∧
    (let s : State := stitching; let a : Fin 3 := 1; let k : Fin 2 := 1
     inService s = true ∧ a.1 < 2 ∧ k.1 = a.1 ∧ s.st.burn[k.1].reported = false ∧ s.st.burn[k.1].start + 4000000 ≤ s.now) ∧
    (let s : State := x136; let a : Fin 3 := 0; let k : Fin 2 := 0
     inService s = true ∧ a.1 < 2 ∧ k.1 = a.1 ∧ s.st.burn[k.1].reported = false ∧ s.st.burn[k.1].start + 4000000 ≤ s.now) ∧
    (let s : State := x137; let a : Fin 3 := 1; let k : Fin 2 := 1
     inService s = true ∧ a.1 < 2 ∧ k.1 = a.1 ∧ s.now < s.st.burn[k.1].start + 4000000) := by
  refine ⟨?_, ?_, ?_, ?_, ?_, ?_⟩ <;> decide +kernel

theorem test_met_RowStitchesMapAppendsBurnishingAndReadVerify_3 :
    (let s : State := x138; let k : Fin 256 := 60
     inService s = true ∧ s.st.verify.run = true ∧ s.st.verify.due ≤ s.now ∧ nextSector s.st.verify.next s = some k.1) ∧
    (let s : State := x139; let k : Fin 256 := 0
     inService s = true ∧ s.st.verify.run = true ∧ s.st.verify.due ≤ s.now ∧ nextSector s.st.verify.next s = some k.1 ∧ k.1 / 16 =
       b2n s.nv.vault.bank) ∧
    (let s : State := x140; let k : Fin 256 := 68
     inService s = true ∧ s.st.verify.run = true ∧ s.st.verify.due ≤ s.now ∧ nextSector s.st.verify.next s = some k.1 ∧ 68 ≤ k.1 ∧
       s.nv.ledger.lost = none ∧ s.nv.ledger.retiring = none ∧ s.nv.ledger.retired.length < 8) ∧
    (let s : State := x141
     inService s = true ∧ s.now < s.st.verify.due) := by
  refine ⟨?_, ?_, ?_, ?_⟩ <;> decide +kernel

theorem test_met_TelemetryIsSampledLatchedAndRead :
    (let s : State := op
     s.sys.mode ≠ .reset ∧ clockSafe s = false) ∧
    (let s : State := x142; let k : Fin 16 := 15
     s.sys.mode ≠ .reset ∧ clockSafe s = false ∧ s.st.tsel.toNat = k.1) ∧
    (let s : State := x143
     s.sys.mode ≠ .reset ∧ clockSafe s = false ∧ 16 ≤ s.st.tsel.toNat) ∧
    (210 ≤ (210 : W16).toInt ∧ (199 : W16).toInt < 200 ∧ 200 ≤ (209 : W16).toInt ∧ (209 : W16).toInt < 210 ∧ (setSt (fun x =>
       { x with supply := upd x.supply 0 fun y => { y with out := 2 } }) op).st.supply[0].out = 2) := by
  refine ⟨?_, ?_, ?_, ?_⟩ <;> decide +kernel

theorem test_met_CantleArithmeticWritesItsResult :
    (let s : State := running
     Fetches s ∧ Straight s) := by
  decide +kernel

theorem test_met_CantleReservedFieldsTrapAsIllegal :
    (let s : State := running
     Fetches s ∧ s.cs.hl = false) := by
  decide +kernel

theorem test_met_CantleLoadsReturnTheAddressedData :
    (let s : State := running; let a : BitVec 4 := 0; let imm : BitVec 18 := 0x7FFC; let ecc : Ecc := .corrected
     let x : Nat := 0x7FFC
     Fetches s ∧ Straight s ∧ (gr a s + imm.signExtend 32).toNat = x ∧ x < 0x8000 ∧ ecc ≠ .uncorrectable ∧ x % 2 = 0 ∧ x % 4 = 0) ∧
    (let s : State := x144; let a : BitVec 4 := 1; let imm : BitVec 18 := 0x8C; let x : Nat := 0xF008C; let k : Fin 36 := 35
     Fetches s ∧ Straight s ∧ (gr a s + imm.signExtend 32).toNat = x ∧ x = 0xF0000 + 4 * k.1) ∧
    (let s : State := x144; let a : BitVec 4 := 1; let imm : BitVec 18 := 0x100; let x : Nat := 0xF0100
     Fetches s ∧ Straight s ∧ (gr a s + imm.signExtend 32).toNat = x ∧ x = 0xF0100) ∧
    (let s : State := x144; let a : BitVec 4 := 1; let imm : BitVec 18 := 0x104; let x : Nat := 0xF0104
     Fetches s ∧ Straight s ∧ (gr a s + imm.signExtend 32).toNat = x ∧ x = 0xF0104) ∧
    (let s : State := x144; let a : BitVec 4 := 1; let imm : BitVec 18 := 0x108; let x : Nat := 0xF0108
     Fetches s ∧ Straight s ∧ (gr a s + imm.signExtend 32).toNat = x ∧ x = 0xF0108) ∧
    (let s : State := x144; let a : BitVec 4 := 1; let imm : BitVec 18 := 0x110; let x : Nat := 0xF0110
     Fetches s ∧ Straight s ∧ (gr a s + imm.signExtend 32).toNat = x ∧ x = 0xF0110) := by
  refine ⟨?_, ?_, ?_, ?_, ?_, ?_⟩ <;> decide +kernel

theorem test_met_CantleLoadsReturnTheAddressedData_2 :
    (let s : State := x144; let a : BitVec 4 := 1; let imm : BitVec 18 := 0x114; let x : Nat := 0xF0114
     Fetches s ∧ Straight s ∧ (gr a s + imm.signExtend 32).toNat = x ∧ x = 0xF0114) ∧
    (let s : State := x144; let a : BitVec 4 := 1; let imm : BitVec 18 := 0x118; let x : Nat := 0xF0118
     Fetches s ∧ Straight s ∧ (gr a s + imm.signExtend 32).toNat = x ∧ x = 0xF0118) ∧
    (let s : State := x144; let a : BitVec 4 := 1; let imm : BitVec 18 := 0x12C; let x : Nat := 0xF012C; let k : Fin 4 := 3
     Fetches s ∧ Straight s ∧ (gr a s + imm.signExtend 32).toNat = x ∧ x = 0xF0120 + 4 * k.1) ∧
    (let s : State := x144; let a : BitVec 4 := 1; let imm : BitVec 18 := 0x140; let x : Nat := 0xF0140; let k : Fin 4 := 0
     Fetches s ∧ Straight s ∧ (gr a s + imm.signExtend 32).toNat = x ∧ x = 0xF0140 + 4 * k.1) ∧
    (let s : State := running; let a : BitVec 4 := 0; let imm : BitVec 18 := 0x7FFE; let x : Nat := 0x7FFE
     Fetches s ∧ Straight s ∧ (gr a s + imm.signExtend 32).toNat = x ∧ s.cs.hl = false ∧ x % 4 ≠ 0) ∧
    (let s : State := running; let a : BitVec 4 := 0; let imm : BitVec 18 := 0x7FFF; let x : Nat := 0x7FFF
     Fetches s ∧ Straight s ∧ (gr a s + imm.signExtend 32).toNat = x ∧ s.cs.hl = false ∧ x % 2 ≠ 0) := by
  refine ⟨?_, ?_, ?_, ?_, ?_, ?_⟩ <;> decide +kernel

theorem test_met_CantleLoadsReturnTheAddressedData_3 :
    (let s : State := running; let a : BitVec 4 := 0; let imm : BitVec 18 := 0x8000; let x : Nat := 0x8000
     Fetches s ∧ Straight s ∧ (gr a s + imm.signExtend 32).toNat = x ∧ s.cs.hl = false ∧ 0x8000 ≤ x ∧ x < 0xF0000) ∧
    (let s : State := x145; let a : BitVec 4 := 1; let imm : BitVec 18 := 0; let x : Nat := 0xEFFFC
     Fetches s ∧ Straight s ∧ (gr a s + imm.signExtend 32).toNat = x ∧ s.cs.hl = false ∧ 0x8000 ≤ x ∧ x < 0xF0000) := by
  refine ⟨?_, ?_⟩ <;> decide +kernel

theorem test_met_CantleStoresWriteTheAddressedBytes :
    (let s : State := running; let a : BitVec 4 := 0; let imm : BitVec 18 := 0x7FFC; let ecc : Ecc := .good; let x : Nat := 0x7FFC
     Fetches s ∧ Straight s ∧ Memory.wf 0 s.cs.dmem = true ∧ (gr a s + imm.signExtend 32).toNat = x ∧ x < 0x8000 ∧ ckblkHolds (x / 4
       * 4) s = false ∧ ecc ≠ .uncorrectable ∧ x % 2 = 0 ∧ x % 4 = 0) ∧
    (let s : State := x144; let a : BitVec 4 := 1; let imm : BitVec 18 := 0x110; let x : Nat := 0xF0110
     Fetches s ∧ Straight s ∧ Memory.wf 0 s.cs.dmem = true ∧ (gr a s + imm.signExtend 32).toNat = x ∧ x = 0xF0110) ∧
    (let s : State := x144; let a : BitVec 4 := 1; let imm : BitVec 18 := 0x114; let x : Nat := 0xF0114
     Fetches s ∧ Straight s ∧ Memory.wf 0 s.cs.dmem = true ∧ (gr a s + imm.signExtend 32).toNat = x ∧ x = 0xF0114) ∧
    (let s : State := x146; let r : BitVec 4 := 3; let a : BitVec 4 := 1; let imm : BitVec 18 := 0x100; let x : Nat := 0xF0100
     Fetches s ∧ Straight s ∧ Memory.wf 0 s.cs.dmem = true ∧ (gr a s + imm.signExtend 32).toNat = x ∧ x = 0xF0100 ∧ (gr r s).toNat <
       0x10000 ∧ (gr r s).toNat / 0x100 = 255 - (gr r s).toNat % 0x100) ∧
    (let s : State := x144; let r : BitVec 4 := 3; let a : BitVec 4 := 1; let imm : BitVec 18 := 0x100; let x : Nat := 0xF0100
     Fetches s ∧ Straight s ∧ Memory.wf 0 s.cs.dmem = true ∧ (gr a s + imm.signExtend 32).toNat = x ∧ s.cs.hl = false ∧ x = 0xF0100 ∧
       (¬((gr r s).toNat < 0x10000 ∧ (gr r s).toNat / 0x100 = 255 - (gr r s).toNat % 0x100))) ∧
    (let s : State := x144; let a : BitVec 4 := 1; let imm : BitVec 18 := 0; let x : Nat := 0xF0000
     Fetches s ∧ Straight s ∧ Memory.wf 0 s.cs.dmem = true ∧ (gr a s + imm.signExtend 32).toNat = x ∧ s.cs.hl = false ∧ ((∃ k : Fin
       36, x = 0xF0000 + 4 * k.1) ∨ x = 0xF0104 ∨ x = 0xF0108 ∨ (∃ k : Fin 512, x = 0xFF000 + 4 * k.1))) := by
  refine ⟨?_, ?_, ?_, ?_, ?_, ?_⟩ <;> decide +kernel

theorem test_met_CantleStoresWriteTheAddressedBytes_2 :
    (let s : State := x144; let a : BitVec 4 := 1; let imm : BitVec 18 := 0x8C; let x : Nat := 0xF008C
     Fetches s ∧ Straight s ∧ Memory.wf 0 s.cs.dmem = true ∧ (gr a s + imm.signExtend 32).toNat = x ∧ s.cs.hl = false ∧ ((∃ k : Fin
       36, x = 0xF0000 + 4 * k.1) ∨ x = 0xF0104 ∨ x = 0xF0108 ∨ (∃ k : Fin 512, x = 0xFF000 + 4 * k.1))) ∧
    (let s : State := x144; let a : BitVec 4 := 1; let imm : BitVec 18 := 0x104; let x : Nat := 0xF0104
     Fetches s ∧ Straight s ∧ Memory.wf 0 s.cs.dmem = true ∧ (gr a s + imm.signExtend 32).toNat = x ∧ s.cs.hl = false ∧ ((∃ k : Fin
       36, x = 0xF0000 + 4 * k.1) ∨ x = 0xF0104 ∨ x = 0xF0108 ∨ (∃ k : Fin 512, x = 0xFF000 + 4 * k.1))) ∧
    (let s : State := x144; let a : BitVec 4 := 1; let imm : BitVec 18 := 0x108; let x : Nat := 0xF0108
     Fetches s ∧ Straight s ∧ Memory.wf 0 s.cs.dmem = true ∧ (gr a s + imm.signExtend 32).toNat = x ∧ s.cs.hl = false ∧ ((∃ k : Fin
       36, x = 0xF0000 + 4 * k.1) ∨ x = 0xF0104 ∨ x = 0xF0108 ∨ (∃ k : Fin 512, x = 0xFF000 + 4 * k.1))) ∧
    (let s : State := x144; let a : BitVec 4 := 1; let imm : BitVec 18 := 0xF7FC; let x : Nat := 0xFF7FC
     Fetches s ∧ Straight s ∧ Memory.wf 0 s.cs.dmem = true ∧ (gr a s + imm.signExtend 32).toNat = x ∧ s.cs.hl = false ∧ ((∃ k : Fin
       36, x = 0xF0000 + 4 * k.1) ∨ x = 0xF0104 ∨ x = 0xF0108 ∨ (∃ k : Fin 512, x = 0xFF000 + 4 * k.1))) ∧
    (let s : State := running; let a : BitVec 4 := 0; let imm : BitVec 18 := 0x7FFE; let x : Nat := 0x7FFE
     Fetches s ∧ Straight s ∧ Memory.wf 0 s.cs.dmem = true ∧ (gr a s + imm.signExtend 32).toNat = x ∧ s.cs.hl = false ∧ x % 4 ≠ 0) ∧
    (let s : State := running; let a : BitVec 4 := 0; let imm : BitVec 18 := 0x7FFF; let x : Nat := 0x7FFF
     Fetches s ∧ Straight s ∧ Memory.wf 0 s.cs.dmem = true ∧ (gr a s + imm.signExtend 32).toNat = x ∧ s.cs.hl = false ∧ (x % 2 ≠ 0 ∨
       0x8000 ≤ x)) := by
  refine ⟨?_, ?_, ?_, ?_, ?_, ?_⟩ <;> decide +kernel

theorem test_met_CantleStoresWriteTheAddressedBytes_3 :
    (let s : State := running; let a : BitVec 4 := 0; let imm : BitVec 18 := 0x8000; let x : Nat := 0x8000
     Fetches s ∧ Straight s ∧ Memory.wf 0 s.cs.dmem = true ∧ (gr a s + imm.signExtend 32).toNat = x ∧ s.cs.hl = false ∧ (x % 2 ≠ 0 ∨
       0x8000 ≤ x) ∧ 0x8000 ≤ x) := by
  decide +kernel

theorem test_met_CantleBranchesAndJumpsSetThePc :
    (let s : State := running
     Fetches s ∧ Straight s) ∧
    (let s : State := running; let joff : BitVec 22 := -0x40; let tgt : BitVec 16 := 0
     Fetches s ∧ Straight s ∧ (s.cs.pc.toNat : Int) + 4 * joff.toInt = tgt.toNat ∧ tgt.toNat % 4 = 0) ∧
    (let s : State := running; let joff : BitVec 22 := -0x41
     Fetches s ∧ Straight s ∧ s.cs.hl = false ∧ ((s.cs.pc.toNat : Int) + 4 * joff.toInt < 0 ∨ 0x10000 ≤ (s.cs.pc.toNat : Int) + 4 *
       joff.toInt)) ∧
    (let s : State := running; let joff : BitVec 22 := 0x3FC0
     Fetches s ∧ Straight s ∧ s.cs.hl = false ∧ ((s.cs.pc.toNat : Int) + 4 * joff.toInt < 0 ∨ 0x10000 ≤ (s.cs.pc.toNat : Int) + 4 *
       joff.toInt)) ∧
    (let s : State := running; let a : BitVec 4 := 0; let imm : BitVec 18 := 0x1FFC; let tgt : BitVec 16 := 0x1FFC
     Fetches s ∧ Straight s ∧ (gr a s + imm.signExtend 32).toNat = tgt.toNat ∧ tgt.toNat % 4 = 0) ∧
    (let s : State := running; let a : BitVec 4 := 0; let imm : BitVec 18 := 0x1FFE
     Fetches s ∧ Straight s ∧ s.cs.hl = false ∧ ((gr a s + imm.signExtend 32).toNat % 4 ≠ 0 ∨ 0x10000 ≤ (gr a s + imm.signExtend
       32).toNat)) := by
  refine ⟨?_, ?_, ?_, ?_, ?_, ?_⟩ <;> decide +kernel

theorem test_met_CantleBranchesAndJumpsSetThePc_2 :
    (let s : State := running; let a : BitVec 4 := 0; let imm : BitVec 18 := -4
     Fetches s ∧ Straight s ∧ s.cs.hl = false ∧ ((gr a s + imm.signExtend 32).toNat % 4 ≠ 0 ∨ 0x10000 ≤ (gr a s + imm.signExtend
       32).toNat)) ∧
    (((running.cs.pc.toNat : Int) + 4 * (4 : BitVec 18).toInt = (0x110 : BitVec 16).toNat) ∧ (0x110 : BitVec 16).toNat % 4 = 0 ∧
       (running.cs.pc.toNat : Int) + 4 * (-0x41 : BitVec 18).toInt < 0 ∧ 0x10000 ≤ (running.cs.pc.toNat : Int) + 4 * (0x3FC0 : BitVec
       18).toInt) := by
  refine ⟨?_, ?_⟩ <;> decide +kernel

theorem test_met_LoopSetsUpAndRunsTheHardwareLoop :
    (let s : State := running; let c : BitVec 4 := 2; let len : BitVec 16 := 16319; let last := s.cs.pc.toNat + 4 * len.toNat
     Fetches s ∧ s.cs.hl = false ∧ s.cs.lcount = 0 ∧ 1 ≤ len.toNat ∧ len.toNat ≤ 16383 ∧ last ≤ 0xFFFC ∧ gr c s ≠ 0) ∧
    (let s : State := running; let c : BitVec 4 := 0; let len : BitVec 16 := 16318; let last := s.cs.pc.toNat + 4 * len.toNat
     Fetches s ∧ s.cs.hl = false ∧ s.cs.lcount = 0 ∧ 1 ≤ len.toNat ∧ len.toNat ≤ 16383 ∧ last < 0xFFFC ∧ last % 4 = 0 ∧ gr c s = 0) ∧
    (let s : State := running; let len : BitVec 16 := 16383; let last := s.cs.pc.toNat + 4 * len.toNat
     Fetches s ∧ s.cs.hl = false ∧ s.cs.lcount = 0 ∧ 1 ≤ len.toNat ∧ len.toNat ≤ 16383 ∧ 0xFFFC < last) ∧
    (let s : State := running; let len : BitVec 16 := 0
     Fetches s ∧ s.cs.hl = false ∧ (s.cs.lcount ≠ 0 ∨ len = 0 ∨ 16383 < len.toNat)) ∧
    (let s : State := running; let len : BitVec 16 := 16384
     Fetches s ∧ s.cs.hl = false ∧ (s.cs.lcount ≠ 0 ∨ len = 0 ∨ 16383 < len.toNat)) ∧
    (let s : State := x147; let len : BitVec 16 := 16319
     Fetches s ∧ s.cs.hl = false ∧ (s.cs.lcount ≠ 0 ∨ len = 0 ∨ 16383 < len.toNat)) := by
  refine ⟨?_, ?_, ?_, ?_, ?_, ?_⟩ <;> decide +kernel

theorem test_met_LoopSetsUpAndRunsTheHardwareLoop_2 :
    (let s : State := x148
     Fetches s ∧ s.cs.hl = false ∧ s.cs.pc = s.cs.lend ∧ 1 < s.cs.lcount.toNat) ∧
    (let s : State := x149
     Fetches s ∧ s.cs.hl = false ∧ s.cs.pc = s.cs.lend ∧ s.cs.lcount = 1) := by
  refine ⟨?_, ?_⟩ <;> decide +kernel

/-- A part of Obligations.CheckUnitOperationsActTrapOrWait. -/
theorem test_met_CheckUnitOperationsActOnTheUnit :
    (let s : State := running; let u : BitVec 3 := 4
     Fetches s ∧ Straight s ∧ UnitReady s u) ∧
    (let s : State := running; let b : BitVec 4 := 0; let u : BitVec 3 := 4
     Fetches s ∧ Straight s ∧ UnitReady s u ∧ gr b s = 0) ∧
    (let s : State := x150; let a : BitVec 4 := 1; let b : BitVec 4 := 2; let u : BitVec 3 := 4
     Fetches s ∧ Straight s ∧ UnitReady s u ∧ gr b s ≠ 0 ∧ (gr a s).toNat + (gr b s).toNat ≤ 0x8000) ∧
    (let s : State := x151; let a : BitVec 4 := 3; let u : BitVec 3 := 4; let p := ckPreset s.ck[(unitIx u).1]
     let raw := s.ck[(unitIx u).1].raw
     Fetches s ∧ Straight s ∧ UnitReady s u ∧ crcFinish p raw = ckMask p (gr a s)) ∧
    (let s : State := running; let a : BitVec 4 := 1; let u : BitVec 3 := 4; let p := ckPreset s.ck[(unitIx u).1]
     let raw := s.ck[(unitIx u).1].raw; let n := (unitIx u).1
     Fetches s ∧ Straight s ∧ UnitReady s u ∧ crcFinish p raw ≠ ckMask p (gr a s) ∧ 4 ≤ n) := by
  refine ⟨?_, ?_, ?_, ?_, ?_⟩ <;> decide +kernel

/-- A part of Obligations.CheckUnitOperationsActTrapOrWait. -/
theorem test_met_CheckUnitOperationsTrapOrWait :
    (let s : State := running; let u : BitVec 3 := 4
     Fetches s ∧ s.cs.hl = false ∧ Straight s ∧ UnitReady s u ∧ 4 ≤ (unitIx u).1 ∧ CkFinding.shadow ≠ .good) ∧
    (let s : State := x152; let a : BitVec 4 := 1; let b : BitVec 4 := 2; let u : BitVec 3 := 4
     Fetches s ∧ s.cs.hl = false ∧ UnitReady s u ∧ gr b s ≠ 0 ∧ 0x8000 < (gr a s).toNat + (gr b s).toNat) ∧
    (let s : State := op; let u : BitVec 3 := 0
     s.cs.hl = false ∧ ckOwner s.ck[(unitIx u).1] ≠ 2) ∧
    (let s : State := unit 4 { cfg := 2, disabled := true }
     let u : BitVec 3 := 4
     Fetches s ∧ s.cs.hl = false ∧ ckOwner s.ck[(unitIx u).1] = 2 ∧ s.ck[(unitIx u).1].disabled = true) ∧
    (let s : State := x153r; let u : BitVec 3 := 4; let f := feed3; let k := s.ck[(unitIx u).1]
     Fetches s ∧ s.cs.hl = false ∧ ckOwner s.ck[(unitIx u).1] = 2 ∧ s.ck[(unitIx u).1].disabled = false ∧
       s.ck[(unitIx u).1].feed = some f ∧ k.ops.getLast? = some .ret) ∧
    (let s : State := x153; let u : BitVec 3 := 4; let f := feed3; let k := s.ck[(unitIx u).1]
     Fetches s ∧ s.cs.hl = false ∧ ckOwner s.ck[(unitIx u).1] = 2 ∧ s.ck[(unitIx u).1].disabled = false ∧
       s.ck[(unitIx u).1].feed = some f ∧ k.ops.getLast? ≠ some .ret ∧ k.ops.length < 32 ∧ k.testing = none) := by
  refine ⟨?_, ?_, ?_, ?_, ?_, ?_⟩ <;> decide +kernel

/-- A part of Obligations.CheckUnitOperationsActTrapOrWait. -/
theorem test_met_CheckUnitOperationsTrapOrWait_2 :
    (let s : State := x153f; let u : BitVec 3 := 4; let f := feed3; let k := s.ck[(unitIx u).1]
     Fetches s ∧ s.cs.hl = false ∧ ckOwner s.ck[(unitIx u).1] = 2 ∧ s.ck[(unitIx u).1].disabled = false ∧
       s.ck[(unitIx u).1].feed = some f ∧ k.ops.getLast? ≠ some .ret ∧ 32 ≤ k.ops.length) := by
  decide +kernel

theorem test_met_SystemInstructionsMoveRegistersAndEndTrapsAndScans :
    (let s : State := running
     Fetches s ∧ Straight s ∧ s.cs.hl = false ∧ s.cs.ovcnt = 0) ∧
    (let s : State := x154
     Fetches s ∧ s.cs.hl = true) ∧
    (let s : State := running; let x : BitVec 4 := 8
     Fetches s ∧ s.cs.hl = false ∧ 8 ≤ x.toNat) ∧
    (let s : State := running; let x : BitVec 4 := 2
     Fetches s ∧ s.cs.hl = false ∧ (x ∈ [2, 3] ∨ 7 ≤ x.toNat)) ∧
    (let s : State := running; let x : BitVec 4 := 7
     Fetches s ∧ s.cs.hl = false ∧ (x ∈ [2, 3] ∨ 7 ≤ x.toNat)) ∧
    (let s : State := x155
     Fetches s ∧ s.cs.hl = false ∧ s.cs.ovcnt ≠ 0 ∧ scanDue s = false ∧ Straight s) ∧
    (let s : State := x155d
     Fetches s ∧ s.cs.hl = false ∧ s.cs.ovcnt ≠ 0 ∧ scanDue s = true) := by
  refine ⟨?_, ?_, ?_, ?_, ?_, ?_, ?_⟩ <;> decide +kernel

theorem test_met_BreaksAndTheTerminalActInMonitorMode :
    (let s : State := mon; let code : Byte := 0xDF
     FetchesMon s ∧ Straight s ∧ code.toNat < 0xE0) ∧
    (let s : State := mon
     FetchesMon s ∧ Straight s ∧ s.db.vtIn = []) ∧
    (let s : State := x156
     FetchesMon s ∧ Straight s ∧ s.db.vtOut.length < 16) ∧
    (let s : State := x157
     FetchesMon s ∧ Straight s ∧ s.db.vtOut.length = 16) ∧
    (let s : State := x158; let c := (7 : Byte); let q := ([8] : List Byte)
     FetchesMon s ∧ Straight s ∧ s.db.vtIn = c :: q) := by
  refine ⟨?_, ?_, ?_, ?_, ?_⟩ <;> decide +kernel

theorem test_met_ScansBeginOnTheGridOrOverrun :
    (let s : State := x159
     inService s = true ∧ s.grid.tick = some s.now ∧ s.cs.scanAt ≠ s.now ∧ (s.cs.scanned = false ∨ s.tstamp.toNat % (1000 * fld
       s.cfg.seqr.cfg 6 0) = 0) ∧ s.cs.wdf = false ∧ s.cs.first = true ∧ s.cs.state = .running) ∧
    (let s : State := x160
     inService s = true ∧ s.grid.tick = some s.now ∧ s.cs.scanAt ≠ s.now ∧ (s.cs.scanned = false ∨ s.tstamp.toNat % (1000 * fld
       s.cfg.seqr.cfg 6 0) = 0) ∧ s.cs.wdf = false ∧ s.cs.first = false ∧ s.cs.state = .waitScan ∧ Straight s ∧ s.cs.hl = false ∧
       s.db.session = none ∧ s.db.mon = false ∧ s.db.stepping = false) ∧
    (let s : State := x161
     inService s = true ∧ s.grid.tick = some s.now ∧ s.cs.scanAt ≠ s.now ∧ (s.cs.scanned = false ∨ s.tstamp.toNat % (1000 * fld
       s.cfg.seqr.cfg 6 0) = 0) ∧ s.cs.wdf = false ∧ s.cs.first = false ∧ s.cs.state = .running ∧ s.cs.ovcnt.toNat + 1 < fld
       s.cfg.seqr.cfg 10 8) ∧
    (let s : State := x162
     inService s = true ∧ s.grid.tick = some s.now ∧ s.cs.scanAt ≠ s.now ∧ (s.cs.scanned = false ∨ s.tstamp.toNat % (1000 * fld
       s.cfg.seqr.cfg 6 0) = 0) ∧ s.cs.wdf = false ∧ s.cs.first = false ∧ s.cs.state = .running ∧ fld s.cfg.seqr.cfg 10 8 ≤
       s.cs.ovcnt.toNat + 1) := by
  refine ⟨?_, ?_, ?_, ?_⟩ <;> decide +kernel

/-- A part of Obligations.InterruptsMailboxesAndHostControlOfCantle. -/
theorem test_met_InterruptsAndTheTimerAndRewritesActOnCantle :
    (let s : State := intReady; let n : Fin 8 := 2
     s.cs.ie = true ∧ s.cs.hl = false ∧ s.cs.stalled = false ∧ (s.cs.state = .running ∨ s.cs.state = .waitScan) ∧ s.db.mon = false ∧
       bitOf s.cs.ien n.1 = true ∧ bitOf s.cs.ipend n.1 = true ∧ (∀ m : Fin 8, m.1 < n.1 → bitOf s.cs.ien m.1 = false ∨ bitOf
       s.cs.ipend m.1 = false)) ∧
    (let s : State := x163; let n : Fin 8 := 4
     s.cs.ie = true ∧ s.cs.hl = false ∧ s.cs.stalled = false ∧ (s.cs.state = .running ∨ s.cs.state = .waitScan) ∧ s.db.mon = false ∧
       bitOf s.cs.ien n.1 = true ∧ bitOf s.cs.ipend n.1 = true ∧ (∀ m : Fin 8, m.1 < n.1 → bitOf s.cs.ien m.1 = false ∨ bitOf
       s.cs.ipend m.1 = false)) ∧
    (let s : State := running
     (s.cs.ie = false ∨ s.cs.hl = true ∨ s.cs.ien &&& s.cs.ipend = 0)) ∧
    (let s : State := intReady; let t0 := 0
     s.cs.timerAt = some t0 ∧ s.cs.timer ≠ 0 ∧ s.db.mon = false ∧ t0 ≤ s.now) ∧
    (let s : State := x164; let t0 := 1
     s.cs.timerAt = some t0 ∧ s.cs.timer ≠ 0 ∧ s.db.mon = false ∧ s.now < t0) ∧
    (let s : State := intReady
     s.cs.state = .running ∧ Memory.wf 0xFF s.cs.imem = true ∧ s.sys.mode ≠ .reset ∧ s.sys.mode ≠ .safe) := by
  refine ⟨?_, ?_, ?_, ?_, ?_, ?_⟩ <;> decide +kernel

/-- A part of Obligations.InterruptsMailboxesAndHostControlOfCantle. -/
theorem test_met_InterruptsAndTheTimerAndRewritesActOnCantle_2 :
    (let s : State := op
     s.cs.state ≠ .running) := by
  decide +kernel

/-- A part of Obligations.InterruptsMailboxesAndHostControlOfCantle. -/
theorem test_met_MailboxesAndHostControlOfCantle :
    (let s : State := x165; let v : W16 := 1
     s.sys.mode ≠ .reset ∧ clockSafe s = false ∧ s.cs.inFull = false ∧ 1 ≤ v.toNat % 8 ∧ v.toNat % 8 ≤ 4 ∧ (s.cs.outFull = false ∨
       v.toNat % 2 = 0)) ∧
    (let s : State := x165; let v : W16 := 0x0004
     s.sys.mode ≠ .reset ∧ clockSafe s = false ∧ s.cs.inFull = false ∧ 1 ≤ v.toNat % 8 ∧ v.toNat % 8 ≤ 4 ∧ (s.cs.outFull = false ∨
       v.toNat % 2 = 0)) ∧
    (let s : State := x165; let v : W16 := 0
     s.sys.mode ≠ .reset ∧ clockSafe s = false ∧ (s.cs.inFull = true ∨ v.toNat % 8 = 0 ∨ 4 < v.toNat % 8)) ∧
    (let s : State := x165; let v : W16 := 5
     s.sys.mode ≠ .reset ∧ clockSafe s = false ∧ (s.cs.inFull = true ∨ v.toNat % 8 = 0 ∨ 4 < v.toNat % 8)) ∧
    (let s : State := x166; let v : W16 := 0x0004
     s.sys.mode ≠ .reset ∧ clockSafe s = false ∧ (s.cs.inFull = true ∨ v.toNat % 8 = 0 ∨ 4 < v.toNat % 8)) ∧
    (let s : State := x167; let v : W16 := 1
     s.sys.mode ≠ .reset ∧ clockSafe s = false ∧ s.cs.outFull = true ∧ v.toNat % 2 = 1) := by
  refine ⟨?_, ?_, ?_, ?_, ?_, ?_⟩ <;> decide +kernel

/-- A part of Obligations.InterruptsMailboxesAndHostControlOfCantle. -/
theorem test_met_MailboxesAndHostControlOfCantle_2 :
    (let s : State := x165
     s.sys.mode ≠ .reset ∧ clockSafe s = false ∧ s.nv.login[0].on = true ∧ inService s = true ∧ s.cs.state ≠ .halted ∧ s.cs.restart =
       none) ∧
    (let s : State := running
     s.sys.mode ≠ .reset ∧ clockSafe s = false ∧ (s.nv.login[0].on = false ∨ inService s = false)) ∧
    (let s : State := x130
     s.sys.mode ≠ .reset ∧ clockSafe s = false ∧ (s.nv.login[0].on = false ∨ inService s = false)) ∧
    (let s : State := x168
     s.sys.mode ≠ .reset ∧ clockSafe s = false ∧ s.cs.restart.isSome = true ∧ inService s = true) := by
  refine ⟨?_, ?_, ?_, ?_⟩ <;> decide +kernel

theorem test_met_DebugSessionsAndRunControl :
    (let s : State := running; let v : W32 := 0xA5000003
     s.sys.mode ≠ .reset ∧ clockSafe s = false ∧ s.db.session = none ∧ v.toNat / 2 ^ 24 = 0xA5 ∧ bitOf v 0 = true ∧ bitOf v 8 = false
       ∧ bitOf v 9 = false ∧ bitOf v 10 = false) ∧
    (let s : State := session; let w : Wire := .dio; let v : W32 := 0xA4000003
     s.sys.mode ≠ .reset ∧ clockSafe s = false ∧ (s.db.session = some w ∨ s.db.session = none) ∧ v.toNat / 2 ^ 24 ≠ 0xA5) ∧
    (let s : State := running; let w : Wire := .dio; let v : W32 := 0xA4000003
     s.sys.mode ≠ .reset ∧ clockSafe s = false ∧ (s.db.session = some w ∨ s.db.session = none) ∧ v.toNat / 2 ^ 24 ≠ 0xA5) ∧
    (let s : State := session; let w : Wire := .rstd; let w' : Wire := .dio
     s.sys.mode ≠ .reset ∧ clockSafe s = false ∧ s.db.session = some w' ∧ w' ≠ w) ∧
    (let s : State := session; let w : Wire := .dio; let v : W32 := 0xA5000000
     s.sys.mode ≠ .reset ∧ clockSafe s = false ∧ s.db.session = some w ∧ v.toNat / 2 ^ 24 = 0xA5 ∧ bitOf v 0 = false ∧ s.db.mon =
       false) ∧
    (let s : State := stopped; let w : Wire := .dio; let v : W32 := 0xA5000000
     s.sys.mode ≠ .reset ∧ clockSafe s = false ∧ s.db.session = some w ∧ v.toNat / 2 ^ 24 = 0xA5 ∧ bitOf v 0 = false ∧ s.db.mon =
       true ∧ s.cs.state = .waitD) := by
  refine ⟨?_, ?_, ?_, ?_, ?_, ?_⟩ <;> decide +kernel

theorem test_met_DebugSessionsAndRunControl_2 :
    (let s : State := x169; let w : Wire := .dio
     s.sys.mode ≠ .reset ∧ clockSafe s = false ∧ s.db.session = some w ∧ s.db.lastFrame + 10000000 ≤ s.now) ∧
    (let s : State := x170; let w : Wire := .dio
     s.sys.mode ≠ .reset ∧ clockSafe s = false ∧ s.db.session = some w ∧ s.now < s.db.lastFrame + 10000000) ∧
    (let s : State := session; let w : Wire := .dio
     s.sys.mode ≠ .reset ∧ clockSafe s = false ∧ s.db.session = some w ∧ s.cs.state = .running ∧ s.db.mon = false ∧ s.cs.hl = false ∧
       bpAt s.cs.pc s = none) ∧
    (let s : State := x171; let w : Wire := .dio
     s.sys.mode ≠ .reset ∧ clockSafe s = false ∧ s.db.session = some w ∧ s.cs.state = .running ∧ s.db.mon = false ∧ s.cs.hl = true) ∧
    (let s : State := stopped; let w : Wire := .dio
     s.sys.mode ≠ .reset ∧ clockSafe s = false ∧ s.db.session = some w ∧ s.db.mon = true ∧ s.db.inh = false ∧ s.cs.state = .waitD) ∧
    (let s : State := session; let w : Wire := .dio; let k : Fin 4 := 3; let j : Fin 4 := 1
     s.sys.mode ≠ .reset ∧ clockSafe s = false ∧ s.db.session = some w ∧ j ≠ k) := by
  refine ⟨?_, ?_, ?_, ?_, ?_, ?_⟩ <;> decide +kernel

theorem test_met_DebugSessionsAndRunControl_3 :
    (let s : State := running; let w : Wire := .dio; let f : DbFrame := { wire := .dio, hdr := 0x01 }
     s.sys.mode ≠ .reset ∧ clockSafe s = false ∧ s.db.session = none ∧ f.wire = w ∧ frameOk f = true ∧
       hdrWrite f.hdr = false ∧ hdrReg f.hdr = 0) ∧
    (let s : State := running; let w : Wire := .dio; let f : DbFrame := { wire := .dio, hdr := 0x7F }
     s.sys.mode ≠ .reset ∧ clockSafe s = false ∧ s.db.session = none ∧ f.wire = w ∧ frameOk f = true ∧
       hdrWrite f.hdr = false ∧ hdrReg f.hdr ≠ 0) ∧
    (let s : State := running; let f : DbFrame := { wire := .dio, hdr := 0x00 }
     s.sys.mode ≠ .reset ∧ clockSafe s = false ∧ s.db.session = none ∧ frameOk f = false) ∧
    (let s : State := running; let f : DbFrame := { wire := .dio, hdr := 0x83, data := 1, chk := 0 }
     s.sys.mode ≠ .reset ∧ clockSafe s = false ∧ s.db.session = none ∧ frameOk f = false) ∧
    (let s : State := session
     s.sys.mode ≠ .reset ∧ clockSafe s = false) := by
  refine ⟨?_, ?_, ?_, ?_, ?_⟩ <;> decide +kernel

theorem test_met_DebugAccessesReachStoppedCantleAndTheWithdrawal :
    (let s : State := x172; let w : Wire := .dio
     s.sys.mode ≠ .reset ∧ clockSafe s = false ∧ s.db.session = some w ∧ s.cs.state = .waitD ∧ (inService s = false ∨ bitOf
       s.db.wdraw 8 = true) ∧ s.db.mspace = false ∧ s.db.maddr.toNat < 0x8000 ∧ s.db.copyFault = false ∧ s.db.vtOut = []) ∧
    (let s : State := stopped; let w : Wire := .dio
     s.sys.mode ≠ .reset ∧ clockSafe s = false ∧ s.db.session = some w ∧ s.cs.state = .waitD ∧ inService s = true ∧ bitOf s.db.wdraw
       8 = false) ∧
    (let s : State := x172; let w : Wire := .dio; let x := s.db.maddr.toNat / 4 * 4
     s.sys.mode ≠ .reset ∧ clockSafe s = false ∧ s.db.session = some w ∧ s.cs.state = .waitD ∧ s.db.mspace = false ∧ s.db.maddr.toNat
       < 0x8000 ∧ (inService s = false ∨ bitOf s.db.wdraw 8 = true) ∧ ckblkHolds x s = false ∧ Memory.wf 0 s.cs.dmem = true) ∧
    (let s : State := x172; let w : Wire := .dio; let a := 0x7FFB; let x := s.db.maddr.toNat / 4 * 4
     s.sys.mode ≠ .reset ∧ clockSafe s = false ∧ s.db.session = some w ∧ s.cs.state = .waitD ∧ s.db.mspace = false ∧ s.db.maddr.toNat
       < 0x8000 ∧ (inService s = false ∨ bitOf s.db.wdraw 8 = true) ∧ ckblkHolds x s = false ∧ Memory.wf 0 s.cs.dmem = true ∧ (a < x
       ∨ x + 4 ≤ a)) ∧
    (let s : State := x173; let w : Wire := .dio
     s.sys.mode ≠ .reset ∧ clockSafe s = false ∧ s.db.session = some w ∧ s.cs.state = .waitD ∧ s.db.mspace = true ∧ s.db.maddr.toNat
       < 0x10000 ∧ (inService s = false ∨ bitOf s.db.wdraw 8 = true) ∧ Memory.wf 0xFF s.cs.imem = true) ∧
    (let s : State := x173; let w : Wire := .dio; let a := 0xFFFB; let x := s.db.maddr.toNat / 4 * 4
     s.sys.mode ≠ .reset ∧ clockSafe s = false ∧ s.db.session = some w ∧ s.cs.state = .waitD ∧ s.db.mspace = true ∧ s.db.maddr.toNat
       < 0x10000 ∧ (inService s = false ∨ bitOf s.db.wdraw 8 = true) ∧ Memory.wf 0xFF s.cs.imem = true ∧ (a < x ∨ x + 4 ≤ a)) := by
  refine ⟨?_, ?_, ?_, ?_, ?_, ?_⟩ <;> decide +kernel

theorem test_met_DebugAccessesReachStoppedCantleAndTheWithdrawal_2 :
    (let s : State := x174; let w : Wire := .dio
     s.sys.mode ≠ .reset ∧ clockSafe s = false ∧ s.db.session = some w ∧ s.cs.state = .waitD ∧ s.db.mspace = false ∧ 0x8000 ≤
       s.db.maddr.toNat) ∧
    (let s : State := session; let w : Wire := .dio
     s.sys.mode ≠ .reset ∧ clockSafe s = false ∧ s.db.session = some w ∧ s.cs.state ≠ .waitD) ∧
    (let s : State := x172; let w : Wire := .dio; let v : W32 := 5
     s.sys.mode ≠ .reset ∧ clockSafe s = false ∧ s.db.session = some w ∧ s.db.wdraw ≠ v.setWidth 9) ∧
    (let s : State := x175; let w : Wire := .dio
     s.sys.mode ≠ .reset ∧ clockSafe s = false ∧ s.db.session = some w ∧ s.db.copyFault = true) ∧
    (let s : State := x176; let w : Wire := .dio; let c := (7 : Byte); let q := ([8] : List Byte)
     s.sys.mode ≠ .reset ∧ clockSafe s = false ∧ s.db.session = some w ∧ s.db.vtOut = c :: q) ∧
    (let s : State := x177; let w : Wire := .dio
     s.sys.mode ≠ .reset ∧ clockSafe s = false ∧ s.db.session = some w ∧ s.db.vtIn.length < 16) := by
  refine ⟨?_, ?_, ?_, ?_, ?_, ?_⟩ <;> decide +kernel

theorem test_met_DebugAccessesReachStoppedCantleAndTheWithdrawal_3 :
    (let s : State := x178; let w : Wire := .dio
     s.sys.mode ≠ .reset ∧ clockSafe s = false ∧ s.db.session = some w ∧ s.db.vtIn.length = 16) := by
  decide +kernel

theorem test_met_RegisterWritesActByTheirAccessCode :
    (let s : State := op
     s.sys.mode ≠ .reset ∧ clockSafe s = false) ∧
    (let s : State := op; let n : Fin 8 := 7; let m : Fin 8 := 1
     s.sys.mode ≠ .reset ∧ clockSafe s = false ∧ m ≠ n) ∧
    (let s : State := op; let k : Fin 4 := 3; let j : Fin 4 := 1
     s.sys.mode ≠ .reset ∧ clockSafe s = false ∧ j ≠ k) := by
  refine ⟨?_, ?_, ?_⟩ <;> decide +kernel

theorem test_met_PortsShareTheSemaphoreAndLatchSnapshots :
    (let s : State := op
     s.sys.mode ≠ .reset ∧ clockSafe s = false ∧ s.hb.owner = 0) ∧
    (let s : State := x179
     s.sys.mode ≠ .reset ∧ clockSafe s = false ∧ s.hb.owner ≠ 0) ∧
    (let s : State := x179; let p : Port := .usb; let me : BitVec 2 := if p = .bus then 1 else 2
     s.sys.mode ≠ .reset ∧ clockSafe s = false ∧ s.hb.owner = me) ∧
    (let s : State := op; let p : Port := .usb; let me : BitVec 2 := if p = .bus then 1 else 2
     s.sys.mode ≠ .reset ∧ clockSafe s = false ∧ s.hb.owner ≠ me) ∧
    (let s : State := op; let tag : Byte := 9
     s.sys.mode ≠ .reset ∧ clockSafe s = false ∧ tag ≠ 0x9D) := by
  refine ⟨?_, ?_, ?_, ?_, ?_⟩ <;> decide +kernel

theorem test_met_UsbStandardRequestsAreAnswered :
    (let s : State := usb
     usbLive s = true ∧ s.um.held = false) ∧
    (let s : State := usb; let v : W16 := 0x0400
     usbLive s = true ∧ s.um.held = false ∧ v ≠ 0 ∧ 0x0400 ≤ v.toNat) ∧
    (let s : State := usb; let v : W16 := 0x0080
     usbLive s = true ∧ s.um.held = false ∧ v ≠ 0x0081) ∧
    (let s : State := usb; let v : W16 := 1
     usbLive s = true ∧ s.um.held = false ∧ 1 ≤ v.toNat ∧ v.toNat ≤ 127 ∧ v ≠ 0) ∧
    (let s : State := usb; let v : W16 := 127
     usbLive s = true ∧ s.um.held = false ∧ 1 ≤ v.toNat ∧ v.toNat ≤ 127) ∧
    (let s : State := usb; let v : W16 := 0
     usbLive s = true ∧ s.um.held = false ∧ (v = 0 ∨ 127 < v.toNat)) := by
  refine ⟨?_, ?_, ?_, ?_, ?_, ?_⟩ <;> decide +kernel

theorem test_met_UsbStandardRequestsAreAnswered_2 :
    (let s : State := usb; let v : W16 := 128
     usbLive s = true ∧ s.um.held = false ∧ (v = 0 ∨ 127 < v.toNat)) ∧
    (let s : State := usb; let v : W16 := 2
     usbLive s = true ∧ s.um.held = false ∧ 2 ≤ v.toNat) := by
  refine ⟨?_, ?_⟩ <;> decide +kernel

theorem test_met_UsbVendorRequestsCompleteWithAnOutcome :
    (let s : State := usb
     usbLive s = true ∧ s.um.held = false ∧ s.sys.mode ≠ .prove) ∧
    (let s : State := usb; let l := s.nv.login[1]
     usbLive s = true ∧ s.um.held = false ∧ s.sys.mode ≠ .prove ∧ l.on = true ∧ inService s = true ∧ s.sys.stop = none) ∧
    (let s : State := x180; let data : List Byte := phrase; let len : W16 := 8; let l := s.nv.login[1]
     usbLive s = true ∧ s.um.held = false ∧ s.sys.mode ≠ .prove ∧ l.on = false ∧ 8 ≤ len.toNat ∧ len.toNat ≤ 32 ∧ len.toNat ≤
       data.length) ∧
    (let s : State := x180; let data : List Byte := (List.replicate 32 0x41); let len : W16 := 32; let l := s.nv.login[1]
     usbLive s = true ∧ s.um.held = false ∧ s.sys.mode ≠ .prove ∧ l.on = false ∧ 8 ≤ len.toNat ∧ len.toNat ≤ 32 ∧ len.toNat ≤
       data.length) ∧
    (let s : State := x181; let data : List Byte := phrase; let len : W16 := 8; let l := s.nv.login[1]
     usbLive s = true ∧ s.um.held = false ∧ s.sys.mode ≠ .prove ∧ 8 ≤ len.toNat ∧ len.toNat ≤ 32 ∧ data.length = len.toNat ∧
       len.toNat % 2 = 0 ∧ (∀ c ∈ data, c ≠ 0) ∧ l.pw = {} ∧ s.nv.lockNext = none ∧ s.nv.vault.lockMin = 0 ∧ s.nv.vault.hash ≠
       List.replicate 32 0 ∧ sha256 (s.nv.vault.salt ++ data) = s.nv.vault.hash) ∧
    (let s : State := x182; let data : List Byte := phrase; let len : W16 := 8; let l := s.nv.login[1]
     usbLive s = true ∧ s.um.held = false ∧ s.sys.mode ≠ .prove ∧ 8 ≤ len.toNat ∧ len.toNat ≤ 32 ∧ data.length = len.toNat ∧
       len.toNat % 2 = 0 ∧ (∀ c ∈ data, c ≠ 0) ∧ l.pw = {} ∧ s.nv.lockNext = none ∧ s.nv.vault.lockMin = 0 ∧ s.nv.vault.hash ≠
       List.replicate 32 0 ∧ sha256 (s.nv.vault.salt ++ data) ≠ s.nv.vault.hash ∧ s.nv.vault.wrong.toNat < 4) := by
  refine ⟨?_, ?_, ?_, ?_, ?_, ?_⟩ <;> decide +kernel

theorem test_met_UsbVendorRequestsCompleteWithAnOutcome_2 :
    (let s : State := x183; let data : List Byte := phrase; let len : W16 := 8; let t1 := 50; let l := s.nv.login[1]
     usbLive s = true ∧ s.um.held = false ∧ s.sys.mode ≠ .prove ∧ 8 ≤ len.toNat ∧ len.toNat ≤ 32 ∧ data.length = len.toNat ∧
       len.toNat % 2 = 0 ∧ (∀ c ∈ data, c ≠ 0) ∧ l.pw = {} ∧ s.nv.lockNext = some t1 ∧ s.now < t1 ∧ s.nv.vault.lockMin ≠ 0) ∧
    (let s : State := usb; let data : List Byte := phrase; let len : W16 := 8; let l := s.nv.login[1]
     usbLive s = true ∧ s.um.held = false ∧ s.sys.mode ≠ .prove ∧ 8 ≤ len.toNat ∧ len.toNat ≤ 32 ∧ data.length = len.toNat ∧
       len.toNat % 2 = 0 ∧ (∀ c ∈ data, c ≠ 0) ∧ l.pw = {} ∧ l.on = true ∧ pwValid data = true ∧ s.nv.clog.lost = none ∧
       s.nv.clog.retiring = none ∧ s.nv.clog.recs.length + s.nv.clog.fill < 255 * (s.nv.clog.full + 1)) ∧
    (let s : State := x180; let l := s.nv.login[1]
     usbLive s = true ∧ s.um.held = false ∧ s.sys.mode ≠ .prove ∧ l.on = false ∧ inService s = true) ∧
    (let s : State := usbConf; let l := s.nv.login[1]
     usbLive s = true ∧ s.um.held = false ∧ s.sys.mode ≠ .prove ∧ l.on = true ∧ s.sys.mode = .configure ∧ s.nv.erasing = false ∧
       s.nv.commit = none) ∧
    (let s : State := x184; let l := s.nv.login[1]
     usbLive s = true ∧ s.um.held = false ∧ s.sys.mode ≠ .prove ∧ l.on = true ∧ s.sys.mode = .configure ∧ s.nv.erasing = false ∧
       s.nv.commit = none ∧ commitRefused 1 s = none) ∧
    (let s : State := x185; let k : Fin 16 := 15; let l := s.nv.login[1]
     usbLive s = true ∧ s.um.held = false ∧ s.sys.mode ≠ .prove ∧ l.on = true ∧ unlockWaits k s = false ∧ unlockOk k s = true ∧
       s.dc.chan[k.1].lockSto = false) := by
  refine ⟨?_, ?_, ?_, ?_, ?_, ?_⟩ <;> decide +kernel

theorem test_met_UsbVendorRequestsCompleteWithAnOutcome_3 :
    (let s : State := usb; let k : Fin 16 := 15; let l := s.nv.login[1]
     usbLive s = true ∧ s.um.held = false ∧ s.sys.mode ≠ .prove ∧ l.on = true ∧ (unlockWaits k s = true ∨ unlockOk k s = false)) ∧
    (let s : State := x185w; let k : Fin 16 := 15; let l := s.nv.login[1]
     usbLive s = true ∧ s.um.held = false ∧ s.sys.mode ≠ .prove ∧ l.on = true ∧ (unlockWaits k s = true ∨ unlockOk k s = false)) ∧
    (let s : State := x185s; let k : Fin 16 := 15; let l := s.nv.login[1]
     usbLive s = true ∧ s.um.held = false ∧ s.sys.mode ≠ .prove ∧ l.on = true ∧ unlockWaits k s = false ∧
       unlockOk k s = true ∧ s.dc.chan[k.1].lockSto = true) ∧
    (let s : State := usbConf
     usbLive s = true ∧ s.um.held = false ∧ s.sys.mode ≠ .prove ∧ (s.sys.mode = .configure ∨ s.sys.mode = .safe)) := by
  refine ⟨?_, ?_, ?_, ?_⟩ <;> decide +kernel

theorem test_met_TheUsbBusConnectsResetsAndDownloads :
    (let s : State := usb
     s.um.state ≠ .disconnected ∧ s.um.vbus = true ∧ s.sys.mode ≠ .reset ∧ clockSafe s = false ∧ usbLive s = true ∧ s.um.state =
       .configured ∧ s.um.halt = false ∧ s.um.download = none) ∧
    (let s : State := op
     s.um.state = .disconnected ∧ s.um.vbus = false ∧ s.sys.mode ≠ .reset ∧ clockSafe s = false) ∧
    (let s : State := usb; let b := true
     s.um.vbus = b) ∧
    (let s : State := x186; let n : Fin 15 := 0
     usbLive s = true ∧ s.um.state = .configured ∧ s.um.halt = false ∧ s.um.download = some { kind := 1, next := n.1, last := 15 }) ∧
    (let s : State := x187; let n : Fin 15 := 14
     usbLive s = true ∧ s.um.state = .configured ∧ s.um.halt = false ∧ s.um.download = some { kind := 1, next := n.1, last := 15 }) ∧
    (let s : State := x188
     usbLive s = true ∧ s.um.state = .configured ∧ s.um.halt = false ∧ s.um.download = some { kind := 1, next := 16, last := 15 }) := by
  refine ⟨?_, ?_, ?_, ?_, ?_, ?_⟩ <;> decide +kernel


/-! ### Witnesses with a check code over 256 bytes, which the kernel need not compute -/

def words128Crc : W32 := crc32c (words128.flatMap fun w => bytesLE 2 w.toNat)

theorem join32_words (w : W32) : w = join32 (word0 w) (word1 w) := by
  ext i h
  rcases Nat.lt_or_ge i 16 with g | g
  · simp [join32, word0, word1, g, BitVec.getLsbD_eq_getElem h]
  · have e : 16 + (i - 16) = i := by omega
    have n : ¬ i < 16 := by omega
    have k : i - 16 < 16 := by omega
    simp [join32, word0, word1, e, n, k, BitVec.getLsbD_eq_getElem h]

theorem join32_words_ne (w : W32) : w ≠ join32 (word0 w) (~~~ word1 w) := by
  intro h
  have := congrArg (BitVec.getLsbD · 16) h
  simp [join32, word0, word1] at this

theorem not_self_ne (w : W32) : w ≠ ~~~ w := by
  intro h
  have := congrArg (BitVec.getLsbD · 0) h
  simp at this

theorem test_met_chunk_with_its_check_code :
    let s : State := chunkState; let l := s.nv.login[1]
    s.sys.mode = .configure ∧ Memory.wf 0xFF s.nv.mem = true ∧ s.nv.chunk.opened = true ∧ s.nv.chunk.words.length = 128 ∧
      fld s.nv.ssel 15 15 = 0 ∧ s.nv.dirD.contains (fld s.nv.ssel 9 0) = false ∧ s.nv.prep = true ∧ s.nv.commit = none ∧ l.on = true := by
  refine ⟨?_, ?_, ?_, ?_, ?_, ?_, ?_, ?_, ?_⟩ <;> decide +kernel

theorem test_met_chunk_crc_good : words128Crc = join32 chunkState.nv.scrc0 (word1 words128Crc) := join32_words _

theorem test_met_chunk_crc_bad : words128Crc ≠ join32 chunkState.nv.scrc0 (~~~ word1 words128Crc) := join32_words_ne _

theorem test_met_stage_request :
    let s : State := usbConf; let k : Fin 1024 := 1023; let ws : List Byte := List.replicate 256 7; let l := s.nv.login[1]
    (usbLive s = true ∧ s.um.held = false ∧ s.sys.mode ≠ .prove ∧ l.on = true ∧ s.sys.mode = .configure ∧ s.nv.erasing = false ∧
      s.nv.commit = none ∧ ws.length = 256 ∧ s.nv.prep = true ∧ s.nv.dirD.contains k.1 = false) ∧
    (let c : W32 := crc32c ws; crc32c ws = c) ∧ (let c : W32 := ~~~ crc32c ws; crc32c ws ≠ c) :=
  ⟨by refine ⟨?_, ?_, ?_, ?_, ?_, ?_, ?_, ?_, ?_, ?_⟩ <;> decide +kernel, rfl, not_self_ne _⟩

/-! ### Witnesses for the statements about every command -/

theorem test_met_EveryStepKeepsTheInvariant :
    Inv op ∧ step { op with pending := [.usbResume] } = .next (setUm (fun u => { u with suspend := false }) op) :=
  ⟨by decide +kernel, rfl⟩

theorem test_met_IdleStepLetsAMicrosecondPass : op.pending = [] ∧ op.tsRun = true ∧ (in_ .safe).pending = [] := ⟨rfl, rfl, rfl⟩

theorem test_met_OnlyALoadChangesTheCommittedImage :
    Inv op ∧ (∀ n f, Instr.usbResume ≠ .configurationLoad n f) ∧ exec .usbResume op = .next (setUm (fun u => { u with suspend := false }) op) :=
  ⟨by decide +kernel, fun _ _ h => Instr.noConfusion h, rfl⟩

theorem test_met_ModesChangeByTableSyTwo :
    Inv (in_ .safe) ∧ (in_ .safe).sys.mode = .safe ∧ exec .usbResume (in_ .safe) = .next (setUm (fun u => { u with suspend := false }) (in_ .safe)) ∧
      op.sys.mode = .operate :=
  ⟨by decide +kernel, rfl, rfl, rfl⟩

theorem test_met_OutputsAreOffOutsideService :
    Inv State.reset ∧ exec .usbResume State.reset = .next (setUm (fun u => { u with suspend := false }) State.reset) ∧
      State.reset.sys.mode ≠ .operate ∧ State.reset.sys.mode ≠ .degraded :=
  ⟨by decide +kernel, rfl, by decide, by decide⟩

/-! ### Ill-formed commands are refused by the check (Tables SY-7, SY-8, LV-4, SY-15, R376, R716) -/

theorem test_wf_brown_out : wellFormed (.brownOut 0 5000 true) = false ∧ wellFormed (.brownOut 4 5000 true) = true := by decide

theorem test_wf_prove :
    wellFormed (.prove 9 { ends := [1, 2, 3, 4, 5, 6, 7, 8] }) = false ∧ wellFormed (.prove 9 { ends := [1, 2, 3, 4, 5, 6, 7, 9, 8] }) = false ∧
      wellFormed (.prove 9 { ends := [2001, 2001, 2001, 2001, 2001, 2001, 2001, 2001, 2001] }) = false ∧
      wellFormed (.prove 9 { ends := [1, 2, 3, 4, 5, 6, 7, 8, 9], clock := 5 }) = false ∧
      wellFormed (.prove 9 { ends := [1, 2, 3, 4, 5, 6, 7, 8, 9] }) = true := by decide

theorem test_wf_load :
    wellFormed (.configurationLoad 6 { ends := [1, 2, 3, 4, 5, 220001] }) = false ∧
      wellFormed (.configurationLoad 6 { ends := [1, 2, 3, 4, 5, 220000] }) = true := by decide

theorem test_wf_tick :
    wellFormed (.safetyTick { srba := 0, srbb := 0, diag := 9, mismatch := false }) = false ∧
      wellFormed (.safetyTick { srba := 0, srbb := 0, diag := 8, mismatch := false }) = true := by decide

theorem test_wf_commit :
    wellFormed (.commitImage .bus 0xC7 { ends := [310001, 2, 3, 4, 5, 6] }) = false ∧
      wellFormed (.usbCommit { rtype := 0x40 } { ends := [1, 2, 3, 4, 5] }) = false ∧
      wellFormed (.writeRegs { rtype := 0x40 } { ends := [2, 1, 3, 4, 5, 6] }) = false ∧
      wellFormed (.commitImage .bus 0xC7 { ends := [310000, 460000, 610000, 620000, 630000, 640000] }) = true := by decide

theorem test_wf_can :
    wellFormed (.canFrameReceive 0 { ident := 3, data := List.replicate 9 0 }) = false ∧
      wellFormed (.canFrameReceive 0 { ident := 3, classic := true, data := List.replicate 12 0 }) = false ∧
      wellFormed (.canFrameReceive 0 { ident := 3, data := List.replicate 12 0 }) = true ∧
      wellFormed (.canError 0 { lec := 7, tx := true }) = false ∧ wellFormed (.canError 0 { lec := 6, tx := true }) = true := by decide

theorem test_wf_usb :
    wellFormed (.getStatus { rtype := 0x80, length := 2, data := [1] }) = false ∧
      wellFormed (.usbLogin { rtype := 0x40, length := 1, data := [1, 2] }) = false ∧
      wellFormed (.usbLogin { rtype := 0x40, length := 2, data := [1, 2] }) = true := by decide

/-! ### Values from the spec's tables -/

/-- The bytes 0x31 to 0x39. -/
def digits : List Byte := [0x31, 0x32, 0x33, 0x34, 0x35, 0x36, 0x37, 0x38, 0x39]

/-- Table CK-1: the check value of each preset. -/
theorem test_check_values :
    crcOf .crc32c digits = 0xE3069283 ∧ crcOf .crc32 digits = 0xCBF43926 ∧ crcOf .crc16 digits = 0x29B1 := by decide +kernel

/-- Table CK-1: the result for no bytes. -/
theorem test_no_bytes : crcOf .crc32c [] = 0 ∧ crcOf .crc32 [] = 0 ∧ crcOf .crc16 [] = 0xFFFF := by decide +kernel

/-- FIPS 180-4's own example, the three bytes abc: the first four bytes of the hash. -/
theorem test_sha_abc : (sha256 [0x61, 0x62, 0x63]).take 4 = [0xBA, 0x78, 0x16, 0xBF] := by decide +kernel

/-- The worked example of chapter 17: the header of a write of register 0b001100 is 0x98. -/
theorem test_debug_header : dbHeader true 0x0C = 0x98 := by decide

/-- The table gives its rows no bits, so a word spells no command. -/
theorem test_decode : decodeTableWord 16 0x1234 = none := rfl


end Sys2Proof.Tests
end

section
/-! PROOFS. Register writes of a port (R13, R694): what a counted write leaves, and what the write of each word sets. -/

namespace Sys2Proof.Machine

open Sys2Proof

/-! ### The count of a write (R684, R686) -/

/-- The write counters of the two ports and HB_STAT.PORT. -/
def writeCounts (s : State) : Bool × W16 × W16 := (s.hb.lastPort, s.hb.wrBus, s.hb.wrUsb)

/-- The write counters after a counted write of a port. -/
def nextCounts (p : Port) (s : State) : Bool × W16 × W16 :=
  (decide (p = .usb), if p = .bus then satInc s.hb.wrBus else s.hb.wrBus, if p = .usb then satInc s.hb.wrUsb else s.hb.wrUsb)

/-- Words whose writes keep a login alive (R479). -/
def loginWord (a : Nat) : Bool := decide ((0x1A0 ≤ a ∧ a < 0x1B6) ∨ (0x1C0 ≤ a ∧ a < 0x1D0))

section Frames

variable (p : Port) (a : Nat) (s : State)

theorem touchLogin_of_not_loginWord (h : loginWord a = false) : touchLogin p a s = s :=
  if_neg (of_decide_eq_false h)

theorem touchLogin_frame : touchLogin p a s = { s with nv := { s.nv with login := (touchLogin p a s).nv.login } } := by
  unfold touchLogin
  split <;> rfl

theorem touchLogin_login_on (q : Fin 2) : (touchLogin p a s).nv.login[q.1].on = s.nv.login[q.1].on := by
  unfold touchLogin
  split
  · simp only [get_upd]
    split <;> rfl
  · rfl

@[simp] theorem touchLogin_hb : (touchLogin p a s).hb = s.hb := by rw [touchLogin_frame]

/-- A counted write changes the host bus and the age of a login only. -/
theorem countWrite_frame : countWrite p a s =
    { s with hb := (countWrite p a s).hb, nv := { s.nv with login := (countWrite p a s).nv.login } } := by
  unfold countWrite
  dsimp only
  rw [touchLogin_frame]
  rfl

theorem countWrite_frame_of_not_loginWord (h : loginWord a = false) :
    countWrite p a s = { s with hb := (countWrite p a s).hb } := by
  simp only [countWrite, touchLogin_of_not_loginWord _ _ _ h]
  rfl

@[simp] theorem countWrite_sys : (countWrite p a s).sys = s.sys := by rw [countWrite_frame]
@[simp] theorem countWrite_ev : (countWrite p a s).ev = s.ev := by rw [countWrite_frame]
@[simp] theorem countWrite_cs : (countWrite p a s).cs = s.cs := by rw [countWrite_frame]
@[simp] theorem countWrite_nv_code : (countWrite p a s).nv.code = s.nv.code := by rw [countWrite_frame]

theorem countWrite_port : (countWrite p a s).hb.port = upd s.hb.port p.ix fun q => { q with wroteAt := some s.now } := by
  simp [countWrite]

theorem writeCounts_countWrite : writeCounts (countWrite p a s) = nextCounts p s := by
  simp [writeCounts, nextCounts, countWrite]

end Frames

/-! ### A register write by its word's access code -/

section Access

variable {p : Port} {a : BitVec 9} {v : W16} {s : State}

theorem portLive_of_mode_of_clock (hm : s.sys.mode ≠ .reset) (hc : clockSafe s = false) : portLive s = true := by
  simp [portLive, hm, hc]

theorem exec_registerWrite : exec (.registerWrite p a v) s = .next (regWrite p a.toNat v {} s) := by
  have hs : busSoon p false s = s := by simp [busSoon]
  change execRegisterWrite p a v s false = _
  rw [execRegisterWrite, hs]

/-- A writable word that USB may reach is counted, and then takes its effect. -/
theorem exec_registerWrite_writable (live : portLive s = true) (hw : writable a.toNat = true)
    (hu : usbBarred a.toNat = false) :
    exec (.registerWrite p a v) s = .next (wordWrite p a.toNat v {} (countWrite p a.toNat s)) := by
  simp [exec_registerWrite, regWrite, portWrite, live, hw, hu]

/-- A word without a writable field takes no effect and no count (R694); a login may be kept alive (R479). -/
theorem exec_registerWrite_readOnly (live : portLive s = true) (hw : writable a.toNat = false)
    (hu : usbBarred a.toNat = false) :
    exec (.registerWrite p a v) s = .next (touchLogin p a.toNat s) := by
  simp [exec_registerWrite, regWrite, live, hw, hu]

/-- A write whose word has the effect `eff` counts for its port, when `eff` leaves the counters alone. -/
theorem registerWrite_wrote {eff : State → State} {P : State → Prop} (live : portLive s = true)
    (hw : writable a.toNat = true) (hu : usbBarred a.toNat = false)
    (heff : ∀ y, wordWrite p a.toNat v {} y = eff y) (hcount : ∀ y, writeCounts (eff y) = writeCounts y)
    (hP : P (eff (countWrite p a.toNat s))) :
    ∃ t, exec (.registerWrite p a v) s = .next t ∧ t.hb.lastPort = decide (p = .usb) ∧
      (p = .bus → t.hb.wrBus = satInc s.hb.wrBus ∧ t.hb.wrUsb = s.hb.wrUsb) ∧
      (p = .usb → t.hb.wrUsb = satInc s.hb.wrUsb ∧ t.hb.wrBus = s.hb.wrBus) ∧ P t := by
  have hnext := (hcount _).trans (writeCounts_countWrite p a.toNat s)
  simp only [writeCounts, nextCounts, Prod.mk.injEq] at hnext
  obtain ⟨hlast, hbus, husb⟩ := hnext
  refine ⟨_, (exec_registerWrite_writable live hw hu).trans (by rw [heff]), hlast, ?_, ?_, hP⟩
  · rintro rfl
    exact ⟨hbus, husb⟩
  · rintro rfl
    exact ⟨husb, hbus⟩

end Access

/-! ### What the write of each word sets -/

section Words

variable (p : Port) (v : W16) (f : WriteFindings) (s : State)

theorem wordWrite_scratch : wordWrite p 0x032 v f s = setPort p (fun q => { q with scratch := v }) s := rfl

theorem wordWrite_selWf : wordWrite p 0x080 v f s = setSel p (fun q => { q with wf := v &&& 0x003F }) s := rfl

theorem wordWrite_rstCause :
    wordWrite p 0x009 v f s = setSys (fun y => { y with rstCause := w1c y.rstCause 0x0F3F v }) s := rfl

theorem wordWrite_mode : wordWrite p 0x006 v f s = setSys (fun y => { y with reqRej := y.reqRej && !bitOf v 4 }) s := rfl

theorem wordWrite_ringStatus (n : Fin 8) : wordWrite p (0x060 + BitVec.ofNat 9 n.1).toNat v f s =
    irqUpdate (setRing n (fun r => { r with ovf := r.ovf && !bitOf v 13 }) s) := by
  fin_cases n <;> rfl

theorem wordWrite_ien : wordWrite p 0x072 v f s = irqUpdate (setEv (fun e => { e with ien := v.setWidth 8 }) s) := rfl

theorem wordWrite_checkUnitStatus (n : Fin 8) : wordWrite p (0x116 + 8 * BitVec.ofNat 9 n.1).toNat v f s =
    setCk n (fun u => { u with mis := u.mis && !bitOf v 8 }) s := by
  fin_cases n <;> rfl

theorem wordWrite_code_low : wordWrite p 0x1AC v f s = setNv (fun n => { n with code := putHalf false n.code v }) s := rfl

theorem wordWrite_code_high : wordWrite p 0x1AD v f s = setNv (fun n => { n with code := putHalf true n.code v }) s := rfl

theorem wordWrite_mailboxIn (k : Fin 4) : wordWrite p (0x1F0 + BitVec.ofNat 9 k.1).toNat v f s =
    setCs (fun c => { c with mbin := upd c.mbin k fun _ => v }) s := by
  fin_cases k <;> rfl

theorem wordWrite_csStat : wordWrite p 0x1E0 v f s = setCs (fun c => { c with rej := c.rej && !bitOf v 7 }) s := rfl

end Words

/-! ### Effects seen through the port, the rings and the halves of the commit code -/

section Effects

variable (p : Port) (s : State)

theorem ix_ne_otherPort_ix : p.ix.1 ≠ (otherPort p).ix.1 := by
  cases p <;> decide

theorem setPort_port_same (f : PortRegs → PortRegs) : (setPort p f s).hb.port[p.ix.1] = f s.hb.port[p.ix.1] := by
  simp

theorem setPort_port_other (f : PortRegs → PortRegs) :
    (setPort p f s).hb.port[(otherPort p).ix.1] = s.hb.port[(otherPort p).ix.1] := by
  simp [ix_ne_otherPort_ix]

theorem countWrite_port_same (a : Nat) :
    (countWrite p a s).hb.port[p.ix.1] = { s.hb.port[p.ix.1] with wroteAt := some s.now } := by
  simp [countWrite_port]

theorem countWrite_port_other (a : Nat) :
    (countWrite p a s).hb.port[(otherPort p).ix.1] = s.hb.port[(otherPort p).ix.1] := by
  simp [countWrite_port, ix_ne_otherPort_ix]

/-- A port's own register changes nothing but the host bus. -/
theorem setPort_countWrite_frame (f : PortRegs → PortRegs) (a : Nat) (h : loginWord a = false) :
    setPort p f (countWrite p a s) = { s with hb := (setPort p f (countWrite p a s)).hb } := by
  rw [countWrite_frame_of_not_loginWord _ _ _ h]
  rfl

theorem irqUpdate_frame :
    irqUpdate s = { s with ev := { s.ev with hirqa := (irqUpdate s).ev.hirqa, hirqb := (irqUpdate s).ev.hirqb } } := rfl

@[simp] theorem irqUpdate_rings : (irqUpdate s).ev.rings = s.ev.rings := rfl

@[simp] theorem irqUpdate_ien : (irqUpdate s).ev.ien = s.ev.ien := rfl

theorem join32_eq_append (lo hi : W16) : join32 lo hi = hi ++ lo := by
  refine BitVec.eq_of_getLsbD_eq fun i hi' => ?_
  rw [BitVec.getLsbD_append]
  by_cases h : i < 16
  · simp [join32, h, hi']
  · simp [join32, h, hi', BitVec.getLsbD_of_ge lo i (by omega)]

theorem putHalf_false (w : W32) (v : W16) : putHalf false w v = word1 w ++ v := join32_eq_append v (word1 w)

theorem putHalf_true (w : W32) (v : W16) : putHalf true w v = v ++ word0 w := join32_eq_append (word0 w) v

end Effects

/-! ### The statement -/

/-- Settles O56: a writable word is counted for its port and takes the effect of its access code; a read-only word takes none. -/
theorem registerWritesActByTheirAccessCode : Obligations.RegisterWritesActByTheirAccessCode := by
  unfold Obligations.RegisterWritesActByTheirAccessCode
  intro s p v hm hc wrote
  have live := portLive_of_mode_of_clock hm hc
  refine ⟨?scratch, ?select, ?rstCause, ?mode, ?ring, ?ien, ?check, ?codeLow, ?codeHigh, ?mailbox, ?csStat, ?readOnly, ?login⟩
  case scratch =>
    refine registerWrite_wrote live (by decide) (by decide) (wordWrite_scratch p v {}) (fun _ => rfl) ⟨?_, ?_, ?_⟩
    · rw [setPort_port_same]
    · rw [setPort_port_other, countWrite_port_other]
    · exact setPort_countWrite_frame _ _ _ _ (by decide)
  case select =>
    refine registerWrite_wrote live (by decide) (by decide) (wordWrite_selWf p v {}) (fun _ => rfl) ⟨?_, ?_, ?_⟩
    · rw [setSel, setPort_port_same, countWrite_port_same]
    · rw [setSel, setPort_port_other, countWrite_port_other]
    · exact setPort_countWrite_frame _ _ _ _ (by decide)
  case rstCause =>
    refine registerWrite_wrote live (by decide) (by decide) (wordWrite_rstCause p v {}) (fun _ => rfl) ⟨?_, ?_⟩
    · simp [w1c, BitVec.and_comm]
    · rw [countWrite_frame_of_not_loginWord _ _ _ (by decide)]
      rfl
  case mode =>
    refine registerWrite_wrote live (by decide) (by decide) (wordWrite_mode p v {}) (fun _ => rfl) ⟨?_, ?_⟩
    · simp
    · rw [countWrite_frame_of_not_loginWord _ _ _ (by decide)]
      rfl
  case ring =>
    intro n
    refine registerWrite_wrote live (by revert n; decide) (by revert n; decide) (fun y => wordWrite_ringStatus p v {} y n)
      (fun _ => rfl) ⟨?_, ?_, fun m hmn => ?_⟩
    · simp
    · simp
    · simp [Fin.val_ne_of_ne hmn.symm]
  case ien =>
    refine registerWrite_wrote live (by decide) (by decide) (wordWrite_ien p v {}) (fun _ => rfl) ⟨?_, ?_⟩
    · simp
    · rw [countWrite_frame_of_not_loginWord _ _ _ (by decide), irqUpdate_frame]
      rfl
  case check =>
    intro n
    refine registerWrite_wrote live (by revert n; decide) (by revert n; decide)
      (fun y => wordWrite_checkUnitStatus p v {} y n) (fun _ => rfl) ?_
    rw [countWrite_frame_of_not_loginWord _ _ _ (by revert n; decide)]
    rfl
  case codeLow =>
    refine registerWrite_wrote live (by decide) (by decide) (wordWrite_code_low p v {}) (fun _ => rfl) ?_
    simp [putHalf_false]
  case codeHigh =>
    refine registerWrite_wrote live (by decide) (by decide) (wordWrite_code_high p v {}) (fun _ => rfl) ?_
    simp [putHalf_true]
  case mailbox =>
    intro k
    refine registerWrite_wrote live (by revert k; decide) (by revert k; decide) (fun y => wordWrite_mailboxIn p v {} y k)
      (fun _ => rfl) ⟨?_, fun j hjk => ?_⟩
    · simp
    · simp [Fin.val_ne_of_ne hjk.symm]
  case csStat =>
    refine registerWrite_wrote live (by decide) (by decide) (wordWrite_csStat p v {}) (fun _ => rfl) ?_
    simp
  case readOnly =>
    intro a ha
    have hw : ∀ a ∈ [(0x000 : BitVec 9), 0x00D, 0x012, 0x081, 0x0C3, 0x150, 0x1D0, 0x1FF],
        writable a.toNat = false ∧ usbBarred a.toNat = false ∧ loginWord a.toNat = false := by decide
    obtain ⟨hwrite, hbar, hlogin⟩ := hw a ha
    rw [exec_registerWrite_readOnly live hwrite hbar, touchLogin_of_not_loginWord _ _ _ hlogin]
  case login =>
    exact ⟨_, exec_registerWrite_readOnly live (by decide) (by decide), touchLogin_frame _ _ _,
      fun q => touchLogin_login_on _ _ _ q.ix⟩

end Sys2Proof.Machine
end

section
/-! PROOFS. The safety tick (R22) and a waiting change to RESET: the invariant lets the mode change that waits in PROVE name any
mode, while `modeStep` makes whatever change waits at step 1 of the tick. -/

namespace Sys2Proof.Machine

open Sys2Proof

/-- PROVE right after power-on, with RESET as the mode change that waits. The invariant admits it; the model itself lets only OPERATE
and CONFIGURE wait. -/
def waitingReset : State := setSys (fun y => { y with pendMode := some .reset }) State.reset

/-- A tick whose STO readbacks are low, without a diagnostic or a mismatch. -/
def quietTick : TickInputs := { srba := 0, srbb := 0, diag := 0, mismatch := false }

/-- A change waits only in PROVE, as `PlansOk` asks; which one is left open. -/
theorem inv_waitingReset : Inv waitingReset := by
  have memories : MemoriesOk waitingReset := by decide
  have outputs : OutputsOff waitingReset := by decide +kernel
  have stopOnlyInService : waitingReset.sys.stop.isSome = true → inService waitingReset = true := by decide
  exact ⟨memories, .inr outputs, stopOnlyInService, fun _ => rfl⟩

theorem exec_quietTick_waitingReset :
    ∃ t, exec (.safetyTick quietTick) waitingReset = .next t ∧ t.sys.mode = .reset :=
  ⟨_, rfl, by decide +kernel⟩

/-- Refutes O15: the clause that a tick never enters RESET fails at `waitingReset`, which meets every hypothesis, since step 1 of the
tick makes the waiting change. -/
theorem not_theSafetyTickDrivesTheOutputs : ¬ Obligations.TheSafetyTickDrivesTheOutputs := by
  unfold Obligations.TheSafetyTickDrivesTheOutputs
  intro h
  obtain ⟨t, runs, inReset⟩ := exec_quietTick_waitingReset
  obtain ⟨u, runs', -, -, -, -, notReset, -⟩ := h waitingReset quietTick inv_waitingReset (by decide) rfl rfl
  obtain rfl : t = u := Host.Outcome.next.inj (runs.symm.trans runs')
  exact notReset inReset

end Sys2Proof.Machine
end

section
/-! PROOFS. The lanes block seen through its updates (chapter 03): repeated updates of one entry, one bit of a group's mask, and
what a fault report or a stitch leaves alone. -/

namespace Sys2Proof.Machine

open Sys2Proof

/-! ### Tables, bits and folds -/

theorem upd_upd {α : Type} {n : Nat} (v : Vector α n) (i : Fin n) (f g : α → α) :
    upd (upd v i f) i g = upd v i fun x => g (f x) := by
  refine Vector.ext fun j hj => ?_
  simp only [get_upd]
  split <;> rfl

theorem get_upd_same {α : Type} {n : Nat} (v : Vector α n) (i : Fin n) (f : α → α) : (upd v i f)[i.1] = f v[i.1] := by
  simp

theorem get_upd_of_ne {α : Type} {n : Nat} (v : Vector α n) {i j : Fin n} (f : α → α) (h : j ≠ i) :
    (upd v i f)[j.1] = v[j.1] := by
  simp [Fin.val_ne_of_ne h.symm]

theorem bitOf_putBit_same {n : Nat} (w : BitVec n) {i : Nat} (b : Bool) (h : i < n) : bitOf (putBit w i b) i = b := by
  have here : (BitVec.ofNat n (2 ^ i)).getLsbD i = true := by
    rw [BitVec.getLsbD_ofNat, Nat.testBit_two_pow_self, decide_eq_true h, Bool.and_self]
  cases b
  · simp only [bitOf, putBit, Bool.false_eq_true, if_false, BitVec.getLsbD_and, BitVec.getLsbD_not, here, Bool.not_true,
      Bool.and_false]
  · simp only [bitOf, putBit, if_true, BitVec.getLsbD_or, here, Bool.or_true]

/-- A fold in which only the step at `a` matters: before it `P` holds, after it `Q`. -/
theorem foldl_establishes {α β : Type} {f : β → α → β} {P Q : β → Prop} {a : α} {l : List α} {s : β} (mem : a ∈ l)
    (nodup : l.Nodup) (before : ∀ y b, b ≠ a → P y → P (f y b)) (here : ∀ y, P y → Q (f y a))
    (after : ∀ y b, b ≠ a → Q y → Q (f y b)) (start : P s) : Q (l.foldl f s) := by
  obtain ⟨l₁, l₂, rfl⟩ := List.append_of_mem mem
  obtain ⟨-, ⟨notAfter, -⟩, notBefore⟩ := by simpa [List.nodup_append] using nodup
  rw [List.foldl_append, List.foldl_cons]
  have reached : P (l₁.foldl f s) :=
    List.foldlRecOn l₁ f start fun y hy b hb => before y b (fun e => (notBefore b hb).1 e) hy
  exact List.foldlRecOn l₂ f (here _ reached) fun y hy b hb => after y b (fun e => notAfter (e ▸ hb)) hy

/-- What every step of a fold leaves as it is, the fold leaves as it is. -/
theorem foldl_unchanged {α β γ : Type} {f : β → α → β} (v : β → γ) (h : ∀ y a, v (f y a) = v y) (l : List α) (s : β) :
    v (l.foldl f s) = v s :=
  List.foldlRecOn (motive := fun y => v y = v s) l f rfl fun y hy a _ => (h y a).trans hy

/-! ### Updates of one group, input or lane -/

theorem setGroup_setGroup (g : Fin 8) (f₁ f₂ : Group → Group) (s : State) :
    setGroup g f₂ (setGroup g f₁ s) = setGroup g (fun x => f₂ (f₁ x)) s := by
  simp [setGroup, upd_upd]

theorem setGroup_group (g : Fin 8) (f : Group → Group) (s : State) : (setGroup g f s).wf.group[g.1] = f s.wf.group[g.1] :=
  get_upd_same _ _ _

theorem setInput_input (n : Fin 64) (f : Input → Input) (s : State) : (setInput n f s).wf.input[n.1] = f s.wf.input[n.1] :=
  get_upd_same _ _ _

theorem setLane_lane (l : Fin 72) (f : Lane → Lane) (s : State) : (setLane l f s).wf.lane[l.1] = f s.wf.lane[l.1] :=
  get_upd_same _ _ _

end Sys2Proof.Machine
end

section
/-! PROOFS. The start of provings (R123 to R125) and the end of agreement windows (R128, R132). -/

namespace Sys2Proof.Machine

open Sys2Proof

variable {g : Fin 8} {s : State}

/-! ### Which position comes next -/

/-- The position at which the order stands is next when it can be proved. -/
theorem nextPos_eq_next (small : s.wf.group[g.1].next < 9) (ok : provable g s s.wf.group[g.1].next = true) :
    nextPos g s = s.wf.group[g.1].next := by
  have first : (s.wf.group[g.1].next + 0) % 9 = s.wf.group[g.1].next := Nat.mod_eq_of_lt small
  rw [nextPos, List.range_succ_eq_map, List.map_cons, first, List.find?_cons_of_pos ok, Option.getD_some]

theorem provable_home {p : Nat} (hp : p < 8) (serves : bitOf s.wf.group[g.1].out p = false) : provable g s p = true := by
  simp [provable, hp, serves]

theorem provable_spare (h : s.wf.group[g.1].spare = .free ∨ s.wf.group[g.1].spare = .serving) : provable g s 8 = true := by
  simpa [provable] using h

/-! ### How a proving begins -/

/-- With a free spare the position's home lane is shadowed. -/
theorem startProving_shadowed (p : Fin 8) (free : s.wf.group[g.1].spare = .free) :
    startProving g p.1 s = setInput (inputAt g p) (fun x => { x with shadowDet := x.det })
      (setGroup g (fun x => { x with lastStart := some s.now, spare := .shadow, pos := p, spareServes := false,
                                     phase := .settle1 (s.now + 200) }) s) := by
  simp [startProving, spareFree, free, setGroup_setGroup]

/-- Without one it is proved in bursts. -/
theorem startProving_inBursts (p : Fin 8) (busy : s.wf.group[g.1].spare ≠ .free) :
    startProving g p.1 s =
      setGroup g (fun x => { x with lastStart := some s.now, under := putBit x.under p.1 true }) s := by
  simp [startProving, spareFree, busy, setGroup_setGroup]

/-- The free spare serves no input and is measured directly. -/
theorem startProving_direct (free : s.wf.group[g.1].spare = .free) :
    startProving g 8 s = setGroup g (fun x => { x with lastStart := some s.now, phase := .direct (s.now + 8000) }) s := by
  simp [startProving, spareFree, free, setGroup_setGroup]

/-- A spare that serves is measured in bursts at the input it serves. -/
theorem startProving_spareInBursts (busy : s.wf.group[g.1].spare ≠ .free) :
    startProving g 8 s =
      setGroup g (fun x => { x with lastStart := some s.now, under := putBit x.under x.pos.1 true }) s := by
  simp [startProving, spareFree, busy, setGroup_setGroup]

/-! ### The two commands -/

/-- A proving of the group may start: none is under way, and 6 s have passed since the last start (R123). -/
abbrev ProvingDue (g : Fin 8) (s : State) : Prop :=
  s.wf.group[g.1].phase = .idle ∧ limitOk 6000000 s.wf.group[g.1].lastStart s.now = true

theorem exec_provingStart_inOrder (runs : provingRuns s = true) (due : ProvingDue g s) (noFront : s.wf.group[g.1].front = []) :
    exec (.provingStart g) s =
      .next (startProving g (nextPos g s) (setGroup g (fun x => { x with front := [], next := (nextPos g s + 1) % 9 }) s)) := by
  change execProvingStart g s = _
  simp [execProvingStart, runs, due.1, due.2, noFront]

theorem exec_provingStart_front {f : Fin 9} {r : List (Fin 9)} (runs : provingRuns s = true) (due : ProvingDue g s)
    (front : s.wf.group[g.1].front = f :: r) (ok : ∀ x ∈ f :: r, provable g s x.1 = true) :
    exec (.provingStart g) s = .next (startProving g f.1 (setGroup g (fun x => { x with
      front := r, next := if nextPos g s = f.1 then (nextPos g s + 1) % 9 else x.next }) s)) := by
  change execProvingStart g s = _
  have all : (f :: r).filter (fun x => provable g s x.1) = f :: r := List.filter_eq_self.2 ok
  simp [execProvingStart, runs, due.1, due.2, front, all]

theorem exec_provingStart_tooSoon (soon : limitOk 6000000 s.wf.group[g.1].lastStart s.now = false) :
    exec (.provingStart g) s = .next s := by
  change execProvingStart g s = _
  simp [execProvingStart, soon]

theorem exec_agreementWindowExpiry_ended {k til : Nat} (runs : provingRuns s = true) (sample : s.grid.lane = some s.now)
    (window : s.wf.group[g.1].phase = .agree1 k til ∨ s.wf.group[g.1].phase = .agree2 k til) (ended : til ≤ s.now) :
    exec (.agreementWindowExpiry g) s =
      .next (setGroup g (fun x => { x with phase := .disFirst (!x.spareServes) (s.now + 8000) }) s) := by
  change execAgreementWindowExpiry g s = _
  obtain h | h := window <;> simp [execAgreementWindowExpiry, h, ended, runs, atSample, sample]

theorem exec_agreementWindowExpiry_open {k til : Nat}
    (window : s.wf.group[g.1].phase = .agree1 k til ∨ s.wf.group[g.1].phase = .agree2 k til) (more : s.now < til) :
    exec (.agreementWindowExpiry g) s = .next s := by
  change execAgreementWindowExpiry g s = _
  obtain h | h := window <;> simp [execAgreementWindowExpiry, h, more]

/-! ### The statement -/

/-- Settles O17: the order of the provings is that of `nextPos`, and each way to begin one is a case of `startProving`. -/
theorem provingsStartInRisingOrderAndWindowsExpire : Obligations.ProvingsStartInRisingOrderAndWindowsExpire := by
  unfold Obligations.ProvingsStartInRisingOrderAndWindowsExpire
  intro s g p runs x start due
  refine ⟨?inOrder, ?spare, ?front, exec_provingStart_tooSoon, ?window⟩
  case inOrder =>
    intro hdue noFront (atP : s.wf.group[g.1].next = p.1) serves
    have pos : nextPos g s = p.1 :=
      (nextPos_eq_next (by omega) (by rw [atP]; exact provable_home p.2 serves)).trans atP
    have run := exec_provingStart_inOrder runs hdue noFront
    rw [pos] at run
    refine ⟨fun free => ?_, fun busy => ?_⟩
    · rw [run, startProving_shadowed p (by rw [setGroup_group]; exact free), setGroup_setGroup]
      rfl
    · have notFree : x.spare ≠ .free := by rintro h; simp [h] at busy
      rw [run, startProving_inBursts p (by rw [setGroup_group]; exact notFree), setGroup_setGroup]
      rfl
  case spare =>
    intro hdue noFront (atSpare : s.wf.group[g.1].next = 8)
    have run := exec_provingStart_inOrder runs hdue noFront
    have pos (h : x.spare = .free ∨ x.spare = .serving) : nextPos g s = 8 :=
      (nextPos_eq_next (by omega) (by rw [atSpare]; exact provable_spare h)).trans atSpare
    refine ⟨fun free => ?_, fun serving => ?_⟩
    · rw [run, pos (.inl free), startProving_direct (by rw [setGroup_group]; exact free), setGroup_setGroup]
      rfl
    · have notFree : x.spare ≠ .free := by simp [serving]
      rw [run, pos (.inr serving), startProving_spareInBursts (by rw [setGroup_group]; exact notFree),
        setGroup_setGroup]
      rfl
  case front =>
    intro r hdue front ok free
    have canProve : ∀ f ∈ p.castSucc :: r, provable g s f.1 = true := fun f hf =>
      provable_home (ok f (front ▸ hf)).1 (ok f (front ▸ hf)).2
    have run := exec_provingStart_front runs hdue front canProve
    rw [Fin.val_castSucc, startProving_shadowed p (by rw [setGroup_group]; exact free), setGroup_setGroup] at run
    refine ⟨_, run, ?_⟩
    simp +contextual [x]
    rfl
  case window =>
    exact fun k til window => ⟨fun ended sample => exec_agreementWindowExpiry_ended runs sample window ended,
      exec_agreementWindowExpiry_open window⟩

end Sys2Proof.Machine
end

section
/-! PROOFS. Faults of an input and their reports (chapter 03): a report touches the events and the ledger's queue, and a fault is
raised or dropped by its cause. -/

namespace Sys2Proof.Machine

open Sys2Proof

/-! ### What a report leaves alone -/

/-- Only the lanes, the events and the NVM block may differ. -/
def LanesOnly (s t : State) : Prop := t = { s with wf := t.wf, ev := t.ev, nv := t.nv }

section Frames

variable {s t u : State} (n : Fin 64)

theorem LanesOnly.of_parts {w : Wf} {e : Ev} {v : Nv} (h : t = { s with wf := w, ev := e, nv := v }) : LanesOnly s t := by
  subst h
  rfl

theorem LanesOnly.trans (h₁ : LanesOnly s t) (h₂ : LanesOnly t u) : LanesOnly s u :=
  Eq.trans h₂ (by rw [h₁])

theorem lanesOnly_setInput (f : Input → Input) (s : State) : LanesOnly s (setInput n f s) := rfl
theorem lanesOnly_setGroup (g : Fin 8) (f : Group → Group) (s : State) : LanesOnly s (setGroup g f s) := rfl
theorem lanesOnly_setLane (l : Fin 72) (f : Lane → Lane) (s : State) : LanesOnly s (setLane l f s) := rfl

theorem raiseHead_frame (code : Nat) (data : W16) (s : State) : ∃ e, raiseHead code data s = { s with ev := e } := by
  obtain ⟨e, h⟩ := raise_frame code data s
  rw [raiseHead, h]
  exact ⟨_, rfl⟩

/-- A lane-fault report changes the events and the NVM block only. -/
theorem laneFault_frame (cause : Nat) (cleared : Bool) (s : State) :
    ∃ e v, laneFault n cause cleared s = { s with ev := e, nv := v } := by
  unfold laneFault
  dsimp only
  split
  · exact ⟨_, _, rfl⟩
  · split
    · next h b _ =>
      generalize 8 * h.1 + (if b = true then 7 else 6) = code
      generalize laneWord _ _ _ _ = w
      obtain ⟨e, raised⟩ := raiseHead_frame code w s
      obtain ⟨e', v, recorded, -⟩ := record_frame 5 code (bytesLE 2 w.toNat) { s with ev := e }
      exact ⟨e', v, by rw [raiseHeadRec, raised, eventRecord, recorded]⟩
    · generalize bytesLE _ _ = bytes
      obtain ⟨e, v, recorded, -⟩ := record_frame 5 0xFFFF bytes s
      exact ⟨e, v, recorded⟩

theorem lanesOnly_laneFault (cause : Nat) (cleared : Bool) (s : State) : LanesOnly s (laneFault n cause cleared s) :=
  let ⟨_, _, h⟩ := laneFault_frame n cause cleared s
  .of_parts h

variable (cause : Nat) (cleared : Bool)

@[simp] theorem laneFault_wf : (laneFault n cause cleared s).wf = s.wf := by
  obtain ⟨e, v, h⟩ := laneFault_frame n cause cleared s
  rw [h]

end Frames

/-! ### What depends on the image alone -/

section Image

variable {s t : State} (n : Fin 64)

theorem inMode_congr (h : t.cfg = s.cfg) : inMode n t = inMode n s := by rw [inMode, h, inMode]

theorem inputOn_congr (h : t.cfg = s.cfg) : inputOn n t = inputOn n s := by rw [inputOn, inMode_congr n h, inputOn]

theorem headOf_congr (h : t.cfg = s.cfg) : headOf n t = headOf n s :=
  calc headOf n t = headOf n { s with cfg := t.cfg } := rfl
    _ = headOf n s := by rw [h]

end Image

/-! ### The faults of an input -/

section Faults

variable (c d : BitVec 4) (instant : Nat) (x : Input) (n : Fin 64) (s : State)

theorem Input.has_raise : (x.raise c instant).has c = true := by
  unfold Input.raise
  split
  · assumption
  · simp [Input.has]

theorem Input.has_drop : (x.drop c).has d = (x.has d && decide (d ≠ c)) := by
  rw [Bool.eq_iff_iff]
  simp only [Input.has, Input.drop, List.any_filter, List.any_eq_true, Bool.and_eq_true, decide_eq_true_eq]
  constructor
  · rintro ⟨f, mem, hne, rfl⟩
    exact ⟨⟨f, mem, rfl⟩, hne⟩
  · rintro ⟨⟨f, mem, rfl⟩, hne⟩
    exact ⟨f, mem, hne, rfl⟩

/-- An input in use gets the fault. -/
theorem raiseFault_has (on : inputOn n s = true) : (raiseFault n c s).wf.input[n.1].has c = true := by
  rw [raiseFault, if_pos on, setInput_input, Input.has_raise]

theorem lanesOnly_raiseFault : LanesOnly s (raiseFault n c s) := by
  unfold raiseFault
  split
  · exact lanesOnly_setInput _ _ _
  · rfl

@[simp] theorem raiseFault_lane : (raiseFault n c s).wf.lane = s.wf.lane := by
  unfold raiseFault
  split <;> rfl

@[simp] theorem raiseFault_group : (raiseFault n c s).wf.group = s.wf.group := by
  unfold raiseFault
  split <;> rfl

theorem Input.raise_burst : (x.raise c instant).burst = x.burst := by
  unfold Input.raise
  split <;> rfl

theorem raiseFault_burst : (raiseFault n c s).wf.input[n.1].burst = s.wf.input[n.1].burst := by
  unfold raiseFault
  split
  · rw [setInput_input, Input.raise_burst]
  · rfl

/-- After a fault has ended the input has the faults of the other causes. -/
theorem endFault_has :
    (endFault n c s).wf.input[n.1].has d = (s.wf.input[n.1].has d && decide (d ≠ c)) := by
  unfold endFault
  split
  · simp only [laneFault_wf]
    rw [setInput_input, Input.has_drop]
  · next absent =>
    by_cases same : d = c
    · simp [same, absent]
    · simp [same]

theorem lanesOnly_endFault : LanesOnly s (endFault n c s) := by
  unfold endFault
  split
  · exact (lanesOnly_setInput _ _ _).trans (lanesOnly_laneFault _ _ _ _)
  · rfl

@[simp] theorem endFault_lane : (endFault n c s).wf.lane = s.wf.lane := by
  unfold endFault
  split <;> simp

@[simp] theorem endFault_group : (endFault n c s).wf.group = s.wf.group := by
  unfold endFault
  split <;> simp

theorem endFault_burst : (endFault n c s).wf.input[n.1].burst = s.wf.input[n.1].burst := by
  unfold endFault
  split
  · simp only [laneFault_wf]
    rw [setInput_input]
    rfl
  · rfl

end Faults

end Sys2Proof.Machine
end

section
/-! PROOFS. Provings in bursts (R135, R136, R138): when a burst starts, what its end counts, and what the fortieth decides. -/

namespace Sys2Proof.Machine

open Sys2Proof

variable {n : Fin 64} {s : State} {m : ProveMeas} {b : Nat}

/-! ### The start of a burst -/

/-- The group proves the input in bursts now, but for its head's state: no burst runs, and 5 ms have passed (R136, R141). -/
structure BurstDue (n : Fin 64) (s : State) : Prop where
  runs : provingRuns s = true
  sample : s.grid.lane = some s.now
  noSpare : s.wf.group[(grpOf n).1].spare = .serving ∨ s.wf.group[(grpOf n).1].spare = .faulted
  under : bitOf s.wf.group[(grpOf n).1].under (posOf n).1 = true
  idle : s.wf.input[n.1].burst = none
  spaced : limitOk 5000 s.wf.input[n.1].lastBurst s.now = true

theorem BurstDue.burstDue (h : BurstDue n s) (allowed : burstAllowed n s = true) : burstDue n s = true := by
  simpa [Machine.burstDue, h.runs, atSample, h.sample, h.under, h.idle, h.spaced, allowed] using h.noSpare

theorem exec_burstStart_begins (due : burstDue n s = true) (first : partnerFirst n s = false) :
    exec (.burstStart n) s = .next (setInput n (fun x => { x with burst := some ⟨s.now, none⟩, lastBurst := some s.now }) s) := by
  change execBurstStart n s = _
  simp [execBurstStart, due, first]

theorem exec_burstStart_tooSoon (soon : limitOk 5000 s.wf.input[n.1].lastBurst s.now = false) :
    exec (.burstStart n) s = .next s := by
  change execBurstStart n s = _
  simp [execBurstStart, burstDue, soon]

theorem partnerOf_of_unbound (h : headOf n s = none) : partnerOf n s = none := by simp [partnerOf, h]

theorem burstAllowed_of_unbound (h : headOf n s = none) : burstAllowed n s = true := by simp [burstAllowed, h]

theorem partnerFirst_of_unbound (h : headOf n s = none) : partnerFirst n s = false := by
  simp [partnerFirst, partnerOf_of_unbound h]

theorem maskClear_iff (h : Fin 32) :
    maskClear h s = true ↔ ∀ i : Fin 32, bitOf s.hd.head[h.1].mask1 i.1 = true → s.sc.sect[i.1].st = .clear := by
  simp only [maskClear, allHeads, List.all_eq_true, List.mem_finRange, Bool.or_eq_true, Bool.not_eq_true', decide_eq_true_eq,
    true_imp_iff, ← Bool.not_eq_true, or_iff_not_imp_left, not_not]

theorem burstAllowed_of_bound {h : Fin 32} {c : Bool} {k : Fin 64} (head : headOf n s = some (h, c))
    (partner : partnerOf n s = some k) (quiet : quiet2s n s = true) (quietPartner : quiet2s k s = true)
    (clear : maskClear h s = true) (sound : s.wf.input[k.1].faults = []) (still : s.wf.input[k.1].burst = none) :
    burstAllowed n s = true := by
  simp [burstAllowed, head, partner, quiet, quietPartner, clear, Input.faulty, sound, blindAt, still]

/-- The partner does not go first from a higher group, nor when no burst proving of it is under way (R135). -/
theorem partnerFirst_eq_false {k : Fin 64} (partner : partnerOf n s = some k)
    (h : (grpOf n).1 ≤ (grpOf k).1 ∨ bitOf s.wf.group[(grpOf k).1].under (posOf k).1 = false) : partnerFirst n s = false := by
  obtain lower | notUnder := h
  · simp only [partnerFirst, partner, decide_eq_false (not_lt.2 lower), Bool.false_and]
  · simp [partnerFirst, partner, burstDue, notUnder]

/-! ### The end of a burst -/

theorem exec_burstEnd_early (burst : s.wf.input[n.1].burst = some ⟨b, none⟩) (early : s.now < b + 200) :
    exec (.burstEnd n m) s = .next s := by
  change execBurstEnd n m s = _
  simp [execBurstEnd, burst, early]

theorem exec_burstEnd_aborted {a : Nat} (burst : s.wf.input[n.1].burst = some ⟨b, some a⟩) :
    exec (.burstEnd n m) s = .next s := by
  change execBurstEnd n m s = _
  simp [execBurstEnd, burst]

theorem servingLane_setInput (k : Fin 64) (f : Input → Input) : servingLane n (setInput k f s) = servingLane n s := rfl

/-- The burst of the input is over. -/
abbrev burstOver (n : Fin 64) (s : State) : State := setInput n (fun x => { x with burst := none }) s

theorem exec_burstEnd_counts (sample : s.grid.lane = some s.now) (burst : s.wf.input[n.1].burst = some ⟨b, none⟩)
    (ended : b + 200 ≤ s.now) (more : s.wf.lane[(servingLane n s).1].bursts < 39) :
    exec (.burstEnd n m) s =
      .next (setLane (servingLane n s) (fun x => { x with bursts := x.bursts + 1 }) (burstOver n s)) := by
  change execBurstEnd n m s = _
  have few : ¬ 40 ≤ s.wf.lane[(servingLane n s).1].bursts + 1 := by omega
  simp only [execBurstEnd, burst, atSample, ended, sample, servingLane_setInput, setInput_wf, few, decide_true, Bool.and_self,
    if_true, if_false]

theorem exec_burstEnd_completes (sample : s.grid.lane = some s.now) (burst : s.wf.input[n.1].burst = some ⟨b, none⟩)
    (ended : b + 200 ≤ s.now) (last : s.wf.lane[(servingLane n s).1].bursts = 39) :
    exec (.burstEnd n m) s = .next (burstsDone n m (burstOver n s)) := by
  change execBurstEnd n m s = _
  simp [execBurstEnd, burst, atSample, ended, sample, servingLane_setInput, last]

/-! ### The result of a proving (Table WF-7) -/

theorem classify_pass (cmp : m.cmp = true) (off : mag m.off ≤ 100) (low : mag m.low ≤ 100) (high : mag m.high ≤ 100) :
    classify m = .pass := by
  have small : max (mag m.off) (max (mag m.low) (mag m.high)) ≤ 100 := max_le off (max_le low high)
  simp only [classify, cmp, Bool.not_true, Bool.false_or, decide_eq_true_eq]
  rw [if_neg (by omega), if_neg (by omega)]

theorem classify_drift (cmp : m.cmp = true) (above : 100 < mag m.off) (off : mag m.off ≤ 300) (low : mag m.low ≤ 300)
    (high : mag m.high ≤ 300) : classify m = .drift := by
  have atMost : max (mag m.off) (max (mag m.low) (mag m.high)) ≤ 300 := max_le off (max_le low high)
  have maxAbove : 100 < max (mag m.off) (max (mag m.low) (mag m.high)) := lt_max_of_lt_left above
  simp only [classify, cmp, Bool.not_true, Bool.false_or, decide_eq_true_eq]
  rw [if_neg (by omega), if_pos maxAbove]

theorem classify_fail (h : m.cmp = false ∨ 300 < mag m.off ∨ 300 < mag m.low ∨ 300 < mag m.high) : classify m = .fail := by
  have bad : (!m.cmp || decide (300 < max (mag m.off) (max (mag m.low) (mag m.high)))) = true := by
    simpa [lt_max_iff] using h
  simp only [classify, bad, if_true]

/-! ### The fortieth burst -/

/-- The lane is proved and the input measured no more: what every result has in common. -/
def burstsCounted (n : Fin 64) (m : ProveMeas) (s : State) : State :=
  setGroup (grpOf n) (fun x => { x with under := putBit x.under (posOf n).1 false }) (laneProved (servingLane n s) m s)

theorem burstsCounted_input : (burstsCounted n m s).wf.input = s.wf.input := rfl

theorem burstsDone_pass (h : classify m = .pass) : burstsDone n m s = clearLaneFault n (burstsCounted n m s) := by
  simp only [burstsDone, h, burstsCounted]

theorem burstsDone_drift (h : classify m = .drift) : burstsDone n m s = laneFault n 6 false (burstsCounted n m s) := by
  simp only [burstsDone, h, burstsCounted]

theorem burstsDone_fail (h : classify m = .fail) :
    burstsDone n m s = laneFault n 5 false (raiseFault n 5 (burstsCounted n m s)) := by
  simp only [burstsDone, h, burstsCounted]

theorem classify_ne_none : classify m ≠ .none := by
  unfold classify
  dsimp only
  repeat' split
  all_goals decide

/-- The report of a result changes the faults of the input, and no lane, group or burst. -/
theorem burstsDone_parts :
    (burstsDone n m s).wf.lane = (burstsCounted n m s).wf.lane ∧ (burstsDone n m s).wf.group = (burstsCounted n m s).wf.group ∧
      (burstsDone n m s).wf.input[n.1].burst = s.wf.input[n.1].burst ∧ LanesOnly s (burstsDone n m s) := by
  have counted : LanesOnly s (burstsCounted n m s) := rfl
  cases h : classify m with
  | none => exact absurd h classify_ne_none
  | pass =>
    rw [burstsDone_pass h, clearLaneFault]
    refine ⟨by simp, by simp, ?_, (counted.trans (lanesOnly_endFault _ _ _)).trans (lanesOnly_endFault _ _ _)⟩
    rw [endFault_burst, endFault_burst]
    rfl
  | drift =>
    rw [burstsDone_drift h]
    refine ⟨by simp, by simp, ?_, counted.trans (lanesOnly_laneFault _ _ _ _)⟩
    simp only [laneFault_wf]
    rfl
  | fail =>
    rw [burstsDone_fail h]
    refine ⟨by simp, by simp, ?_, (counted.trans (lanesOnly_raiseFault _ _ _)).trans (lanesOnly_laneFault _ _ _ _)⟩
    simp only [laneFault_wf]
    rw [raiseFault_burst]
    rfl

theorem burstsDone_lane : (burstsDone n m s).wf.lane[(servingLane n s).1] =
    { provedAt := some s.now, result := classify m, calErr := calErrOf m } := by
  obtain ⟨lanes, -⟩ := burstsDone_parts (n := n) (m := m) (s := s)
  simp only [lanes]
  exact setLane_lane _ _ _

theorem burstsDone_under : bitOf (burstsDone n m s).wf.group[(grpOf n).1].under (posOf n).1 = false := by
  obtain ⟨-, groups, -⟩ := burstsDone_parts (n := n) (m := m) (s := s)
  simp only [groups, burstsCounted]
  rw [setGroup_group]
  exact bitOf_putBit_same _ _ (posOf n).2

/-! ### The statement -/

/-- Settles O18: a burst that is due begins, and the result of the fortieth is that of `classify`. -/
theorem burstsDisconnectALaneAndProveItAfterForty : Obligations.BurstsDisconnectALaneAndProveItAfterForty := by
  unfold Obligations.BurstsDisconnectALaneAndProveItAfterForty
  intro s n m b sample l x begins
  refine ⟨?start, exec_burstStart_tooSoon, ?ended, fun a => exec_burstEnd_aborted⟩
  case start =>
    intro runs noSpare under idle spaced
    have due : BurstDue n s := ⟨runs, sample, noSpare, under, idle, spaced⟩
    refine ⟨fun unbound => ?_, fun h c k head partner quiet quietPartner clear sound still order => ?_⟩
    · exact exec_burstStart_begins (due.burstDue (burstAllowed_of_unbound unbound)) (partnerFirst_of_unbound unbound)
    · have allowed := burstAllowed_of_bound head partner quiet quietPartner ((maskClear_iff h).2 clear) sound still
      exact exec_burstStart_begins (due.burstDue allowed) (partnerFirst_eq_false partner order)
  case ended =>
    intro burst
    refine ⟨exec_burstEnd_early burst, exec_burstEnd_counts sample burst, fun late last => ?_⟩
    obtain ⟨-, -, bursts, frame⟩ := burstsDone_parts (n := n) (m := m) (s := burstOver n s)
    have lane : (burstsDone n m (burstOver n s)).wf.lane[l.1] =
        { provedAt := some s.now, result := classify m, calErr := calErrOf m } := burstsDone_lane
    refine ⟨_, exec_burstEnd_completes sample burst late last, by rw [lane], by rw [lane], burstsDone_under,
      by rw [bursts, setInput_input], ?pass, ?drift, ?fail, (lanesOnly_setInput _ _ _).trans frame⟩
    case pass =>
      intro cmp off low high
      have result := classify_pass cmp off low high
      refine ⟨by rw [lane, result], ?_, ?_⟩ <;> rw [burstsDone_pass result, clearLaneFault, endFault_has, endFault_has] <;>
        simp
    case drift =>
      intro cmp above off low high
      have result := classify_drift cmp above off low high
      refine ⟨by rw [lane, result], ?_⟩
      simp only [burstsDone_drift result, laneFault_wf, burstsCounted_input]
      rw [setInput_input]
    case fail =>
      intro bad
      have result := classify_fail bad
      refine ⟨by rw [lane, result], fun on => ?_⟩
      simp only [burstsDone_fail result, laneFault_wf]
      exact raiseFault_has _ _ _ on

end Sys2Proof.Machine
end

section
/-! PROOFS. Overdue provings (R145), fault checks and clears (R117, R118), group reference faults, and keyed requests of a proving
(R125). -/

namespace Sys2Proof.Machine

open Sys2Proof

variable {s : State} {n : Fin 64} {g : Fin 8}

/-! ### Overdue provings (R145) -/

/-- A sample at which the group has no spare to prove the input's lane with while it is in use. -/
structure WithoutSpare (n : Fin 64) (s : State) : Prop where
  runs : provingRuns s = true
  sample : s.grid.lane = some s.now
  noSpare : s.wf.group[(grpOf n).1].spare = .serving ∨ s.wf.group[(grpOf n).1].spare = .faulted

/-- Time since the serving lane of an input was last proved. -/
abbrev unprovedFor (n : Fin 64) (s : State) : Nat := s.now - s.wf.lane[(servingLane n s).1].provedAt.getD 0

theorem WithoutSpare.due (h : WithoutSpare n s) :
    ((decide (s.wf.group[(grpOf n).1].spare = .serving) || decide (s.wf.group[(grpOf n).1].spare = .faulted)) &&
      provingRuns s && atSample s) = true := by
  simpa [h.runs, atSample, h.sample] using h.noSpare

theorem exec_provingOverdue_day (h : WithoutSpare n s) (long : 86400000000 ≤ unprovedFor n s)
    (first : s.wf.lane[(servingLane n s).1].over24h = false) :
    exec (.provingOverdue n) s = .next (laneFault n 8 false (raiseFault n 8
      (setLane (servingLane n s) (fun y => { y with over600 := true, over24h := true }) s))) := by
  change execProvingOverdue n s = _
  simp [execProvingOverdue, h.due, long, first]

theorem exec_provingOverdue_tenMinutes (h : WithoutSpare n s) (long : 600000000 ≤ unprovedFor n s)
    (notDay : unprovedFor n s < 86400000000) (first : s.wf.lane[(servingLane n s).1].over600 = false) :
    exec (.provingOverdue n) s =
      .next (laneFault n 8 false (setLane (servingLane n s) (fun y => { y with over600 := true }) s)) := by
  change execProvingOverdue n s = _
  simp [execProvingOverdue, h.due, long, not_le.2 notDay, first]

theorem exec_provingOverdue_inTime (short : unprovedFor n s < 600000000) : exec (.provingOverdue n) s = .next s := by
  have notDay : ¬ 86400000000 ≤ unprovedFor n s := by omega
  change execProvingOverdue n s = _
  simp [execProvingOverdue, not_le.2 short, notDay]

/-! ### The end of a fault check (R118) -/

theorem recordStitch_frame (resource cause item spare code : Nat) (s : State) :
    ∃ e v t, recordStitch resource cause item spare code s = { s with ev := e, nv := v, st := t } := by
  unfold recordStitch
  generalize bytesLE 2 item = itemBytes
  generalize bytesLE 2 spare = spareBytes
  obtain ⟨e, v, recorded, -⟩ := record_frame 7 code
    ([BitVec.ofNat 8 (if resource = 5 then 1 else resource), BitVec.ofNat 8 cause] ++ itemBytes ++ spareBytes)
    (mapAppend resource cause item spare s)
  exact ⟨e, v, _, recorded⟩

theorem laneTaken_frame (l : Fin 72) (cause : Nat) (cleared : Bool) (s : State) :
    ∃ e, laneTaken n l cause cleared s = { s with ev := e } := by
  unfold laneTaken
  split
  · exact raiseHead_frame _ _ _
  · exact ⟨_, rfl⟩

/-- The group after the stitch of a position: the spare serves it, and its home lane is stitched out. -/
def stitched (p : Fin 8) (x : Group) : Group :=
  { x with spare := .serving, pos := p, spareServes := true, phase := .idle, out := putBit x.out p.1 true }

/-- A stitch puts the spare in place; its reports touch the events, the NVM block and the stitching block only. -/
theorem stitchLane_frame (p : Fin 8) (cause why : Nat) (cleared : Bool) (s : State) :
    ∃ e v t, stitchLane g p cause why cleared s =
      { setGroup g (stitched p) s with ev := e, nv := v, st := t } := by
  obtain ⟨e, taken⟩ := laneTaken_frame (n := inputAt g p) (homeLane g p) why cleared (setGroup g (stitched p) s)
  obtain ⟨e', raised⟩ := raise_frame 0x1F3 (pack [(0, 1), (4, g.1), (8, (homeLane g p).1)])
    { setGroup g (stitched p) s with ev := e }
  obtain ⟨e'', v, t, recorded⟩ := recordStitch_frame 1 cause (homeLane g p).1 (spareLane g).1 0x1F3
    { setGroup g (stitched p) s with ev := e' }
  exact ⟨e'', v, t, by rw [← recorded, ← raised, ← taken]; rfl⟩

theorem Input.has_checkGone (c : BitVec 4) (x : Input) : (checkGone c x).has c = false := by
  change (x.drop c).has c = false
  simp [Input.has_drop]

/-- The input fault of the band ends and no check of the group waits. -/
abbrev checkOver (g : Fin 8) (c : BitVec 4) (s : State) : State :=
  setGroup g (fun x => { x with waiting := [] }) (setInput (inputAt g s.wf.group[g.1].pos) (checkGone c) s)

theorem exec_faultCheckExpiry_unseen {c : BitVec 4} {k til : Nat} (runs : provingRuns s = true)
    (sample : s.grid.lane = some s.now) (check : s.wf.group[g.1].phase = .check c k til) (ended : til ≤ s.now) :
    exec (.faultCheckExpiry g) s =
      .next (stitchLane g s.wf.group[g.1].pos 0x0A c.toNat true (checkOver g c s)) := by
  change execFaultCheckExpiry g s = _
  simp [execFaultCheckExpiry, check, ended, runs, atSample, sample]

theorem exec_faultCheckExpiry_open {c : BitVec 4} {k til : Nat} (check : s.wf.group[g.1].phase = .check c k til)
    (more : s.now < til) : exec (.faultCheckExpiry g) s = .next s := by
  change execFaultCheckExpiry g s = _
  simp [execFaultCheckExpiry, check, more]

/-! ### The end of band faults (R117) -/

/-- The faults of an input that end now. -/
def endingFaults (n : Fin 64) (s : State) : List (BitVec 4 × Nat) :=
  s.wf.input[n.1].faults.filter (clearsNow s.wf.input[n.1] s.now)

/-- Faults end one after the other. -/
def endFaults (n : Fin 64) (l : List (BitVec 4 × Nat)) (s : State) : State := l.foldl (fun s f => endFault n f.1 s) s

theorem lanesOnly_endFaults (l : List (BitVec 4 × Nat)) : LanesOnly s (endFaults n l s) :=
  List.foldlRecOn (motive := LanesOnly s) l _ rfl fun _ h _ _ => h.trans (lanesOnly_endFault _ _ _)

/-- The faults of every cause that stands in the list end, and no other. -/
theorem endFaults_has (l : List (BitVec 4 × Nat)) (d : BitVec 4) :
    (endFaults n l s).wf.input[n.1].has d = (s.wf.input[n.1].has d && l.all fun f => decide (d ≠ f.1)) := by
  induction l generalizing s with
  | nil => simp [endFaults]
  | cons f l ih =>
    rw [endFaults, List.foldl_cons, ← endFaults, ih, endFault_has, List.all_cons, Bool.and_assoc]

theorem groupFaultEnds_frame (g : Fin 8) (s : State) :
    ∃ v, groupFaultEnds g s = { s with wf := { s.wf with group := v } } := by
  unfold groupFaultEnds
  split <;> exact ⟨_, rfl⟩

theorem exec_inputFaultClear_ends (sample : s.grid.lane = some s.now) (ending : endingFaults n s ≠ []) :
    exec (.inputFaultClear n) s =
      .next (groupFaultEnds (grpOf n) (dropWaits n (endFaults n (endingFaults n s) s))) := by
  have act : (atSample s && !(endingFaults n s).isEmpty) = true := by simp [atSample, sample, ending]
  exact congrArg Host.Outcome.next (if_pos act)

theorem exec_inputFaultClear_none (noEnding : endingFaults n s = []) : exec (.inputFaultClear n) s = .next s := by
  have idle : ¬ (atSample s && !(endingFaults n s).isEmpty) = true := by simp [noEnding]
  exact congrArg Host.Outcome.next (if_neg idle)

theorem endingFaults_of_unquiet (h : s.wf.input[n.1].okSince = none) : endingFaults n s = [] := by
  simp [endingFaults, clearsNow, h]

theorem endingFaults_of_tooSoon {o : Nat} (h : s.wf.input[n.1].okSince = some o) (soon : s.now < o + 500000) :
    endingFaults n s = [] := by
  simp only [endingFaults, List.filter_eq_nil_iff, clearsNow, h, Bool.and_eq_true, decide_eq_true_eq]
  intro f _ hf
  omega

/-- Only faults of the bands end in this way. -/
theorem bandFault_of_mem_endingFaults {f : BitVec 4 × Nat} (h : f ∈ endingFaults n s) : bandFault f.1 = true := by
  obtain ⟨-, clears⟩ := List.mem_filter.1 h
  unfold clearsNow at clears
  split at clears
  · exact (Bool.and_eq_true_iff.1 clears).1
  · exact absurd clears Bool.false_ne_true

theorem mem_endingFaults {f : BitVec 4 × Nat} {o : Nat} (quiet : s.wf.input[n.1].okSince = some o)
    (mem : f ∈ s.wf.input[n.1].faults) (band : bandFault f.1 = true) (since : o + 500000 ≤ s.now)
    (raised : f.2 + 500000 ≤ s.now) : f ∈ endingFaults n s := by
  have late : max o f.2 + 500000 ≤ s.now := by omega
  exact List.mem_filter.2 ⟨mem, by simp [clearsNow, quiet, band, late]⟩

/-! ### The group reference fault (R118) -/

/-- A position's part of a group fault touches its own input and the reports only. -/
theorem groupFaultAt_frame (p : Fin 8) (s : State) :
    LanesOnly s (groupFaultAt g s p) ∧ (groupFaultAt g s p).wf.group = s.wf.group ∧
      ∀ k, k ≠ inputAt g p → (groupFaultAt g s p).wf.input[k.1] = s.wf.input[k.1] := by
  unfold groupFaultAt
  dsimp only
  split
  · refine ⟨(lanesOnly_setInput _ _ _).trans (lanesOnly_laneFault _ _ _ _), by simp, fun k other => ?_⟩
    simp only [laneFault_wf, setInput_wf]
    exact get_upd_of_ne _ _ other
  · exact ⟨rfl, rfl, fun _ _ => rfl⟩

theorem groupFaultAt_cfg (p : Fin 8) : (groupFaultAt g s p).cfg = s.cfg := by
  obtain ⟨frame, -⟩ := groupFaultAt_frame (g := g) p s
  rw [frame]

theorem groupFaultAt_has (p : Fin 8) (bound : headOf (inputAt g p) s ≠ none) (on : inputOn (inputAt g p) s = true) :
    (groupFaultAt g s p).wf.input[(inputAt g p).1].has 9 = true := by
  have concerns : ((headOf (inputAt g p) s).isSome && inputOn (inputAt g p) s) = true := by
    rw [Option.isSome_iff_ne_none.2 bound, on, Bool.and_self]
  simp only [groupFaultAt, concerns, Bool.true_and]
  split
  · simp only [laneFault_wf]
    rw [setInput_input, Input.has_raise]
  · next stands => simpa only [Bool.not_eq_true', Bool.not_eq_false] using stands

theorem inputAt_injective {p q : Fin 8} (h : inputAt g p = inputAt g q) : p = q := by
  have := congrArg Fin.val h
  simp only [inputAt] at this
  omega

theorem grpOf_inputAt (p : Fin 8) : grpOf (inputAt g p) = g := by
  refine Fin.ext ?_
  simp only [grpOf, inputAt]
  omega

/-- The state with the group's reference fault and that of every input concerned. -/
abbrev groupFaulted (g : Fin 8) (s : State) : State :=
  (List.finRange 8).foldl (groupFaultAt g) (setGroup g (fun x => { x with groupFault := true }) s)

theorem exec_groupReferenceFault (runs : imageRuns s = true) (clock : clockSafe s = false) :
    exec (.groupReferenceFault g) s = .next (groupFaulted g s) := by
  have act : (imageRuns s && !clockSafe s) = true := by simp [runs, clock]
  exact congrArg Host.Outcome.next (if_pos act)

theorem lanesOnly_groupFaulted : LanesOnly s (groupFaulted g s) :=
  List.foldlRecOn (motive := LanesOnly s) _ _ (lanesOnly_setGroup _ _ _) fun _ h _ _ => h.trans (groupFaultAt_frame _ _).1

theorem groupFaulted_groupFault : (groupFaulted g s).wf.group[g.1].groupFault = true := by
  have groups : (groupFaulted g s).wf.group = (setGroup g (fun x => { x with groupFault := true }) s).wf.group :=
    foldl_unchanged (fun y => y.wf.group) (fun y p => (groupFaultAt_frame p y).2.1) _ _
  simp only [groups]
  rw [setGroup_group]

theorem groupFaulted_elsewhere (other : grpOf n ≠ g) : (groupFaulted g s).wf.input[n.1] = s.wf.input[n.1] :=
  foldl_unchanged (fun y : State => y.wf.input[n.1])
    (fun y p => (groupFaultAt_frame p y).2.2 n fun e => other (e ▸ grpOf_inputAt p)) _ _

theorem groupFaulted_has (p : Fin 8) (bound : headOf (inputAt g p) s ≠ none) (on : inputOn (inputAt g p) s = true) :
    (groupFaulted g s).wf.input[(inputAt g p).1].has 9 = true := by
  refine foldl_establishes (P := fun y : State => y.cfg = s.cfg) (Q := fun y : State => y.wf.input[(inputAt g p).1].has 9 = true)
    (List.mem_finRange p) (List.nodup_finRange 8) (fun y q _ h => (groupFaultAt_cfg q).trans h) (fun y h => ?_)
    (fun y q ne h => ?_) rfl
  · exact groupFaultAt_has p (by rwa [headOf_congr _ h]) (by rwa [inputOn_congr _ h])
  · rwa [(groupFaultAt_frame q y).2.2 _ fun e => ne (inputAt_injective e).symm]

/-! ### Keyed requests (R125) -/

theorem exec_proveRequest {p : Port} {v : W16} (mode : s.sys.mode ≠ .reset) (clock : clockSafe s = false) :
    exec (.proveRequest p v) s = .next (proveRequest v (countWrite p 0x09E s)) :=
  congrArg Host.Outcome.next (if_pos (portLive_of_mode_of_clock mode clock))

theorem keyOf_eq_div (v : W16) : keyOf v = v.toNat / 256 := by
  have small := v.isLt
  simp only [keyOf, fld]
  omega

theorem fld_low6 (v : W16) : fld v 5 0 = v.toNat % 64 := by simp [fld]

/-- The lane position that a request for an input names: that of the lane that serves it. -/
abbrev requested (n : Fin 64) (s : State) : Fin 9 := if spareServesOf n s then 8 else (posOf n).castSucc

theorem proveRequest_keyed {v : W16} (key : v.toNat / 256 = 0xB7) :
    proveRequest v s = setGroup (grpOf (inputIx (v.toNat % 64))) (fun x => { x with
      front := requested (inputIx (v.toNat % 64)) s :: x.front.filter (· ≠ requested (inputIx (v.toNat % 64)) s) }) s := by
  rw [← fld_low6]
  exact if_pos ((keyOf_eq_div v).trans key)

theorem proveRequest_unkeyed {v : W16} (key : v.toNat / 256 ≠ 0xB7) : proveRequest v s = s :=
  if_neg (keyOf_eq_div v ▸ key)

/-- The write of a word that keeps no login alive changes the host bus only. -/
theorem countWrite_proveReq (p : Port) : countWrite p 0x09E s = { s with hb := (countWrite p 0x09E s).hb } :=
  countWrite_frame_of_not_loginWord p 0x09E s (by decide)

/-! ### The statement -/

/-- Settles O19: each command's case is the equation above for its condition. -/
theorem inputFaultsAndKeyedProveRequests : Obligations.InputFaultsAndKeyedProveRequests := by
  unfold Obligations.InputFaultsAndKeyedProveRequests
  refine ⟨fun s n g runs sample => ?faults, fun s g runs clock => ?group, fun s p v mode clock => ?request⟩
  case faults =>
    intro l x since
    refine ⟨fun noSpare => ?overdue, fun c k til check => ?check, fun o f quiet mem band late raised => ?clear,
      fun o quiet soon => exec_inputFaultClear_none (endingFaults_of_tooSoon quiet soon),
      fun unquiet => exec_inputFaultClear_none (endingFaults_of_unquiet unquiet)⟩
    case overdue =>
      have h : WithoutSpare n s := ⟨runs, sample, noSpare⟩
      refine ⟨fun long first => ⟨_, exec_provingOverdue_day h long first, fun on => ?_, ?_, ?_⟩,
        fun long notDay first => ⟨_, exec_provingOverdue_tenMinutes h long notDay first, ?_, ?_, ?_⟩,
        exec_provingOverdue_inTime⟩
      · simp only [laneFault_wf]
        exact raiseFault_has _ _ _ on
      · simp only [laneFault_wf, raiseFault_lane]
        rw [setLane_lane]
      · exact ((lanesOnly_setLane _ _ _).trans (lanesOnly_raiseFault _ _ _)).trans (lanesOnly_laneFault _ _ _ _)
      · rw [laneFault_wf]
        rfl
      · simp only [laneFault_wf]
        rw [setLane_lane]
      · obtain ⟨e, v, reported⟩ := laneFault_frame n 8 false (setLane l (fun y => { y with over600 := true }) s)
        rw [reported]
        rfl
    case check =>
      refine ⟨fun ended => ?_, exec_faultCheckExpiry_open check⟩
      obtain ⟨e, v, t, stitch⟩ := stitchLane_frame (g := g) s.wf.group[g.1].pos 0x0A c.toNat true (checkOver g c s)
      refine ⟨_, (exec_faultCheckExpiry_unseen runs sample check ended).trans (by rw [stitch]), ?_⟩
      have group : (setGroup g (stitched s.wf.group[g.1].pos) (checkOver g c s)).wf.group[g.1] =
          stitched s.wf.group[g.1].pos { s.wf.group[g.1] with waiting := [] } := by
        rw [setGroup_group, setGroup_group]
        rfl
      simp only [group]
      refine ⟨rfl, rfl, rfl, bitOf_putBit_same _ _ s.wf.group[g.1].pos.2, rfl, ?_, rfl⟩
      change Input.has c (setInput (inputAt g s.wf.group[g.1].pos) (checkGone c) s).wf.input[(inputAt g _).1] = false
      rw [setInput_input, Input.has_checkGone]
    case clear =>
      have ends := mem_endingFaults quiet mem band late raised
      obtain ⟨v, frame⟩ := groupFaultEnds_frame (grpOf n) (dropWaits n (endFaults n (endingFaults n s) s))
      refine ⟨_, (exec_inputFaultClear_ends sample (List.ne_nil_of_mem ends)).trans (by rw [frame]), ?_, fun d other => ?_, ?_⟩
      · refine (endFaults_has _ _).trans (Bool.and_eq_false_imp.2 fun _ => ?_)
        exact List.all_eq_false.2 ⟨f, ends, by simp⟩
      · have kept : ((endingFaults n s).all fun f => decide (d ≠ f.1)) = true := by
          refine List.all_eq_true.2 fun f hf => decide_eq_true fun e => ?_
          have band := bandFault_of_mem_endingFaults hf
          rw [← e, other] at band
          exact Bool.false_ne_true band
        exact (endFaults_has _ _).trans (by rw [kept, Bool.and_true])
      · exact (lanesOnly_endFaults _).trans rfl
  case group =>
    exact ⟨_, exec_groupReferenceFault runs clock, groupFaulted_groupFault, groupFaulted_has,
      fun n => groupFaulted_elsewhere, lanesOnly_groupFaulted⟩
  case request =>
    intro n k
    refine ⟨fun key => ⟨_, exec_proveRequest mode clock, ?_⟩, fun key => ⟨_, exec_proveRequest mode clock, ?_⟩⟩
    · rw [proveRequest_keyed key, countWrite_proveReq]
      rfl
    · rw [proveRequest_unkeyed key]
      exact countWrite_proveReq p

end Sys2Proof.Machine
end

section
/-! PROOFS. What a lane sample reads and what it leaves to the heads (R104, R107, R108, R112): each input is read once, and nothing
that follows in the sample instant touches what was read. -/

namespace Sys2Proof.Machine

open Sys2Proof

/-! ### What the later parts of a sample instant leave alone -/

/-- The clock, the grids, the image, and every input's detection bit and value. -/
structure Readings where
  now : Nat
  grid : Grid
  cfg : Image
  inputs : Vector (Bool × BitVec 12) 64

/-- What a state shows of them. -/
def readings (s : State) : Readings :=
  { now := s.now, grid := s.grid, cfg := s.cfg, inputs := mapv (fun _ x => (x.det, x.val)) s.wf.input }

section Keep

variable (s : State) (n : Fin 64) (g p : Fin 8) (h i : Fin 32)

theorem readings_setInput (f : Input → Input) (keeps : ∀ x, ((f x).det, (f x).val) = (x.det, x.val)) :
    readings (setInput n f s) = readings s := by
  have same : mapv (fun _ x => (x.det, x.val)) (upd s.wf.input n f) = mapv (fun _ x => (x.det, x.val)) s.wf.input := by
    refine Vector.ext fun j hj => ?_
    simp only [get_mapv, get_upd]
    split
    · exact keeps _
    · rfl
  simp only [readings, setInput, same]

@[simp] theorem readings_setGroup (f : Group → Group) : readings (setGroup g f s) = readings s := rfl
@[simp] theorem readings_setHead (f : Head → Head) : readings (setHead h f s) = readings s := rfl

@[simp] theorem readings_raise (code : Nat) (data : W16) : readings (raise code data s) = readings s := by
  obtain ⟨e, raised⟩ := raise_frame code data s
  rw [raised]
  rfl

@[simp] theorem readings_record (type code : Nat) (data : List Byte) : readings (record type code data s) = readings s := by
  obtain ⟨e, v, recorded, -⟩ := record_frame type code data s
  rw [recorded]
  rfl

@[simp] theorem readings_raiseRec (code : Nat) (data : W16) : readings (raiseRec code data s) = readings s := by
  rw [raiseRec, eventRecord, readings_record, readings_raise]

@[simp] theorem readings_raiseHead (code : Nat) (data : W16) : readings (raiseHead code data s) = readings s := by
  obtain ⟨e, raised⟩ := raiseHead_frame code data s
  rw [raised]
  rfl

@[simp] theorem readings_raiseHeadRec (code : Nat) (data : W16) : readings (raiseHeadRec code data s) = readings s := by
  rw [raiseHeadRec, eventRecord, readings_record, readings_raiseHead]

@[simp] theorem readings_laneFault (cause : Nat) (cleared : Bool) : readings (laneFault n cause cleared s) = readings s := by
  obtain ⟨e, v, reported⟩ := laneFault_frame n cause cleared s
  rw [reported]
  rfl

/-! #### Provings and stitches -/

@[simp] theorem readings_permanentStitch (cause : Nat) : readings (permanentStitch g p cause s) = readings s := by
  obtain ⟨e, v, t, stitch⟩ := stitchLane_frame (g := g) p cause (laneCause cause) false s
  rw [permanentStitch, stitch]
  rfl

@[simp] theorem readings_recordStitch (resource cause item spare code : Nat) :
    readings (recordStitch resource cause item spare code s) = readings s := by
  obtain ⟨e, v, t, recorded⟩ := recordStitch_frame resource cause item spare code s
  rw [recorded]
  rfl

@[simp] theorem readings_faultSpare : readings (faultSpare g s) = readings s := by simp [faultSpare]

@[simp] theorem readings_startWaitingCheck : readings (startWaitingCheck g s) = readings s := by
  unfold startWaitingCheck
  dsimp only
  split
  · split <;> rfl
  · rfl

@[simp] theorem readings_freeSpare : readings (freeSpare g s) = readings s := by simp [freeSpare]

@[simp] theorem readings_countDisagree : readings (countDisagree g p s) = readings s := by
  have counted := readings_setInput { s with wf := { s.wf with disagree := satInc s.wf.disagree } } (inputAt g p)
    (fun x => { x with disAt := some s.now }) fun _ => rfl
  unfold countDisagree
  dsimp only
  split
  · rw [readings_permanentStitch]
    exact counted
  · rw [readings_laneFault, readings_freeSpare]
    exact counted

@[simp] theorem readings_provedNext (res : ProveRes) : readings (provedNext g res s) = readings s := by
  unfold provedNext
  dsimp only
  split <;> simp [readings_setInput]

@[simp] theorem readings_shadowStep (r : LaneReading) : readings (shadowStep n r s) = readings s :=
  readings_setInput _ _ _ fun _ => rfl

@[simp] theorem readings_laneProved (l : Fin 72) (m : ProveMeas) : readings (laneProved l m s) = readings s := rfl

@[simp] theorem readings_groupStep (x : LaneInputs) : readings (groupStep x s g) = readings s := by
  unfold groupStep
  dsimp only
  split <;> simp [apply_ite readings]

/-! #### Samples and bursts -/

@[simp] theorem readings_takeSample : readings (takeSample s n) = readings s :=
  readings_setInput _ _ _ fun _ => rfl

@[simp] theorem readings_burstAbort : readings (burstAbort n s) = readings s := by
  unfold burstAbort
  split
  · next b a _ _ =>
    split
    · exact readings_setInput { s with wf := { s.wf with aborts := satInc s.wf.aborts } } n
        (fun x => { x with burst := some ⟨b, some a⟩ }) fun _ => rfl
    · rfl
  · rfl

@[simp] theorem readings_abortStep : readings (abortStep s n) = readings s := by
  unfold abortStep
  split
  · split <;> simp
  · rfl

/-! #### Sections -/

@[simp] theorem readings_activity (t : Nat) : readings (activity i t s) = readings s := rfl

@[simp] theorem readings_abortBursts : readings (abortBursts i s) = readings s :=
  foldl_unchanged readings (fun y h => by split <;> simp) _ _

@[simp] theorem readings_secSet (new : SecState) (cause : Nat) (hv : Option (Fin 32)) :
    readings (secSet i new cause hv s) = readings s := by
  have stateOnly : readings { s with sc := { s.sc with sect := upd s.sc.sect i fun x =>
      { x with st := new, cause := if new = .disturbed then BitVec.ofNat 4 cause else x.cause } } } = readings s := rfl
  simp [secSet, apply_ite readings, stateOnly]

@[simp] theorem readings_setRstep (step reason : Nat) : readings (setRstep i step reason s) = readings s := by
  unfold setRstep
  split <;> rfl

@[simp] theorem readings_disturb (cause : Nat) (hv : Option (Fin 32)) : readings (disturb i cause hv s) = readings s := by
  unfold disturb
  dsimp only
  split <;> simp

@[simp] theorem readings_disturbMask (m : W32) (cause : Nat) (hv : Option (Fin 32)) :
    readings (disturbMask m cause hv s) = readings s :=
  foldl_unchanged readings (fun y i => by split <;> simp) _ _

@[simp] theorem readings_secEval (hv : Option (Fin 32)) : readings (secEval hv s i) = readings s := by
  unfold secEval
  dsimp only
  split <;> simp [apply_ite readings]

@[simp] theorem readings_secEvalAll (hv : Option (Fin 32)) : readings (secEvalAll hv s) = readings s :=
  foldl_unchanged readings (fun y i => readings_secEval y i hv) _ _

@[simp] theorem readings_headActivity (t : Nat) : readings (headActivity h t s) = readings s :=
  foldl_unchanged readings (fun y i => by split <;> simp) _ _

/-! #### Heads -/

@[simp] theorem readings_fifoPut (e : WEntry) : readings (fifoPut e s) = readings s := rfl

@[simp] theorem readings_setItem (k : Fin 10) (unit : Nat) : readings (setItem k unit s) = readings s := by
  unfold setItem
  dsimp only
  split
  · rfl
  · rw [readings_record, readings_raise]
    rfl

@[simp] theorem readings_clearUnit (k : Fin 10) (unit : Nat) : readings (clearUnit k unit s) = readings s := by
  unfold clearUnit
  dsimp only
  split
  · rw [readings_record, readings_raise]
    rfl
  · rfl

@[simp] theorem readings_seqError (cause : Nat) (ph : Phase) (e : Bool) : readings (seqError h cause ph e s) = readings s := by
  simp [seqError, apply_ite readings]

@[simp] theorem readings_headCommit (x : Head) : readings (headCommit h x s) = readings s := by
  simp [headCommit, apply_ite readings]

@[simp] theorem readings_headFault : readings (headFault h s) = readings s := by
  simp [headFault, apply_ite readings]

@[simp] theorem readings_headSingle (sys : Bool) (dur : Nat) : readings (headSingle h sys dur s) = readings s := by
  simp [headSingle, apply_ite readings]

@[simp] theorem readings_headRock (x : Head) : readings (headRock h x s) = readings s := by
  simp [headRock, apply_ite readings]

@[simp] theorem readings_headAct (x : Head) (a : HAct) : readings (headAct h x s a) = readings s := by
  cases a <;> simp [headAct]

@[simp] theorem readings_headStep : readings (headStep s h) = readings s := by
  simp [headStep, apply_ite readings, foldl_unchanged readings (readings_headAct · h _ ·)]

@[simp] theorem readings_headsItem : readings (headsItem s) = readings s :=
  foldl_unchanged readings (fun y h => by split <;> simp) _ _

end Keep

end Sys2Proof.Machine
end

section
/-! PROOFS. One reading of an input (R104, R107, R108, R112) and the order in which the 64 are taken. -/

namespace Sys2Proof.Machine

open Sys2Proof

variable {s t : State} {n : Fin 64} {g : Fin 8}

/-! ### The detection bit (R112) -/

/-- A value that a wheel lowers. -/
theorem detBit_lowered (th hy v : Nat) (d : Bool) :
    (v ≤ th → detBit false th hy d v = true) ∧ (th + hy < v → detBit false th hy d v = false) ∧
      (th < v → v ≤ th + hy → detBit false th hy d v = d) := by
  cases d <;> simp [detBit] <;> omega

/-- A value that a wheel raises. -/
theorem detBit_raised (th hy v : Nat) (d : Bool) :
    (th ≤ v → detBit true th hy d v = true) ∧ (v + hy < th → detBit true th hy d v = false) ∧
      (v < th → th ≤ v + hy → detBit true th hy d v = d) := by
  cases d <;> simp [detBit] <;> omega

theorem inputOn_of_mode (h : inMode n s = 1 ∨ inMode n s = 2) : inputOn n s = true := by simpa [inputOn] using h

theorem inputOn_of_off (h : inMode n s = 0 ∨ inMode n s = 3) : inputOn n s = false := by
  obtain h | h := h <;> simp [inputOn, h]

theorem detOf_of_off (off : inputOn n s = false) (d : Bool) (v : Nat) : detOf n s d v = false := by
  unfold inputOn at off
  rw [detOf, off, Bool.false_and]

theorem detOf_of_on (on : inputOn n s = true) (d : Bool) (v : Nat) :
    detOf n s d v = detBit (decide (inMode n s = 1) && bitOf s.cfg.input[n.1].icfg 2) (fld s.cfg.input[n.1].ith 11 0)
      (fld s.cfg.input[n.1].ihy 8 0) d v := by
  unfold inputOn at on
  rw [detOf, on, Bool.true_and]

theorem detOf_congr (h : t.cfg = s.cfg) (d : Bool) (v : Nat) : detOf n t d v = detOf n s d v :=
  calc detOf n t d v = detOf n { s with cfg := t.cfg } d v := rfl
    _ = detOf n s d v := by rw [h]

theorem laneVal_congr (h : t.cfg = s.cfg) (r : LaneReading) : laneVal n t r = laneVal n s r := by
  rw [laneVal, inMode_congr n h, laneVal]

/-! ### One reading -/

/-- The value an input shows for a reading: none in mode OFF. -/
def shownVal (n : Fin 64) (s : State) (r : LaneReading) : BitVec 12 :=
  if inputOn n s then BitVec.ofNat 12 (laneVal n s r) else 0

theorem shownVal_congr (h : t.cfg = s.cfg) (r : LaneReading) : shownVal n t r = shownVal n s r := by
  rw [shownVal, inputOn_congr n h, laneVal_congr h, shownVal]

/-- An input that is not in a burst takes the detection bit and the value of the reading. -/
theorem readInput_of_noBurst (r : LaneReading) {x : Input} (noBurst : x.burst = none) :
    (readInput n r s x).det = detOf n s x.det (laneVal n s r) ∧ (readInput n r s x).val = shownVal n s r := by
  have sees : blindAt x s.now = false := by simp [blindAt, noBurst]
  cases on : inputOn n s with
  | false => simp [readInput, shownVal, on, detOf_of_off on]
  | true => simp [readInput, shownVal, on, sees]

theorem Input.raise_det (c : BitVec 4) (instant : Nat) (x : Input) : (x.raise c instant).det = x.det := by
  unfold Input.raise
  split <;> rfl

theorem Input.raise_val (c : BitVec 4) (instant : Nat) (x : Input) : (x.raise c instant).val = x.val := by
  unfold Input.raise
  split <;> rfl

/-- A fault check that starts takes a spare that does not serve. -/
theorem startWaitingCheck_parts (g : Fin 8) (s : State) :
    LanesOnly s (startWaitingCheck g s) ∧ (startWaitingCheck g s).wf.input = s.wf.input ∧
      ∀ k : Fin 8, s.wf.group[k.1].spareServes = false → (startWaitingCheck g s).wf.group[k.1].spareServes = false := by
  unfold startWaitingCheck
  dsimp only
  split
  · split
    · refine ⟨rfl, rfl, fun k idle => ?_⟩
      simp only [setGroup_wf, get_upd]
      split
      · rfl
      · exact idle
    · exact ⟨rfl, rfl, fun _ idle => idle⟩
  · exact ⟨rfl, rfl, fun _ idle => idle⟩

/-- A new fault changes the faults of its input, asks for a check, and lets no spare serve. -/
theorem inputFault_parts (n : Fin 64) (cause : Nat) (s : State) :
    LanesOnly s (inputFault n cause s) ∧
      (inputFault n cause s).wf.input = upd s.wf.input n (Input.raise (BitVec.ofNat 4 cause) s.now) ∧
      ∀ k : Fin 8, s.wf.group[k.1].spareServes = false → (inputFault n cause s).wf.group[k.1].spareServes = false := by
  unfold inputFault
  dsimp only
  generalize reported : laneFault n cause false (setInput n (Input.raise (BitVec.ofNat 4 cause) s.now) s) = y
  have frame : LanesOnly s y := reported ▸ (lanesOnly_setInput _ _ _).trans (lanesOnly_laneFault _ _ _ _)
  have lanes : y.wf = (setInput n (Input.raise (BitVec.ofNat 4 cause) s.now) s).wf := reported ▸ laneFault_wf n cause false
  split
  · obtain ⟨checked, inputs, idle⟩ := startWaitingCheck_parts (grpOf n)
      (setGroup (grpOf n) (fun x => { x with waiting := x.waiting ++ [(posOf n, BitVec.ofNat 4 cause)] }) y)
    refine ⟨(frame.trans (lanesOnly_setGroup _ _ _)).trans checked, inputs.trans (congrArg Wf.input lanes),
      fun k home => idle k ?_⟩
    simp only [setGroup_wf, get_upd, lanes]
    split <;> exact home
  · obtain ⟨checked, inputs, idle⟩ := startWaitingCheck_parts (grpOf n) y
    exact ⟨frame.trans checked, inputs.trans (congrArg Wf.input lanes), fun k home => idle k (by simp only [lanes]; exact home)⟩

/-- The input's new entry, before a fault that the reading completes. -/
abbrev takeReading (i : LaneInputs) (n : Fin 64) (s : State) : State :=
  setInput n (readInput n i.lane[(servingLane n s).1] s) s

/-- One reading changes its own input only, lets no spare serve, and sets what `readInput` says. -/
theorem inputStep_parts (i : LaneInputs) (s : State) (n : Fin 64) :
    LanesOnly s (inputStep i s n) ∧ (∀ k, k ≠ n → (inputStep i s n).wf.input[k.1] = s.wf.input[k.1]) ∧
      (∀ k : Fin 8, s.wf.group[k.1].spareServes = false → (inputStep i s n).wf.group[k.1].spareServes = false) ∧
      (inputStep i s n).wf.input[n.1].det = (readInput n i.lane[(servingLane n s).1] s s.wf.input[n.1]).det ∧
      (inputStep i s n).wf.input[n.1].val = (readInput n i.lane[(servingLane n s).1] s s.wf.input[n.1]).val := by
  have taken : (takeReading i n s).wf.input[n.1] = readInput n i.lane[(servingLane n s).1] s s.wf.input[n.1] :=
    setInput_input _ _ _
  unfold inputStep
  dsimp only
  split
  · obtain ⟨frame, inputs, idle⟩ := inputFault_parts n (bandHit (takeReading i n s).wf.input[n.1]) (takeReading i n s)
    refine ⟨(lanesOnly_setInput _ _ _).trans frame, fun k other => ?_, idle, ?_, ?_⟩
    · simp only [inputs]
      rw [get_upd_of_ne _ _ other]
      exact get_upd_of_ne _ _ other
    · simp only [inputs]
      rw [get_upd_same, Input.raise_det, taken]
    · simp only [inputs]
      rw [get_upd_same, Input.raise_val, taken]
  · exact ⟨rfl, fun k other => get_upd_of_ne _ _ other, fun _ home => home, by rw [taken], by rw [taken]⟩

/-! ### All readings of a sample instant -/

/-- Before the input's reading: it is as it was, and its home lane serves. -/
structure Unread (n : Fin 64) (s y : State) : Prop where
  frame : LanesOnly s y
  home : y.wf.group[(grpOf n).1].spareServes = false
  input : y.wf.input[n.1] = s.wf.input[n.1]

/-- After it: the input shows the reading `r`. -/
structure Read (n : Fin 64) (r : LaneReading) (s y : State) : Prop where
  frame : LanesOnly s y
  det : y.wf.input[n.1].det = detOf n s s.wf.input[n.1].det (laneVal n s r)
  val : y.wf.input[n.1].val = shownVal n s r

theorem servingLane_of_home (home : s.wf.group[(grpOf n).1].spareServes = false) :
    servingLane n s = homeLane (grpOf n) (posOf n) := by
  simp [servingLane, spareServesOf, home]

theorem LanesOnly.cfg_eq (h : LanesOnly s t) : t.cfg = s.cfg := by rw [h]
theorem LanesOnly.now_eq (h : LanesOnly s t) : t.now = s.now := by rw [h]
theorem LanesOnly.grid_eq (h : LanesOnly s t) : t.grid = s.grid := by rw [h]

variable (i : LaneInputs)

theorem Unread.inputStep {y : State} (noBurst : s.wf.input[n.1].burst = none) (h : Unread n s y) :
    Read n i.lane[(homeLane (grpOf n) (posOf n)).1] s (inputStep i y n) := by
  obtain ⟨frame, -, -, det, val⟩ := inputStep_parts i y n
  obtain ⟨readDet, readVal⟩ := readInput_of_noBurst (n := n) (s := y) i.lane[(servingLane n y).1] (h.input ▸ noBurst)
  refine ⟨h.frame.trans frame, ?_, ?_⟩
  · rw [det, readDet, detOf_congr h.frame.cfg_eq, laneVal_congr h.frame.cfg_eq, h.input]
    simp only [servingLane_of_home h.home]
  · rw [val, readVal, shownVal_congr h.frame.cfg_eq]
    simp only [servingLane_of_home h.home]

/-- After the 64 readings an input that its home lane serves shows that lane's reading. -/
theorem inputSteps_read (home : s.wf.group[(grpOf n).1].spareServes = false) (noBurst : s.wf.input[n.1].burst = none) :
    Read n i.lane[(homeLane (grpOf n) (posOf n)).1] s ((List.finRange 64).foldl (inputStep i) s) := by
  refine foldl_establishes (P := Unread n s) (Q := Read n i.lane[(homeLane (grpOf n) (posOf n)).1] s) (List.mem_finRange n)
    (List.nodup_finRange 64) (fun y k ne h => ?before) (fun y h => h.inputStep i noBurst) (fun y k ne h => ?after)
    ⟨rfl, home, rfl⟩
  all_goals obtain ⟨frame, others, idle, -⟩ := inputStep_parts i y k
  case before => exact ⟨h.frame.trans frame, idle _ h.home, (others n ne.symm).trans h.input⟩
  case after => exact ⟨h.frame.trans frame, by rw [others n ne.symm, h.det], by rw [others n ne.symm, h.val]⟩

theorem lanesOnly_inputSteps : LanesOnly s ((List.finRange 64).foldl (inputStep i) s) :=
  List.foldlRecOn (motive := LanesOnly s) _ _ rfl fun y h k _ => h.trans (inputStep_parts i y k).1

/-- What follows the readings in a sample instant leaves them. -/
theorem readings_lanesStep : readings (lanesStep i s) = readings ((List.finRange 64).foldl (inputStep i) s) := by
  have samples (y : State) : readings ((List.finRange 64).foldl abortStep ((List.finRange 64).foldl takeSample y)) = readings y :=
    (foldl_unchanged readings readings_abortStep _ _).trans (foldl_unchanged readings readings_takeSample _ _)
  unfold lanesStep
  dsimp only
  split
  · exact (foldl_unchanged readings (fun y g => readings_groupStep y g i) _ _).trans (samples _)
  · exact samples _

/-! ### The command -/

/-- The instant of the sample, before anything is read. -/
def laneInstant (s : State) : State :=
  noteLatch { reach 20 s.grid.lane s with grid := { s.grid with lane := some (reach 20 s.grid.lane s).now } }

theorem exec_laneSample (loaded : s.sys.loaded = true) (mode : s.sys.mode ≠ .reset) (clock : clockSafe s = false) :
    exec (.laneSample i) s = .next (headsItem (allHeads.foldl headStep (lanesStep i (laneInstant s)))) := by
  have act : (imageRuns (laneInstant s) && !clockSafe (laneInstant s)) = true := by
    change (imageRuns s && !clockSafe s) = true
    simp [imageRuns, imageTaken, loaded, mode, clock]
  exact congrArg Host.Outcome.next (if_pos act)

/-- A sample shows what the readings of its instant gave. -/
theorem readings_laneSample : readings (headsItem (allHeads.foldl headStep (lanesStep i s))) =
    readings ((List.finRange 64).foldl (inputStep i) s) := by
  rw [readings_headsItem, foldl_unchanged readings readings_headStep, readings_lanesStep]

theorem now_of_readings (h : readings t = readings s) : t.now = s.now := congrArg Readings.now h
theorem grid_of_readings (h : readings t = readings s) : t.grid = s.grid := congrArg Readings.grid h
theorem cfg_of_readings (h : readings t = readings s) : t.cfg = s.cfg := congrArg Readings.cfg h

theorem input_of_readings (h : readings t = readings s) (n : Fin 64) :
    t.wf.input[n.1].det = s.wf.input[n.1].det ∧ t.wf.input[n.1].val = s.wf.input[n.1].val := by
  have entry := congrArg (fun x : Readings => x.inputs[n.1]) h
  simpa only [readings, get_mapv, Prod.mk.injEq] using entry

/-! ### The statement -/

/-- Settles O16: the sample shows the reading of the home lane (`inputSteps_read`), and `detBit` is threshold and hysteresis. -/
theorem laneSamplesSetTheDetectionBit : Obligations.LaneSamplesSetTheDetectionBit := by
  unfold Obligations.LaneSamplesSetTheDetectionBit
  intro i s n loaded mode clock
  have shows := readings_laneSample (s := laneInstant s) i
  have frame := lanesOnly_inputSteps (s := laneInstant s) i
  have now := (now_of_readings shows).trans frame.now_eq
  refine ⟨_, exec_laneSample i loaded mode clock, now, ?grid, (cfg_of_readings shows).trans frame.cfg_eq, ?input⟩
  case grid =>
    rw [(grid_of_readings shows).trans frame.grid_eq, now]
    rfl
  case input =>
    intro home noBurst v th hy
    have read := inputSteps_read (s := laneInstant s) (n := n) i home noBurst
    obtain ⟨det, val⟩ := input_of_readings shows n
    have det : _ = detOf n s s.wf.input[n.1].det v := det.trans read.det
    have val : _ = shownVal n s i.lane[(homeLane (grpOf n) (posOf n)).1] := val.trans read.val
    rw [det, val]
    refine ⟨fun off => ?off, fun on => ?shown, fun lowered => ?lowered, fun loop raised => ?raised⟩
    case off => exact ⟨detOf_of_off (inputOn_of_off off) _ _, by simp [shownVal, inputOn_of_off off]⟩
    case shown => simp [shownVal, inputOn_of_mode on, v]
    case lowered =>
      have direction : (decide (inMode n s = 1) && bitOf s.cfg.input[n.1].icfg 2) = false := by
        obtain h | ⟨-, h⟩ := lowered <;> simp [h]
      rw [detOf_of_on (inputOn_of_mode (lowered.elim .inr fun h => .inl h.1)), direction]
      exact detBit_lowered _ _ _ _
    case raised =>
      rw [detOf_of_on (inputOn_of_mode (.inl loop)), decide_eq_true loop, raised]
      exact detBit_raised _ _ _ _

end Sys2Proof.Machine
end

section
/-! PROOFS. The sections seen through their updates (chapter 05): what an evaluation and a disturbance of sections leave alone, and
the state in which each leaves its section. -/

namespace Sys2Proof.Machine

open Sys2Proof

/-! ### What work on the sections leaves alone -/

/-- Only the section entries, the berths, the bursts, the STATUS step and the reports may differ. -/
def SectionsOnly (s t : State) : Prop :=
  t = { s with sc := { s.sc with sect := t.sc.sect }, wf := t.wf, berth := t.berth, tg := t.tg, ev := t.ev, nv := t.nv }

section Frames

variable {s t u : State} (i h : Fin 32)

theorem LanesOnly.sc_eq (h : LanesOnly s t) : t.sc = s.sc := by rw [h]

theorem LanesOnly.sectionsOnly (h : LanesOnly s t) : SectionsOnly s t := Eq.trans h (by rw [h])

theorem SectionsOnly.refl (s : State) : SectionsOnly s s := rfl

theorem SectionsOnly.trans (h₁ : SectionsOnly s t) (h₂ : SectionsOnly t u) : SectionsOnly s u := Eq.trans h₂ (by rw [h₁])

theorem SectionsOnly.sys_eq (h : SectionsOnly s t) : t.sys = s.sys := by rw [h]
theorem SectionsOnly.hd_eq (h : SectionsOnly s t) : t.hd = s.hd := by rw [h]
theorem SectionsOnly.sc_eq (h : SectionsOnly s t) : t.sc = { s.sc with sect := t.sc.sect } := by rw [h]

theorem SectionsOnly.foldl {α : Type} {f : State → α → State} (step : ∀ y a, SectionsOnly y (f y a)) (l : List α) (s : State) :
    SectionsOnly s (l.foldl f s) :=
  List.foldlRecOn (motive := SectionsOnly s) _ _ rfl fun y h a _ => h.trans (step y a)

theorem lanesOnly_raise (code : Nat) (data : W16) (s : State) : LanesOnly s (raise code data s) := by
  obtain ⟨e, raised⟩ := raise_frame code data s
  exact .of_parts raised

theorem lanesOnly_raiseRec (code : Nat) (data : W16) (s : State) : LanesOnly s (raiseRec code data s) := by
  obtain ⟨e, v, recorded, -⟩ := record_frame 5 code (bytesLE 2 data.toNat) (raise code data s)
  exact (lanesOnly_raise code data s).trans (.of_parts recorded)

theorem lanesOnly_burstAbort (n : Fin 64) (s : State) : LanesOnly s (burstAbort n s) := by
  unfold burstAbort
  split
  · split <;> rfl
  · rfl

theorem lanesOnly_abortBursts (s : State) : LanesOnly s (abortBursts i s) :=
  List.foldlRecOn (motive := LanesOnly s) _ _ rfl fun y before h _ => before.trans (by
    split
    · exact (lanesOnly_burstAbort _ _).trans (lanesOnly_burstAbort _ _)
    · rfl)

theorem sectionsOnly_activity (instant : Nat) (s : State) : SectionsOnly s (activity i instant s) := rfl

theorem sectionsOnly_headActivity (instant : Nat) (s : State) : SectionsOnly s (headActivity h instant s) :=
  .foldl (fun y i => by split <;> rfl) _ _

theorem headActivity_sect (instant : Nat) (s : State) : (headActivity h instant s).sc.sect = s.sc.sect :=
  foldl_unchanged (fun y : State => y.sc.sect) (fun y i => by split <;> rfl) _ _

theorem sectionsOnly_setRstep (step reason : Nat) (s : State) : SectionsOnly s (setRstep i step reason s) := by
  unfold setRstep
  split <;> rfl

@[simp] theorem setRstep_sc (step reason : Nat) (s : State) : (setRstep i step reason s).sc = s.sc := by
  unfold setRstep
  split <;> rfl

end Frames

/-! ### A section takes a state (R208) -/

/-- The section's entry in a new state. -/
def sectIn (new : SecState) (cause : Nat) (x : Sect) : Sect :=
  { x with st := new, cause := if new = .disturbed then BitVec.ofNat 4 cause else x.cause }

section Set

variable (i : Fin 32) (new : SecState) (cause : Nat) (hv : Option (Fin 32)) (s : State)

/-- The step before the report: only the entry differs. -/
abbrev entered : State := { s with sc := { s.sc with sect := upd s.sc.sect i (sectIn new cause) } }

theorem sectionsOnly_entered : SectionsOnly s (entered i new cause s) := rfl

/-- What leaving CLEAR does to the bursts. -/
theorem lanesOnly_leavesClear (p : Prop) [Decidable p] : LanesOnly s (if p then abortBursts i s else s) := by
  split
  · exact lanesOnly_abortBursts i s
  · rfl

theorem secSet_parts : SectionsOnly s (secSet i new cause hv s) ∧
    (secSet i new cause hv s).sc.sect = upd s.sc.sect i (sectIn new cause) := by
  unfold secSet
  dsimp only
  split
  · exact ⟨rfl, rfl⟩
  · have left := lanesOnly_leavesClear i (entered i new cause s) (s.sc.sect[i.1].st = .clear)
    have reported := left.trans (lanesOnly_raise (0x100 + 4 * i.1)
      (secWord (secCode new) (secCode s.sc.sect[i.1].st) (if new = .disturbed then cause else 0) hv) _)
    exact ⟨(sectionsOnly_entered i new cause s).trans (reported.sectionsOnly.trans (sectionsOnly_activity i _ _)),
      congrArg Sc.sect reported.sc_eq⟩

theorem secSet_same : (secSet i new cause hv s).sc.sect[i.1] = sectIn new cause s.sc.sect[i.1] := by
  simp only [(secSet_parts i new cause hv s).2, get_upd_same]

theorem secSet_other {j : Fin 32} (other : j ≠ i) : (secSet i new cause hv s).sc.sect[j.1] = s.sc.sect[j.1] := by
  simp only [(secSet_parts i new cause hv s).2, get_upd_of_ne _ _ other]

end Set

/-! ### Disturbances (R206) -/

section Disturb

variable (i : Fin 32) (cause : Nat) (hv : Option (Fin 32)) (s : State)

theorem disturb_of_disabled (off : s.sc.sect[i.1].st = .disabled) : disturb i cause hv s = s := by
  simp only [disturb, off]

/-- A section in use is disturbed after the report of a failed sweep, if it had one. -/
theorem disturb_eq_secSet (on : s.sc.sect[i.1].st ≠ .disabled) :
    ∃ y, SectionsOnly s y ∧ y.sc = s.sc ∧ disturb i cause hv s = secSet i .disturbed cause hv y := by
  unfold disturb
  dsimp only
  split
  · contradiction
  · have reported := lanesOnly_raiseRec (0x100 + 4 * i.1 + 2)
      (stepWord 4 (if cause = 6 || cause = 7 then 8 else 9) s.sc.sect[i.1].entries.toNat) s
    exact ⟨_, reported.sectionsOnly.trans (sectionsOnly_setRstep i _ _ _), (setRstep_sc i _ _ _).trans reported.sc_eq, rfl⟩
  · exact ⟨s, .refl s, rfl, rfl⟩

theorem sectionsOnly_disturb : SectionsOnly s (disturb i cause hv s) := by
  by_cases off : s.sc.sect[i.1].st = .disabled
  · rw [disturb_of_disabled i cause hv s off]
    exact .refl s
  · obtain ⟨y, before, -, disturbed⟩ := disturb_eq_secSet i cause hv s off
    rw [disturbed]
    exact before.trans (secSet_parts i _ _ _ y).1

theorem disturb_same (on : s.sc.sect[i.1].st ≠ .disabled) :
    (disturb i cause hv s).sc.sect[i.1] = sectIn .disturbed cause s.sc.sect[i.1] := by
  obtain ⟨y, -, entries, disturbed⟩ := disturb_eq_secSet i cause hv s on
  simp only [disturbed, secSet_same, entries]

theorem disturb_other {j : Fin 32} (other : j ≠ i) : (disturb i cause hv s).sc.sect[j.1] = s.sc.sect[j.1] := by
  by_cases off : s.sc.sect[i.1].st = .disabled
  · rw [disturb_of_disabled i cause hv s off]
  · obtain ⟨y, -, entries, disturbed⟩ := disturb_eq_secSet i cause hv s off
    simp only [disturbed, secSet_other _ _ _ _ _ other, entries]

theorem sectionsOnly_disturbMask (m : W32) : SectionsOnly s (disturbMask m cause hv s) :=
  .foldl (fun y i => by
    split
    · exact sectionsOnly_disturb i cause hv y
    · exact .refl y) _ _

theorem sectionsOnly_disturbAll : SectionsOnly s (disturbAll s) :=
  .foldl (fun y i => by
    split
    · exact .refl y
    · exact sectionsOnly_disturb i 9 none y) _ _

theorem disturbMask_st (m : W32) (named : bitOf m i.1 = true) (on : s.sc.sect[i.1].st ≠ .disabled) :
    (disturbMask m cause hv s).sc.sect[i.1].st = .disturbed := by
  unfold disturbMask
  refine foldl_establishes (P := fun y : State => y.sc.sect[i.1].st ≠ .disabled)
    (Q := fun y : State => y.sc.sect[i.1].st = .disturbed) (List.mem_finRange i) (List.nodup_finRange 32) (fun y j other h => ?before) (fun y h => ?here) (fun y j other h => ?after) on
  case here => simp only [named, if_true, disturb_same i cause hv y h, sectIn]
  all_goals
    split
    · rwa [disturb_other j cause hv y other.symm]
    · exact h

end Disturb

/-! ### Evaluations (R203 to R205, R213) -/

section Evaluate

variable {s t : State} (i : Fin 32) (hv : Option (Fin 32))

/-- An evaluation keeps the state, or sets the section's state, after the report of a completed sweep if there was one. -/
theorem secEval_cases (s : State) : secEval hv s i = s ∨
    ∃ new y, SectionsOnly s y ∧ y.sc = s.sc ∧ y.nv = s.nv ∧ secEval hv s i = secSet i new 0 hv y := by
  unfold secEval
  dsimp only
  split
  · split
    · exact .inr ⟨_, s, .refl s, rfl, rfl, rfl⟩
    · exact .inl rfl
  · split
    · exact .inr ⟨_, s, .refl s, rfl, rfl, rfl⟩
    · exact .inl rfl
  · split
    · obtain ⟨e, raised⟩ := raise_frame (0x100 + 4 * i.1 + 2) (stepWord 3 0 s.sc.sect[i.1].entries.toNat) s
      refine .inr ⟨_, _, SectionsOnly.trans (t := { s with ev := e }) rfl (sectionsOnly_setRstep i 3 0 _), ?_, ?_, by rw [raised]⟩
      all_goals unfold setRstep; split <;> rfl
    · exact .inl rfl
  · exact .inl rfl

theorem sectionsOnly_secEval (s : State) : SectionsOnly s (secEval hv s i) := by
  obtain kept | ⟨new, y, before, -, -, set⟩ := secEval_cases i hv s
  · rw [kept]
    exact .refl s
  · rw [set]
    exact before.trans (secSet_parts i _ _ _ y).1

theorem secEval_other (s : State) {j : Fin 32} (other : j ≠ i) : (secEval hv s i).sc.sect[j.1] = s.sc.sect[j.1] := by
  obtain kept | ⟨new, y, -, entries, -, set⟩ := secEval_cases i hv s
  · rw [kept]
  · simp only [set, secSet_other _ _ _ _ _ other, entries]

theorem SectionsOnly.anyBusy_eq (h : SectionsOnly s t) : anyBusy i t = anyBusy i s := by
  rw [h]
  rfl

theorem SectionsOnly.pendOther_eq (h : SectionsOnly s t) : pendOther i t = pendOther i s := by
  rw [h]
  rfl

theorem SectionsOnly.allIdle_eq (h : SectionsOnly s t) : allIdle i t = allIdle i s := by
  rw [h]
  rfl

theorem SectionsOnly.secPending_eq (h : SectionsOnly s t) : secPending i t = secPending i s := by
  rw [h]
  rfl

/-- What an evaluation makes of a section depends on its own entry, the heads and the walker only. -/
theorem SectionsOnly.secEval_same (h : SectionsOnly s t) (entry : t.sc.sect[i.1] = s.sc.sect[i.1]) :
    (secEval hv t i).sc.sect[i.1] = (secEval hv s i).sc.sect[i.1] := by
  have ready : clearOk i t = clearOk i s := by rw [clearOk, clearOk, entry, h.allIdle_eq, h.secPending_eq]
  generalize st : s.sc.sect[i.1].st = x
  cases x
  case clear | occupied =>
    simp only [secEval, st, entry, h.anyBusy_eq i, h.pendOther_eq i, ready]
    split
    · simp only [secSet_same, entry]
    · exact entry
  case prepared =>
    simp only [secEval, st, entry, h.anyBusy_eq i, ready]
    split
    · simp only [secSet_same, setRstep_sc, (lanesOnly_raise _ _ _).sc_eq, entry]
    · exact entry
  case disturbed | disabled => simp only [secEval, st, entry]

/-- One evaluation of all sections evaluates each on its own. -/
theorem secEvalAll_sect (s : State) : (secEvalAll hv s).sc.sect[i.1] = (secEval hv s i).sc.sect[i.1] := by
  unfold secEvalAll
  refine foldl_establishes (P := fun y => SectionsOnly s y ∧ y.sc.sect[i.1] = s.sc.sect[i.1])
    (Q := fun y => y.sc.sect[i.1] = (secEval hv s i).sc.sect[i.1]) (List.mem_finRange i) (List.nodup_finRange 32)
    (fun y j other h => ?before) (fun y h => h.1.secEval_same i hv h.2) (fun y j other h => ?after) ⟨.refl s, rfl⟩
  case before => exact ⟨h.1.trans (sectionsOnly_secEval j hv y), (secEval_other j hv y other.symm).trans h.2⟩
  case after => exact (secEval_other j hv y other.symm).trans h

theorem sectionsOnly_secEvalAll (s : State) : SectionsOnly s (secEvalAll hv s) :=
  .foldl (fun y i => sectionsOnly_secEval i hv y) _ _

theorem secEvalAll_disturbed (disturbed : s.sc.sect[i.1].st = .disturbed) : (secEvalAll hv s).sc.sect[i.1].st = .disturbed := by
  rw [secEvalAll_sect]
  simp only [secEval, disturbed]

theorem secEvalAll_busy (clear : s.sc.sect[i.1].st = .clear) (busy : anyBusy i s = true) :
    (secEvalAll hv s).sc.sect[i.1].st = .occupied := by
  rw [secEvalAll_sect]
  simp only [secEval, clear, busy, Bool.true_or, if_true, secSet_same, sectIn]

theorem secEvalAll_clear (clear : s.sc.sect[i.1].st = .clear) (free : anyBusy i s = false) (count : s.sc.sect[i.1].count = 0)
    (settled : pendOther i s = false) : (secEvalAll hv s).sc.sect[i.1].st = .clear := by
  rw [secEvalAll_sect]
  simp [secEval, clear, free, count, settled]

/-! The ledger takes no part. -/

@[simp] theorem burstAbort_nv (n : Fin 64) (s : State) : (burstAbort n s).nv = s.nv := by
  unfold burstAbort
  split
  · split <;> rfl
  · rfl

@[simp] theorem raise_nv (code : Nat) (data : W16) (s : State) : (raise code data s).nv = s.nv := by
  obtain ⟨e, raised⟩ := raise_frame code data s
  rw [raised]

@[simp] theorem abortBursts_nv (s : State) : (abortBursts i s).nv = s.nv :=
  foldl_unchanged State.nv (fun y h => by split <;> simp) _ _

theorem secSet_nv (new : SecState) (cause : Nat) (s : State) : (secSet i new cause hv s).nv = s.nv := by
  simp [secSet, activity, apply_ite State.nv]

theorem secEval_nv (s : State) : (secEval hv s i).nv = s.nv := by
  obtain kept | ⟨new, y, -, -, ledger, set⟩ := secEval_cases i hv s
  · rw [kept]
  · rw [set, secSet_nv, ledger]

theorem secEvalAll_nv (s : State) : (secEvalAll hv s).nv = s.nv := foldl_unchanged State.nv (fun y i => secEval_nv i hv y) _ _

end Evaluate

end Sys2Proof.Machine
end

section
/-! PROOFS. Heads that become busy or standing (R161, R172). -/

namespace Sys2Proof.Machine

open Sys2Proof

variable {s : State} {h i k : Fin 32}

/-! ### Heads on a section (R201, R218) -/

theorem anyBusy_iff : anyBusy i s = true ↔ ∃ k : Fin 32, bounds k i s = true ∧ s.hd.head[k.1].busy = true := by
  simp [anyBusy, boundingHeads, allHeads]

theorem pendOther_iff : pendOther i s = true ↔
    s.sc.refresh.isSome = true ∨ ∃ k : Fin 32, bounds k i s = true ∧ s.hd.head[k.1].reload = true := by
  simp [pendOther, boundingHeads, allHeads]

theorem pendOther_of_not_secPending (settled : secPending i s = false) : pendOther i s = false := by
  simp only [secPending, Bool.or_eq_false_iff] at settled
  obtain ⟨⟨-, refresh⟩, reload⟩ := settled
  simp only [pendOther, refresh, reload, Bool.or_self]

/-- The head shown busy. -/
abbrev markBusy (h : Fin 32) (s : State) : State := setHead h (fun x => { x with busy := true }) s

theorem bounds_markBusy : bounds k i (markBusy h s) = bounds k i s := by
  simp only [bounds, headOn, setHead_cfg, setHead_hd, get_upd]
  split <;> rfl

theorem busy_markBusy_same : (markBusy h s).hd.head[h.1].busy = true := by simp only [setHead_hd, get_upd_same]

theorem busy_markBusy_other (other : k ≠ h) : (markBusy h s).hd.head[k.1].busy = s.hd.head[k.1].busy := by
  simp only [setHead_hd, get_upd_of_ne _ _ other]

theorem reload_markBusy : (markBusy h s).hd.head[k.1].reload = s.hd.head[k.1].reload := by
  simp only [setHead_hd, get_upd]
  split <;> rfl

theorem anyBusy_markBusy (on : bounds h i s = true) : anyBusy i (markBusy h s) = true :=
  anyBusy_iff.2 ⟨h, bounds_markBusy.trans on, busy_markBusy_same⟩

theorem anyBusy_markBusy_elsewhere (off : bounds h i s = false) : anyBusy i (markBusy h s) = anyBusy i s := by
  refine Bool.eq_iff_iff.2 (anyBusy_iff.trans (.trans (exists_congr fun k => ?_) anyBusy_iff.symm))
  rw [bounds_markBusy]
  refine and_congr_right fun on => ?_
  rw [busy_markBusy_other fun same => by simp [same, off] at on]

theorem pendOther_markBusy : pendOther i (markBusy h s) = pendOther i s := by
  refine Bool.eq_iff_iff.2 (pendOther_iff.trans (.trans ?_ pendOther_iff.symm))
  simp only [bounds_markBusy, reload_markBusy, setHead_sc]

/-! ### HEAD_BUSY (R161, R203) -/

/-- The instant at which the presence filter of a head that left IDLE at `t0` has run out. -/
abbrev filteredAt (h : Fin 32) (t0 : Nat) (s : State) : Nat := t0 + 20 * fld s.cfg.head[h.1].pfilt 6 0

/-- The head shown busy, with its activity, before the sections are evaluated. -/
abbrev busyNoted (h : Fin 32) (s : State) : State := headActivity h s.now (markBusy h s)

theorem sectionsOnly_busyNoted : SectionsOnly (markBusy h s) (busyNoted h s) := sectionsOnly_headActivity _ _ _

theorem busyNoted_sect : (busyNoted h s).sc.sect = s.sc.sect := headActivity_sect _ _ _

theorem headActivity_nv (instant : Nat) (s : State) : (headActivity h instant s).nv = s.nv :=
  foldl_unchanged State.nv (fun y i => by split <;> rfl) _ _

theorem exec_headBusy : exec (.headBusy h) s =
    .next (if busyDue h s && atSample s && imageRuns s && !clockSafe s then secEvalAll (some h) (busyNoted h s) else s) := rfl

theorem exec_headBusy_filtered {t0 : Nat} (image : imageTaken s = true) (mode : s.sys.mode ≠ .reset) (clock : clockSafe s = false)
    (on : headOn h s = true) (sample : s.grid.lane = some s.now) (left : s.hd.head[h.1].nonIdle = some t0)
    (fresh : s.hd.head[h.1].busy = false) (filtered : filteredAt h t0 s ≤ s.now) :
    exec (.headBusy h) s = .next (secEvalAll (some h) (busyNoted h s)) := by
  rw [exec_headBusy, if_pos]
  simp [busyDue, atSample, imageRuns, image, mode, clock, on, sample, left, fresh, filtered]

theorem exec_headBusy_early {t0 : Nat} (left : s.hd.head[h.1].nonIdle = some t0) (early : s.now < filteredAt h t0 s) :
    exec (.headBusy h) s = .next s := by
  rw [exec_headBusy, if_neg]
  simp [busyDue, left, Nat.not_le.2 early]

/-- The command changes the heads, the sections and what their changes report, but no ledger. -/
theorem headBusy_frame (hv : Option (Fin 32)) {t : State} (evaluated : t = secEvalAll hv (busyNoted h s)) :
    t = { s with hd := t.hd, sc := t.sc, berth := t.berth, ev := t.ev, tg := t.tg, wf := t.wf } := by
  have work : SectionsOnly (markBusy h s) t := evaluated ▸ sectionsOnly_busyNoted.trans (sectionsOnly_secEvalAll hv _)
  have ledger : t.nv = s.nv := by
    rw [evaluated, secEvalAll_nv, headActivity_nv]
    rfl
  refine Eq.trans work ?_
  rw [ledger, work.hd_eq, work.sc_eq]
  rfl

/-! ### STANDING_TIMEOUT (R172) -/

/-- The instant at which a head in a passage is standing. -/
abbrev standsAt (h : Fin 32) (s : State) : Nat := s.hd.head[h.1].changed + 10000 * fld s.cfg.head[h.1].tstand 9 0

/-- The head shown standing. -/
abbrev markStanding (h : Fin 32) (s : State) : State := setHead h (fun x => { x with standing := true }) s

theorem standPhase_iff {p : Phase} : standPhase p = true ↔ p = .enter ∨ p = .both ∨ p = .leave := by simp [standPhase, or_assoc]

/-- The head shown standing, with the event where heads report. -/
def standReported (h : Fin 32) (s : State) : State :=
  if headsReport (markStanding h s) then raiseHead (8 * h.1 + 3) (standWord s.hd.head[h.1] true) (markStanding h s)
  else markStanding h s

theorem standReported_frame (h : Fin 32) (s : State) : ∃ e, standReported h s = { markStanding h s with ev := e } := by
  unfold standReported
  split
  · exact raiseHead_frame _ _ _
  · exact ⟨_, rfl⟩

/-- The head is standing from this sample on. -/
def standDue (h : Fin 32) (s : State) : Bool :=
  headOn h s && imageRuns s && !clockSafe s && standPhase s.hd.head[h.1].phase && !s.hd.head[h.1].standing && atSample s &&
    decide (standsAt h s ≤ s.now)

theorem exec_standingTimeout : exec (.standingTimeout h) s = .next (if standDue h s then standReported h s else s) := rfl

theorem exec_standingTimeout_stands (image : imageTaken s = true) (mode : s.sys.mode ≠ .reset) (clock : clockSafe s = false)
    (on : headOn h s = true) (sample : s.grid.lane = some s.now) (moving : s.hd.head[h.1].standing = false)
    (passage : standPhase s.hd.head[h.1].phase = true) (long : standsAt h s ≤ s.now) :
    exec (.standingTimeout h) s = .next (standReported h s) := by
  rw [exec_standingTimeout, if_pos]
  simp [standDue, atSample, imageRuns, image, mode, clock, on, sample, moving, passage, long]

theorem exec_standingTimeout_early (early : s.now < standsAt h s) : exec (.standingTimeout h) s = .next s := by
  rw [exec_standingTimeout, if_neg]
  simp [standDue, Nat.not_le.2 early]

/-! ### The statement -/

/-- Settles O20: a head shown busy makes `anyBusy` hold for the sections it bounds and leaves it for the others, and each section is
evaluated on its own (`secEvalAll_sect`). -/
theorem busyAndStandingHeadsAreReported : Obligations.BusyAndStandingHeadsAreReported := by
  unfold Obligations.BusyAndStandingHeadsAreReported
  intro s h image mode clock on sample
  refine ⟨fun t0 left fresh => ⟨fun filtered => ?busy, exec_headBusy_early left⟩,
    fun moving passage => ⟨fun long => ?standing, exec_standingTimeout_early⟩⟩
  case busy =>
    have work : SectionsOnly (markBusy h s) (busyNoted h s) := sectionsOnly_busyNoted
    refine ⟨_, exec_headBusy_filtered image mode clock on sample left fresh filtered, ?shown, fun i bound clear => ?bound,
      fun i unbound count settled free clear => ?unbound, headBusy_frame (some h) rfl⟩
    case shown => simp only [(work.trans (sectionsOnly_secEvalAll _ _)).hd_eq, busy_markBusy_same]
    case bound =>
      refine secEvalAll_busy i (some h) (by rw [← clear, busyNoted_sect]) ?_
      rw [work.anyBusy_eq, anyBusy_markBusy bound]
    case unbound =>
      refine secEvalAll_clear i (some h) (by rw [← clear, busyNoted_sect]) ?_ (by rw [← count, busyNoted_sect]) ?_
      · rw [work.anyBusy_eq, anyBusy_markBusy_elsewhere unbound, free]
      · rw [work.pendOther_eq, pendOther_markBusy, pendOther_of_not_secPending settled]
  case standing =>
    obtain ⟨e, reported⟩ := standReported_frame h s
    exact ⟨_, exec_standingTimeout_stands image mode clock on sample moving (standPhase_iff.2 passage) long, by rw [reported]; rfl⟩

end Sys2Proof.Machine
end

section
/-! PROOFS. The entry to SAFE (R83 to R86, Table PF-5): what the parts of `enterSafe` leave alone, and the state it ends in. -/

namespace Sys2Proof.Machine

open Sys2Proof

/-! ### Before the outputs go off: the mode, the cause and the detail stand -/

section Sys

variable (s : State)

theorem drpFalls_sys : (drpFalls s).sys = s.sys :=
  foldl_unchanged State.sys (fun y b => by
    split
    · exact recordAt_sys _ _ _ _ _
    · rfl) _ _

theorem inactiveEvent_sys (c : Fin 16) : (inactiveEvent s c).sys = s.sys := by
  unfold inactiveEvent
  dsimp only
  split
  · rfl
  · exact raise_sys _ _ _

theorem inactiveEvents_sys : ((List.finRange 16).foldl inactiveEvent s).sys = s.sys :=
  foldl_unchanged State.sys inactiveEvent_sys _ _

end Sys

/-! ### From then on: SAFE is latched and every output is off -/

/-- SAFE with this cause and detail, no stop sequence, every output off. -/
def SafeLatched (cause : Byte) (info : W16) (s : State) : Prop :=
  s.sys.mode = .safe ∧ s.sys.cause = cause ∧ s.sys.info = info ∧ s.sys.stop = none ∧ OutputsOff s

section Latched

variable {cause : Byte} {info : W16} {s t : State}

/-- It is a matter of the mode block, the berths and the doors. -/
theorem SafeLatched.of_eq (h : SafeLatched cause info s) (sys : t.sys = s.sys) (berth : t.berth = s.berth) (dc : t.dc = s.dc) :
    SafeLatched cause info t := by
  rw [SafeLatched, OutputsOff, sys, berth, dc]
  exact h

theorem safeLatched_safeOutputs (mode : s.sys.mode = .safe) (because : s.sys.cause = cause) (detail : s.sys.info = info)
    (stop : s.sys.stop = none) : SafeLatched cause info (safeOutputs s) :=
  ⟨mode, because, detail, stop, safeOutputs_off s⟩

theorem SafeLatched.raise (h : SafeLatched cause info s) (code : Nat) (data : W16) : SafeLatched cause info (raise code data s) := by
  obtain ⟨e, raised⟩ := raise_frame code data s
  rw [raised]
  exact h

theorem SafeLatched.record (h : SafeLatched cause info s) (type code : Nat) (data : List Byte) :
    SafeLatched cause info (record type code data s) := by
  obtain ⟨e, v, recorded, -⟩ := record_frame type code data s
  rw [recorded]
  exact h

theorem SafeLatched.unlockDrop (h : SafeLatched cause info s) : SafeLatched cause info (unlockDrop s) := by
  obtain ⟨mode, because, detail, stop, berths, ⟨psiB, psiAll, chans⟩, pins⟩ := h
  refine List.foldlRecOn (motive := SafeLatched cause info) _ _ ?_ fun y latched u _ => latched.record _ _ _
  exact ⟨mode, because, detail, stop, berths, ⟨psiB, psiAll, fun c => by simpa only [get_mapv] using chans c⟩, pins⟩

theorem SafeLatched.endLogin (h : SafeLatched cause info s) (p : Fin 2) (reason : Nat) :
    SafeLatched cause info (endLogin p reason s) := by
  unfold Machine.endLogin
  split
  · refine SafeLatched.record ?_ _ _ _
    exact h.of_eq rfl rfl rfl
  · exact h

theorem SafeLatched.commitAbandon (h : SafeLatched cause info s) : SafeLatched cause info (commitAbandon s) := by
  unfold Machine.commitAbandon
  split
  · exact h
  · split
    · refine SafeLatched.record ?_ _ _ _
      exact h.of_eq rfl rfl rfl
    · exact h

/-- Ports that run on change the ports only. -/
theorem canOn_ethOn_frame (s : State) : ∃ p, canOn (ethOn s) = { s with ports := p } := by
  have eth : ∃ p, ethOn s = { s with ports := p } := by
    unfold ethOn mdioStart
    dsimp only
    split <;> exact ⟨_, rfl⟩
  obtain ⟨p, eth⟩ := eth
  rw [eth]
  unfold canOn
  split <;> exact ⟨_, rfl⟩

theorem portsOff_usbDisconnect_frame (s : State) : ∃ p u, portsOff (usbDisconnect s) = { s with ports := p, um := u } :=
  ⟨_, _, rfl⟩

theorem cantleStop_frame (state : CsState) (s : State) :
    ∃ k d, cantleStop state s = { s with cs := { s.cs with state := state }, ck := k, db := d } ∧ d.mon = false :=
  ⟨_, _, rfl, rfl⟩

/-- The end of a session changes Cantle and the debug port; a Cantle that monitor mode does not hold stays in its state. -/
theorem sessionEnd_frame (s : State) : ∃ c d, sessionEnd s = { s with cs := c, db := d } ∧ c.permit = s.cs.permit ∧
    (s.db.mon = false → c.state = s.cs.state) := by
  unfold sessionEnd leaveMonitor
  exact ⟨_, _, rfl, rfl, fun noMonitor => by simp [noMonitor]⟩

/-- The last of an entry to SAFE: Cantle halts, and the ports run on, or go off under cause CLOCK. -/
def safeEnd (clock : Prop) [Decidable clock] (s : State) : State :=
  let s := cantleStop .halted { s with cs := { s.cs with permit := 0 } }
  if clock then portsOff (usbDisconnect (sessionEnd s)) else canOn (ethOn s)

/-- An entry to SAFE ends with Cantle halted and without permits, and leaves the outputs. -/
theorem safeEnd_parts (clock : Prop) [Decidable clock] (s : State) :
    (safeEnd clock s).sys = s.sys ∧ (safeEnd clock s).berth = s.berth ∧ (safeEnd clock s).dc = s.dc ∧
      (safeEnd clock s).cs.state = .halted ∧ (safeEnd clock s).cs.permit = 0 := by
  unfold safeEnd
  obtain ⟨k, d, stopped, noMonitor⟩ := cantleStop_frame .halted { s with cs := { s.cs with permit := 0 } }
  simp only [stopped]
  split
  · obtain ⟨c, d', ended, permit, state⟩ :=
      sessionEnd_frame { s with cs := { s.cs with permit := 0, state := .halted }, ck := k, db := d }
    obtain ⟨p, u, off⟩ := portsOff_usbDisconnect_frame { s with ck := k, cs := c, db := d' }
    rw [ended, off]
    exact ⟨rfl, rfl, rfl, state noMonitor, permit⟩
  · obtain ⟨p, on⟩ := canOn_ethOn_frame { s with cs := { s.cs with permit := 0, state := .halted }, ck := k, db := d }
    rw [on]
    exact ⟨rfl, rfl, rfl, rfl, rfl⟩

theorem SafeLatched.inSafe (h : SafeLatched cause info s) (clock : Prop) [Decidable clock] : InSafe (safeEnd clock s) cause info := by
  obtain ⟨sys, berth, dc, halted, permit⟩ := safeEnd_parts clock s
  obtain ⟨mode, because, detail, stop, off⟩ := h.of_eq sys berth dc
  exact ⟨mode, because, detail, off, halted, permit, stop⟩

end Latched

/-- What an entry to SAFE latches, before anything else happens. -/
def safeCause (cause : Nat) (info : W16) (s : State) : State :=
  let s := { s with
    sys := { s.sys with
      mode := .safe, stop := none, pendMode := none, loadDue := false, cause := BitVec.ofNat 8 cause, info := info },
    um := { s.um with resetAt := none } }
  { s with tsRun := s.tsRun && cause != 1 }

/-- The entry to SAFE up to the outputs: provings stop, DRPs fall, sections are disturbed and the outputs go off. -/
def safeStops (s : State) : State :=
  safeOutputs ((List.finRange 16).foldl inactiveEvent (disturbAll (stopProving (drpFalls s))))

theorem disturbAll_sys (s : State) : (disturbAll s).sys = s.sys := (sectionsOnly_disturbAll s).sys_eq

theorem stopProving_sys (s : State) : (stopProving s).sys = s.sys := rfl

theorem SafeLatched.safeStops {cause : Byte} {info : W16} {s : State} (mode : s.sys.mode = .safe) (because : s.sys.cause = cause)
    (detail : s.sys.info = info) (stop : s.sys.stop = none) : SafeLatched cause info (safeStops s) := by
  have sys : ((List.finRange 16).foldl inactiveEvent (disturbAll (stopProving (drpFalls s)))).sys = s.sys := by
    rw [inactiveEvents_sys, disturbAll_sys, stopProving_sys, drpFalls_sys]
  exact safeLatched_safeOutputs ((congrArg Sys.mode sys).trans mode) ((congrArg Sys.cause sys).trans because)
    ((congrArg Sys.info sys).trans detail) ((congrArg Sys.stop sys).trans stop)

/-- The event and the records of an entry to SAFE. -/
def safeReported (cause : Nat) (info : W16) (old : Mode) (unproved : Bool) (s : State) : State :=
  let s := raise 0x1FC (modeWord .safe old cause) s
  let s := record 4 0x1FC ([BitVec.ofNat 8 cause, 0] ++ bytesLE 2 info.toNat ++ bytesLE 2 s.sys.degsrc.toNat) s
  if unproved then s else record 3 0x1FC [5, BitVec.ofNat 8 (modeCode old), BitVec.ofNat 8 cause] s

theorem SafeLatched.safeReported {byte : Byte} {info : W16} {s : State} (h : SafeLatched byte info s) (cause : Nat)
    (detail : W16) (old : Mode) (unproved : Bool) : SafeLatched byte info (safeReported cause detail old unproved s) := by
  unfold Machine.safeReported
  dsimp only
  split
  · exact (h.raise _ _).record _ _ _
  · exact ((h.raise _ _).record _ _ _).record _ _ _

/-- The parts of an entry to SAFE in their order. -/
theorem enterSafe_eq {s : State} (notReset : s.sys.mode ≠ .reset) (notSafe : s.sys.mode ≠ .safe) (cause : Nat) (info : W16) :
    enterSafe cause info s = safeEnd (cause = 1) (commitAbandon (endLogin 1 3 (endLogin 0 3 (unlockDrop (safeReported cause info
      s.sys.mode (s.sys.mode = .prove && !s.sys.provePass) (safeStops (safeCause cause info s))))))) := by
  simp only [enterSafe, if_neg notReset, if_neg notSafe, safeEnd, safeReported, safeStops, safeCause]

/-- A cause of SAFE outside RESET and SAFE leads to SAFE with its cause and detail. -/
theorem inSafe_enterSafe {s : State} (notReset : s.sys.mode ≠ .reset) (notSafe : s.sys.mode ≠ .safe) (cause : Nat) (info : W16) :
    InSafe (enterSafe cause info s) (BitVec.ofNat 8 cause) info := by
  rw [enterSafe_eq notReset notSafe]
  have reported := (SafeLatched.safeStops (s := safeCause cause info s) rfl rfl rfl rfl).safeReported cause info s.sys.mode
    (s.sys.mode = .prove && !s.sys.provePass)
  exact ((reported.unlockDrop.endLogin 0 3).endLogin 1 3).commitAbandon.inSafe (cause = 1)

end Sys2Proof.Machine
end

section
/-! PROOFS. Repairs of the tack table, the section masks and the counts (R182, R183, R209, R220). -/

namespace Sys2Proof.Machine

open Sys2Proof

/-- A read after the bytes of a list were written from `a` upwards. -/
theorem memRead_memWriteList {d : Byte} (bs : List Byte) {m : List Host.Cell} (a x : Nat) (h : Memory.wf d m = true) :
    memRead d (memWriteList d m a bs) x = if a ≤ x ∧ x < a + bs.length then bs.getD (x - a) 0 else memRead d m x := by
  induction bs generalizing m a with
  | nil => simp [memWriteList, Nat.not_lt.2]
  | cons b bs ih =>
    have rest := ih (a + 1) (memWrite_wf a b h)
    rw [show memWriteList d m a (b :: bs) = memWriteList d (memWrite d m a b) (a + 1) bs from rfl, rest,
      memRead_memWrite a x b h, List.length_cons]
    obtain before | rfl | after := Nat.lt_trichotomy x a
    · rw [if_neg (by omega), if_neg (by omega), if_neg (by omega)]
    · rw [if_neg (by omega), if_pos rfl, if_pos (by omega), Nat.sub_self, List.getD_cons_zero]
    · obtain ⟨k, rfl⟩ := Nat.exists_eq_add_of_lt after
      rw [if_neg (show a + k + 1 ≠ a by omega), show a + k + 1 - (a + 1) = k by omega, show a + k + 1 - a = k + 1 by omega,
        List.getD_cons_succ]
      exact if_congr (by omega) rfl rfl

theorem clockSafe_of_not_safe {s : State} (notSafe : s.sys.mode ≠ .safe) : clockSafe s = false := by simp [clockSafe, notSafe]

theorem lanesOnly_recovery (kind unit : Nat) (s : State) : LanesOnly s (recovery kind unit s) := by
  unfold recovery
  split <;> rfl

variable {s : State} {h i : Fin 32}

/-! ### The tack table (R220, R221) -/

/-- The table of the image in the tack region, the refresh ended. -/
abbrev tackRestored (s : State) : State :=
  { tackLoad s with sc := { (tackLoad s).sc with refresh := none, refreshed := some s.now } }

/-- A refresh given up. -/
abbrev refreshDropped (s : State) : State := { s with sc := { s.sc with refresh := none } }

theorem tackRestored_read {k : Nat} (inTable : k < s.cfg.tack.length) :
    memRead 0 (tackRestored s).sc.tack (0x7E000 + k) = s.cfg.tack.getD k 0 := by
  change memRead 0 (memWriteList 0 [] 0x7E000 s.cfg.tack) (0x7E000 + k) = _
  rw [memRead_memWriteList _ _ _ rfl, if_pos (by omega), Nat.add_sub_cancel_left]

section Runs

variable (notReset : s.sys.mode ≠ .reset) (notSafe : s.sys.mode ≠ .safe)

include notReset notSafe

theorem exec_tackRefreshDone {r0 : Nat} (refresh : s.sc.refresh = some r0) (reads crcOk : Bool) :
    exec (.tackRefreshDone reads crcOk) s = .next (if reads && crcOk then secEvalAll none (recovery 1 0 (tackRestored s))
      else enterSafe 3 1 (refreshDropped s)) := by
  have runs : ¬(s.sc.refresh.isNone || s.sys.mode = .reset || clockSafe s) = true := by
    simp [refresh, notReset, clockSafe_of_not_safe notSafe]
  exact congrArg Host.Outcome.next (if_neg runs)

/-! ### The section masks (R182, R183) -/

/-- The copies of a head's mask as they were read, counted, with the reload begun. -/
abbrev maskRead (h : Fin 32) (copy1 copy2 : W32) (s : State) : State :=
  let s := setHead h (fun x => { x with mask1 := copy1, mask2 := copy2, reload := true }) s
  { s with hd := { s.hd with maskErr := satInc s.hd.maskErr } }

/-- The sections that either copy names are disturbed. -/
abbrev maskMismatched (h : Fin 32) (copy1 copy2 : W32) (s : State) : State :=
  secEvalAll none (disturbMask (copy1 ||| ~~~copy2) 5 none (raiseRec 0x1F5 (structWord 1 h.1) (maskRead h copy1 copy2 s)))

theorem exec_sectionMaskMismatch_differ {copy1 copy2 : W32} (differ : copy2 ≠ ~~~copy1) :
    exec (.sectionMaskMismatch h copy1 copy2) s = .next (maskMismatched h copy1 copy2 s) := by
  have runs : ¬(s.sys.mode = .reset || clockSafe s || copy2 = ~~~copy1) = true := by
    simp [notReset, clockSafe_of_not_safe notSafe, differ]
  exact congrArg Host.Outcome.next (if_neg runs)

/-- The image's masks in a head, the reload ended. -/
abbrev maskRestored (h : Fin 32) (s : State) : State :=
  setHead h (fun x => { x with mask1 := s.cfg.head[h.1].mask1, mask2 := s.cfg.head[h.1].mask2, reload := false }) s

theorem exec_maskReloadDone (waits : s.hd.head[h.1].reload = true) (ok : Bool) : exec (.maskReloadDone h ok) s =
    .next (if ok then secEvalAll none (recovery 2 h.1 (maskRestored h s)) else enterSafe 3 2 s) := by
  have runs : ¬(!s.hd.head[h.1].reload || s.sys.mode = .reset || clockSafe s) = true := by
    simp [waits, notReset, clockSafe_of_not_safe notSafe]
  exact congrArg Host.Outcome.next (if_neg runs)

/-! ### The counts (R209) -/

/-- The copies of a count as they were read, counted. -/
abbrev countRead (i : Fin 32) (count compl : W16) (s : State) : State :=
  let s := setSect i (fun x => { x with count := count, compl := compl }) s
  { s with sc := { s.sc with cntErr := satInc s.sc.cntErr } }

theorem exec_countCopyMismatch_differ (loaded : s.sys.loaded = true) (on : s.sc.sect[i.1].st ≠ .disabled) {count compl : W16}
    (differ : compl ≠ ~~~count) : exec (.countCopyMismatch i count compl) s =
      .next (disturb i 7 none (raiseRec 0x1F5 (structWord 2 i.1) (countRead i count compl s))) := by
  have runs : ¬(!imageRuns s || clockSafe s || s.sc.sect[i.1].st = .disabled) = true := by
    simp [imageRuns, imageTaken, loaded, notReset, clockSafe_of_not_safe notSafe, on]
  exact congrArg Host.Outcome.next ((if_neg runs).trans (if_neg differ))

end Runs

theorem exec_countCopyMismatch_disabled (off : s.sc.sect[i.1].st = .disabled) (count compl : W16) :
    exec (.countCopyMismatch i count compl) s = .next s := by
  have idle : (!imageRuns s || clockSafe s || s.sc.sect[i.1].st = .disabled) = true := by simp [off]
  exact congrArg Host.Outcome.next (if_pos idle)

/-! ### What they leave -/

theorem sectionsOnly_maskMismatched (copy1 copy2 : W32) :
    SectionsOnly (maskRead h copy1 copy2 s) (maskMismatched h copy1 copy2 s) :=
  ((lanesOnly_raiseRec _ _ _).sectionsOnly.trans (sectionsOnly_disturbMask _ _ _ _)).trans (sectionsOnly_secEvalAll _ _)

theorem maskMismatched_disturbs {copy1 copy2 : W32} {k : Fin 32} (named : bitOf copy1 k.1 = true ∨ bitOf copy2 k.1 = false)
    (on : s.sc.sect[k.1].st ≠ .disabled) : (maskMismatched h copy1 copy2 s).sc.sect[k.1].st = .disturbed := by
  have either : bitOf (copy1 ||| ~~~copy2) k.1 = true := by simpa [bitOf] using named
  have use : (raiseRec 0x1F5 (structWord 1 h.1) (maskRead h copy1 copy2 s)).sc.sect[k.1].st ≠ .disabled := by
    rwa [(lanesOnly_raiseRec _ _ _).sc_eq]
  unfold maskMismatched
  exact secEvalAll_disturbed k none (disturbMask_st k 5 none _ _ either use)

/-! ### The statement -/

/-- Settles O22: what succeeds restores the image's table or masks and evaluates the sections, which leaves both (`SectionsOnly`);
what fails enters SAFE (`inSafe_enterSafe`). -/
theorem repairsOfTheSectionsRestoreOrEnterSafe : Obligations.RepairsOfTheSectionsRestoreOrEnterSafe := by
  unfold Obligations.RepairsOfTheSectionsRestoreOrEnterSafe
  intro s h i r0 a b c d loaded notReset notSafe
  refine ⟨fun refresh => ⟨?good, ?crc, ?read⟩, fun a2 differ => ?masks, fun waits => ⟨?reloaded, ?failed⟩,
    fun on differ => ?counts, fun off => exec_countCopyMismatch_disabled off b d⟩
  case good =>
    have work : SectionsOnly (tackRestored s) (secEvalAll none (recovery 1 0 (tackRestored s))) :=
      (lanesOnly_recovery _ _ _).sectionsOnly.trans (sectionsOnly_secEvalAll _ _)
    refine ⟨_, exec_tackRefreshDone notReset notSafe refresh true true, ?_⟩
    rw [Bool.and_self, if_pos rfl]
    rw [work.sc_eq]
    refine ⟨rfl, rfl, rfl, fun _ k inTable => ?_⟩
    exact (tackRestored_read inTable :)
  case crc =>
    exact ⟨_, exec_tackRefreshDone notReset notSafe refresh true false,
      inSafe_enterSafe (s := refreshDropped s) notReset notSafe 3 1⟩
  case read =>
    exact ⟨_, exec_tackRefreshDone notReset notSafe refresh false true,
      inSafe_enterSafe (s := refreshDropped s) notReset notSafe 3 1⟩
  case masks =>
    refine ⟨_, exec_sectionMaskMismatch_differ notReset notSafe differ, ?_⟩
    simp only [(sectionsOnly_maskMismatched a a2).hd_eq, setHead_hd, get_upd_same, true_and]
    exact fun k named on => maskMismatched_disturbs named on
  case reloaded =>
    have work : SectionsOnly (maskRestored h s) (secEvalAll none (recovery 2 h.1 (maskRestored h s))) :=
      (lanesOnly_recovery _ _ _).sectionsOnly.trans (sectionsOnly_secEvalAll _ _)
    refine ⟨_, exec_maskReloadDone notReset notSafe waits true, ?_⟩
    simp only [if_true, work.hd_eq, setHead_hd, get_upd_same, and_self]
  case failed => exact ⟨_, exec_maskReloadDone notReset notSafe waits false, inSafe_enterSafe notReset notSafe 3 2⟩
  case counts =>
    have before : (raiseRec 0x1F5 (structWord 2 i.1) (countRead i b c s)).sc = (countRead i b c s).sc :=
      (lanesOnly_raiseRec _ _ _).sc_eq
    have entry : (raiseRec 0x1F5 (structWord 2 i.1) (countRead i b c s)).sc.sect[i.1] =
        { s.sc.sect[i.1] with count := b, compl := c } := by
      simp only [before, setSect_sc, get_upd_same]
    refine ⟨_, exec_countCopyMismatch_differ notReset notSafe loaded on differ, ?_⟩
    rw [disturb_same i 7 none _ (by rwa [entry]), (sectionsOnly_disturb i 7 none _).sc_eq, entry, before]
    exact ⟨rfl, rfl, rfl, rfl⟩

end Sys2Proof.Machine
end

section
/-! PROOFS. What work on the sections leaves to their counts and to STATUS (chapter 05): no disturbance and no evaluation moves a
count, and an evaluation changes STATUS only where the sweep of the section that it speaks of ends. -/

namespace Sys2Proof.Machine

open Sys2Proof

theorem SectionsOnly.now_eq {s t : State} (h : SectionsOnly s t) : t.now = s.now := by rw [h]

/-! ### The walker and the orders -/

section Walker

variable {s t : State} (h : SectionsOnly s t)

include h

theorem SectionsOnly.fifo_eq : t.sc.fifo = s.sc.fifo := by rw [h.sc_eq]
theorem SectionsOnly.walks_eq : t.sc.walks = s.sc.walks := by rw [h.sc_eq]
theorem SectionsOnly.walkFlt_eq : t.sc.walkFlt = s.sc.walkFlt := by rw [h.sc_eq]
theorem SectionsOnly.refresh_eq : t.sc.refresh = s.sc.refresh := by rw [h.sc_eq]
theorem SectionsOnly.refreshed_eq : t.sc.refreshed = s.sc.refreshed := by rw [h.sc_eq]

theorem SectionsOnly.orders_eq : t.sc.orders = s.sc.orders := by rw [h.sc_eq]

end Walker

/-! ### The counts -/

/-- Every section keeps its count and the count's complement. -/
def CountsKept (s t : State) : Prop :=
  ∀ j : Fin 32, t.sc.sect[j.1].count = s.sc.sect[j.1].count ∧ t.sc.sect[j.1].compl = s.sc.sect[j.1].compl

section Counts

variable {s t u : State} (i : Fin 32) (hv : Option (Fin 32))

theorem CountsKept.of_sect_eq (h : t.sc.sect = s.sc.sect) : CountsKept s t := fun j => by simp only [h, and_self]

theorem CountsKept.refl (s : State) : CountsKept s s := .of_sect_eq rfl

theorem CountsKept.trans (h₁ : CountsKept s t) (h₂ : CountsKept t u) : CountsKept s u := fun j =>
  ⟨(h₂ j).1.trans (h₁ j).1, (h₂ j).2.trans (h₁ j).2⟩

theorem CountsKept.foldl {α : Type} {f : State → α → State} (step : ∀ y a, CountsKept y (f y a)) (l : List α) (s : State) :
    CountsKept s (l.foldl f s) :=
  List.foldlRecOn (motive := CountsKept s) _ _ (.refl s) fun y h a _ => h.trans (step y a)

theorem LanesOnly.countsKept (h : LanesOnly s t) : CountsKept s t := .of_sect_eq (congrArg Sc.sect h.sc_eq)

/-- A change of one entry that keeps its count keeps the counts. -/
theorem countsKept_of_upd {f : Sect → Sect} (kept : ∀ x, (f x).count = x.count ∧ (f x).compl = x.compl)
    (h : t.sc.sect = upd s.sc.sect i f) : CountsKept s t := fun j => by
  simp only [h, get_upd]
  split
  · exact kept _
  · exact ⟨rfl, rfl⟩

theorem sectionsOnly_setSect (f : Sect → Sect) (s : State) : SectionsOnly s (setSect i f s) := rfl

theorem countsKept_setSect {f : Sect → Sect} (kept : ∀ x, (f x).count = x.count ∧ (f x).compl = x.compl) :
    CountsKept s (setSect i f s) := countsKept_of_upd i kept rfl

theorem countsKept_secSet (new : SecState) (cause : Nat) (s : State) : CountsKept s (secSet i new cause hv s) :=
  countsKept_of_upd i (f := sectIn new cause) (fun _ => ⟨rfl, rfl⟩) (secSet_parts i new cause hv s).2

theorem countsKept_disturb (cause : Nat) (s : State) : CountsKept s (disturb i cause hv s) := by
  by_cases off : s.sc.sect[i.1].st = .disabled
  · rw [disturb_of_disabled i cause hv s off]
    exact .refl s
  · obtain ⟨y, -, same, disturbed⟩ := disturb_eq_secSet i cause hv s off
    rw [disturbed]
    exact (CountsKept.of_sect_eq (congrArg Sc.sect same)).trans (countsKept_secSet i hv _ _ y)

theorem countsKept_disturbMask (m : W32) (cause : Nat) (s : State) : CountsKept s (disturbMask m cause hv s) :=
  .foldl (fun y i => by
    split
    · exact countsKept_disturb i hv cause y
    · exact .refl y) _ _

theorem countsKept_secEvalAll (s : State) : CountsKept s (secEvalAll hv s) :=
  .foldl (fun y i => by
    obtain kept | ⟨new, z, -, same, -, set⟩ := secEval_cases i hv y
    · rw [kept]
      exact .refl y
    · rw [set]
      exact (CountsKept.of_sect_eq (congrArg Sc.sect same)).trans (countsKept_secSet i hv _ _ z)) _ _

end Counts

/-! ### Sections that an evaluation leaves -/

section Settled

variable {s : State} {i : Fin 32} (hv : Option (Fin 32))

theorem secEval_disturbed (disturbed : s.sc.sect[i.1].st = .disturbed) : secEval hv s i = s := by
  simp only [secEval, disturbed]

theorem secEval_prepared (prepared : s.sc.sect[i.1].st = .prepared) (sweeps : s.sc.sect[i.1].entries.toNat < 2) :
    secEval hv s i = s := by
  simp [secEval, prepared, Nat.not_le.2 sweeps]

theorem secEval_clear (clear : s.sc.sect[i.1].st = .clear) (free : anyBusy i s = false) (count : s.sc.sect[i.1].count = 0)
    (settled : pendOther i s = false) : secEval hv s i = s := by
  simp [secEval, clear, free, count, settled]

theorem secEvalAll_sect_of_settled (settled : secEval hv s i = s) : (secEvalAll hv s).sc.sect[i.1] = s.sc.sect[i.1] := by
  rw [secEvalAll_sect, settled]

end Settled

/-! ### STATUS -/

section Status

variable {s : State} {i : Fin 32} (hv : Option (Fin 32))

@[simp] theorem raise_tg (code : Nat) (data : W16) (s : State) : (raise code data s).tg = s.tg := by
  obtain ⟨e, raised⟩ := raise_frame code data s
  rw [raised]

theorem LanesOnly.tg_eq {t : State} (h : LanesOnly s t) : t.tg = s.tg := by rw [h]

@[simp] theorem abortBursts_tg (i : Fin 32) (s : State) : (abortBursts i s).tg = s.tg := (lanesOnly_abortBursts i s).tg_eq

theorem secSet_tg (i : Fin 32) (new : SecState) (cause : Nat) (s : State) : (secSet i new cause hv s).tg = s.tg := by
  simp [secSet, activity, apply_ite State.tg]

theorem setRstep_tg_of_other (step reason : Nat) (other : s.tg.rsect ≠ some i) : (setRstep i step reason s).tg = s.tg := by
  rw [setRstep, if_neg other]

theorem setRstep_rack (i : Fin 32) (step reason : Nat) (s : State) : (setRstep i step reason s).tg.rack = s.tg.rack := by
  unfold setRstep
  split <;> rfl

/-- An evaluation notes a step in STATUS only where a sweep of two entries ends. -/
theorem secEval_tg_cases (i : Fin 32) (s : State) : (secEval hv s i).tg = s.tg ∨
    (s.sc.sect[i.1].st = .prepared ∧ 2 ≤ s.sc.sect[i.1].entries.toNat) ∧
      ∃ y : State, y.tg = s.tg ∧ (secEval hv s i).tg = (setRstep i 3 0 y).tg := by
  unfold secEval
  dsimp only
  split
  · split
    · exact .inl (secSet_tg _ _ _ _ _)
    · exact .inl rfl
  · split
    · exact .inl (secSet_tg _ _ _ _ _)
    · exact .inl rfl
  · next prepared =>
    split
    · next ends =>
      simp only [Bool.and_eq_true, decide_eq_true_eq] at ends
      obtain ⟨⟨swept, -⟩, -⟩ := ends
      exact .inr ⟨⟨prepared, swept⟩, _, raise_tg _ _ s, secSet_tg _ _ _ _ _⟩
    · exact .inl rfl
  · exact .inl rfl

theorem secEval_rack (i : Fin 32) (s : State) : (secEval hv s i).tg.rack = s.tg.rack := by
  obtain kept | ⟨-, y, same, set⟩ := secEval_tg_cases hv i s
  · rw [kept]
  · rw [set, setRstep_rack, same]

theorem secEvalAll_rack (s : State) : (secEvalAll hv s).tg.rack = s.tg.rack := by
  unfold secEvalAll
  exact foldl_unchanged (fun y : State => y.tg.rack) (fun y i => secEval_rack hv i y) _ _

theorem secEval_tg_of_other (other : s.tg.rsect ≠ some i) : (secEval hv s i).tg = s.tg := by
  obtain kept | ⟨-, y, same, set⟩ := secEval_tg_cases hv i s
  · exact kept
  · rw [set, setRstep_tg_of_other 3 0 (by rwa [same]), same]

/-- A section whose sweep has not ended. -/
def Unswept (x : Sect) : Prop := x.st = .prepared → x.entries.toNat < 2

theorem secEval_tg_of_unswept (unswept : Unswept s.sc.sect[i.1]) : (secEval hv s i).tg = s.tg := by
  obtain kept | ⟨⟨prepared, swept⟩, -⟩ := secEval_tg_cases hv i s
  · exact kept
  · exact absurd (unswept prepared) (Nat.not_lt.2 swept)

/-- STATUS stands while the sweep of the section it speaks of has not ended. -/
theorem secEvalAll_tg (names : s.tg.rsect = some i) (unswept : Unswept s.sc.sect[i.1]) : (secEvalAll hv s).tg = s.tg := by
  have elsewhere : ∀ (y : State) (j : Fin 32), j ≠ i → y.tg = s.tg → (secEval hv y j).tg = s.tg := fun y j other same => by
    rw [secEval_tg_of_other hv (by rw [same, names]; exact fun e => other (Option.some.inj e).symm), same]
  refine foldl_establishes (P := fun y : State => y.tg = s.tg ∧ y.sc.sect[i.1] = s.sc.sect[i.1]) (Q := fun y => y.tg = s.tg)
    (List.mem_finRange i) (List.nodup_finRange 32) (fun y j other h => ?before) (fun y h => ?here) elsewhere ⟨rfl, rfl⟩
  case before => exact ⟨elsewhere y j other h.1, (secEval_other j hv y other.symm).trans h.2⟩
  case here => exact (secEval_tg_of_unswept hv (h.2 ▸ unswept)).trans h.1

end Status

end Sys2Proof.Machine
end

section
/-! PROOFS. Section reset orders (R211 to R215, Table SC-8): the reason decides what becomes of the section and what STATUS shows. -/

namespace Sys2Proof.Machine

open Sys2Proof

/-! ### Reasons -/

section Reasons

variable {s : State} {i : Fin 32} (service : inService s = true)

include service

theorem prepReason_accepts (st : s.sc.sect[i.1].st = .disturbed ∨ s.sc.sect[i.1].st = .prepared) (sound : anyFault i s = false) :
    prepReason i s = 0 := by
  obtain st | st := st <;> simp [prepReason, service, st, sound]

theorem prepReason_fault (st : s.sc.sect[i.1].st = .disturbed) (fault : anyFault i s = true) : prepReason i s = 5 := by
  simp [prepReason, service, st, fault]

theorem directReason_accepts (st : s.sc.sect[i.1].st = .disturbed) (allowed : bitOf s.cfg.section_[i.1] 1 = true)
    (sound : anyFault i s = false) (settled : secPending i s = false) (idle : idle10s i s = true) : directReason i s = 0 := by
  simp [directReason, service, st, allowed, sound, settled, idle]

theorem directReason_barred (on : s.sc.sect[i.1].st ≠ .disabled) (barred : bitOf s.cfg.section_[i.1] 1 = false) :
    directReason i s = 3 := by
  simp [directReason, service, on, barred]

end Reasons

/-! ### One order -/

/-- The reason for which an order is refused, 0 none. -/
def orderReason (o : ROrder) (s : State) : Nat := if o.direct then directReason o.sect s else prepReason o.sect s

theorem orderReason_of_prep {o : ROrder} (prep : o.direct = false) (s : State) : orderReason o s = prepReason o.sect s := by
  simp only [orderReason, prep, Bool.false_eq_true, if_false]

theorem orderReason_of_direct {o : ROrder} (direct : o.direct = true) (s : State) :
    orderReason o s = directReason o.sect s := if_pos direct

/-- The step that an order comes to. -/
def orderStep (o : ROrder) (reason : Nat) : Nat :=
  if reason ≠ 0 then if o.direct then 6 else 2 else if o.direct then 5 else 1

/-- The section's entry as an accepted order restarts it, in its former state. -/
def orderedSect (o : ROrder) (x : Sect) : Sect :=
  { putCount 0 x with outside := false, entries := if o.direct then x.entries else 0 }

/-- The state that an accepted order gives. -/
def orderedState (o : ROrder) : SecState := if o.direct then .clear else .prepared

section Order

variable {s : State} {o : ROrder}

/-- A refused order is noted and reported. -/
theorem applyOrder_refused (refused : orderReason o s ≠ 0) :
    LanesOnly (noteStep o (orderStep o (orderReason o s)) (orderReason o s) s) (applyOrder s o) := by
  rw [orderStep, if_pos refused, show applyOrder s o = raiseRec _ _ _ from if_pos refused]
  exact lanesOnly_raiseRec _ _ _

/-- An accepted order is noted and reported, and restarts the section in its new state. -/
theorem applyOrder_accepted (accepted : orderReason o s = 0) : ∃ y, LanesOnly (noteStep o (orderStep o 0) 0 s) y ∧
    applyOrder s o = secSet o.sect (orderedState o) 0 none (setSect o.sect (orderedSect o) y) :=
  ⟨_, lanesOnly_raise _ _ _, if_neg (not_not.2 accepted)⟩

theorem sectionsOnly_applyOrder (o : ROrder) (s : State) : SectionsOnly s (applyOrder s o) := by
  have noted (step reason : Nat) : SectionsOnly s (noteStep o step reason s) := rfl
  by_cases accepted : orderReason o s = 0
  · obtain ⟨y, reported, applied⟩ := applyOrder_accepted accepted
    have restarted : SectionsOnly y (setSect o.sect (orderedSect o) y) := rfl
    rw [applied]
    exact ((noted _ _).trans reported.sectionsOnly).trans (restarted.trans (secSet_parts _ _ _ _ _).1)
  · exact (noted _ _).trans (applyOrder_refused accepted).sectionsOnly

/-- STATUS acknowledges the order, with its section and its result. -/
theorem applyOrder_tg (o : ROrder) (s : State) :
    (applyOrder s o).tg = (noteStep o (orderStep o (orderReason o s)) (orderReason o s) s).tg := by
  by_cases accepted : orderReason o s = 0
  · obtain ⟨y, reported, applied⟩ := applyOrder_accepted accepted
    rw [applied, secSet_tg, setSect_tg, reported.tg_eq, accepted]
  · exact (applyOrder_refused accepted).tg_eq

theorem applyOrder_sect_refused (refused : orderReason o s ≠ 0) : (applyOrder s o).sc.sect[o.sect.1] = s.sc.sect[o.sect.1] := by
  rw [(applyOrder_refused refused).sc_eq]
  rfl

theorem applyOrder_sect_accepted (accepted : orderReason o s = 0) :
    (applyOrder s o).sc.sect[o.sect.1] = sectIn (orderedState o) 0 (orderedSect o s.sc.sect[o.sect.1]) := by
  obtain ⟨y, reported, applied⟩ := applyOrder_accepted accepted
  simp only [applied, secSet_same, setSect_sc, get_upd_same, reported.sc_eq]
  rfl

end Order

/-! ### SECTION_RESET_APPLY -/

/-- At the tick instant, the orders taken. -/
abbrev ordersTaken (s : State) : State := { atTick s with sc := { (atTick s).sc with orders := [] } }

section Apply

variable {s : State} {o : ROrder}

theorem exec_sectionResetApply (service : inService s = true) (waits : s.sc.orders = [o]) :
    exec .sectionResetApply s = .next (secEvalAll none (applyOrder (ordersTaken s) o)) := by
  have runs : ¬(s.sc.orders.isEmpty || s.sys.mode = .reset || clockSafe s) = true := by
    obtain mode | mode : s.sys.mode = .operate ∨ s.sys.mode = .degraded := by simpa [inService] using service
    all_goals simp [waits, clockSafe, mode]
  have taken : (reachTick s).sc.orders = [o] := waits
  refine congrArg Host.Outcome.next ((if_neg runs).trans ?_)
  rw [applyOrders, taken]
  rfl

/-- The evaluation after the order keeps what STATUS says of it while no sweep of its section ends. -/
theorem rstep_of_unswept {reason : Nat} {y : State} (because : orderReason o y = reason)
    (unswept : Unswept (applyOrder y o).sc.sect[o.sect.1]) :
    (secEvalAll none (applyOrder y o)).tg.rstep = BitVec.ofNat 8 (orderStep o reason + 8 * reason) := by
  have noted := applyOrder_tg o y
  rw [secEvalAll_tg none (i := o.sect) (by rw [noted]; rfl) unswept, noted, because]
  rfl

end Apply

/-! ### The statement -/

/-- Settles O23: the reason of Table SC-8 decides the order (`applyOrder_refused`, `applyOrder_accepted`), and the evaluation after it
leaves the section and its STATUS, since it is disturbed, its sweep has not ended, or it is clear and settled. -/
theorem sectionResetsFollowTableScEight : Obligations.SectionResetsFollowTableScEight := by
  unfold Obligations.SectionResetsFollowTableScEight
  intro s o service waits
  have inService' : inService (ordersTaken s) = true := service
  have work : SectionsOnly (ordersTaken s) (applyOrder (ordersTaken s) o) := sectionsOnly_applyOrder _ _
  refine ⟨_, exec_sectionResetApply service waits, ?taken, ?acknowledged, fun prep st sound => ?prepared, fun prep fault st => ?faulted,
    fun direct st allowed sound settled idle free => ?cleared, fun direct barred on sweep => ?barred⟩
  case taken => exact (sectionsOnly_secEvalAll none _).orders_eq.trans work.orders_eq
  case acknowledged =>
    rw [secEvalAll_rack, applyOrder_tg]
    rfl
  case prepared =>
    have reason : orderReason o (ordersTaken s) = 0 :=
      (orderReason_of_prep prep _).trans (prepReason_accepts inService' st sound)
    have entry := applyOrder_sect_accepted reason
    simp only [orderedState, orderedSect, prep] at entry
    have now : (applyOrder (ordersTaken s) o).sc.sect[o.sect.1].st = .prepared := by rw [entry]; rfl
    have unswept : Unswept (applyOrder (ordersTaken s) o).sc.sect[o.sect.1] := fun _ => by simp [entry, sectIn]
    rw [rstep_of_unswept reason unswept, secEvalAll_sect_of_settled none (secEval_prepared none now (unswept now)), entry]
    simp [sectIn, putCount, orderStep, prep]
  case faulted =>
    have reason : orderReason o (ordersTaken s) = 5 :=
      (orderReason_of_prep prep _).trans (prepReason_fault inService' st fault)
    have entry := applyOrder_sect_refused (o := o) (s := ordersTaken s) (by rw [reason]; decide)
    have disturbed := (congrArg Sect.st entry).trans st
    rw [rstep_of_unswept reason fun prepared => by simp [disturbed] at prepared,
      secEvalAll_sect_of_settled none (secEval_disturbed none disturbed), entry]
    exact ⟨by simp [orderStep, prep], st, rfl⟩
  case cleared =>
    have reason : orderReason o (ordersTaken s) = 0 :=
      (orderReason_of_direct direct _).trans (directReason_accepts inService' st allowed sound settled idle)
    have entry := applyOrder_sect_accepted reason
    simp only [orderedState, orderedSect, direct] at entry
    have calm : secEval none (applyOrder (ordersTaken s) o) o.sect = applyOrder (ordersTaken s) o :=
      secEval_clear none (by simp [entry, sectIn]) ((work.anyBusy_eq _).trans free) (by simp [entry, sectIn, putCount])
        ((work.pendOther_eq _).trans (pendOther_of_not_secPending settled))
    rw [rstep_of_unswept reason fun prepared => by simp [entry, sectIn] at prepared, secEvalAll_sect_of_settled none calm, entry]
    simp [sectIn, putCount, orderStep, direct]
  case barred =>
    have reason : orderReason o (ordersTaken s) = 3 :=
      (orderReason_of_direct direct _).trans (directReason_barred inService' on barred)
    have entry := applyOrder_sect_refused (o := o) (s := ordersTaken s) (by rw [reason]; decide)
    rw [rstep_of_unswept reason (entry ▸ sweep)]
    simp [orderStep, direct]

end Sys2Proof.Machine
end

section
/-! PROOFS. Walks of the wheel entries (R192 to R197, R219, R222): what the read of a tack record finds, what the update of its link
makes of the count, and what a walk fault leaves. -/

namespace Sys2Proof.Machine

open Sys2Proof

/-! ### What the ECC finds (R518) -/

/-- Only the stitching block, the events and the NVM block may differ. -/
def StitchingOnly (s t : State) : Prop := t = { s with st := t.st, ev := t.ev, nv := t.nv }

section Stitching

variable {s t u : State} (area : Fin 10) (row : Byte)

theorem StitchingOnly.trans (h₁ : StitchingOnly s t) (h₂ : StitchingOnly t u) : StitchingOnly s u := Eq.trans h₂ (by rw [h₁])

theorem StitchingOnly.sc_eq (h : StitchingOnly s t) : t.sc = s.sc := by rw [h]
theorem StitchingOnly.hd_eq (h : StitchingOnly s t) : t.hd = s.hd := by rw [h]
theorem StitchingOnly.sys_eq (h : StitchingOnly s t) : t.sys = s.sys := by rw [h]
theorem StitchingOnly.now_eq (h : StitchingOnly s t) : t.now = s.now := by rw [h]

theorem stitchingOnly_setSt (f : St → St) (s : State) : StitchingOnly s (setSt f s) := rfl

theorem stitchingOnly_raise (code : Nat) (data : W16) (s : State) : StitchingOnly s (raise code data s) := by
  obtain ⟨e, raised⟩ := raise_frame code data s
  rw [raised]
  rfl

theorem stitchingOnly_raiseRec (code : Nat) (data : W16) (s : State) : StitchingOnly s (raiseRec code data s) := by
  obtain ⟨e, v, recorded, -⟩ := record_frame 5 code (bytesLE 2 data.toNat) (raise code data s)
  refine (stitchingOnly_raise code data s).trans ?_
  rw [raiseRec, eventRecord, recorded]
  rfl

theorem stitchingOnly_lowCheck (s : State) : StitchingOnly s (lowCheck area row s) := by
  unfold lowCheck
  split
  · exact (stitchingOnly_setSt _ _).trans (stitchingOnly_raiseRec _ _ _)
  · rfl

theorem stitchingOnly_stitchRow (cause : Nat) (s : State) : StitchingOnly s (stitchRow area row cause s) := by
  unfold stitchRow
  dsimp only
  split
  · rfl
  · split
    · exact ((stitchingOnly_setSt _ _).trans (stitchingOnly_setSt _ _)).trans (stitchingOnly_lowCheck _ _ _)
    · exact (stitchingOnly_setSt _ _).trans (stitchingOnly_raiseRec _ _ _)

theorem stitchingOnly_eccUncorrectable (s : State) : StitchingOnly s (eccUncorrectable area row s) :=
  ((stitchingOnly_setSt _ _).trans (stitchingOnly_raise _ _ _)).trans (stitchingOnly_stitchRow _ _ _ _)

theorem stitchingOnly_tackEcc_uncorrectable (a : Nat) (s : State) : StitchingOnly s (tackEcc s (a, .uncorrectable)) :=
  stitchingOnly_eccUncorrectable _ _ _

theorem tackEcc_good (a : Nat) (s : State) : tackEcc s (a, .good) = s := rfl

end Stitching

/-! ### A tack record of one link (R189, R194) -/

/-- The word that links section `i` in direction `dir`. -/
abbrev linkWord (i : Fin 32) (dir : Bool) : W32 :=
  BitVec.ofNat 32 ((0xFFFF - (i.1 + if dir then 32 else 0)) * 2 ^ 16 + i.1 + if dir then 32 else 0)

/-- The directory word of head `h` with one link at `lo`. -/
abbrev directoryWord (h : Fin 32) (lo : Nat) : W32 := BitVec.ofNat 32 (h.1 * 2 ^ 26 + 2 ^ 20 + lo)

theorem linkWord_parts : ∀ (i : Fin 32) (dir : Bool),
    linkForm (linkWord i dir) = true ∧ (linkWord i dir).toNat % 32 = i.1 ∧ bitOf (linkWord i dir) 5 = dir := by decide

theorem directoryWord_toNat (h : Fin 32) {lo : Nat} (high : lo < 0x80000) :
    (directoryWord h lo).toNat = h.1 * 2 ^ 26 + 2 ^ 20 + lo := by
  rw [BitVec.toNat_ofNat]
  omega

section Read

variable {s : State} {h i : Fin 32} {dir : Bool} {lo : Nat} {ecc : Vector Ecc 33}

theorem walkLinks_one (word : tackWord s lo = linkWord i dir) {mask : W32} (named : bitOf mask i.1 = true) :
    walkLinks s (Vector.replicate 33 .good) mask lo 1 0 = { links := [(i, dir)], words := [(lo, .good)] } := by
  obtain ⟨form, sect, direction⟩ := linkWord_parts i dir
  rw [walkLinks]
  generalize linkWord i dir = w at *
  have same : linkSect w = i := Fin.ext sect
  simp [walkLinks, word, form, sect, named, same, direction]

/-- A good record of one link is read with its directory word. -/
theorem walkRead_one (directory : tackWord s (0x7E010 + 4 * h.1) = directoryWord h lo) (aligned : lo % 4 = 0)
    (low : 0x7E000 ≤ lo) (high : lo < 0x80000) (word : tackWord s lo = linkWord i dir)
    (named : bitOf s.hd.head[h.1].mask1 i.1 = true) : walkRead h (Vector.replicate 33 .good) s =
      { links := [(i, dir)], words := [(0x7E010 + 4 * h.1, .good), (lo, .good)] } := by
  have count : (directoryWord h lo).toNat / 2 ^ 20 % 64 = 1 := by rw [directoryWord_toNat h high]; omega
  have start : (directoryWord h lo).toNat % 2 ^ 20 = lo := by rw [directoryWord_toNat h high]; omega
  have owner : (directoryWord h lo).toNat / 2 ^ 26 % 32 = h.1 := by rw [directoryWord_toNat h high]; omega
  have inTable : ¬(lo ≤ 0xFFFFF ∧ 0xF0000 ≤ lo + 4 * 1 - 1) := by omega
  have inRegion : ¬(lo % 4 ≠ 0 ∨ lo < 0x7E000 ∨ 0x7FFFF < lo + 4 * 1 - 1) := by omega
  have good : (Vector.replicate 33 Ecc.good)[0] = .good := rfl
  simp only [walkRead, directory, count, start, owner, good, if_neg inTable, if_neg inRegion, walkLinks_one word named]
  simp

theorem walkRead_uncorrectable (bad : ecc[0] = .uncorrectable) :
    walkRead h ecc s = { bad := some (3, 0, false), words := [(0x7E010 + 4 * h.1, .uncorrectable)] } := by
  simp [walkRead, bad]

end Read

/-! ### The count moves (R195, R210) -/

section Anomaly

variable (hv : Option (Fin 32)) (i : Fin 32) (s : State)

/-- The anomaly noted and reported, where it is new. -/
def anomalyNoted (i : Fin 32) (s : State) : State :=
  if s.sc.sect[i.1].outside then s
  else raiseRec (0x100 + 4 * i.1 + 1) s.sc.sect[i.1].count
    (setSect i (fun y => { y with outside := true, anom := satInc y.anom }) s)

theorem anomaly_eq : anomaly hv s i = if countOut s.sc.sect[i.1].count then disturb i 6 hv (anomalyNoted i s)
    else setSect i (fun y => { y with outside := false }) s := rfl

theorem anomalyNoted_parts : SectionsOnly s (anomalyNoted i s) ∧ CountsKept s (anomalyNoted i s) ∧
    (anomalyNoted i s).sc.sect[i.1].st = s.sc.sect[i.1].st := by
  unfold anomalyNoted
  split
  · exact ⟨.refl s, .refl s, rfl⟩
  · have marked : CountsKept s (setSect i (fun y => { y with outside := true, anom := satInc y.anom }) s) :=
      countsKept_setSect i fun _ => ⟨rfl, rfl⟩
    have reported := lanesOnly_raiseRec (0x100 + 4 * i.1 + 1) s.sc.sect[i.1].count
      (setSect i (fun y => { y with outside := true, anom := satInc y.anom }) s)
    refine ⟨(sectionsOnly_setSect i _ s).trans reported.sectionsOnly, marked.trans reported.countsKept, ?_⟩
    simp only [reported.sc_eq, setSect_sc, get_upd_same]

theorem anomaly_parts : SectionsOnly s (anomaly hv s i) ∧ CountsKept s (anomaly hv s i) := by
  obtain ⟨work, counts, -⟩ := anomalyNoted_parts i s
  rw [anomaly_eq]
  split
  · exact ⟨work.trans (sectionsOnly_disturb i _ _ _), counts.trans (countsKept_disturb i _ _ _)⟩
  · exact ⟨rfl, countsKept_setSect i fun _ => ⟨rfl, rfl⟩⟩

theorem anomaly_disturbs (out : countOut s.sc.sect[i.1].count = true) (on : s.sc.sect[i.1].st ≠ .disabled) :
    (anomaly hv s i).sc.sect[i.1].st = .disturbed := by
  obtain ⟨-, -, st⟩ := anomalyNoted_parts i s
  rw [anomaly_eq, if_pos out, disturb_same i 6 hv _ (by rwa [st])]
  rfl

end Anomaly

section Apply

variable (e : WEntry) (i : Fin 32) (dir : Bool) (s : State)

/-- The link's update with the activity it brings. -/
abbrev linkApplied : State := activity i e.at_ (applyLink e.inward s (i, dir))

theorem walkApply_one : walkApply e [(i, dir)] s =
    secEvalAll (some e.head) (anomaly (some e.head) (linkApplied e i dir s) i) := by
  simp only [walkApply, List.foldl_cons, List.foldl_nil]

theorem linkApplied_same : (linkApplied e i dir s).sc.sect[i.1].count = countMove s.sc.sect[i.1].count (e.inward != dir) ∧
    (linkApplied e i dir s).sc.sect[i.1].compl = ~~~countMove s.sc.sect[i.1].count (e.inward != dir) ∧
    (linkApplied e i dir s).sc.sect[i.1].st = s.sc.sect[i.1].st := by
  simp only [linkApplied, activity, applyLink, setSect_sc, get_upd_same, putCount, and_self]

theorem linkApplied_other {j : Fin 32} (other : j ≠ i) : (linkApplied e i dir s).sc.sect[j.1] = s.sc.sect[j.1] := by
  simp only [linkApplied, activity, applyLink, setSect_sc, get_upd_of_ne _ _ other]

theorem walkApply_parts : SectionsOnly s (walkApply e [(i, dir)] s) ∧
    CountsKept (linkApplied e i dir s) (walkApply e [(i, dir)] s) := by
  obtain ⟨work, counts⟩ := anomaly_parts (some e.head) i (linkApplied e i dir s)
  have applied : SectionsOnly s (linkApplied e i dir s) := rfl
  rw [walkApply_one]
  exact ⟨(applied.trans work).trans (sectionsOnly_secEvalAll _ _), counts.trans (countsKept_secEvalAll _ _)⟩

theorem walkApply_disturbs (out : countOut (walkApply e [(i, dir)] s).sc.sect[i.1].count = true)
    (on : s.sc.sect[i.1].st ≠ .disabled) : (walkApply e [(i, dir)] s).sc.sect[i.1].st = .disturbed := by
  obtain ⟨-, counts⟩ := walkApply_parts e i dir s
  obtain ⟨-, -, st⟩ := linkApplied_same e i dir s
  rw [(counts i).1] at out
  rw [walkApply_one]
  exact secEvalAll_disturbed i _ (anomaly_disturbs _ i _ out (by rwa [st]))

end Apply

/-- A count at its end of the range stays there. -/
theorem countMove_eq (v : W16) (up : Bool) : countMove v up =
    if up then (if v = 0x7FFF then 0x7FFF else v + 1) else (if v = 0x8000 then 0x8000 else v - 1) := by
  have stays (bound next : W16) : (if v = bound then v else next) = if v = bound then bound else next :=
    ite_congr rfl id fun _ => rfl
  rw [countMove, stays 0x7FFF, stays 0x8000]

theorem countOut_iff {v : W16} : countOut v = true ↔ v.toInt < 0 ∨ 2000 < v.toInt := by simp [countOut]

/-! ### A walk fault (R219, R222) -/

/-- The fault counted and latched. -/
abbrev faultCounted (w : W16) (s : State) : State := { s with sc := { s.sc with walkFlt := satInc s.sc.walkFlt, lastFlt := w } }

/-- The fault counted and reported, the head's sections disturbed. -/
def faultDisturbed (h : Fin 32) (f : Nat × Nat × Bool) (s : State) : State :=
  let m := s.hd.head[h.1].mask1
  let w := walkWord f h (lowSect m).isNone
  disturbMask m 4 (some h) (raiseRec (0x100 + 4 * ((lowSect m).getD 0).1 + 3) w (faultCounted w s))

/-- A tack refresh has begun. -/
abbrev refreshBegun (s : State) : State := { s with sc := { s.sc with refresh := some s.now } }

theorem countsKept_refreshBegun (s : State) : CountsKept s (refreshBegun s) := .of_sect_eq rfl

section Fault

variable (h : Fin 32) (f : Nat × Nat × Bool) (s : State)

theorem faultDisturbed_parts : (∃ w, SectionsOnly (faultCounted w s) (faultDisturbed h f s)) ∧
    CountsKept s (faultDisturbed h f s) := by
  have reported (code : Nat) (w : W16) := lanesOnly_raiseRec code w (faultCounted w s)
  exact ⟨⟨_, (reported _ _).sectionsOnly.trans (sectionsOnly_disturbMask _ _ _ _)⟩,
    (CountsKept.of_sect_eq rfl).trans ((reported _ _).countsKept.trans (countsKept_disturbMask _ _ _ _))⟩

theorem faultDisturbed_disturbs {i : Fin 32} (named : bitOf s.hd.head[h.1].mask1 i.1 = true)
    (on : s.sc.sect[i.1].st ≠ .disabled) : (faultDisturbed h f s).sc.sect[i.1].st = .disturbed := by
  refine disturbMask_st i 4 (some h) _ _ named ?_
  rwa [(lanesOnly_raiseRec _ _ _).sc_eq]

theorem walkFault_eq : walkFault h f s = match (faultDisturbed h f s).sc.refreshed with
    | some r => if (faultDisturbed h f s).now < r + 60000000 then enterSafe 3 0x0001 (faultDisturbed h f s)
        else refreshStart (faultDisturbed h f s)
    | none => refreshStart (faultDisturbed h f s) := rfl

variable {h f s}

/-- The first walk fault starts a refresh. -/
theorem walkFault_refreshes (idle : s.sc.refresh = none) (never : s.sc.refreshed = none) :
    walkFault h f s = secEvalAll none (refreshBegun (faultDisturbed h f s)) := by
  obtain ⟨⟨w, work⟩, -⟩ := faultDisturbed_parts h f s
  have refreshed : (faultDisturbed h f s).sc.refreshed = none := work.refreshed_eq.trans never
  have refresh : (faultDisturbed h f s).sc.refresh = none := work.refresh_eq.trans idle
  rw [walkFault_eq, refreshed]
  simp only [refreshStart, refresh, Option.isSome_none, Bool.false_eq_true, if_false]

/-- It keeps the entries that wait, the walks and the counts, is counted, and disturbs the head's sections. -/
theorem walkFault_refreshes_parts (idle : s.sc.refresh = none) (never : s.sc.refreshed = none) :
    (walkFault h f s).sc.fifo = s.sc.fifo ∧ (walkFault h f s).sc.walks = s.sc.walks ∧
      (walkFault h f s).sc.walkFlt = satInc s.sc.walkFlt ∧ (walkFault h f s).sc.refresh = some s.now ∧
      CountsKept s (walkFault h f s) ∧ ∀ i : Fin 32, bitOf s.hd.head[h.1].mask1 i.1 = true →
        s.sc.sect[i.1].st ≠ .disabled → (walkFault h f s).sc.sect[i.1].st = .disturbed := by
  rw [walkFault_refreshes idle never]
  obtain ⟨⟨w, work⟩, counts⟩ := faultDisturbed_parts h f s
  have evaluated := sectionsOnly_secEvalAll none (refreshBegun (faultDisturbed h f s))
  have begun := countsKept_refreshBegun (faultDisturbed h f s)
  have disturbs (i : Fin 32) (named : bitOf s.hd.head[h.1].mask1 i.1 = true) (on : s.sc.sect[i.1].st ≠ .disabled) :
      (refreshBegun (faultDisturbed h f s)).sc.sect[i.1].st = .disturbed := faultDisturbed_disturbs h f s named on
  exact ⟨evaluated.fifo_eq.trans work.fifo_eq, evaluated.walks_eq.trans work.walks_eq,
    evaluated.walkFlt_eq.trans work.walkFlt_eq, evaluated.refresh_eq.trans (congrArg some work.now_eq),
    counts.trans (begun.trans (countsKept_secEvalAll none _)),
    fun i named on => secEvalAll_disturbed i none ((disturbs i named on :))⟩

/-- A walk fault soon after a refresh enters SAFE. -/
theorem walkFault_enters {r : Nat} (last : s.sc.refreshed = some r) (soon : s.now < r + 60000000) :
    walkFault h f s = enterSafe 3 0x0001 (faultDisturbed h f s) := by
  obtain ⟨⟨w, work⟩, -⟩ := faultDisturbed_parts h f s
  have refreshed : (faultDisturbed h f s).sc.refreshed = some r := work.refreshed_eq.trans last
  have now : (faultDisturbed h f s).now = s.now := work.now_eq
  rw [walkFault_eq, refreshed]
  simp only [now, if_pos soon]

theorem inSafe_walkFault {r : Nat} (last : s.sc.refreshed = some r) (soon : s.now < r + 60000000)
    (notReset : s.sys.mode ≠ .reset) (notSafe : s.sys.mode ≠ .safe) : InSafe (walkFault h f s) 3 1 := by
  obtain ⟨⟨w, work⟩, -⟩ := faultDisturbed_parts h f s
  have sys : (faultDisturbed h f s).sys = s.sys := work.sys_eq
  rw [walkFault_enters last soon]
  exact inSafe_enterSafe (by rwa [sys]) (by rwa [sys]) 3 1

end Fault

/-! ### WALK (R192, R194) -/

/-- The first entry taken. -/
abbrev entryTaken (q : List WEntry) (s : State) : State := { s with sc := { s.sc with fifo := q } }

/-- A walk counted, its time noted. -/
abbrev walkCounted (n : Nat) (s : State) : State := walkTime n { s with sc := { s.sc with walks := s.sc.walks + 1 } }

/-- What a walk makes of what it read. -/
def walkDone (e : WEntry) (r : WalkOut) (s : State) : State :=
  match r.bad with
  | some f => walkFault e.head f (r.words.foldl tackEcc s)
  | none => walkApply e r.links (walkCounted r.links.length (r.words.foldl tackEcc s))

/-- The entry taken, its walk counted and timed. -/
abbrev entryWalked (q : List WEntry) (m : W16) (s : State) : State :=
  { s with free := s.free + 1, sc := { s.sc with fifo := q, walks := s.sc.walks + 1, walkMax := m } }

theorem walkCounted_frame (n : Nat) (s : State) : ∃ m, walkCounted n s =
    { s with free := s.free + 1, sc := { s.sc with walks := s.sc.walks + 1, walkMax := m } } := ⟨_, rfl⟩

section Runs

variable {s : State} {e : WEntry} {q : List WEntry} (ecc : Vector Ecc 33) (loaded : s.sys.loaded = true)
  (notReset : s.sys.mode ≠ .reset) (notSafe : s.sys.mode ≠ .safe) (noRefresh : s.sc.refresh = none) (first : s.sc.fifo = e :: q)

include loaded notReset notSafe noRefresh first

theorem exec_walk : exec (.walk ecc) s = .next (if s.hd.head[e.head.1].reload then secEvalAll none (entryTaken q s)
    else walkDone e (walkRead e.head ecc (entryTaken q s)) (entryTaken q s)) := by
  have runs : ¬(!walkerRuns s) = true := by
    simp [walkerRuns, imageRuns, imageTaken, loaded, notReset, notSafe, noRefresh]
  refine congrArg Host.Outcome.next ((if_neg runs).trans ?_)
  rw [first]
  rfl

theorem exec_walk_reload (reload : s.hd.head[e.head.1].reload = true) :
    exec (.walk ecc) s = .next (secEvalAll none (entryTaken q s)) := by
  rw [exec_walk ecc loaded notReset notSafe noRefresh first, if_pos reload]

theorem exec_walk_read (ready : s.hd.head[e.head.1].reload = false) :
    exec (.walk ecc) s = .next (walkDone e (walkRead e.head ecc (entryTaken q s)) (entryTaken q s)) := by
  rw [exec_walk ecc loaded notReset notSafe noRefresh first, if_neg (by simp [ready])]

/-- An uncorrectable directory word is a walk fault. -/
theorem exec_walk_uncorrectable (ready : s.hd.head[e.head.1].reload = false) (bad : ecc[0] = .uncorrectable) :
    ∃ y, StitchingOnly (entryTaken q s) y ∧ exec (.walk ecc) s = .next (walkFault e.head (3, 0, false) y) := by
  refine ⟨_, stitchingOnly_tackEcc_uncorrectable (0x7E010 + 4 * e.head.1) (entryTaken q s), ?_⟩
  rw [exec_walk_read ecc loaded notReset notSafe noRefresh first ready, walkRead_uncorrectable bad]
  rfl

end Runs

/-- A good record of one link is applied. -/
theorem walkDone_one (e : WEntry) (i : Fin 32) (dir : Bool) (a lo : Nat) (s : State) :
    walkDone e { links := [(i, dir)], words := [(a, .good), (lo, .good)] } s = walkApply e [(i, dir)] (walkCounted 1 s) := by
  simp only [walkDone, List.foldl_cons, List.foldl_nil, tackEcc_good, List.length_cons, List.length_nil]

/-! ### The statement -/

/-- Settles O21: a good record of one link applies it once (`walkDone_one`), and no disturbance or evaluation after it moves a count
(`CountsKept`); an uncorrectable word is a walk fault, which disturbs the head's sections and starts a refresh
(`walkFault_refreshes_parts`) or enters SAFE (`inSafe_walkFault`). -/
theorem walksMoveCountsOrDisturbSections : Obligations.WalksMoveCountsOrDisturbSections := by
  unfold Obligations.WalksMoveCountsOrDisturbSections
  refine ⟨fun s e q lo i dir loaded notReset notSafe noRefresh first ready directory aligned low high word named => ?applied,
    fun s e q ecc loaded notReset notSafe noRefresh first =>
      ⟨fun reload => ?reload, fun ready bad never => ?faulted, fun ready bad soon => ?safe⟩⟩
  case applied =>
    have read := exec_walk_read (Vector.replicate 33 .good) loaded notReset notSafe noRefresh first ready
    obtain ⟨m, timed⟩ := walkCounted_frame 1 (entryTaken q s)
    rw [walkRead_one (s := entryTaken q s) directory aligned low high word named, walkDone_one, timed] at read
    obtain ⟨work, counts⟩ := walkApply_parts e i dir (entryWalked q m s)
    obtain ⟨count, compl, -⟩ := linkApplied_same e i dir (entryWalked q m s)
    refine ⟨_, read, ?fifo, ?walks, ?count, ?compl, fun j other => ?others, fun out on => ?disturbed, ?frame⟩
    case fifo | walks => rw [work.sc_eq]
    case count => rw [(counts i).1, count, countMove_eq]
    case compl => rw [(counts i).2, (counts i).1, compl, count]
    case others => rw [(counts j).1, linkApplied_other e i dir _ other]
    case disturbed => exact walkApply_disturbs e i dir _ (countOut_iff.2 out) on
    case frame =>
      refine Eq.trans work ?_
      rw [work.sc_eq]
  case reload =>
    have evaluated := sectionsOnly_secEvalAll none (entryTaken q s)
    exact ⟨_, exec_walk_reload ecc loaded notReset notSafe noRefresh first reload, evaluated.fifo_eq, evaluated.walks_eq⟩
  case faulted =>
    obtain ⟨y, found, read⟩ := exec_walk_uncorrectable ecc loaded notReset notSafe noRefresh first ready bad
    have sc : y.sc = (entryTaken q s).sc := found.sc_eq
    obtain ⟨fifo, walks, walkFlt, refresh, counts, disturbs⟩ := walkFault_refreshes_parts (h := e.head) (f := (3, 0, false))
      (show y.sc.refresh = none by rw [sc]; exact noRefresh) (by rw [sc]; exact never)
    rw [sc] at fifo walks walkFlt
    rw [found.now_eq] at refresh
    rw [found.hd_eq, sc] at disturbs
    exact ⟨_, read, fifo, walks, walkFlt, refresh, fun i => (counts i).1.trans (by rw [sc]), disturbs⟩
  case safe =>
    obtain ⟨r, last, soon⟩ := soon
    obtain ⟨y, found, read⟩ := exec_walk_uncorrectable ecc loaded notReset notSafe noRefresh first ready bad
    exact ⟨_, read, inSafe_walkFault (by rw [found.sc_eq]; exact last) (by rwa [found.now_eq]) (by rwa [found.sys_eq])
      (by rwa [found.sys_eq])⟩

end Sys2Proof.Machine
end

section
/-! PROOFS. The door block seen through its updates (chapter 07): what reports, lockouts, degraded faults and the evaluation of a
pair leave alone, and what they make of a channel. -/

namespace Sys2Proof.Machine

open Sys2Proof

/-! ### The mode in service -/

section Service

variable {s : State}

theorem mode_of_inService (service : inService s = true) : s.sys.mode = .operate ∨ s.sys.mode = .degraded := by
  simpa [inService] using service

theorem notReset_of_inService (service : inService s = true) : s.sys.mode ≠ .reset := by
  obtain mode | mode := mode_of_inService service <;> simp [mode]

theorem notSafe_of_inService (service : inService s = true) : s.sys.mode ≠ .safe := by
  obtain mode | mode := mode_of_inService service <;> simp [mode]

theorem clockSafe_of_inService (service : inService s = true) : clockSafe s = false := by
  simp [clockSafe, notSafe_of_inService service]

theorem contactsRun_of_loaded (loaded : s.sys.loaded = true) (notReset : s.sys.mode ≠ .reset) (clock : clockSafe s = false) :
    contactsRun s = true := by
  simp [contactsRun, imageRuns, imageTaken, loaded, notReset, clock]

theorem contactsRun_of_inService (service : inService s = true) (loaded : s.sys.loaded = true) : contactsRun s = true :=
  contactsRun_of_loaded loaded (notReset_of_inService service) (clockSafe_of_inService service)

end Service

/-! ### Reports and degraded items leave the doors -/

section Reports

variable (c : Fin 16) (w : W16) (k : Fin 10) (unit : Nat) (s : State)

theorem raiseRec_frame (code : Nat) : ∃ e v, raiseRec code w s = { s with ev := e, nv := v } := by
  obtain ⟨e, raised⟩ := raise_frame code w s
  obtain ⟨e', v, recorded, -⟩ := record_frame 5 code (bytesLE 2 w.toNat) { s with ev := e }
  exact ⟨e', v, by rw [raiseRec, eventRecord, raised, recorded]⟩

@[simp] theorem raiseRec_dc (code : Nat) : (raiseRec code w s).dc = s.dc := by simp [raiseRec, eventRecord]
@[simp] theorem discEvent_dc : (discEvent c w s).dc = s.dc := raiseRec_dc _ _ _
@[simp] theorem rbEvent_dc : (rbEvent c w s).dc = s.dc := raiseRec_dc _ _ _
@[simp] theorem writeDoor_dc : (writeDoor c s).dc = s.dc := rfl

@[simp] theorem setItem_dc : (setItem k unit s).dc = s.dc := by
  unfold setItem
  dsimp only
  split <;> simp

@[simp] theorem clearUnit_dc : (clearUnit k unit s).dc = s.dc := by
  unfold clearUnit
  dsimp only
  split <;> simp

@[simp] theorem raiseRec_sys (code : Nat) : (raiseRec code w s).sys = s.sys := by simp [raiseRec, eventRecord]
@[simp] theorem discEvent_sys : (discEvent c w s).sys = s.sys := raiseRec_sys _ _ _
@[simp] theorem rbEvent_sys : (rbEvent c w s).sys = s.sys := raiseRec_sys _ _ _

end Reports

/-! ### What lies outside the doors -/

/-- The state without the doors, the reports and the degraded items: what the work of chapter 07 leaves alone. -/
def outsideDoors (s : State) : State :=
  { s with dc := {}, ev := {}, nv := {}, sys := { s.sys with degsrc := 0, deg := Vector.replicate 10 {} } }

section Outside

variable {s t : State}

theorem doorsFrame_of_outsideDoors (h : outsideDoors t = outsideDoors s) :
    t = { s with dc := t.dc, ev := t.ev, nv := t.nv, sys := t.sys } := by
  cases s
  cases t
  simp_all [outsideDoors]

/-- Without a change of the degraded items the mode block stays as it is. -/
theorem doorsFrame_of_sys_eq (h : outsideDoors t = outsideDoors s) (sys : t.sys = s.sys) :
    t = { s with dc := t.dc, ev := t.ev, nv := t.nv } := by
  have frame := doorsFrame_of_outsideDoors h
  rwa [sys] at frame

theorem now_eq_of_outsideDoors (h : outsideDoors t = outsideDoors s) : t.now = s.now :=
  show (outsideDoors t).now = (outsideDoors s).now by rw [h]

theorem grid_eq_of_outsideDoors (h : outsideDoors t = outsideDoors s) : t.grid = s.grid :=
  show (outsideDoors t).grid = (outsideDoors s).grid by rw [h]

theorem cfg_eq_of_outsideDoors (h : outsideDoors t = outsideDoors s) : t.cfg = s.cfg :=
  show (outsideDoors t).cfg = (outsideDoors s).cfg by rw [h]

theorem mode_eq_of_outsideDoors (h : outsideDoors t = outsideDoors s) : t.sys.mode = s.sys.mode :=
  show (outsideDoors t).sys.mode = (outsideDoors s).sys.mode by rw [h]

/-- A blind window is a matter of the time, the configuration and the mode. -/
theorem blindSrc_congr (h : outsideDoors t = outsideDoors s) (n : Fin 4) : blindSrc n t = blindSrc n s :=
  show blindSrc n (outsideDoors t) = blindSrc n (outsideDoors s) by rw [h]

theorem chanOn_congr (h : t.cfg = s.cfg) (c : Fin 16) : chanOn c t = chanOn c s := by
  rw [chanOn, chanCfg, h, chanOn, chanCfg]

theorem contactUsed_congr (h : t.cfg = s.cfg) (i : Fin 66) : contactUsed i t = contactUsed i s :=
  calc contactUsed i t = contactUsed i { s with cfg := t.cfg } := rfl
    _ = contactUsed i s := by rw [h]

theorem sourceOf_congr (h : t.cfg = s.cfg) (i : Fin 66) : sourceOf i t = sourceOf i s :=
  calc sourceOf i t = sourceOf i { s with cfg := t.cfg } := rfl
    _ = sourceOf i s := by rw [h]

end Outside

section OutsideReports

variable (c : Fin 16) (w : W16) (k : Fin 10) (unit : Nat) (s : State)

@[simp] theorem outsideDoors_raise (code : Nat) : outsideDoors (raise code w s) = outsideDoors s := by
  obtain ⟨e, raised⟩ := raise_frame code w s
  rw [raised]
  rfl

@[simp] theorem outsideDoors_record (type code : Nat) (data : List Byte) :
    outsideDoors (record type code data s) = outsideDoors s := by
  obtain ⟨e, v, recorded, -⟩ := record_frame type code data s
  rw [recorded]
  rfl

@[simp] theorem outsideDoors_raiseRec (code : Nat) : outsideDoors (raiseRec code w s) = outsideDoors s := by
  simp [raiseRec, eventRecord]

@[simp] theorem outsideDoors_discEvent : outsideDoors (discEvent c w s) = outsideDoors s := outsideDoors_raiseRec _ _ _
@[simp] theorem outsideDoors_rbEvent : outsideDoors (rbEvent c w s) = outsideDoors s := outsideDoors_raiseRec _ _ _
@[simp] theorem outsideDoors_writeDoor : outsideDoors (writeDoor c s) = outsideDoors s := rfl

@[simp] theorem outsideDoors_setItem : outsideDoors (setItem k unit s) = outsideDoors s := by
  unfold setItem
  dsimp only
  split
  · rfl
  · rw [outsideDoors_record, outsideDoors_raise]
    rfl

@[simp] theorem outsideDoors_setChan (f : Chan → Chan) : outsideDoors (setChan c f s) = outsideDoors s := rfl
@[simp] theorem outsideDoors_setContact (i : Fin 66) (f : Contact → Contact) :
    outsideDoors (setContact i f s) = outsideDoors s := rfl
@[simp] theorem outsideDoors_lockout (hard sto source : Bool) :
    outsideDoors (lockout c hard sto source s) = outsideDoors s := rfl

end OutsideReports

/-! ### Updates of one contact or channel -/

theorem setContact_contact (i : Fin 66) (f : Contact → Contact) (s : State) :
    (setContact i f s).dc.contact[i.1] = f s.dc.contact[i.1] :=
  get_upd_same _ _ _

theorem setChan_chan (c : Fin 16) (f : Chan → Chan) (s : State) : (setChan c f s).dc.chan[c.1] = f s.dc.chan[c.1] :=
  get_upd_same _ _ _

/-- An update is what it makes of its entry. -/
theorem upd_congr {α : Type} {n : Nat} (v : Vector α n) (i : Fin n) {f g : α → α} (h : f v[i.1] = g v[i.1]) :
    upd v i f = upd v i g := by
  rw [upd, h, upd]

theorem upd_id {α : Type} {n : Nat} (v : Vector α n) (i : Fin n) : upd v i id = v := by
  rw [upd, id_eq, Vector.set_getElem_self]

theorem setChan_congr {c : Fin 16} {f g : Chan → Chan} {s : State} (h : f s.dc.chan[c.1] = g s.dc.chan[c.1]) :
    setChan c f s = setChan c g s := by
  rw [setChan, upd_congr _ _ h, setChan]

/-- The doors of `t` are those of `s` with channel `c` changed by `f`. -/
def ChanBecomes (c : Fin 16) (f : Chan → Chan) (s t : State) : Prop := t.dc = { s.dc with chan := upd s.dc.chan c f }

section Becomes

variable {c : Fin 16} {f g : Chan → Chan} {s t u : State}

theorem chanBecomes_setChan (c : Fin 16) (f : Chan → Chan) (s : State) : ChanBecomes c f s (setChan c f s) := rfl

/-- A change that leaves its channel as it is. -/
theorem chanBecomes_of_stays (dc : t.dc = s.dc) (stays : f s.dc.chan[c.1] = s.dc.chan[c.1]) : ChanBecomes c f s t := by
  rw [ChanBecomes, upd_congr (g := id) _ _ stays, upd_id]
  exact dc

theorem ChanBecomes.trans (h : ChanBecomes c f s t) (h' : ChanBecomes c g t u) : ChanBecomes c (fun x => g (f x)) s u := by
  rw [ChanBecomes] at h h' ⊢
  rw [h', h, upd_upd]

theorem ChanBecomes.congr (h : ChanBecomes c f s t) (same : f s.dc.chan[c.1] = g s.dc.chan[c.1]) : ChanBecomes c g s t := by
  rwa [ChanBecomes, ← upd_congr _ _ same]

/-- What follows leaves the doors. -/
theorem ChanBecomes.of_dc_eq (h : ChanBecomes c f s t) (dc : u.dc = t.dc) : ChanBecomes c f s u := Eq.trans dc h

/-- What came before left the doors. -/
theorem ChanBecomes.from_dc_eq (h : ChanBecomes c f t u) (dc : t.dc = s.dc) : ChanBecomes c f s u := by
  rwa [ChanBecomes, ← dc]

theorem ChanBecomes.chan (h : ChanBecomes c f s t) : t.dc.chan[c.1] = f s.dc.chan[c.1] := by
  rw [h]
  exact get_upd_same _ _ _

theorem ChanBecomes.chan_of_ne (h : ChanBecomes c f s t) {d : Fin 16} (ne : d ≠ c) : t.dc.chan[d.1] = s.dc.chan[d.1] := by
  rw [h]
  exact get_upd_of_ne _ _ ne

theorem ChanBecomes.contact (h : ChanBecomes c f s t) : t.dc.contact = s.dc.contact := by rw [h]
theorem ChanBecomes.tps (h : ChanBecomes c f s t) : t.dc.tps = s.dc.tps := by rw [h]
theorem ChanBecomes.dc (h : ChanBecomes c f s t) : t.dc = { s.dc with chan := t.dc.chan } := by rw [h]

end Becomes

/-! ### A channel that becomes degraded or falls due for a lockout (R285, R286) -/

/-- What `degSet` makes of its channel at instant `t`. -/
def degradedAt (t : Nat) (x : Chan) : Chan :=
  if x.degraded || x.locked then x else { x with degraded := true, nextMin := some (t + 60000000 - x.partUs) }

/-- What `lockout` makes of its channel. -/
def lockoutDue (hard sto source : Bool) (x : Chan) : Chan :=
  { x with lockPend := x.lockPend || !x.locked, lockHard := x.lockHard || (hard && !x.locked), lockSto := x.lockSto || sto,
           lockSource := x.lockSource || source }

/-- What `degFault` makes of its channel at instant `t`. -/
def degFaultAt (k : Fin 3) (before : Bool) (t : Nat) (x : Chan) : Chan :=
  let y := degradedAt t { x with degAt := x.degAt.set k.1 (some t) }
  if before || x.degAt[k.1].any fun a => decide (t < a + 86400000000) then lockoutDue false (decide (k = 2)) false y else y

section Degraded

variable (c : Fin 16) (k : Fin 3) (before : Bool) (s : State)

theorem chanBecomes_lockout (hard sto source : Bool) :
    ChanBecomes c (lockoutDue hard sto source) s (lockout c hard sto source s) := rfl

theorem chanBecomes_degSet : ChanBecomes c (degradedAt s.now) s (degSet c s) := by
  unfold degSet
  split
  · next stays => exact chanBecomes_of_stays rfl (if_pos stays)
  · next becomes =>
    have set := chanBecomes_setChan c
      (fun x => { x with degraded := true, nextMin := some (s.now + 60000000 - x.partUs) }) s
    exact (set.congr (if_neg becomes).symm).of_dc_eq (setItem_dc _ _ _)

@[simp] theorem outsideDoors_degSet : outsideDoors (degSet c s) = outsideDoors s := by simp [degSet, apply_ite outsideDoors]

theorem chanBecomes_degFault : ChanBecomes c (degFaultAt k before s.now) s (degFault c k before s) := by
  have set := (chanBecomes_setChan c (fun x => { x with degAt := x.degAt.set k.1 (some s.now) }) s).trans (chanBecomes_degSet c _)
  unfold degFault
  dsimp only
  split
  · next due => exact (set.trans (chanBecomes_lockout c _ _ _ _)).congr (if_pos due).symm
  · next notDue => exact set.congr (if_neg notDue).symm

@[simp] theorem outsideDoors_degFault : outsideDoors (degFault c k before s) = outsideDoors s := by
  simp [degFault, apply_ite outsideDoors]

variable (t : Nat) (x : Chan)

theorem degradedAt_frame : degradedAt t x =
    { x with degraded := (degradedAt t x).degraded, nextMin := (degradedAt t x).nextMin } := by
  unfold degradedAt
  split <;> rfl

theorem degradedAt_degraded (h : x.locked = false) : (degradedAt t x).degraded = true := by
  cases d : x.degraded <;> simp [degradedAt, h, d]

/-- A degraded fault changes the degraded state and the lockout of its channel only. -/
theorem degFaultAt_frame : ∃ a d m p h o l, degFaultAt k before t x =
    { x with degAt := a, degraded := d, nextMin := m, lockPend := p, lockHard := h, lockSto := o, lockSource := l } := by
  unfold degFaultAt
  rw [degradedAt_frame]
  dsimp only
  split <;> exact ⟨_, _, _, _, _, _, _, rfl⟩

/-- A channel that is not locked out is degraded by it. -/
theorem degFaultAt_degraded (h : x.locked = false) : (degFaultAt k before t x).degraded = true := by
  have set := degradedAt_degraded t { x with degAt := x.degAt.set k.1 (some t) } h
  unfold degFaultAt
  dsimp only
  split
  · exact set
  · exact set

end Degraded

/-! ### What the evaluation of a pair leaves (Tables DC-2 and DC-3) -/

/-- What an evaluation leaves of the state and of contact `i`: all outside the doors, the sources, and the contact but for the count
of its dark checks. -/
def seen (i : Fin 66) (s : State) : State × Vector Tps 4 × Contact :=
  (outsideDoors s, s.dc.tps, { s.dc.contact[i.1] with darkN := 0 })

section Seen

variable (i : Fin 66) (c : Fin 16) (s : State)

theorem seen_of_parts {t : State} (outside : outsideDoors t = outsideDoors s) (tps : t.dc.tps = s.dc.tps)
    (contact : t.dc.contact = s.dc.contact) : seen i t = seen i s := by
  rw [seen, outside, tps, contact, seen]

theorem outsideDoors_of_seen {i : Fin 66} {s t : State} (h : seen i t = seen i s) : outsideDoors t = outsideDoors s :=
  congrArg Prod.fst h

theorem contact_of_seen {α : Type} {i : Fin 66} {s t : State} (h : seen i t = seen i s) (f : Contact → α)
    (blind : ∀ x : Contact, f { x with darkN := 0 } = f x) : f t.dc.contact[i.1] = f s.dc.contact[i.1] := by
  have same : f { t.dc.contact[i.1] with darkN := 0 } = f { s.dc.contact[i.1] with darkN := 0 } :=
    congrArg (fun y => f y.2.2) h
  rwa [blind, blind] at same

@[simp] theorem seen_setChan (f : Chan → Chan) : seen i (setChan c f s) = seen i s := rfl
@[simp] theorem seen_setEstop (f : Pair → Pair) : seen i (setEstop f s) = seen i s := rfl
@[simp] theorem seen_lockout (hard sto source : Bool) : seen i (lockout c hard sto source s) = seen i s := rfl
@[simp] theorem seen_discEvent (w : W16) : seen i (discEvent c w s) = seen i s := by simp [seen]

@[simp] theorem seen_degFault (k : Fin 3) (before : Bool) : seen i (degFault c k before s) = seen i s :=
  let h := chanBecomes_degFault c k before s
  seen_of_parts _ _ (outsideDoors_degFault _ _ _ _) h.tps h.contact

theorem seen_setContact_of_ne {k : Fin 66} (f : Contact → Contact) (h : i ≠ k) : seen i (setContact k f s) = seen i s := by
  rw [seen, setContact_dc, get_upd_of_ne _ _ h, outsideDoors_setContact, seen]

/-- A change of the count of dark checks is not seen. -/
theorem seen_setContact_darkN (k : Fin 66) : seen i (setContact k (fun y => { y with darkN := 0 }) s) = seen i s := by
  rw [seen, setContact_dc, outsideDoors_setContact, seen]
  dsimp only
  rw [get_upd]
  split <;> rfl

@[simp] theorem seen_darkRestart : seen i (darkRestart c s) = seen i s := by
  rw [darkRestart, seen_setContact_darkN, seen_setContact_darkN]

@[simp] theorem seen_clFault (f : Nat × Nat) : seen i (clFault c f s) = seen i s := by simp [clFault]

@[simp] theorem seen_evalCl : seen i (evalCl c s) = seen i s := by
  unfold evalCl
  dsimp only
  split
  · rfl
  · split
    · exact seen_clFault _ _ _ _
    · split <;> rfl

@[simp] theorem seen_obFault (f : Nat × Nat) : seen i (obFault c f s) = seen i s := by
  simp [obFault, apply_ite (seen i)]

@[simp] theorem seen_evalOb : seen i (evalOb c s) = seen i s := by
  unfold evalOb
  dsimp only
  split
  · rfl
  · split <;> simp [apply_ite (seen i)]

@[simp] theorem seen_evalEstop : seen i (evalEstop s) = seen i s := by
  unfold evalEstop
  dsimp only
  split
  · rfl
  · split <;> simp [estopFault, apply_ite (seen i)]

@[simp] theorem seen_evalContact (k : Fin 66) : seen i (evalContact k s) = seen i s := by
  unfold evalContact
  split
  · split <;> simp
  · simp

end Seen

end Sys2Proof.Machine
end

section
/-! PROOFS. Contact samples and filters (R253, R257), discrepant pairs (R258) and the recovery of an obstacle pair (R259). -/

namespace Sys2Proof.Machine

open Sys2Proof

/-! ### Samples (R253) -/

/-- What a sample is about: level, filtered level and run of differing samples. -/
def filterView (x : Contact) : Bool × Bool × Nat := (x.raw, x.filt, x.run)

theorem filterView_sampleContact (x : Contact) (v blind out : Bool) : filterView (sampleContact x v blind out) =
    (v, x.filt, if blind then x.run else if v = x.filt then 0 else x.run + 1) := by
  unfold sampleContact
  dsimp only
  split
  · cases v <;> cases x.filt <;> rfl
  · split <;> cases v <;> cases x.filt <;> rfl

section Samples

variable (lv : BitVec 66) (s : State) (i k : Fin 66)

/-- Contact `i` has taken its sample. -/
abbrev sampled : State :=
  setContact i (fun x => sampleContact x (bitOf lv i.1) (blindSrc (sourceOf i s) s)
    (allSources.all fun m => m = sourceOf i s || !blindSrc m s)) s

/-- Contact `i` has failed its cross-circuit check. -/
abbrev crossFailed : State :=
  setContact i (fun y => { y with crossFail := true }) { s with dc := { s.dc with xcnt := satInc s.dc.xcnt } }

theorem contactStep_unused (unused : contactUsed i s = false) : contactStep lv s i = s := by
  rw [contactStep, unused]
  rfl

/-- A used contact takes its sample, and may fail its cross-circuit check by it. -/
theorem contactStep_used (used : contactUsed i s = true) : contactStep lv s i = sampled lv s i ∨
    contactStep lv s i = evalContact i (crossFailed (sampled lv s i) i) := by
  unfold contactStep
  rw [if_neg (by simp [used])]
  dsimp only
  split
  · exact .inr rfl
  · exact .inl rfl

/-- A sample changes no other contact. -/
theorem seen_contactStep_of_ne {i k : Fin 66} (ne : i ≠ k) : seen i (contactStep lv s k) = seen i s := by
  cases used : contactUsed k s
  · rw [contactStep_unused _ _ _ used]
  · have taken : seen i (sampled lv s k) = seen i s := seen_setContact_of_ne _ _ _ ne
    obtain step | step := contactStep_used lv s k used
    · rw [step, taken]
    · rw [step, seen_evalContact, seen_setContact_of_ne _ _ _ ne]
      exact taken

theorem outsideDoors_contactStep : outsideDoors (contactStep lv s k) = outsideDoors s := by
  by_cases first : k = 0
  · subst first
    exact outsideDoors_of_seen (seen_contactStep_of_ne (i := 1) lv s (by decide))
  · exact outsideDoors_of_seen (seen_contactStep_of_ne lv s (Ne.symm first))

/-- A used contact takes the level, and counts it when it is not blind. -/
theorem filterView_contactStep (used : contactUsed i s = true) : filterView (contactStep lv s i).dc.contact[i.1] =
    (bitOf lv i.1, s.dc.contact[i.1].filt, if blindSrc (sourceOf i s) s then s.dc.contact[i.1].run
      else if bitOf lv i.1 = s.dc.contact[i.1].filt then 0 else s.dc.contact[i.1].run + 1) := by
  have taken : (sampled lv s i).dc.contact[i.1] = sampleContact s.dc.contact[i.1] (bitOf lv i.1) (blindSrc (sourceOf i s) s)
    (allSources.all fun m => m = sourceOf i s || !blindSrc m s) := setContact_contact _ _ _
  have failed : filterView (crossFailed (sampled lv s i) i).dc.contact[i.1] = filterView (sampled lv s i).dc.contact[i.1] := by
    rw [setContact_contact]
    rfl
  rw [← filterView_sampleContact, ← taken]
  obtain step | step := contactStep_used lv s i used
  · rw [step]
  · rw [step, contact_of_seen (seen_evalContact i _ i) filterView fun _ => rfl, failed]

/-- All contacts sampled: contact `i` has taken its sample once, and nothing outside the doors has moved. -/
theorem contactSteps_parts : outsideDoors ((List.finRange 66).foldl (contactStep lv) s) = outsideDoors s ∧
    filterView ((List.finRange 66).foldl (contactStep lv) s).dc.contact[i.1] =
      filterView (contactStep lv s i).dc.contact[i.1] := by
  refine ⟨foldl_unchanged outsideDoors (fun y k => outsideDoors_contactStep lv y k) _ _, ?_⟩
  refine foldl_establishes (P := fun y => seen i y = seen i s)
    (Q := fun y => filterView y.dc.contact[i.1] = filterView (contactStep lv s i).dc.contact[i.1])
    (List.mem_finRange i) (List.nodup_finRange 66) (fun y k ne same => ?before) (fun y same => ?here)
    (fun y k ne taken => ?after) rfl
  case before => rw [seen_contactStep_of_ne lv y ne.symm, same]
  case after =>
    rw [contact_of_seen (seen_contactStep_of_ne lv y ne.symm) filterView fun _ => rfl, taken]
  case here =>
    have outside := outsideDoors_of_seen same
    have cfg := cfg_eq_of_outsideDoors outside
    have view := contact_of_seen same filterView fun _ => rfl
    cases used : contactUsed i s
    · rw [contactStep_unused _ _ _ used, contactStep_unused _ _ _ ((contactUsed_congr cfg i).trans used), view]
    · obtain ⟨-, filt, run⟩ : _ ∧ _ ∧ _ := by simpa only [filterView, Prod.mk.injEq] using view
      rw [filterView_contactStep _ _ _ used, filterView_contactStep _ _ _ ((contactUsed_congr cfg i).trans used),
        sourceOf_congr cfg, blindSrc_congr outside, filt, run]

/-- The instant of the next contact sample, noted for the tick. -/
abbrev atContactSample : State :=
  noteLatch { reach 10 s.grid.contact s with
    grid := { (reach 10 s.grid.contact s).grid with contact := some (reach 10 s.grid.contact s).now } }

theorem exec_contactSample (runs : contactsRun s = true) :
    exec (.contactSample lv) s = .next ((List.finRange 66).foldl (contactStep lv) (atContactSample s)) := by
  have runs' : contactsRun (atContactSample s) = true := runs
  exact congrArg Host.Outcome.next (if_pos runs')

/-! ### Filters (R257) -/

/-- The filtered level flips, and the run begins anew. -/
abbrev filterFlipped : State := setContact i (fun y => { y with filt := !y.filt, run := 0 }) s

theorem exec_contactFilterExpiry (runs : contactsRun s = true) (used : contactUsed i s = true) :
    exec (.contactFilterExpiry i) s = .next (if filtSamples i s ≤ s.dc.contact[i.1].run ∧ 0 < s.dc.contact[i.1].run
      then evalContact i (filterFlipped s i) else s) := by
  change execContactFilterExpiry i s = _
  simp [execContactFilterExpiry, runs, used]

theorem filterView_filterFlipped :
    filterView (evalContact i (filterFlipped s i)).dc.contact[i.1] = (s.dc.contact[i.1].raw, !s.dc.contact[i.1].filt, 0) := by
  rw [contact_of_seen (seen_evalContact i _ i) filterView fun _ => rfl, setContact_contact, filterView]

end Samples

/-! ### Pairs that differ for too long (R258) -/

section Pairs

variable {c : Fin 16} {s : State} {t0 : Nat}

theorem pairLate_iff {p : Pair} (transit : p.eval = .transit) (since : p.since = some t0) (units t : Nat) :
    pairLate p units t = true ↔ t0 + 10000 * units < t := by
  simp [pairLate, transit, since]

theorem exec_pairDiscrepancyTimeout_cl (runs : contactsRun s = true) (on : chanOn c s = true) :
    exec (.pairDiscrepancyTimeout ⟨2 * c.1, by omega⟩) s =
      .next (if pairLate s.dc.chan[c.1].cl (fld s.cfg.chan[c.1].disc 7 0) s.now
        then clFault c (lateFault (contactOf c 0) s) s else s) := by
  change execPairDiscrepancyTimeout _ s = _
  have low : 2 * c.1 < 32 := by omega
  simp [execPairDiscrepancyTimeout, runs, on, low]

theorem exec_pairDiscrepancyTimeout_ob (runs : contactsRun s = true) (on : chanOn c s = true) :
    exec (.pairDiscrepancyTimeout ⟨2 * c.1 + 1, by omega⟩) s =
      .next (if pairLate s.dc.chan[c.1].ob (fld s.cfg.chan[c.1].disc 15 8) s.now
        then obFault c (lateFault (contactOf c 2) s) s else s) := by
  change execPairDiscrepancyTimeout _ s = _
  have low : 2 * c.1 + 1 < 32 := by omega
  have half : (2 * c.1 + 1) / 2 = c.1 := by omega
  simp [execPairDiscrepancyTimeout, runs, on, low, half]

/-- What `clFault` makes of its channel. -/
def clFaulted (f : Nat × Nat) (x : Chan) : Chan :=
  lockoutDue true false (decide (f.1 = 4)) { x with
    leftLock := x.leftLock || x.cl.eval = .good,
    cl := { x.cl with eval := .fault, kind := BitVec.ofNat 4 f.1, tps := BitVec.ofNat 2 f.2 } }

theorem chanBecomes_clFault (f : Nat × Nat) : ChanBecomes c (clFaulted f) s (clFault c f s) :=
  ((chanBecomes_setChan c _ s).trans (chanBecomes_lockout c _ _ _ _)).of_dc_eq (discEvent_dc _ _ _)

theorem clFault_sys (f : Nat × Nat) : (clFault c f s).sys = s.sys := discEvent_sys _ _ _

/-- What `obFault` makes of its channel's obstacle pair at instant `t`. -/
def obFaulted (f : Nat × Nat) (t : Nat) (x : Chan) : Chan :=
  { x with ob := { x.ob with
    eval := .fault, bySource := decide (f.1 = 4), kind := BitVec.ofNat 4 f.1, tps := BitVec.ofNat 2 f.2,
    antiSince := x.ob.antiSince.map fun _ => t } }

/-- An obstacle pair's fault of its own is a degraded fault. -/
theorem obFault_chan {f : Nat × Nat} (own : f.1 ≠ 4) : (obFault c f s).dc.chan[c.1] =
    degFaultAt 0 (degStands s.dc.chan[c.1]) s.now (obFaulted f s.now s.dc.chan[c.1]) := by
  obtain ⟨e, v, told⟩ := raiseRec_frame (discWord 1 f.1 f.2 false) (darkRestart c (setChan c (obFaulted f s.now) s))
    (0x180 + 5 * c.1 + 3)
  have fault : obFault c f s = degFault c 0 (degStands s.dc.chan[c.1])
      { darkRestart c (setChan c (obFaulted f s.now) s) with ev := e, nv := v } := by
    rw [← told]
    exact if_neg own
  rw [fault, (chanBecomes_degFault _ _ _ _).chan]
  exact congrArg (degFaultAt 0 _ _) (setChan_chan c _ s)

/-! ### The recovery of an obstacle pair (R259) -/

theorem degClear_ob (c : Fin 16) (s : State) : (degClear c s).dc.chan[c.1].ob = s.dc.chan[c.1].ob := by
  unfold degClear
  dsimp only
  split
  · simp only [clearUnit_dc, writeDoor_dc, setChan_dc, get_upd_same]
  · rfl

theorem degCheck_ob (c : Fin 16) (s : State) : (degCheck c s).dc.chan[c.1].ob = s.dc.chan[c.1].ob := by
  unfold degCheck
  split
  · rfl
  · exact degClear_ob c s

/-- The contacts of an obstacle pair read antivalent with the good value, and none fails a check. -/
structure ReadsClear (c : Fin 16) (s : State) : Prop where
  used : obUsed c s = true
  sound : pairFault (contactOf c 2) (contactOf c 3) s = none
  closed : s.dc.contact[(contactOf c 2).1].filt = true
  opened : s.dc.contact[(contactOf c 3).1].filt = false

/-- A pair that is not in FAULT is good when its contacts read so. -/
theorem evalOb_good (h : ReadsClear c s) (anti : s.dc.chan[c.1].ob.antiSince = some t0)
    (notFault : s.dc.chan[c.1].ob.eval ≠ .fault) : (evalOb c s).dc.chan[c.1].ob.eval = .good := by
  have sound : pairFault (contactOf c 2) (contactOf c 3)
    (setChan c (fun x => { x with ob := { x.ob with antiSince := some t0 } }) s) = none := h.sound
  simp only [evalOb, h.used, h.closed, h.opened, anti, Bool.not_true, Bool.false_eq_true, if_false, reduceCtorEq,
    Option.isNone_some, Bool.false_and, Option.getD_some, sound, notFault, setChan_chan]
  rfl

/-- The pair is good again, before it is evaluated. -/
abbrev obRecovered (c : Fin 16) (s : State) : State :=
  setChan c (fun x => { x with ob := { x.ob with eval := .good, since := none } }) s

/-- The antivalent value has been held for the second of R259. -/
theorem antiHeld_eq (since : s.dc.chan[c.1].ob.antiSince = some t0) :
    (s.dc.chan[c.1].ob.antiSince.any fun t => decide (t + 1000000 ≤ s.now)) = decide (t0 + 1000000 ≤ s.now) := by
  rw [since, Option.any_some]

theorem exec_obPairRecovery (runs : contactsRun s = true) (fault : s.dc.chan[c.1].ob.eval = .fault)
    (own : s.dc.chan[c.1].ob.bySource = false) (sound : pairFault (contactOf c 2) (contactOf c 3) s = none)
    (since : s.dc.chan[c.1].ob.antiSince = some t0) (second : t0 + 1000000 ≤ s.now)
    (darkA : 10 ≤ s.dc.contact[(contactOf c 2).1].darkN) (darkB : 10 ≤ s.dc.contact[(contactOf c 3).1].darkN) :
    exec (.obPairRecovery c) s = .next (degCheck c (evalOb c (discEvent c
      (discWord 1 s.dc.chan[c.1].ob.kind.toNat s.dc.chan[c.1].ob.tps.toNat true) (obRecovered c s)))) := by
  have held := (antiHeld_eq since).trans (decide_eq_true second)
  change execObPairRecovery c s = _
  simp [execObPairRecovery, runs, fault, own, sound, held, darkA, darkB]

theorem exec_obPairRecovery_early (since : s.dc.chan[c.1].ob.antiSince = some t0) (early : s.now < t0 + 1000000) :
    exec (.obPairRecovery c) s = .next s := by
  have notHeld := (antiHeld_eq since).trans (decide_eq_false (Nat.not_le.2 early))
  change execObPairRecovery c s = _
  simp [execObPairRecovery, notHeld]

theorem recovered_good (h : ReadsClear c s) (since : s.dc.chan[c.1].ob.antiSince = some t0) (w : W16) :
    (degCheck c (evalOb c (discEvent c w (obRecovered c s)))).dc.chan[c.1].ob.eval = .good := by
  obtain ⟨e, v, told⟩ := raiseRec_frame w (obRecovered c s) (0x180 + 5 * c.1 + 3)
  rw [degCheck_ob, discEvent, told]
  refine evalOb_good (t0 := t0) ⟨h.used, h.sound, h.closed, h.opened⟩ ?_ ?_
  · change (obRecovered c s).dc.chan[c.1].ob.antiSince = _
    rw [setChan_chan]
    exact since
  · change (obRecovered c s).dc.chan[c.1].ob.eval ≠ _
    rw [setChan_chan]
    exact PairEval.noConfusion

end Pairs

/-! ### The statement -/

/-- Settles O24: a sample is taken once and nothing after it moves it (`contactSteps_parts`), a flip survives the evaluation of its
pair, and each pair's timeout and recovery is a case of the equations above. -/
theorem contactSamplesFiltersAndPairs : Obligations.ContactSamplesFiltersAndPairs := by
  unfold Obligations.ContactSamplesFiltersAndPairs
  refine ⟨fun s lv i loaded notReset clock => ?contacts, fun s c t0 loaded notReset clock on => ?pairs⟩
  case contacts =>
    have runs := contactsRun_of_loaded loaded notReset clock
    refine ⟨?sample, fun used begun => ⟨fun full => ?flip, fun short => ?wait⟩⟩
    case sample =>
      obtain ⟨outside, view⟩ := contactSteps_parts lv (atContactSample s) i
      have now := now_eq_of_outsideDoors outside
      have taken (used : contactUsed i s = true) := view.trans (filterView_contactStep lv (atContactSample s) i used)
      simp only [filterView, Prod.mk.injEq] at taken
      refine ⟨_, exec_contactSample lv s runs, now, ?_, fun used seeing => ?_, fun used blind => ?_, fun unused => ?_⟩
      · rw [grid_eq_of_outsideDoors outside, now]
        rfl
      · obtain ⟨raw, filt, run⟩ := taken used
        exact ⟨raw, filt, run.trans (if_neg (Bool.eq_false_iff.1 seeing))⟩
      · obtain ⟨-, -, run⟩ := taken used
        exact run.trans (if_pos blind)
      · rw [contactStep_unused lv (atContactSample s) i unused] at view
        exact congrArg Prod.fst view
    case flip =>
      have view := filterView_filterFlipped s i
      simp only [filterView, Prod.mk.injEq] at view
      obtain ⟨-, filt, run⟩ := view
      refine ⟨_, (exec_contactFilterExpiry s i runs used).trans (by rw [if_pos ⟨full, begun⟩]), filt, run, ?_⟩
      exact doorsFrame_of_outsideDoors ((outsideDoors_of_seen (seen_evalContact i _ i)).trans (outsideDoors_setContact s i _))
    case wait =>
      rw [exec_contactFilterExpiry s i runs used, if_neg fun full => Nat.not_le.2 short full.1]
  case pairs =>
    have runs := contactsRun_of_loaded loaded notReset clock
    refine ⟨fun transit since => ⟨fun late => ?closedLate, fun inTime => ?closedInTime⟩,
      fun transit since late => ?obstacleLate,
      fun fault own since second obUsed darkA darkB sound closed opened => ?recovers,
      fun _ since early => exec_obPairRecovery_early since early⟩
    case closedLate =>
      have fault := chanBecomes_clFault (c := c) (s := s) (lateFault (contactOf c 0) s)
      have run := exec_pairDiscrepancyTimeout_cl runs on
      rw [if_pos ((pairLate_iff transit since _ _).2 late)] at run
      refine ⟨_, run, ?_, ?_, fun unlocked => ?_, doorsFrame_of_sys_eq ?_ (clFault_sys _)⟩
      · rw [fault.chan]
        rfl
      · rw [fault.chan]
        rfl
      · rw [fault.chan]
        simp [clFaulted, lockoutDue, unlocked]
      · exact outsideDoors_of_seen (seen_clFault 0 c s _)
    case closedInTime =>
      rw [exec_pairDiscrepancyTimeout_cl runs on, if_neg (mt (pairLate_iff transit since _ _).1 (Nat.not_lt.2 inTime))]
    case obstacleLate =>
      have fault := obFault_chan (c := c) (s := s) (f := lateFault (contactOf c 2) s) (show 1 ≠ 4 by decide)
      have run := exec_pairDiscrepancyTimeout_ob runs on
      rw [if_pos ((pairLate_iff transit since _ _).2 late)] at run
      refine ⟨_, run, ?_, fun unlocked => ?_⟩
      · obtain ⟨_, _, _, _, _, _, _, frame⟩ := degFaultAt_frame 0 (degStands s.dc.chan[c.1]) s.now
          (obFaulted (lateFault (contactOf c 2) s) s.now s.dc.chan[c.1])
        rw [fault, frame]
        rfl
      · rw [fault]
        exact degFaultAt_degraded _ _ _ _ unlocked
    case recovers =>
      exact ⟨_, exec_obPairRecovery runs fault own sound since second darkA darkB,
        recovered_good ⟨obUsed, sound, closed, opened⟩ since _⟩

end Sys2Proof.Machine
end

section
/-! PROOFS. Test pulses (R252), dark checks (R254) and source faults (R256). -/

namespace Sys2Proof.Machine

open Sys2Proof

/-! ### Test pulses (R252) -/

section Pulses

variable {n : Fin 4} {s : State}

theorem tpsRuns_of_inService (service : inService s = true) : tpsRuns s = true := by simp [tpsRuns, service]

/-- The source has begun its pulse. -/
abbrev pulsed (n : Fin 4) (s : State) : State :=
  { s with dc := { s.dc with tps := upd s.dc.tps n fun x => { x with pulseAt := some s.now } } }

theorem pulsed_now : (pulsed n s).now = s.now := rfl
theorem pulsed_tstamp : (pulsed n s).tstamp = s.tstamp := rfl
theorem pulsed_pulseAt : (pulsed n s).dc.tps[n.1].pulseAt = some s.now := congrArg Tps.pulseAt (get_upd_same _ _ _)

theorem pulsed_advance_frame (d : Nat) : pulsed n (advance d s) =
    { s with now := (pulsed n (advance d s)).now, tstamp := (pulsed n (advance d s)).tstamp,
             cs := (pulsed n (advance d s)).cs, dc := { s.dc with tps := (pulsed n (advance d s)).dc.tps } } := rfl

/-- The delay up to the next slot of a source. -/
def slotDelay (n : Fin 4) (s : State) : Nat := (100000 - tpsPhase n s) % 100000

theorem toPhase_cfg (n : Fin 4) (d : Nat) (s : State) : (toPhase n d s).cfg = s.cfg := advance_cfg _ _

theorem toPhase_zero : toPhase n 0 s = advance (slotDelay n s) s := by
  rw [toPhase, slotDelay, Nat.add_zero]

theorem slotDelay_lt : slotDelay n s < 100000 := Nat.mod_lt _ (by decide)

theorem mod_add_slotDelay : (s.tstamp.toNat + slotDelay n s) % 100000 = 25000 * n.1 % 100000 := by
  have inside : 25000 * n.1 ≤ 100000 := by omega
  rw [slotDelay, tpsPhase]
  generalize 25000 * n.1 = slot at inside
  omega

theorem toNat_advance_tstamp {d : Nat} (runs : s.tsRun = true) (small : s.tstamp.toNat < 2 ^ 47) (short : d < 100000) :
    (advance d s).tstamp.toNat = s.tstamp.toNat + d := by
  rw [advance_tstamp, if_pos runs, BitVec.toNat_add, BitVec.toNat_ofNat]
  omega

theorem exec_tpsPulse (service : inService s = true) (fresh : s.dc.tps[n.1].pulseAt ≠ some s.now) :
    exec (.tpsPulse n) s = .next (pulsed n (advance (slotDelay n s) s)) := by
  rw [← toPhase_zero]
  change execTpsPulse n s = _
  simp [execTpsPulse, tpsRuns_of_inService service, fresh]

end Pulses

/-! ### Dark checks (R254) -/

/-- A contact that read `v` in the dark: closed there it has failed the check, open it has passed it. -/
def DarkChecked (v : Bool) (x : Contact) : Prop := x.raw = v ∧ x.darkFail = v ∧ (v = false → x.dark = true)

section Dark

variable (n : Fin 4) (lv : BitVec 66) (s : State) {i k : Fin 66}

/-- A dark check changes no other contact. -/
theorem seen_darkStep_of_ne (ne : i ≠ k) : seen i (darkStep n lv s k) = seen i s := by
  have other (f : Contact → Contact) : seen i (setContact k f s) = seen i s := seen_setContact_of_ne i s f ne
  have counted (f : Contact → Contact) (m : W16) :
      seen i { setContact k f s with dc := { (setContact k f s).dc with xcnt := m } } = seen i s := other f
  unfold darkStep
  dsimp only
  split
  · rfl
  · split
    · split
      · split
        · exact other _
        · exact (seen_evalContact _ _ _).trans (counted _ _)
      · exact (seen_evalContact _ _ _).trans (other _)
    · split <;> exact other _

theorem darkStep_checks (used : contactUsed i s = true) (fed : sourceOf i s = n) :
    DarkChecked (bitOf lv i.1) (darkStep n lv s i).dc.contact[i.1] := by
  have stays {t u : State} (h : seen i u = seen i t) (v : Bool) :
      DarkChecked v u.dc.contact[i.1] = DarkChecked v t.dc.contact[i.1] := contact_of_seen h (DarkChecked v) fun _ => rfl
  have checked (f : Contact → Contact) (v : Bool) (h : DarkChecked v (f s.dc.contact[i.1])) :
      DarkChecked v (setContact i f s).dc.contact[i.1] := by rwa [setContact_contact]
  unfold darkStep
  rw [if_neg (by simp [used]), if_pos fed]
  dsimp only
  cases level : bitOf lv i.1
  · rw [if_neg (by decide), stays (seen_evalContact i _ i)]
    exact checked _ _ ⟨rfl, rfl, fun _ => rfl⟩
  · rw [if_pos rfl]
    have failed := checked (fun y => { y with raw := true, darkFail := true, darkN := 0 }) true ⟨rfl, rfl, nofun⟩
    split
    · exact failed
    · rw [stays (seen_evalContact i _ i)]
      exact failed

theorem exec_darkCheck (service : inService s = true) (loaded : s.sys.loaded = true) :
    exec (.darkCheck n lv) s = .next ((List.finRange 66).foldl (darkStep n lv) (toPhase n 150 s)) := by
  change execDarkCheck n lv s = _
  simp [execDarkCheck, tpsRuns_of_inService service, contactsRun_of_inService service loaded]

/-- Every contact is checked once, and keeps what its check found. -/
theorem darkSteps_check (used : contactUsed i s = true) (fed : sourceOf i s = n) :
    DarkChecked (bitOf lv i.1) ((List.finRange 66).foldl (darkStep n lv) s).dc.contact[i.1] := by
  refine foldl_establishes (P := fun y => seen i y = seen i s) (Q := fun y => DarkChecked (bitOf lv i.1) y.dc.contact[i.1])
    (List.mem_finRange i) (List.nodup_finRange 66) (fun y k ne same => ?before) (fun y same => ?here)
    (fun y k ne checked => ?after) rfl
  case before => rw [seen_darkStep_of_ne n lv y ne.symm, same]
  case here =>
    have cfg := cfg_eq_of_outsideDoors (outsideDoors_of_seen same)
    exact darkStep_checks n lv y ((contactUsed_congr cfg i).trans used) ((sourceOf_congr cfg i).trans fed)
  case after =>
    rwa [contact_of_seen (seen_darkStep_of_ne n lv y ne.symm) (DarkChecked (bitOf lv i.1)) fun _ => rfl]

end Dark

/-! ### Source faults (R256) -/

section Sources

variable (n : Fin 4) (c : Fin 16) (s : State)

/-- The channel is enabled and the source feeds its closed-and-locked pair. -/
abbrev clFed : Bool := chanOn c s && (decide (sourceOf (contactOf c 0) s = n) || decide (sourceOf (contactOf c 1) s = n))

/-- The channel is enabled and the source feeds its obstacle pair. -/
abbrev obFed : Bool :=
  chanOn c s && (obUsed c s && (decide (sourceOf (contactOf c 2) s = n) || decide (sourceOf (contactOf c 3) s = n)))

theorem clFed_congr {s t : State} (h : t.cfg = s.cfg) : clFed n c t = clFed n c s := by
  rw [clFed, chanOn_congr h, sourceOf_congr h, sourceOf_congr h]

/-- What a source fault makes of a channel whose pairs it feeds or not. -/
def sourceFaulted (cl ob : Bool) (x : Chan) : Chan :=
  let y := if cl then lockoutDue true false true { x with cl := srcPair n x.cl } else x
  if ob then lockoutDue false false true { y with ob := srcPair n y.ob } else y

theorem chanBecomes_sourceChan : ChanBecomes c (sourceFaulted n (clFed n c s) (obFed n c s)) s (sourceChan n s c) := by
  have told (w : W16) : (discEvent c w s).dc = s.dc := discEvent_dc c w s
  have closed (y : State) : ChanBecomes c (fun x => lockoutDue true false true { x with cl := srcPair n x.cl }) y
      (lockout c true false true (setChan c (fun x => { x with cl := srcPair n x.cl }) y)) :=
    (chanBecomes_setChan c _ y).trans (chanBecomes_lockout c _ _ _ _)
  have obstacle (y : State) : ChanBecomes c (fun x => lockoutDue false false true { x with ob := srcPair n x.ob }) y
      (lockout c false false true (setChan c (fun x => { x with ob := srcPair n x.ob }) y)) :=
    (chanBecomes_setChan c _ y).trans (chanBecomes_lockout c _ _ _ _)
  unfold sourceChan clFed obFed
  dsimp only
  cases chanOn c s
  · exact chanBecomes_of_stays rfl rfl
  · simp only [Bool.not_true, Bool.false_eq_true, if_false, Bool.true_and]
    generalize (decide (sourceOf (contactOf c 0) s = n) || decide (sourceOf (contactOf c 1) s = n)) = cl
    generalize (obUsed c s && (decide (sourceOf (contactOf c 2) s = n) || decide (sourceOf (contactOf c 3) s = n))) = ob
    cases cl <;> cases ob
    · exact chanBecomes_of_stays rfl rfl
    · exact (obstacle _).from_dc_eq (told _)
    · exact (closed _).from_dc_eq (told _)
    · exact ((closed _).trans (obstacle _)).from_dc_eq (told _)

@[simp] theorem outsideDoors_sourceChan : outsideDoors (sourceChan n s c) = outsideDoors s := by
  simp [sourceChan, apply_ite outsideDoors]

/-- A source fault has locked out the channel, whose lockout is due unless it was locked out already. -/
def SourceLocked (locked : Bool) (x : Chan) : Prop :=
  x.cl.eval = .fault ∧ x.lockSource = true ∧ (locked = false → x.lockPend = true)

theorem sourceLocked_sourceFaulted (ob : Bool) (x : Chan) : SourceLocked x.locked (sourceFaulted n true ob x) := by
  cases ob <;> simp +contextual [SourceLocked, sourceFaulted, lockoutDue, srcPair]

theorem evalEstop_dc : (evalEstop s).dc = { s.dc with estop := (evalEstop s).dc.estop } := by
  unfold evalEstop
  dsimp only
  split
  · rfl
  · split
    · split <;> simp [estopFault, setEstop]
    · split
      · split
        · rfl
        · split <;> simp [setEstop]
      · rfl

/-- Every channel is taken once: one whose closed-and-locked pair the source feeds is locked out, and the sources stay. -/
theorem sourceFaultApply_parts : (sourceFaultApply n s).dc.tps = s.dc.tps ∧
    (clFed n c s = true → SourceLocked s.dc.chan[c.1].locked (sourceFaultApply n s).dc.chan[c.1]) := by
  unfold sourceFaultApply
  rw [evalEstop_dc]
  refine ⟨foldl_unchanged (fun y => y.dc.tps) (fun y k => (chanBecomes_sourceChan n k y).tps) _ _, fun fed => ?_⟩
  refine foldl_establishes (P := fun y : State => y.cfg = s.cfg ∧ y.dc.chan[c.1] = s.dc.chan[c.1])
    (Q := fun y : State => SourceLocked s.dc.chan[c.1].locked y.dc.chan[c.1])
    (List.mem_finRange c) (List.nodup_finRange 16) (fun y k ne same => ?before) (fun y same => ?here)
    (fun y k ne locked => ?after) ⟨rfl, rfl⟩
  case before =>
    exact ⟨(cfg_eq_of_outsideDoors (outsideDoors_sourceChan n k y)).trans same.1,
      ((chanBecomes_sourceChan n k y).chan_of_ne ne.symm).trans same.2⟩
  case here =>
    obtain ⟨cfg, chan⟩ := same
    rw [(chanBecomes_sourceChan n c y).chan, clFed_congr n c cfg, fed, chan]
    exact sourceLocked_sourceFaulted n _ _
  case after => rwa [(chanBecomes_sourceChan n k y).chan_of_ne ne.symm]

theorem exec_sourceFault_first {n : Fin 4} {s : State} (service : inService s = true) (loaded : s.sys.loaded = true)
    (first : s.dc.tps[n.1].fault = false) : exec (.sourceFault n) s = .next (sourceFaultApply n (sourceLatch n s)) := by
  change execSourceFault n s = _
  simp [execSourceFault, notReset_of_inService service, clockSafe_of_inService service, first, imageTaken, loaded]

theorem exec_sourceFault_second {n : Fin 4} {s : State} (second : s.dc.tps[n.1].fault = true) :
    exec (.sourceFault n) s = .next s := by
  change execSourceFault n s = _
  simp [execSourceFault, second]

end Sources

/-! ### The statement -/

/-- Settles O25: the way to a source's slot is shorter than its period (`slotDelay_lt`), a dark check visits every contact once
(`darkSteps_check`), and a source fault every channel (`sourceFaultApply_parts`). -/
theorem testPulsesCheckTheContacts : Obligations.TestPulsesCheckTheContacts := by
  unfold Obligations.TestPulsesCheckTheContacts
  intro s n lv i service loaded
  refine ⟨fun runs small fresh => ?pulse, ⟨_, exec_darkCheck n lv s service loaded, ?checks⟩, fun first => ?fault,
    exec_sourceFault_second⟩
  case pulse =>
    refine ⟨_, exec_tpsPulse service fresh, ?_, ?_, ?_, ?_, pulsed_advance_frame _⟩
    · rw [pulsed_pulseAt, pulsed_now (n := n)]
    · rw [pulsed_now (n := n), advance_now]
      exact Nat.le_add_right _ _
    · rw [pulsed_now (n := n), advance_now]
      exact Nat.add_lt_add_left (slotDelay_lt (n := n) (s := s)) _
    · rw [pulsed_tstamp (n := n), toNat_advance_tstamp runs small slotDelay_lt, mod_add_slotDelay]
  case checks =>
    have checked (used : contactUsed i s = true) (fed : sourceOf i s = n) :=
      darkSteps_check n lv (toPhase n 150 s) ((contactUsed_congr (toPhase_cfg n 150 s) i).trans used)
        ((sourceOf_congr (toPhase_cfg n 150 s) i).trans fed)
    refine ⟨fun used fed high => ?_, fun used fed low => ?_⟩
    · obtain ⟨raw, failed, -⟩ := checked used fed
      exact ⟨failed.trans high, raw.trans high⟩
    · obtain ⟨-, failed, passed⟩ := checked used fed
      exact ⟨failed.trans low, passed low⟩
  case fault =>
    have latched : (sourceLatch n s).dc.tps[n.1].fault = true := congrArg Tps.fault (get_upd_same _ _ _)
    refine ⟨_, exec_sourceFault_first service loaded first, ?_, fun c on fed => ?_⟩
    · rw [(sourceFaultApply_parts n 0 _).1]
      exact latched
    · have fed' : clFed n c s = true := by simpa [on] using fed
      exact (sourceFaultApply_parts n c (sourceLatch n s)).2 ((clFed_congr n c rfl).trans fed')

end Sys2Proof.Machine
end

section
/-! PROOFS. Tachometer edges and timeouts (R261, R262). -/

namespace Sys2Proof.Machine

open Sys2Proof

section Tachometer

variable {c : Fin 16} {s : State} {t0 : Nat}

/-! ### Edges (R261) -/

theorem exec_tachEdge {hi lo : Nat} (runs : tachRuns c s = true) : exec (.tachEdge c hi lo) s =
    .next (if 10000 ≤ hi ∧ 10000 ≤ lo then setChan c (tachEdge (tachTimeout c s) s.now) s else s) := by
  change execTachEdge c hi lo s = _
  simp [execTachEdge, runs]

theorem tachEdge_period {lim t : Nat} {x : Chan} (last : x.edge = some t0) : (tachEdge lim t x).period = t - t0 := by
  simp [tachEdge, last]

/-! ### Faults (R262) -/

/-- What `tachFault` makes of a channel whose tachometer has no fault. -/
def tachFaulted (kind t : Nat) (x : Chan) : Chan :=
  degFaultAt 1 (degStands x) t { x with cycleOk := false, tachF := true, tachKind := BitVec.ofNat 4 kind }

/-- A fault of the tachometer spoils the door cycle. -/
abbrev cycleSpoiled (c : Fin 16) (s : State) : State := setChan c (fun x => { x with cycleOk := false }) s

/-- The fault is noted with its kind and reported. -/
abbrev tachMarked (c : Fin 16) (kind : Nat) (s : State) : State :=
  discEvent c (discWord 2 kind 0 false) (setChan c (fun x => { x with tachF := true, tachKind := BitVec.ofNat 4 kind }) s)

theorem chanBecomes_tachFault (kind : Nat) (none : s.dc.chan[c.1].tachF = false) :
    ChanBecomes c (tachFaulted kind s.now) s (tachFault c kind s) := by
  have chan : (cycleSpoiled c s).dc.chan[c.1] = { s.dc.chan[c.1] with cycleOk := false } := setChan_chan c _ s
  have before : degStands (cycleSpoiled c s).dc.chan[c.1] = degStands s.dc.chan[c.1] := by
    rw [chan]
    rfl
  have marked : ChanBecomes c (fun x => { x with cycleOk := false, tachF := true, tachKind := BitVec.ofNat 4 kind }) s
      (tachMarked c kind (cycleSpoiled c s)) :=
    ((chanBecomes_setChan c _ s).trans (chanBecomes_setChan c _ _)).of_dc_eq (discEvent_dc c _ _)
  have now : (tachMarked c kind (cycleSpoiled c s)).now = s.now := now_eq_of_outsideDoors (outsideDoors_discEvent _ _ _)
  have fault : tachFault c kind s = degFault c 1 (degStands s.dc.chan[c.1]) (tachMarked c kind (cycleSpoiled c s)) := by
    rw [← before]
    exact if_neg (by rw [chan]; simp [none])
  rw [fault]
  exact (marked.trans (chanBecomes_degFault c 1 _ _)).congr (by rw [now, tachFaulted])

theorem outsideDoors_tachFault (kind : Nat) : outsideDoors (tachFault c kind s) = outsideDoors s := by
  simp [tachFault, apply_ite outsideDoors]

/-- The tachometer fault stands with its kind, in a channel that is degraded unless it is locked out. -/
theorem tachFaulted_parts (kind t : Nat) (x : Chan) : (tachFaulted kind t x).tachF = true ∧
    (tachFaulted kind t x).tachKind = BitVec.ofNat 4 kind ∧ (tachFaulted kind t x).cycleOk = false ∧
    (tachFaulted kind t x).fastSince = x.fastSince ∧ (x.locked = false → (tachFaulted kind t x).degraded = true) := by
  unfold tachFaulted
  refine ⟨?_, ?_, ?_, ?_, fun unlocked => degFaultAt_degraded _ _ _ _ unlocked⟩ <;>
    · obtain ⟨_, _, _, _, _, _, _, frame⟩ := degFaultAt_frame 1 (degStands x) t
        { x with cycleOk := false, tachF := true, tachKind := BitVec.ofNat 4 kind }
      rw [frame]

theorem tachFast_of_since {e : Nat} (since : s.dc.chan[c.1].fastSince = some t0) (edge : s.dc.chan[c.1].edge = some e)
    (long : t0 + 1000 ≤ e) : tachFast s.dc.chan[c.1] = true := by
  simp [tachFast, since, edge, long]

/-- The run of over-fast edges is over. -/
abbrev runEnded (c : Fin 16) (s : State) : State := setChan c (fun y => { y with fastSince := none }) s

theorem exec_tachTimeout_fast (runs : tachRuns c s = true) (fast : tachFast s.dc.chan[c.1] = true) :
    exec (.tachTimeout c) s = .next (tachFault c 5 (runEnded c s)) := by
  change execTachTimeout c s = _
  simp [execTachTimeout, runs, fast]

/-- Torque is granted, the pair has left LOCKED, and no edge has come since the grant at `t0`. -/
structure AwaitsEdge (c : Fin 16) (t0 : Nat) (s : State) : Prop where
  torque : torqueOn s.dc.chan[c.1].state = true
  left : s.dc.chan[c.1].leftLock = true
  noEdge : s.dc.chan[c.1].edges = 0
  noRun : s.dc.chan[c.1].fastSince = none
  granted : s.dc.chan[c.1].grantAt = some t0

theorem exec_tachTimeout_awaits (runs : tachRuns c s = true) (h : AwaitsEdge c t0 s) :
    exec (.tachTimeout c) s = .next (if t0 + tachTimeout c s ≤ s.now then tachFault c 6 s else s) := by
  change execTachTimeout c s = _
  simp [execTachTimeout, runs, tachFast, h.torque, h.left, h.noEdge, h.noRun, h.granted]

end Tachometer

/-! ### The statement -/

/-- Settles O26: an edge is one change of its channel, and a timeout is a tachometer fault (`tachFaulted_parts`) or nothing. -/
theorem tachometerEdgesTimeAndTimeouts : Obligations.TachometerEdgesTimeAndTimeouts := by
  unfold Obligations.TachometerEdgesTimeAndTimeouts
  intro s c hi lo t0 runs x
  refine ⟨fun high low => ?edge, fun short => ?noEdge, fun unlocked none torque left noEdge noRun granted => ?timeout,
    fun e unlocked none since edge long => ?fast⟩
  case edge =>
    have counted := chanBecomes_setChan c (tachEdge (tachTimeout c s) s.now) s
    refine ⟨_, (exec_tachEdge runs).trans (by rw [if_pos ⟨high, low⟩]), ?_, ?_, fun last => ?_, rfl,
      fun k ne => counted.chan_of_ne ne⟩
    · rw [setChan_chan]
      rfl
    · rw [setChan_chan]
      rfl
    · rw [setChan_chan]
      exact tachEdge_period last
  case noEdge =>
    rw [exec_tachEdge runs, if_neg (by omega)]
  case timeout =>
    have run := exec_tachTimeout_awaits runs ⟨torque, left, noEdge, noRun, granted⟩
    refine ⟨fun (due : t0 + tachTimeout c s ≤ s.now) => ?due, fun (early : s.now < t0 + tachTimeout c s) => ?early⟩
    case early =>
      rw [run, if_neg (Nat.not_le.2 early)]
    case due =>
      have fault := chanBecomes_tachFault (c := c) (s := s) 6 none
      obtain ⟨stands, kind, spoiled, -, degraded⟩ := tachFaulted_parts 6 s.now x
      refine ⟨_, run.trans (by rw [if_pos due]), ?_, ?_, ?_, ?_, ?_⟩
      · rw [fault.chan, stands]
      · rw [fault.chan, kind]
        rfl
      · rw [fault.chan, degraded unlocked]
      · rw [fault.chan, spoiled]
      · rw [← fault.dc]
        exact doorsFrame_of_outsideDoors (outsideDoors_tachFault 6)
  case fast =>
    have ended : (runEnded c s).dc.chan[c.1] = { x with fastSince := .none } := setChan_chan c _ s
    have fault := chanBecomes_tachFault (c := c) (s := runEnded c s) 5 (by rw [ended]; exact none)
    obtain ⟨stands, kind, -, run, degraded⟩ := tachFaulted_parts 5 s.now { x with fastSince := .none }
    refine ⟨_, exec_tachTimeout_fast runs (tachFast_of_since since edge long), ?_, ?_, ?_, ?_⟩
    · rw [fault.chan, ended, setChan_now, stands]
    · rw [fault.chan, ended, setChan_now, kind]
      rfl
    · rw [fault.chan, ended, setChan_now, run]
    · rw [fault.chan, ended, setChan_now, degraded unlocked]

end Sys2Proof.Machine
end

section
/-! PROOFS. Dark pulses of the torque outputs (R281, R282): an output that follows, one that fails, and both failed. -/

namespace Sys2Proof.Machine

open Sys2Proof

section Pulses

variable {c : Fin 16} {b : Bool} {off on : Nat} {s : State}

/-- The output that a dark pulse names. -/
abbrev outputOf (b : Bool) : Fin 2 := if b then 1 else 0

/-- The other output of the channel. -/
abbrev otherOutput (b : Bool) : Fin 2 := outputOf (!b)

theorem setSto_chan (o : Fin 2) (f : Sto → Sto) :
    (setSto c o f s).dc.chan[c.1] = { s.dc.chan[c.1] with sto := upd s.dc.chan[c.1].sto o f } :=
  setChan_chan c _ s

theorem setSto_sto_same (o : Fin 2) (f : Sto → Sto) : (setSto c o f s).dc.chan[c.1].sto[o.1] = f s.dc.chan[c.1].sto[o.1] := by
  rw [setSto_chan]
  exact get_upd_same _ _ _

theorem setSto_sto_of_ne {o k : Fin 2} (f : Sto → Sto) (ne : k ≠ o) :
    (setSto c o f s).dc.chan[c.1].sto[k.1] = s.dc.chan[c.1].sto[k.1] := by
  rw [setSto_chan]
  exact get_upd_of_ne _ _ ne

/-- The output has its pulse, and its readback shows whether it is on again. -/
abbrev darkPulsed (c : Fin 16) (b : Bool) (on : Nat) (s : State) : State :=
  setSto c (outputOf b) (fun y => { y with darkAt := some s.now, rb := decide (on ≤ 200) }) s

/-- The failed pulse is reported. -/
abbrev darkReported (c : Fin 16) (b : Bool) (on : Nat) (s : State) : State :=
  rbEvent c (rbWord (outputOf b) false 1 false) (darkPulsed c b on s)

/-- A pulse falls on an energised output that is not degraded. -/
structure Tested (c : Fin 16) (b : Bool) (s : State) : Prop where
  service : inService s = true
  enabled : chanOn c s = true
  slot : darkSlot c (outputOf b) s = true
  energised : s.dc.chan[c.1].sto[(outputOf b).1].on = true
  fresh : s.dc.chan[c.1].sto[(outputOf b).1].darkAt ≠ some s.now
  sound : s.dc.chan[c.1].sto[(outputOf b).1].deg = false

theorem exec_stoDarkPulse_skipped
    (h : darkSlot c (outputOf b) s = false ∨ s.dc.chan[c.1].sto[(outputOf b).1].on = false) :
    exec (.stoDarkPulse c b off on) s = .next s := by
  change execStoDarkPulse c b off on s = _
  obtain noSlot | isOff := h
  · simp [execStoDarkPulse, noSlot]
  · simp [execStoDarkPulse, isOff]

theorem exec_stoDarkPulse_tested (h : Tested c b s) : exec (.stoDarkPulse c b off on) s =
    .next (if 250 < off then stoDeg c (outputOf b) false (darkReported c b on s) else darkPulsed c b on s) := by
  change execStoDarkPulse c b off on s = _
  simp [execStoDarkPulse, h.service, h.enabled, h.slot, h.energised, h.fresh, h.sound]

/-! ### An output that fails -/

/-- The output is marked degraded. -/
abbrev outputFailed (c : Fin 16) (b : Bool) (s : State) : State :=
  setSto c (outputOf b) (fun y => { y with deg := true, stuckOn := false }) s

theorem outputFailed_deg : (outputFailed c b s).dc.chan[c.1].sto[(outputOf b).1].deg = true := by
  rw [setSto_sto_same]

theorem outputFailed_other : (outputFailed c b s).dc.chan[c.1].sto[(otherOutput b).1].deg =
    s.dc.chan[c.1].sto[(otherOutput b).1].deg := by
  rw [setSto_sto_of_ne _ (by cases b <;> decide)]

theorem bothFailed_iff : ((outputFailed c b s).dc.chan[c.1].sto[0].deg && (outputFailed c b s).dc.chan[c.1].sto[1].deg) =
    s.dc.chan[c.1].sto[(otherOutput b).1].deg := by
  have this := outputFailed_deg (c := c) (b := b) (s := s)
  have that := outputFailed_other (c := c) (b := b) (s := s)
  cases b
  · exact (congrArg₂ and this that).trans (Bool.true_and _)
  · exact (congrArg₂ and that this).trans (Bool.and_true _)

/-- The first output of a channel to fail is a degraded fault, the second enters SAFE. -/
theorem stoDeg_eq (sound : s.dc.chan[c.1].sto[(outputOf b).1].deg = false) : stoDeg c (outputOf b) false s =
    if s.dc.chan[c.1].sto[(otherOutput b).1].deg then enterSafe 2 0x0007 (outputFailed c b s)
    else degFault c 2 (degStands s.dc.chan[c.1]) (outputFailed c b s) := by
  rw [← bothFailed_iff]
  exact if_neg (by simp [sound])

theorem darkReported_chan : (darkReported c b on s).dc.chan[c.1] = (darkPulsed c b on s).dc.chan[c.1] := by
  simp only [rbEvent_dc]

theorem darkReported_deg (o : Fin 2) : (darkReported c b on s).dc.chan[c.1].sto[o.1].deg = s.dc.chan[c.1].sto[o.1].deg := by
  rw [darkReported_chan]
  by_cases here : o = outputOf b
  · rw [here, setSto_sto_same]
  · rw [setSto_sto_of_ne _ here]

end Pulses

/-! ### The statement -/

/-- Settles O27: a pulse that its output does not follow is the case distinction of `stoDeg_eq`. -/
theorem darkPulsesTestTheTorqueOutputs : Obligations.DarkPulsesTestTheTorqueOutputs := by
  unfold Obligations.DarkPulsesTestTheTorqueOutputs
  intro s c b off on service enabled o y
  have other : 1 - o.1 = (otherOutput b).1 := by cases b <;> rfl
  simp only [other]
  refine ⟨exec_stoDarkPulse_skipped, fun slot energised fresh sound => ?_⟩
  have run := exec_stoDarkPulse_tested (off := off) (on := on) ⟨service, enabled, slot, energised, fresh, sound⟩
  have reported := (darkReported_deg (c := c) (b := b) (on := on) (s := s) (outputOf b)).trans sound
  have otherReported := darkReported_deg (c := c) (b := b) (on := on) (s := s) (otherOutput b)
  refine ⟨fun inTime => ?follows, fun late otherSound unlocked => ?degraded, fun late otherFailed => ?safe⟩
  case follows =>
    rw [run, if_neg (Nat.not_lt.2 inTime)]
    rfl
  case degraded =>
    rw [if_pos late, stoDeg_eq reported, otherReported, otherSound, if_neg Bool.false_ne_true] at run
    have fault := chanBecomes_degFault c 2 (degStands (darkReported c b on s).dc.chan[c.1])
      (outputFailed c b (darkReported c b on s))
    refine ⟨_, run, ?_, ?_, ?_⟩
    · rw [fault.chan]
      obtain ⟨_, _, _, _, _, _, _, frame⟩ := degFaultAt_frame 2 (degStands (darkReported c b on s).dc.chan[c.1])
        (outputFailed c b (darkReported c b on s)).now (outputFailed c b (darkReported c b on s)).dc.chan[c.1]
      rw [frame]
      exact outputFailed_deg
    · rw [fault.chan]
      refine degFaultAt_degraded _ _ _ _ ?_
      rw [setSto_chan, darkReported_chan, setSto_chan]
      exact unlocked
    · refine mode_eq_of_outsideDoors ((outsideDoors_degFault _ _ _ _).trans ?_)
      exact outsideDoors_rbEvent _ _ _
  case safe =>
    rw [if_pos late, stoDeg_eq reported, otherReported, otherFailed, if_pos rfl] at run
    have sys : (outputFailed c b (darkReported c b on s)).sys = s.sys := rbEvent_sys _ _ _
    exact ⟨_, run, inSafe_enterSafe (by rw [sys]; exact notReset_of_inService service)
      (by rw [sys]; exact notSafe_of_inService service) 2 7⟩

end Sys2Proof.Machine
end

section
/-! PROOFS. Unlock requests (R290), their stage test, the tick that decides them (R267, R291, R292), and degraded minutes (R286,
R287). -/

namespace Sys2Proof.Machine

open Sys2Proof

/-! ### Requests (R290) -/

section Requests

variable {c : Fin 16} {s : State} {v : W16}

theorem unlockRecord_frame (c : Fin 16) (usb ok : Bool) (s : State) :
    ∃ e n, unlockRecord c usb ok s = { s with ev := e, nv := n } := by
  obtain ⟨e, n, recorded, -⟩ :=
    record_frame 0x0B 0xFFFF [BitVec.ofNat 8 c.1, if usb then 2 else 1, if ok then 1 else 0] s
  exact ⟨e, n, recorded⟩

/-- A refusal is its flag and its record. -/
theorem unlockRefuse_frame (c : Fin 16) (usb : Bool) (s : State) :
    ∃ e n, unlockRefuse c usb s = { s with dc := { s.dc with unlockRej := true }, ev := e, nv := n } :=
  unlockRecord_frame c usb false _

theorem unlockRefuse_dc (usb : Bool) : (unlockRefuse c usb s).dc = { s.dc with unlockRej := true } := by
  obtain ⟨e, n, refused⟩ := unlockRefuse_frame c usb s
  rw [refused]

theorem unlockOk_of_parts (service : inService s = true) (locked : s.dc.chan[c.1].state = .locked)
    (sound : faultPresent c s = false) : unlockOk c s = true := by
  simp [unlockOk, service, locked, sound]

theorem unlockOk_of_fault (fault : faultPresent c s = true) : unlockOk c s = false := by
  simp [unlockOk, fault]

theorem unlockWrite_keyed (key : v.toNat / 256 = 0x6C) (channel : v.toNat % 16 = c.1) (s : State) :
    unlockWrite v s = if s.nv.login[0].on then unlockRequest c false s else unlockRefuse c false s := by
  have named : (⟨fld v 3 0 % 16, by omega⟩ : Fin 16) = c := Fin.ext (by simp [fld, channel])
  unfold unlockWrite
  rw [if_pos ((keyOf_eq_div v).trans key)]
  simp only [named]

/-- A write on the host bus is counted and takes its effect; nothing but the host bus has moved before. -/
theorem exec_dcUnlock_bus (service : inService s = true) :
    ∃ h, exec (.dcUnlock .bus v) s = .next (unlockWrite v { s with hb := h }) := by
  have live := portLive_of_mode_of_clock (notReset_of_inService service) (clockSafe_of_inService service)
  have counted := countWrite_frame_of_not_loginWord .bus 0x108 s (by decide)
  refine ⟨(countWrite .bus 0x108 s).hb, ?_⟩
  rw [← counted]
  exact congrArg Host.Outcome.next (if_pos live)

/-- The conditions of R290 at the request, but for the login. -/
structure MayUnlock (c : Fin 16) (s : State) : Prop where
  free : unlockWaits c s = false
  ok : unlockOk c s = true

theorem unlockRequest_taken (h : MayUnlock c s) (noSto : s.dc.chan[c.1].lockSto = false) (usb : Bool) :
    unlockRequest c usb s = setChan c (fun x => { x with unlocking := some usb }) s := by
  simp [unlockRequest, h.free, h.ok, noSto]

theorem unlockRequest_staged (h : MayUnlock c s) (sto : s.dc.chan[c.1].lockSto = true) (usb : Bool) :
    unlockRequest c usb s = { s with dc := { s.dc with unlock := s.dc.unlock ++ [⟨c, usb, s.now⟩] } } := by
  simp [unlockRequest, h.free, h.ok, sto]

theorem unlockRequest_refused (h : unlockWaits c s = true ∨ unlockOk c s = false) (usb : Bool) :
    unlockRequest c usb s = unlockRefuse c usb s := by
  obtain waits | notOk := h
  · simp [unlockRequest, waits]
  · simp [unlockRequest, notOk]

/-- What R290 does not allow. -/
abbrev Unallowed (c : Fin 16) (s : State) : Prop :=
  s.nv.login[0].on = false ∨ unlockWaits c s = true ∨ s.dc.chan[c.1].state ≠ .locked ∨ faultPresent c s = true

theorem unlockWrite_refused (key : v.toNat / 256 = 0x6C) (channel : v.toNat % 16 = c.1) (h : Unallowed c s) :
    unlockWrite v s = unlockRefuse c false s := by
  rw [unlockWrite_keyed key channel]
  obtain noLogin | waits | notLocked | fault := h
  · rw [if_neg (by simp [noLogin])]
  · rw [unlockRequest_refused (.inl waits), ite_self]
  · rw [unlockRequest_refused (.inr (by simp [unlockOk, notLocked])), ite_self]
  · rw [unlockRequest_refused (.inr (unlockOk_of_fault fault)), ite_self]

/-! ### Stage tests -/

/-- The oldest stage test is taken from the queue. -/
abbrev stageTaken (r : List UnlockReq) (s : State) : State := { s with dc := { s.dc with unlock := r } }

theorem exec_unlockStageTestDone {u : UnlockReq} {r : List UnlockReq} (first : s.dc.unlock = u :: r) (pass : Bool) :
    exec (.unlockStageTestDone pass) s = .next (if pass && decide (s.now ≤ u.start + 20000) && unlockOk u.chan s
      then setChan u.chan (fun x => { x with unlocking := some u.usb }) (stageTaken r s)
      else unlockRefuse u.chan u.usb (stageTaken r s)) := by
  change execUnlockStageTestDone pass s = _
  unfold execUnlockStageTestDone
  rw [first]
  rfl

theorem exec_unlockStageTestDone_none (noTest : s.dc.unlock = []) (pass : Bool) :
    exec (.unlockStageTestDone pass) s = .next s := by
  change execUnlockStageTestDone pass s = _
  unfold execUnlockStageTestDone
  rw [noTest]

end Requests

/-! ### The tick that decides (R267, R291, R292) -/

section Decision

variable {c : Fin 16} {s : State} {usb : Bool}

theorem chanStep_accepts (service : inService s = true) (on : chanOn c s = true) (locked : s.dc.chan[c.1].state = .locked)
    (asked : s.dc.chan[c.1].unlocking = some usb) (sound : faultPresent c s = false) :
    chanStep s c = unlockAccept c usb s := by
  have stands : unlockVoid c s = s := by
    simp [unlockVoid, asked, unlockOk_of_parts service locked sound]
  simp [chanStep, stands, on, service, locked, asked]

/-- The request is withdrawn from its channel. -/
abbrev unlockWithdrawn (c : Fin 16) (s : State) : State := setChan c (fun x => { x with unlocking := none }) s

theorem chanStep_refuses (service : inService s = true) (on : chanOn c s = true) (locked : s.dc.chan[c.1].state = .locked)
    (asked : s.dc.chan[c.1].unlocking = some usb) (fault : faultPresent c s = true) :
    chanStep s c = unlockRefuse c usb (unlockWithdrawn c s) := by
  have void : unlockVoid c s = unlockRefuse c usb (unlockWithdrawn c s) := by
    simp [unlockVoid, asked, unlockOk_of_fault fault]
  obtain ⟨e, n, refused⟩ := unlockRefuse_frame c usb (unlockWithdrawn c s)
  have chan : (unlockRefuse c usb (unlockWithdrawn c s)).dc.chan[c.1] = { s.dc.chan[c.1] with unlocking := none } := by
    rw [unlockRefuse_dc]
    exact setChan_chan c _ s
  have on' : chanOn c (unlockRefuse c usb (unlockWithdrawn c s)) = true := by
    rw [refused]
    exact on
  have service' : inService (unlockRefuse c usb (unlockWithdrawn c s)) = true := by
    rw [refused]
    exact service
  simp [chanStep, void, chan, on', service', locked]

/-- What an accepted unlock clears in its channel (R291). -/
def unlocked (x : Chan) : Chan :=
  { x with
    unlocking := none, locked := false, lockPend := false, lockHard := false, lockSto := false, lockSource := false,
    armed := false, degResumed := false, usedCyc := 0, usedMin := 0, partUs := 0, degAt := Vector.replicate 3 none }

theorem chanSet_chan (new : ChanState) (cause : Nat) : (chanSet c new cause s).dc.chan[c.1] =
    { s.dc.chan[c.1] with
      state := new, cause := BitVec.ofNat 5 cause,
      armed := if new = .inactive || new = .locked || new = .isolated then false else s.dc.chan[c.1].armed } := by
  unfold chanSet
  dsimp only
  split
  · exact get_upd_same _ _ _
  · simp only [raise_dc, get_upd_same]

/-- The rest state of a channel leaves ARMED as the unlock has cleared it. -/
theorem chanSet_restState_chan (cause : Nat) (x : Chan) (cleared : s.dc.chan[c.1] = unlocked x) :
    (chanSet c (restState s.dc.chan[c.1]) cause s).dc.chan[c.1] =
      { unlocked x with state := restState (unlocked x), cause := BitVec.ofNat 5 cause } := by
  rw [chanSet_chan, cleared]
  simp [unlocked]

/-- An accepted unlock clears its channel, whatever else it did to it, and lets it rest. -/
theorem unlockAccept_chan : ∃ x : Chan, (unlockAccept c usb s).dc.chan[c.1] =
    { unlocked x with state := restState (unlocked x), cause := 0x18 } := by
  unfold unlockAccept
  generalize clFaultEnds c _ = y
  refine ⟨y.dc.chan[c.1], ?_⟩
  dsimp only
  have cleared : (unlockRecord c usb true (writeDoor c (setChan c unlocked y))).dc.chan[c.1] = unlocked y.dc.chan[c.1] := by
    obtain ⟨e, n, recorded⟩ := unlockRecord_frame c usb true (writeDoor c (setChan c unlocked y))
    rw [recorded]
    exact setChan_chan c _ y
  simp only [clearUnit_dc]
  exact chanSet_restState_chan 0x18 _ cleared

theorem restState_eq (x : Chan) : restState x = .closed ∨ restState x = .stopped := by
  unfold restState
  split
  · exact .inl rfl
  · exact .inr rfl

end Decision

/-! ### Degraded minutes (R286, R287) -/

section Minutes

variable {c : Fin 16} {s : State} {d0 : Nat}

/-- A minute of a channel is counted, and the next is due a minute later. -/
def minuteCounted (x : Chan) : Chan :=
  { x with usedMin := BitVec.ofNat 11 (min 2047 (x.usedMin.toNat + 1)), nextMin := x.nextMin.map (· + 60000000) }

theorem minuteCounted_usedMin {x : Chan} (small : x.usedMin.toNat < 2047) :
    (minuteCounted x).usedMin.toNat = x.usedMin.toNat + 1 := by
  simp only [minuteCounted, BitVec.toNat_ofNat]
  omega

theorem exec_degradedMinute (service : inService s = true) (degraded : s.dc.chan[c.1].degraded = true)
    (next : s.dc.chan[c.1].nextMin = some d0) : exec (.degradedMinute c) s =
      .next (if d0 ≤ s.now then degEscalate c (writeDoor c (setChan c minuteCounted s)) else s) := by
  have counted : setChan c (fun y => { y with
      usedMin := BitVec.ofNat 11 (min 2047 (s.dc.chan[c.1].usedMin.toNat + 1)), nextMin := y.nextMin.map (· + 60000000) }) s =
      setChan c minuteCounted s := setChan_congr rfl
  change execDegradedMinute c s = _
  simp [execDegradedMinute, degraded, next, notReset_of_inService service, clockSafe_of_inService service, counted]

/-- The used cycles or minutes of a degraded channel have reached their limit, and no lockout is due yet. -/
abbrev escalates (c : Fin 16) (s : State) : Bool :=
  s.dc.chan[c.1].degraded && !s.dc.chan[c.1].lockPend &&
    (decide (fld s.cfg.chan[c.1].degcyc 7 0 ≤ s.dc.chan[c.1].usedCyc.toNat) ||
      decide (fld s.cfg.chan[c.1].degtime 10 0 ≤ s.dc.chan[c.1].usedMin.toNat))

/-- At the limit the lockout falls due, with a report; before it nothing happens. -/
theorem degEscalate_cases (c : Fin 16) (s : State) : escalates c s = false ∧ degEscalate c s = s ∨
    ∃ e n, degEscalate c s = setChan c (fun x => { x with lockPend := true }) { s with ev := e, nv := n } := by
  unfold degEscalate
  dsimp only
  split
  · obtain ⟨e, raised⟩ := raise_frame 0x1FE (pack [(0, 4), (4, 1), (8, c.1)]) s
    obtain ⟨e', n, recorded, -⟩ := record_frame 8 0x1FE [4, 0x11, BitVec.ofNat 8 c.1] { s with ev := e }
    rw [raised, recorded]
    exact .inr ⟨e', n, rfl⟩
  · next below => exact .inl ⟨Bool.eq_false_iff.2 below, rfl⟩

/-- A counted minute changes its channel only, and lets the lockout fall due at the limit. -/
theorem degEscalate_minuteCounted (degraded : s.dc.chan[c.1].degraded = true) (small : s.dc.chan[c.1].usedMin.toNat < 2047) :
    let t := degEscalate c (writeDoor c (setChan c minuteCounted s))
    t.dc.chan[c.1].usedMin.toNat = s.dc.chan[c.1].usedMin.toNat + 1 ∧
      (fld s.cfg.chan[c.1].degtime 10 0 ≤ s.dc.chan[c.1].usedMin.toNat + 1 → s.dc.chan[c.1].lockPend = false →
        t.dc.chan[c.1].lockPend = true) ∧
      t = { s with dc := { s.dc with chan := t.dc.chan }, ev := t.ev, nv := t.nv } := by
  have counted : (writeDoor c (setChan c minuteCounted s)).dc.chan[c.1] = minuteCounted s.dc.chan[c.1] := setChan_chan c _ s
  have cfg : (writeDoor c (setChan c minuteCounted s)).cfg = s.cfg := rfl
  have used := minuteCounted_usedMin small
  intro t
  obtain ⟨below, stays⟩ | ⟨e, n, due⟩ := degEscalate_cases c (writeDoor c (setChan c minuteCounted s))
  · rw [show t = _ from stays]
    refine ⟨by rw [counted, used], fun limit notDue => absurd below ?_, rfl⟩
    rw [Bool.not_eq_false, escalates, counted, used]
    simp [cfg, minuteCounted, degraded, notDue, limit]
  · rw [show t = _ from due]
    refine ⟨?_, fun _ _ => ?_, rfl⟩
    · rw [setChan_chan]
      exact (congrArg (fun x => x.usedMin.toNat) counted).trans used
    · rw [setChan_chan]

end Minutes

/-! ### The statement -/

/-- Settles O28: a request, its stage test and the tick that decides it are each an equation of their command, and a degraded minute
either escalates or counts (`degEscalate_minuteCounted`). -/
theorem unlocksStageTestsAndDegradedMinutes : Obligations.UnlocksStageTestsAndDegradedMinutes := by
  unfold Obligations.UnlocksStageTestsAndDegradedMinutes
  refine ⟨fun s c v service key channel => ⟨fun login free locked sound => ?requested, fun barred => ?refused, rfl⟩,
    fun s c u r d0 service => ⟨fun first => ⟨fun inTime locked sound => ?passed, ?failed, fun late => ?late⟩,
      fun noTest b => exec_unlockStageTestDone_none noTest b,
      fun usb on locked asked => ⟨fun sound => ?accepted, fun fault => ?void⟩,
      fun degraded next small => ⟨fun due => ?due, fun early => ?early⟩⟩⟩
  case requested =>
    have may : MayUnlock c s := ⟨free, unlockOk_of_parts service locked sound⟩
    obtain ⟨h, run⟩ := exec_dcUnlock_bus (v := v) service
    have may' : MayUnlock c { s with hb := h } := ⟨may.free, may.ok⟩
    rw [unlockWrite_keyed key channel, if_pos login] at run
    refine ⟨fun noSto => ?_, fun sto => ?_⟩
    · rw [unlockRequest_taken may' noSto] at run
      exact ⟨_, run, rfl⟩
    · rw [unlockRequest_staged may' sto] at run
      exact ⟨_, run, rfl⟩
  case refused =>
    obtain ⟨h, run⟩ := exec_dcUnlock_bus (v := v) service
    have barred' : Unallowed c { s with hb := h } := barred
    obtain ⟨e, n, refused⟩ := unlockRefuse_frame c false { s with hb := h }
    rw [unlockWrite_refused key channel barred', refused] at run
    exact ⟨_, run, rfl⟩
  case passed =>
    rw [exec_unlockStageTestDone first, if_pos (by simp [inTime, unlockOk_of_parts service locked sound])]
    rfl
  case failed =>
    exact ⟨_, (exec_unlockStageTestDone first false).trans (by rw [if_neg (by simp)]), unlockRefuse_dc _⟩
  case late =>
    exact ⟨_, (exec_unlockStageTestDone first true).trans (by rw [if_neg (by simp [late])]), unlockRefuse_dc _⟩
  case accepted =>
    obtain ⟨x, cleared⟩ := unlockAccept_chan (c := c) (s := s) (usb := usb)
    rw [chanStep_accepts service on locked asked sound]
    simp only [cleared]
    exact ⟨restState_eq _, rfl, rfl, rfl, rfl, rfl, rfl, rfl⟩
  case void =>
    rw [chanStep_refuses service on locked asked fault, unlockRefuse_dc]
    exact ⟨rfl, rfl⟩
  case due =>
    exact ⟨_, (exec_degradedMinute service degraded next).trans (by rw [if_pos due]), degEscalate_minuteCounted degraded small⟩
  case early =>
    rw [exec_degradedMinute service degraded next, if_neg (Nat.not_le.2 early)]

end Sys2Proof.Machine
end

section
/-! PROOFS. The telegram layer seen through its updates (chapter 09): what a block at a tap and a telegram's report leave alone, and
what the work on an accepted telegram leaves of the ports and of the copies that are held. -/

namespace Sys2Proof.Machine

open Sys2Proof

/-! ### A block at a tap (R396, R400) -/

/-- Only the check units and the events may differ. -/
def TapsOnly (s t : State) : Prop := t = { s with ck := t.ck, ev := t.ev }

section Taps

variable {s t u : State} {n : Fin 8}

theorem TapsOnly.trans (h₁ : TapsOnly s t) (h₂ : TapsOnly t u) : TapsOnly s u := Eq.trans h₂ (by rw [h₁])

/-- The work of snoop unit `n` on its blocks: the unit keeps its configuration, so that it stays a snoop unit. -/
def SnoopStep (n : Fin 8) (s t : State) : Prop := TapsOnly s t ∧ t.ck[n.1].cfg = s.ck[n.1].cfg

theorem SnoopStep.trans (h₁ : SnoopStep n s t) (h₂ : SnoopStep n t u) : SnoopStep n s u :=
  ⟨h₁.1.trans h₂.1, h₂.2.trans h₁.2⟩

theorem snoopStep_setCk {f : Ck → Ck} (s : State) (kept : (f s.ck[n.1]).cfg = s.ck[n.1].cfg) : SnoopStep n s (setCk n f s) :=
  ⟨rfl, (congrArg Ck.cfg (get_upd_same _ _ _)).trans kept⟩

theorem SnoopStep.owner_eq (h : SnoopStep n s t) : ckOwner t.ck[n.1] = ckOwner s.ck[n.1] := by rw [ckOwner, h.2, ckOwner]

theorem snoopStep_raise (code : Nat) (data : W16) (s : State) : SnoopStep n s (raise code data s) := by
  obtain ⟨e, raised⟩ := raise_frame code data s
  rw [raised]
  exact ⟨rfl, rfl⟩

/-- A mismatch of a unit that Cantle does not own sets no interrupt source (R405). -/
theorem snoopStep_ckMismatch (snoop : ckOwner s.ck[n.1] = 1) (kind diff : Nat) : SnoopStep n s (ckMismatch n kind diff s) := by
  unfold ckMismatch
  dsimp only
  rw [if_neg (show ckOwner s.ck[n.1] ≠ 2 by omega)]
  have marked : SnoopStep n s (setCk n (fun u => { u with mis := true, lastk := BitVec.ofNat 4 kind, cnt := satInc u.cnt }) s) :=
    snoopStep_setCk s rfl
  split
  · exact (marked.trans (snoopStep_setCk (f := fun u => { u with evAt := some s.now }) _ rfl)).trans (snoopStep_raise _ _ _)
  · exact marked

theorem snoopStep_ckServe (snoop : ckOwner s.ck[n.1] = 1) (b : Block) : SnoopStep n s (ckServe n s b) := by
  unfold ckServe
  dsimp only
  have taken : SnoopStep n s (setCk n (fun u => ckAfter u b) s) := snoopStep_setCk s rfl
  split
  · exact taken
  · exact taken.trans (snoopStep_ckMismatch (taken.owner_eq.trans snoop) _ _)

theorem snoopStep_ckServeAll (snoop : ckOwner s.ck[n.1] = 1) : SnoopStep n s (ckServeAll n s) :=
  List.foldlRecOn (motive := SnoopStep n s) _ _ (snoopStep_setCk s rfl)
    fun _ h b _ => h.trans (snoopStep_ckServe (h.owner_eq.trans snoop) b)

theorem snoopStep_ckMakeRoom (snoop : ckOwner s.ck[n.1] = 1) (b : Block) : SnoopStep n s (ckMakeRoom n b s) := by
  have abandoned : SnoopStep n s (setCk n ckAbandon s) := snoopStep_setCk s rfl
  unfold ckMakeRoom
  dsimp only
  split
  · split
    · exact ⟨rfl, rfl⟩
    · exact abandoned.trans (snoopStep_ckServeAll (abandoned.owner_eq.trans snoop))
  · split
    · exact ⟨rfl, rfl⟩
    · exact snoopStep_ckServeAll snoop

theorem tapsOnly_tapUnit (tap : Nat) (b : Block) (s : State) (n : Fin 8) : TapsOnly s (tapUnit tap b s n) := by
  unfold tapUnit
  split
  · next watches =>
    have snoop : ckOwner s.ck[n.1] = 1 := by
      simp only [ckWatches, Bool.and_eq_true, decide_eq_true_eq] at watches
      exact watches.1.1.1
    exact (snoopStep_ckMakeRoom snoop b).1.trans rfl
  · rfl

/-- A block at a tap changes the check units on it and their events only. -/
theorem tapOut_frame (tap : Nat) (b : Block) (s : State) : ∃ k e, tapOut tap b s = { s with ck := k, ev := e } :=
  ⟨_, _, List.foldlRecOn (motive := TapsOnly s) _ _ rfl fun y h n _ => h.trans (tapsOnly_tapUnit tap b y n)⟩

end Taps

/-! ### Reports of a telegram (R328, R355, R356) -/

section Reports

variable (q : Fin 4) (kind type : Nat) (src : Byte) (s : State)

/-- A rejected copy is counted for its port; its event is limited. -/
theorem rejectCopy_frame (reason : Nat) (b : List Byte) :
    ∃ k e, rejectCopy q reason b s = { s with tg := { s.tg with rxerr := upd s.tg.rxerr q satInc, k0At := k }, ev := e } := by
  unfold rejectCopy
  dsimp only
  split
  · obtain ⟨e, raised⟩ := raise_frame (netCode q 0) (pack [(0, reason), (4, tType b), (8, (tSrc b).toNat)])
      (setTg (fun t => { t with rxerr := upd t.rxerr q satInc, k0At := t.k0At.set q.1 (some s.now) }) s)
    exact ⟨_, e, raised⟩
  · exact ⟨_, _, rfl⟩

/-- A telegram fault without a record changes its limit and the events. -/
theorem limitedFault_frame : ∃ k e, limitedFault q kind type src false s = { s with tg := { s.tg with k2At := k }, ev := e } := by
  unfold limitedFault
  dsimp only
  rw [if_neg Bool.false_ne_true]
  split
  · obtain ⟨e, raised⟩ := raise_frame (netCode q 2) (faultData kind type src)
      (setTg (fun t => { t with k2At := t.k2At.set q.1 (some s.now) }) s)
    exact ⟨_, e, raised⟩
  · exact ⟨_, _, rfl⟩

/-- One with its record changes the ledger's queue as well. -/
theorem limitedFault_recorded_frame :
    ∃ k e v, limitedFault q kind type src true s = { s with tg := { s.tg with k2At := k }, ev := e, nv := v } := by
  obtain ⟨k, e, reported⟩ := limitedFault_frame q kind type src s
  obtain ⟨e', v, recorded, -⟩ := record_frame 5 (netCode q 2) (bytesLE 2 (faultData kind type src).toNat)
    { s with tg := { s.tg with k2At := k }, ev := e }
  refine ⟨k, e', v, Eq.trans ?_ recorded⟩
  rw [← reported]
  rfl

/-- A safety reaction with its record changes the events and the ledger's queue. -/
theorem raiseAt_record_frame (code : Nat) (w : W16) (ts : TStamp) (mark : Bool) :
    ∃ e v, eventRecord code w (raiseAt code w ts mark s) = { s with ev := e, nv := v } := by
  obtain ⟨e, raised⟩ := raiseAt_frame code w ts mark s
  obtain ⟨e', v, recorded, -⟩ := record_frame 5 code (bytesLE 2 w.toNat) { s with ev := e }
  exact ⟨e', v, by rw [raised, eventRecord, recorded]⟩

/-- A lapse is counted, reported and recorded (R340). -/
theorem lapseEvent_frame : ∃ e v, lapseEvent q type src s = { s with tg := { s.tg with stale := satInc s.tg.stale }, ev := e, nv := v } :=
  raiseAt_record_frame (setTg (fun t => { t with stale := satInc t.stale }) s) _ _ _ _

end Reports

/-! ### Degraded items leave the telegrams and the ports -/

/-- Only the mode block, the events and the NVM block may differ. -/
def ItemsOnly (s t : State) : Prop := t = { s with sys := t.sys, ev := t.ev, nv := t.nv }

section Items

variable {s t u : State}

theorem ItemsOnly.trans (h₁ : ItemsOnly s t) (h₂ : ItemsOnly t u) : ItemsOnly s u := Eq.trans h₂ (by rw [h₁])

theorem ItemsOnly.tg_eq (h : ItemsOnly s t) : t.tg = s.tg := by rw [h]
theorem ItemsOnly.ports_eq (h : ItemsOnly s t) : t.ports = s.ports := by rw [h]

theorem ItemsOnly.of_report {e : Ev} {v : Nv} (h : t = { s with ev := e, nv := v }) : ItemsOnly s t := by
  subst h
  rfl

variable (s)

/-- The event and the record of an item's change. -/
theorem itemsOnly_reported (i unit : Nat) (set : Bool) (data : List Byte) :
    ItemsOnly s (record 8 0x1FD data (raise 0x1FD (itemWord i set unit) s)) := by
  obtain ⟨e, raised⟩ := raise_frame 0x1FD (itemWord i set unit) s
  obtain ⟨e', v, recorded, -⟩ := record_frame 8 0x1FD data { s with ev := e }
  exact .of_report (by rw [raised, recorded])

theorem itemsOnly_setItem (i : Fin 10) (unit : Nat) : ItemsOnly s (setItem i unit s) := by
  unfold setItem
  dsimp only
  split
  · rfl
  · exact ItemsOnly.trans (t := { s with sys := _ }) rfl (itemsOnly_reported _ _ _ _ _)

theorem itemsOnly_clearItem (i : Fin 10) : ItemsOnly s (clearItem i s) := by
  unfold clearItem clearUnit
  dsimp only
  split
  · exact ItemsOnly.trans (t := { s with sys := _ }) rfl (itemsOnly_reported _ _ _ _ _)
  · rfl

theorem itemsOnly_recovery (kind unit : Nat) : ItemsOnly s (recovery kind unit s) := by
  unfold recovery
  split <;> rfl

theorem itemsOnly_netEvent (q : Fin 4) (what cause : Nat) : ItemsOnly s (netEvent q what cause s) := by
  obtain ⟨e, raised⟩ := raiseAt_frame (netCode q 1) (pack [(0, what), (4, cause)]) s.tstamp true s
  exact .of_report (v := s.nv) raised

theorem itemsOnly_eventRecord (code : Nat) (w : W16) : ItemsOnly s (eventRecord code w s) := by
  obtain ⟨e, v, recorded, -⟩ := record_frame 5 code (bytesLE 2 w.toNat) s
  exact .of_report recorded

end Items

/-! ### The ports and the copies of the pairs -/

/-- The ports and, of each pair, the copies that are held and the telegrams accepted lately. -/
def arrivals (s : State) : Ports × Vector (List Slot × List Acc) 2 := (s.ports, mapv (fun _ y => (y.slots, y.recent)) s.tg.pair)

section Arrivals

variable {s t : State}

theorem ports_of_arrivals (h : arrivals t = arrivals s) : t.ports = s.ports := congrArg Prod.fst h

theorem copies_of_arrivals (h : arrivals t = arrivals s) (p : Fin 2) :
    t.tg.pair[p.1].slots = s.tg.pair[p.1].slots ∧ t.tg.pair[p.1].recent = s.tg.pair[p.1].recent := by
  have copies : (t.tg.pair[p.1].slots, t.tg.pair[p.1].recent) = (s.tg.pair[p.1].slots, s.tg.pair[p.1].recent) := by
    simpa [arrivals] using congrArg (fun a => a.2[p.1]) h
  exact ⟨congrArg Prod.fst copies, congrArg Prod.snd copies⟩

/-- What keeps the ports and the pairs keeps these. -/
theorem arrivals_congr (ports : t.ports = s.ports) (pair : t.tg.pair = s.tg.pair) : arrivals t = arrivals s := by
  rw [arrivals, ports, pair, arrivals]

theorem ItemsOnly.arrivals_eq (h : ItemsOnly s t) : arrivals t = arrivals s :=
  arrivals_congr h.ports_eq (congrArg Tg.pair h.tg_eq)

/-- A change of a pair that keeps its copies. -/
theorem arrivals_setPair {p : Fin 2} {f : NetPair → NetPair} (s : State)
    (kept : ∀ y, ((f y).slots, (f y).recent) = (y.slots, y.recent)) : arrivals (setPair p f s) = arrivals s := by
  refine Prod.ext rfl (Vector.ext fun j hj => ?_)
  simp only [arrivals, setPair, setTg, get_mapv, get_upd]
  split
  · exact kept _
  · rfl

variable (q : Fin 4) (k : Fin 5) (p : Fin 2) (b : List Byte) (s)

@[simp] theorem arrivals_limitedFault (kind type : Nat) (src : Byte) (rec : Bool) :
    arrivals (limitedFault q kind type src rec s) = arrivals s := by
  cases rec with
  | false =>
    obtain ⟨_, _, reported⟩ := limitedFault_frame q kind type src s
    rw [reported]
    rfl
  | true =>
    obtain ⟨_, _, _, reported⟩ := limitedFault_recorded_frame q kind type src s
    rw [reported]
    rfl

@[simp] theorem arrivals_seqFault (kind : Nat) : arrivals (seqFault q kind b s) = arrivals s := arrivals_limitedFault _ _ _ _ _ _
@[simp] theorem arrivals_staleFault : arrivals (staleFault q b s) = arrivals s := arrivals_limitedFault _ _ _ _ _ _
@[simp] theorem arrivals_setSource (f : Source → Source) : arrivals (setSource k f s) = arrivals s := rfl
@[simp] theorem arrivals_noteSource : arrivals (noteSource k b s) = arrivals s := rfl
@[simp] theorem arrivals_noteEcho : arrivals (noteEcho k b s) = arrivals s := rfl

@[simp] theorem arrivals_pairStreak (good : Bool) : arrivals (pairStreak p good s) = arrivals s :=
  arrivals_setPair s (by exact fun _ => rfl)

@[simp] theorem arrivals_raise (code : Nat) (data : W16) : arrivals (raise code data s) = arrivals s := by
  obtain ⟨e, raised⟩ := raise_frame code data s
  rw [raised]
  rfl

/-- Neither a reset order nor the use of a telegram's content moves a copy (R342 to R344). -/
@[simp] theorem arrivals_resetOrder : arrivals (resetOrder b s) = arrivals s := by
  simp only [resetOrder, apply_ite arrivals, arrivals_raise]
  repeat' split
  all_goals rfl

@[simp] theorem arrivals_useCommand : arrivals (useCommand b s) = arrivals s := arrivals_resetOrder _ _

@[simp] theorem arrivals_useRequest : arrivals (useRequest q k b s) = arrivals s := by
  simp only [useRequest, apply_ite arrivals, arrivals_limitedFault]
  exact ite_self _

@[simp] theorem arrivals_useContent : arrivals (useContent q k b s) = arrivals s := by
  simp [useContent, apply_ite arrivals]

@[simp] theorem arrivals_pairRecover : arrivals (pairRecover p s) = arrivals s := by
  unfold pairRecover
  dsimp only
  split
  · exact (((itemsOnly_recovery _ _ _).trans (itemsOnly_netEvent _ _ _ _)).trans (itemsOnly_clearItem _ _)).arrivals_eq.trans
      (arrivals_setPair s (by exact fun _ => rfl))
  · rfl

@[simp] theorem arrivals_finish (use : Bool) : arrivals (finish q k b use s) = arrivals s := by
  simp [finish, apply_ite arrivals]

@[simp] theorem arrivals_inOrder : arrivals (inOrder q k b s) = arrivals s := by
  simp [inOrder, apply_ite arrivals]

/-- No part of the sequence check moves a copy (R333 to R338). -/
@[simp] theorem arrivals_telegram : arrivals (telegram q k b s) = arrivals s := by
  have counted (n : Nat) : arrivals (setTg (fun t => { t with gap := satAdd t.gap n }) s) = arrivals s := rfl
  simp [telegram, apply_ite arrivals, counted]

end Arrivals

end Sys2Proof.Machine
end

section
/-! PROOFS. Received copies (R327 to R330): a copy is rejected, held for its twin, or paired with it. -/

namespace Sys2Proof.Machine

open Sys2Proof

/-! ### The arrival of a copy (R327, Table TG-3) -/

/-- A copy that reaches the telegram layer: reception is on, its pair is in use, and it has the length that its head gives. -/
structure Arrives (q : Fin 4) (b : List Byte) (s : State) : Prop where
  receives : tgReceives s = true
  used : pairOf q = 1 → canUnused s = false
  fits : b.length = 16 + tLen b
  short : b.length ≤ 64

section Arrival

variable {q : Fin 4} {b : List Byte} {p : Fin 2} {s t : State}

/-- The checks of a copy are a matter of the configuration. -/
theorem copyReason_congr (h : t.cfg = s.cfg) (p : Fin 2) (b : List Byte) : copyReason p b t = copyReason p b s :=
  calc copyReason p b t = copyReason p b { s with cfg := t.cfg } := rfl
    _ = copyReason p b s := by rw [h]

/-- A copy without a failing check comes from a peer of its pair and has a format of Table TG-2. -/
theorem sound_of_copyReason (sound : copyReason p b s = 0) : (∃ k, peerOf p (tSrc b) s = some k) ∧ formatOk p b = true := by
  unfold copyReason at sound
  split at sound
  · contradiction
  · split at sound
    · contradiction
    · split at sound
      · contradiction
      · next known =>
        split at sound
        · contradiction
        · next format =>
          rw [Option.isNone_iff_eq_none] at known
          exact ⟨Option.ne_none_iff_exists'.1 known, by simpa using format⟩

/-- While no copy is held for longer than W, none expires. -/
theorem expireAll_of_young {instant : Nat} (young : ∀ c ∈ s.tg.pair[p.1].slots, instant ≤ c.at_ + skewUs p s) :
    expireAll p instant s = s := by
  have none : (s.tg.pair[p.1].slots.filter fun c => decide (c.at_ + skewUs p s < instant)) = [] :=
    List.filter_eq_nil_iff.2 fun c held => by simpa using young c held
  rw [expireAll, none, List.foldl_nil]

/-- A copy that arrives while no copy is held for too long meets the checks of Table TG-3; its tap leaves the telegrams alone. -/
theorem copyArrives_eq (h : Arrives q b s) (young : ∀ c ∈ s.tg.pair[(pairOf q).1].slots, s.now ≤ c.at_ + skewUs (pairOf q) s) :
    ∃ k e, copyArrives q b s = if copyReason (pairOf q) b s = 0 then copyGood q b { s with ck := k, ev := e }
      else rejectCopy q (copyReason (pairOf q) b s) b { s with ck := k, ev := e } := by
  obtain ⟨k, e, delivered⟩ := tapOut_frame (2 * (pairOf q).1) { bytes := b, tag := [ownNode s] } s
  have open_ : (!tgReceives s || (pairOf q = 1 && canUnused s)) = false := by
    rw [h.receives]
    simpa using h.used
  have whole : b.take (16 + min 48 (tLen b)) = b := List.take_of_length_le (by have := h.fits; have := h.short; omega)
  have before : expireAll (pairOf q) (s.now - 1) s = s :=
    expireAll_of_young fun c held => (Nat.sub_le _ _).trans (young c held)
  have after : expireAll (pairOf q) s.now { s with ck := k, ev := e } = { s with ck := k, ev := e } := expireAll_of_young young
  have reason : copyReason (pairOf q) b { s with ck := k, ev := e } = copyReason (pairOf q) b s := copyReason_congr rfl _ _
  refine ⟨k, e, ?_⟩
  simp only [copyArrives, open_, Bool.false_eq_true, if_false, before, whole, delivered, reason, after]
  split
  · next sound => rw [if_pos sound]
  · next unsound => rw [if_neg unsound]

theorem copyArrives_sound (h : Arrives q b s) (young : ∀ c ∈ s.tg.pair[(pairOf q).1].slots, s.now ≤ c.at_ + skewUs (pairOf q) s)
    (sound : copyReason (pairOf q) b s = 0) : ∃ k e, copyArrives q b s = copyGood q b { s with ck := k, ev := e } := by
  obtain ⟨k, e, arrives⟩ := copyArrives_eq h young
  exact ⟨k, e, arrives.trans (if_pos sound)⟩

theorem exec_copyReceive (q : Fin 4) (b : List Byte) (s : State) : exec (.copyReceive q b) s = .next (copyArrives q b s) := rfl

/-- A copy that fails a check is counted for its port (R328). -/
theorem copyArrives_rejected (h : Arrives q b s) (empty : s.tg.pair[(pairOf q).1].slots = [])
    (unsound : copyReason (pairOf q) b s ≠ 0) : ∃ k e l, copyArrives q b s =
      { s with tg := { s.tg with rxerr := upd s.tg.rxerr q satInc, k0At := l }, ck := k, ev := e } := by
  obtain ⟨k, e, arrives⟩ := copyArrives_eq h (by simp [empty])
  obtain ⟨l, e', rejected⟩ := rejectCopy_frame q { s with ck := k, ev := e } (copyReason (pairOf q) b s) b
  exact ⟨k, e', l, (arrives.trans (if_neg unsound)).trans rejected⟩

end Arrival

/-! ### Acceptance (R331, R336) -/

/-- An accepted telegram is noted as the newest of its pair. -/
def accepted (q : Fin 4) (b : List Byte) (seen : Bool) (s : State) : State :=
  setPair (pairOf q) (fun x => { x with
    recent := recentKeep (pairOf q) s (⟨tSrc b, tSeq b, b, s.now, seen⟩ :: x.recent), mism := 0,
    miss := if x.mode = .dual || x.mode = .lost then Vector.replicate 2 0 else x.miss.set (netOf q).1 0 }) (noteLatch s)

section Acceptance

variable {q : Fin 4} {b : List Byte} {s : State} (seen : Bool)

theorem accept_known {k : Fin 5} (known : peerOf (pairOf q) (tSrc b) s = some k) :
    accept q b seen s = telegram q k b (noteEcho k b (accepted q b seen s)) := by
  have known' : peerOf (pairOf q) (tSrc b) (accepted q b seen s) = some k := known
  unfold accept
  dsimp only
  rw [← accepted, known']

theorem setPair_pair (p : Fin 2) (f : NetPair → NetPair) (s : State) : (setPair p f s).tg.pair[p.1] = f s.tg.pair[p.1] :=
  get_upd_same _ _ _

/-- What an acceptance leaves of the copies of its pair: the held ones, and the accepted one in front of the earlier ones. -/
theorem accept_copies {k : Fin 5} (known : peerOf (pairOf q) (tSrc b) s = some k) :
    (accept q b seen s).tg.pair[(pairOf q).1].slots = s.tg.pair[(pairOf q).1].slots ∧
      (accept q b seen s).tg.pair[(pairOf q).1].recent.head? = some ⟨tSrc b, tSeq b, b, s.now, seen⟩ := by
  have kept : arrivals (accept q b seen s) = arrivals (accepted q b seen s) := by
    rw [accept_known seen known, arrivals_telegram, arrivals_noteEcho]
  obtain ⟨slots, recent⟩ := copies_of_arrivals kept (pairOf q)
  rw [slots, recent, accepted, setPair_pair]
  exact ⟨rfl, rfl⟩

end Acceptance

/-! ### Pairing (R329) -/

/-- A held copy of network `1 - netOf q` waits for the copy `b` as its twin. -/
structure AwaitsTwin (q : Fin 4) (b : List Byte) (c : Slot) (s : State) : Prop where
  held : s.tg.pair[(pairOf q).1].slots = [c]
  dual : s.tg.pair[(pairOf q).1].mode = .dual
  fresh : s.tg.pair[(pairOf q).1].recent = []
  net : c.net = 1 - netOf q
  src : c.src = tSrc b
  seq : c.seq = tSeq b
  inTime : s.now ≤ c.at_ + skewUs (pairOf q) s

/-- The slot of a held copy is free again. -/
abbrev slotFreed (p : Fin 2) (c : Slot) (s : State) : State := setPair p (fun y => { y with slots := y.slots.erase c }) s

section Pairing

variable {q : Fin 4} {b : List Byte} {c : Slot} {p x : Fin 2} {s : State}

theorem recentOf_of_empty (empty : s.tg.pair[p.1].recent = []) (src : Byte) (seq : W32) : recentOf p src seq s = none := by
  rw [recentOf, empty, List.find?_nil]

theorem slotOf_of_empty (empty : s.tg.pair[p.1].slots = []) (x : Fin 2) (b : List Byte) : slotOf p x b s = none := by
  rw [slotOf, empty, List.find?_nil]

theorem expireAll_of_empty (empty : s.tg.pair[p.1].slots = []) (instant : Nat) : expireAll p instant s = s :=
  expireAll_of_young (by simp [empty])

/-- A copy of a pair in dual mode without any held or accepted copy is held. -/
theorem copyGood_held (empty : s.tg.pair[(pairOf q).1].slots = []) (dual : s.tg.pair[(pairOf q).1].mode = .dual)
    (fresh : s.tg.pair[(pairOf q).1].recent = []) : copyGood q b s = holdCopy q b s := by
  have alone (y : Fin 2) := slotOf_of_empty empty y b
  have unseen := recentOf_of_empty fresh (tSrc b) (tSeq b)
  have room : makeRoom (pairOf q) s = s := by rw [makeRoom, empty]
  have checked : copyChecked q b s = holdCopy q b s := by
    simp [copyChecked, dual, copyDual, unseen, alone, copyHeld, room]
  simp [copyGood, mismatches, alone, expireAll_of_empty empty, checked]

namespace AwaitsTwin

variable (h : AwaitsTwin q b c s)

include h

theorem slotOf_eq : slotOf (pairOf q) (1 - netOf q) b s = some c := by
  simp [slotOf, h.held, h.net, h.src, h.seq, h.inTime]

theorem mismatches_eq : mismatches q b s = (c.bytes != b) := by
  simp [mismatches, h.dual, h.slotOf_eq, recentOf_of_empty h.fresh]

theorem copyChecked_eq : copyChecked q b s = if c.bytes = b then accept q b true (slotFreed (pairOf q) c s)
    else mismatchCopy q b (slotFreed (pairOf q) c s) := by
  simp [copyChecked, h.dual, copyDual, recentOf_of_empty h.fresh, h.slotOf_eq]

theorem slotFreed_slots : (slotFreed (pairOf q) c s).tg.pair[(pairOf q).1].slots = [] := by
  simp [slotFreed, setPair_pair, h.held]

theorem young : ∀ d ∈ s.tg.pair[(pairOf q).1].slots, s.now ≤ d.at_ + skewUs (pairOf q) s := by
  simpa [h.held] using h.inTime

/-- Equal twins are accepted once. -/
theorem copyGood_equal (equal : c.bytes = b) : copyGood q b s = accept q b true (slotFreed (pairOf q) c s) := by
  have none : mismatches q b s = false := by simp [h.mismatches_eq, equal]
  simp [copyGood, none, expireAll_of_young h.young, h.copyChecked_eq, equal]

end AwaitsTwin

end Pairing

/-! ### Copies that differ (R332, R347) -/

section Mismatch

variable (q : Fin 4) (b : List Byte) (p : Fin 2) (s : State)

theorem pairLose_tg (cause : Nat) : (pairLose p cause s).tg =
    { s.tg with pair := upd s.tg.pair p fun x => { x with mode := .lost, since := none, streak := 0 } } :=
  ((((itemsOnly_netEvent _ _ _ _).trans (itemsOnly_eventRecord _ _ _)).trans (itemsOnly_setItem _ _ _)).trans
    (itemsOnly_clearItem _ _)).tg_eq

/-- A mismatch is counted, and its pair may be lost; no copy moves. -/
theorem mismatchCopy_tg : ∃ l v, (mismatchCopy q b s).tg = { s.tg with mismatch := satInc s.tg.mismatch, k2At := l, pair := v } ∧
    v[(pairOf q).1].slots = s.tg.pair[(pairOf q).1].slots := by
  obtain ⟨l, e, v, reported⟩ := limitedFault_recorded_frame q 2 (tType b) (tSrc b)
    (setTg (fun t => { t with mismatch := satInc t.mismatch }) s)
  have counted : (upd s.tg.pair (pairOf q) fun y => { y with mism := y.mism + 1, streak := 0 })[(pairOf q).1].slots =
      s.tg.pair[(pairOf q).1].slots := by rw [get_upd_same]
  unfold mismatchCopy
  dsimp only
  rw [reported]
  split
  · exact ⟨l, _, pairLose_tg _ _ _, (by rw [get_upd_same]; exact counted)⟩
  · exact ⟨l, _, rfl, counted⟩

end Mismatch

/-- Unequal twins end the hold with a mismatch, and nothing is used. -/
theorem AwaitsTwin.copyGood_unequal {q : Fin 4} {b : List Byte} {c : Slot} {s : State} (h : AwaitsTwin q b c s)
    (unequal : c.bytes ≠ b) : ∃ l v, (copyGood q b s).tg =
      { s.tg with mismatch := satInc s.tg.mismatch, k2At := l, pair := v } ∧ v[(pairOf q).1].slots = [] := by
  obtain ⟨l, v, tg, kept⟩ := mismatchCopy_tg q b (slotFreed (pairOf q) c s)
  have freed : v[(pairOf q).1].slots = [] := kept.trans h.slotFreed_slots
  have slots : (mismatchCopy q b (slotFreed (pairOf q) c s)).tg.pair[(pairOf q).1].slots = [] := by rw [tg, freed]
  have mismatch : mismatches q b s = true := by simp [h.mismatches_eq, unequal]
  have good : copyGood q b s = mismatchCopy q b (slotFreed (pairOf q) c s) := by
    simp [copyGood, mismatch, h.copyChecked_eq, unequal, expireAll_of_empty slots]
  exact ⟨l, v, (congrArg State.tg good).trans tg, freed⟩

/-! ### The statement -/

/-- Settles O29: a copy meets the checks (`copyArrives_eq`), is held (`copyGood_held`), or ends the hold of its twin, with a mismatch
(`AwaitsTwin.copyGood_unequal`) or as the newest accepted telegram (`accept_copies`). -/
theorem aCopyIsHeldPairedOrRejected : Obligations.ACopyIsHeldPairedOrRejected := by
  unfold Obligations.ACopyIsHeldPairedOrRejected
  intro s q b receives short fits used
  have arrives : Arrives q b s := ⟨receives, used, fits, short⟩
  refine ⟨fun empty unsound => ?rejected, fun empty dual fresh sound => ?held,
    fun c held dual fresh sound net src seq inTime => ⟨fun unequal => ?mismatch, fun equal => ?paired⟩⟩
  case rejected =>
    obtain ⟨k, e, l, rejected⟩ := copyArrives_rejected arrives empty unsound
    refine ⟨_, exec_copyReceive q b s, ?_⟩
    rw [rejected]
    exact ⟨get_upd_same _ _ _, rfl, rfl, rfl, rfl, rfl⟩
  case held =>
    obtain ⟨k, e, good⟩ := copyArrives_sound arrives (by simp [empty]) sound
    refine ⟨_, exec_copyReceive q b s, ?_⟩
    rw [good.trans (copyGood_held empty dual fresh)]
    refine ⟨?_, rfl, rfl, rfl, rfl⟩
    simp [holdCopy, setPair_pair, empty]
  case mismatch =>
    have twin : AwaitsTwin q b c s := ⟨held, dual, fresh, net, src, seq, inTime⟩
    obtain ⟨k, e, good⟩ := copyArrives_sound arrives twin.young sound
    have twin' : AwaitsTwin q b c { s with ck := k, ev := e } := ⟨held, dual, fresh, net, src, seq, inTime⟩
    obtain ⟨l, v, tg, slots⟩ := twin'.copyGood_unequal unequal
    refine ⟨_, exec_copyReceive q b s, ?_⟩
    rw [good, tg]
    exact ⟨rfl, slots, rfl, rfl, rfl⟩
  case paired =>
    have twin : AwaitsTwin q b c s := ⟨held, dual, fresh, net, src, seq, inTime⟩
    obtain ⟨k, e, good⟩ := copyArrives_sound arrives twin.young sound
    have twin' : AwaitsTwin q b c { s with ck := k, ev := e } := ⟨held, dual, fresh, net, src, seq, inTime⟩
    obtain ⟨⟨n, known⟩, -⟩ := sound_of_copyReason sound
    obtain ⟨slots, newest⟩ := accept_copies (s := slotFreed (pairOf q) c { s with ck := k, ev := e }) true known
    refine ⟨_, exec_copyReceive q b s, ?_⟩
    rw [good, twin'.copyGood_equal equal]
    exact ⟨slots.trans twin'.slotFreed_slots, _, newest, rfl, rfl, rfl⟩

end Sys2Proof.Machine
end

section
/-! PROOFS. Accepted commands (R336 to R338, R342), held copies that stay without their twin (R329, R332), and content whose echo
lapses (R339, R340). -/

namespace Sys2Proof.Machine

open Sys2Proof

/-! ### Freshness of an echo (R337) -/

/-- Freshness is a matter of the numbers and times sent to the peer, the time and the configuration. -/
theorem echoFresh_congr {k : Fin 5} {s t : State} (sent : t.tg.stream[k.1].sent = s.tg.stream[k.1].sent)
    (tstamp : t.tstamp = s.tstamp) (cfg : t.cfg = s.cfg) (e : W32) : echoFresh k e t = echoFresh k e s := by
  unfold echoFresh echoTime senderTime freshMs
  rw [sent, tstamp, cfg]

theorem berthsOn_congr {s t : State} (cfg : t.cfg = s.cfg) : berthsOn t = berthsOn s := by rw [berthsOn, cfg, berthsOn]

/-! ### A telegram in sequence (R333, R336) -/

/-- A telegram with content whose alive counter and time have moved on within their windows. -/
structure Timely (k : Fin 5) (b : List Byte) (s : State) : Prop where
  content : tType b ≠ 5
  alive : (tAlive b - s.tg.source[k.1].alive).toNat ≤ aliveWin s
  moved : tAlive b ≠ s.tg.source[k.1].alive
  time : (tTime b - s.tg.source[k.1].time).toNat < 2 ^ 31

section Sequence

variable {q : Fin 4} {k : Fin 5} {b : List Byte} {p : Fin 2} {s : State}

/-- A telegram that follows its source's last one is in order. -/
theorem telegram_next (sync : s.tg.source[k.1].sync = true) (next : tSeq b = s.tg.source[k.1].seq + 1) (window : 1 ≤ seqWin s) :
    ∃ g, telegram q k b s = inOrder q k b (setTg (fun t => { t with gap := g }) s) := by
  have step : (tSeq b - s.tg.source[k.1].seq).toNat = 1 := by
    rw [next]
    bv_omega
  refine ⟨satAdd s.tg.gap 0, ?_⟩
  simp only [telegram, sync, step, window, Bool.not_true, Bool.false_eq_true, if_false, Nat.one_ne_zero, if_true]
  rfl

theorem noteSource_source (k : Fin 5) (b : List Byte) (s : State) : (noteSource k b s).tg.source[k.1] =
    { sync := true, seq := tSeq b, alive := tAlive b, time := tTime b } := get_upd_same _ _ _

/-- A telegram whose echo is stale is counted and reported (R338). -/
theorem staleFault_frame (q : Fin 4) (b : List Byte) (s : State) : ∃ l e v, staleFault q b s =
    { s with tg := { s.tg with stale := satInc s.tg.stale, k2At := l }, ev := e, nv := v } :=
  limitedFault_recorded_frame q 5 (tType b) (tSrc b) (setTg (fun t => { t with stale := satInc t.stale }) s)

namespace Timely

variable (h : Timely k b s)

include h

theorem advances : 0 < (tAlive b - s.tg.source[k.1].alive).toNat := by
  have moved := h.moved
  bv_omega

theorem carries : (tType b != 5) = true := bne_iff_ne.2 h.content

theorem forward : decide (2 ^ 31 ≤ (tTime b - s.tg.source[k.1].time).toNat) = false := decide_eq_false (Nat.not_le.2 h.time)

theorem not_dead : ¬ aliveWin s < (tAlive b - s.tg.source[k.1].alive).toNat := Nat.not_lt.2 h.alive

theorem inOrder_fresh (fresh : echoFresh k (tEcho b) s = true) : inOrder q k b s = finish q k b true (noteSource k b s) := by
  have alive : ¬ aliveWin (noteSource k b s) < (tAlive b - s.tg.source[k.1].alive).toNat := h.not_dead
  simp only [inOrder, if_neg alive, decide_eq_false alive, h.forward, h.carries, fresh, h.advances, decide_true, Bool.not_true,
    Bool.and_self, Bool.or_self, Bool.false_eq_true, if_false, Bool.and_false]

theorem inOrder_stale (stale : echoFresh k (tEcho b) s = false) :
    inOrder q k b s = finish q k b false (staleFault q b (noteSource k b s)) := by
  have alive : ¬ aliveWin (noteSource k b s) < (tAlive b - s.tg.source[k.1].alive).toNat := h.not_dead
  have reported : ¬ aliveWin (staleFault q b (noteSource k b s)) < (tAlive b - s.tg.source[k.1].alive).toNat := by
    obtain ⟨_, _, _, frame⟩ := staleFault_frame q b (noteSource k b s)
    rw [frame]
    exact alive
  simp only [inOrder, if_neg alive, decide_eq_false reported, h.forward, h.carries, stale, Bool.not_false, Bool.and_self,
    Bool.or_self, Bool.false_eq_true, if_false, if_true, Bool.and_false]

end Timely

/-! ### The use of a command (R342, R348) -/

/-- What a used command leaves (R342). -/
abbrev commandUsed (b : List Byte) (s : State) : State := setTg (fun t => { t with
  benValid := true, ben := tPay b 8 &&& berthsOn s, benEcho := tEcho b, benTime := (echoTime 0 (tEcho b) s).getD 0, benFresh := true }) s

theorem finish_of_notLost (use : Bool) (notLost : s.tg.pair[(pairOf q).1].mode ≠ .lost) : finish q k b use s =
    if use then useContent q k b (pairStreak (pairOf q) true s) else pairStreak (pairOf q) true s := by
  have mode : (pairStreak (pairOf q) true s).tg.pair[(pairOf q).1].mode ≠ .lost := by
    rw [pairStreak, setPair_pair]
    exact notLost
  have stays : pairRecover (pairOf q) (pairStreak (pairOf q) true s) = pairStreak (pairOf q) true s := by
    simp [pairRecover, mode]
  simp [finish, stays, mode]

/-- In service a command without a reset order is used. -/
theorem useContent_command (service : inService s = true) (command : tType b = 2) (noOrder : tPay b 9 = 0) :
    useContent q k b s = commandUsed b s := by
  simp only [useContent, service, command, useCommand, resetOrder, noOrder, Bool.not_true, Bool.false_eq_true, if_false, if_true]

end Sequence

/-! ### A command on the serving network -/

/-- A command of the interlocking reaches a single network A in service: nothing is held or accepted lately, the telegram is sound and
orders no reset, and it follows its source's last one in sequence, alive counter and time. -/
structure CommandInSequence (b : List Byte) (s : State) : Prop where
  service : inService s = true
  loaded : s.sys.loaded = true
  length : b.length = 28
  empty : s.tg.pair[0].slots = []
  single : s.tg.pair[0].mode = .singleA
  unseen : s.tg.pair[0].recent = []
  sound : copyReason 0 b s = 0
  peer : peerOf 0 (tSrc b) s = some 0
  command : tType b = 2
  sync : s.tg.source[0].sync = true
  next : tSeq b = s.tg.source[0].seq + 1
  window : 1 ≤ seqWin s
  alive : (tAlive b - s.tg.source[0].alive).toNat ≤ aliveWin s
  moved : tAlive b ≠ s.tg.source[0].alive
  time : (tTime b - s.tg.source[0].time).toNat < 2 ^ 31
  noOrder : tPay b 9 = 0

/-- A checked copy of the serving network without any held or accepted copy is accepted (R346). -/
theorem copyGood_serving {q : Fin 4} {b : List Byte} {s : State} (serves : netOf q = 0)
    (empty : s.tg.pair[(pairOf q).1].slots = []) (single : s.tg.pair[(pairOf q).1].mode = .singleA)
    (unseen : s.tg.pair[(pairOf q).1].recent = []) : copyGood q b s = accept q b false s := by
  have alone (y : Fin 2) := slotOf_of_empty empty y b
  have first := recentOf_of_empty unseen (tSrc b) (tSeq b)
  have checked : copyChecked q b s = accept q b false s := by
    simp [copyChecked, single, copySingle, serves, copyServing, first, alone]
  simp [copyGood, mismatches, single, expireAll_of_empty empty, checked]

/-- The command is accepted: noted as its pair's newest telegram and for the echo, with the numbers missed before it. -/
structure CommandAccepted (b : List Byte) (s t : State) : Prop where
  outside : t = { s with grid := t.grid, tg := t.tg, ck := t.ck, ev := t.ev }
  tg : t.tg = { s.tg with
    pair := t.tg.pair, stream := upd s.tg.stream 0 fun x => { x with echo := tSeq b }, gap := t.tg.gap }
  single : t.tg.pair[0].mode = .singleA

namespace CommandAccepted

variable {b : List Byte} {s t : State} (a : CommandAccepted b s t)

include a

theorem sys_eq : t.sys = s.sys := by rw [a.outside]
theorem cfg_eq : t.cfg = s.cfg := by rw [a.outside]
theorem tstamp_eq : t.tstamp = s.tstamp := by rw [a.outside]
theorem sc_eq : t.sc = s.sc := by rw [a.outside]
theorem source_eq : t.tg.source = s.tg.source := by rw [a.tg]
theorem stale_eq : t.tg.stale = s.tg.stale := by rw [a.tg]
theorem benFresh_eq : t.tg.benFresh = s.tg.benFresh := by rw [a.tg]
theorem ben_eq : t.tg.ben = s.tg.ben := by rw [a.tg]
theorem stream_eq : t.tg.stream[0] = { s.tg.stream[0] with echo := tSeq b } := by
  rw [a.tg]
  exact get_upd_same s.tg.stream 0 _
theorem sent_eq : t.tg.stream[0].sent = s.tg.stream[0].sent := by rw [a.stream_eq]
theorem echo_eq : t.tg.stream[0].echo = tSeq b := by rw [a.stream_eq]

theorem echoFresh_eq (echo : W32) : echoFresh 0 echo t = echoFresh 0 echo s :=
  echoFresh_congr a.sent_eq a.tstamp_eq a.cfg_eq echo

theorem service_eq : inService t = inService s := by rw [inService, a.sys_eq, inService]

theorem finishes {y : State} (pair : y.tg.pair = t.tg.pair) (use : Bool) :
    finish 0 0 b use y = if use then useContent 0 0 b (pairStreak 0 true y) else pairStreak 0 true y := by
  refine finish_of_notLost use ?_
  rw [pair]
  exact ne_of_eq_of_ne a.single (by decide)

end CommandAccepted

namespace CommandInSequence

variable {b : List Byte} {s t : State} (h : CommandInSequence b s)

include h

theorem arrives : Arrives 0 b s := by
  have format : formatOk 0 b = true := (sound_of_copyReason h.sound).2
  have len : tLen b = 12 := by
    simp only [formatOk, h.command, reduceIte, Nat.reduceEqDiff, Bool.and_eq_true, decide_eq_true_eq] at format
    tauto
  refine ⟨?_, fun can => absurd can (by decide), by rw [h.length, len], by rw [h.length]; decide⟩
  simp [tgReceives, imageTaken, h.service, h.loaded]

theorem timely (a : CommandAccepted b s t) : Timely 0 b t where
  content := by rw [h.command]; decide
  alive := by rw [a.source_eq, aliveWin, a.cfg_eq]; exact h.alive
  moved := by rw [a.source_eq]; exact h.moved
  time := by rw [a.source_eq]; exact h.time

/-- The command is accepted and meets the checks of a telegram in order. -/
theorem copyArrives_inOrder : ∃ t, CommandAccepted b s t ∧ copyArrives 0 b s = inOrder 0 0 b t := by
  obtain ⟨k, e, good⟩ := copyArrives_sound h.arrives (by simp [show s.tg.pair[(pairOf 0).1].slots = [] from h.empty]) h.sound
  obtain ⟨g, next⟩ := telegram_next (q := 0) (k := 0) (b := b)
    (s := noteEcho 0 b (accepted 0 b false { s with ck := k, ev := e })) h.sync h.next h.window
  have known := accept_known (q := 0) (b := b) (s := { s with ck := k, ev := e }) false h.peer
  refine ⟨_, ⟨rfl, rfl, ?_⟩, good.trans ((copyGood_serving rfl h.empty h.single h.unseen).trans (known.trans next))⟩
  exact (congrArg NetPair.mode (setPair_pair 0 _ (noteLatch { s with ck := k, ev := e }))).trans h.single

/-- With a fresh echo the command is used. -/
theorem copyArrives_fresh (fresh : echoFresh 0 (tEcho b) s = true) : ∃ t, CommandAccepted b s t ∧
    copyArrives 0 b s = commandUsed b (pairStreak 0 true (noteSource 0 b t)) := by
  obtain ⟨t, a, arrives⟩ := h.copyArrives_inOrder
  have inOrder := (h.timely a).inOrder_fresh (q := 0) ((a.echoFresh_eq _).trans fresh)
  have finishes := a.finishes (y := noteSource 0 b t) rfl true
  have service : inService (pairStreak 0 true (noteSource 0 b t)) = true := a.service_eq.trans h.service
  exact ⟨t, a, (arrives.trans inOrder).trans (finishes.trans (useContent_command service h.command h.noOrder))⟩

/-- With a stale one it is counted as stale. -/
theorem copyArrives_stale (stale : echoFresh 0 (tEcho b) s = false) : ∃ t, CommandAccepted b s t ∧
    copyArrives 0 b s = pairStreak 0 true (staleFault 0 b (noteSource 0 b t)) := by
  obtain ⟨t, a, arrives⟩ := h.copyArrives_inOrder
  have inOrder := (h.timely a).inOrder_stale (q := 0) ((a.echoFresh_eq _).trans stale)
  have pair : (staleFault 0 b (noteSource 0 b t)).tg.pair = t.tg.pair := by
    obtain ⟨_, _, _, reported⟩ := staleFault_frame 0 b (noteSource 0 b t)
    rw [reported]
    rfl
  exact ⟨t, a, (arrives.trans inOrder).trans (a.finishes pair false)⟩

end CommandInSequence

/-! ### Held copies without their twin (R329, R332) -/

/-- A copy missing on network `x` of a pair is counted. -/
def missed (p x : Fin 2) (s : State) : State := setPair p (fun y => { y with miss := upd y.miss x (· + 1) })
  (pairStreak p false (setTg (fun t => { t with missCnt := upd t.missCnt (portIx p x) satInc }) s))

section Expiry

variable {p : Fin 2} {c : Slot} {s : State}

theorem missed_pair (p x : Fin 2) (s : State) : (missed p x s).tg.pair[p.1] =
    { s.tg.pair[p.1] with streak := 0, miss := upd s.tg.pair[p.1].miss x (· + 1) } := by
  rw [missed, setPair_pair, pairStreak, setPair_pair]
  rfl

theorem missed_missCnt (p x : Fin 2) (s : State) :
    (missed p x s).tg.missCnt[(portIx p x).1] = satInc s.tg.missCnt[(portIx p x).1] :=
  get_upd_same s.tg.missCnt (portIx p x) satInc

/-- Fewer than three missing copies in a row lose no network (R345). -/
theorem missing_frame {x : Fin 2} (few : s.tg.pair[p.1].miss[x.1] < 2) (b : List Byte) : ∃ l e, missing p x b s =
    { s with tg := { (missed p x s).tg with k2At := l }, ev := e } := by
  obtain ⟨l, e, reported⟩ := limitedFault_frame (portIx p x) 1 (tType b) (tSrc b)
    (pairStreak p false (setTg (fun t => { t with missCnt := upd t.missCnt (portIx p x) satInc }) s))
  have counted : (missed p x s).tg.pair[p.1].miss[x.1] = s.tg.pair[p.1].miss[x.1] + 1 := by
    rw [missed_pair]
    exact get_upd_same _ _ _
  have kept : ¬ 3 ≤ (missed p x s).tg.pair[p.1].miss[x.1] := by omega
  refine ⟨l, e, ?_⟩
  unfold missing
  dsimp only
  rw [reported]
  exact if_neg kept

/-- The first held copy of a pair leaves its slot and is counted as missing on the other network. -/
theorem expireSlot_first {rest : List Slot} (first : s.tg.pair[p.1].slots = c :: rest)
    (few : s.tg.pair[p.1].miss[(1 - c.net).1] = 0) : ∃ g e, expireSlot p c s = { s with tg := g, ev := e } ∧
      g.pair[p.1].slots = rest ∧ g.pair[p.1].miss[(1 - c.net).1] = 1 ∧ g.pair[p.1].mode = s.tg.pair[p.1].mode ∧
      g.missCnt[(portIx p (1 - c.net)).1] = satInc s.tg.missCnt[(portIx p (1 - c.net)).1] := by
  have freed := setPair_pair p (fun y => { y with slots := y.slots.erase c }) s
  obtain ⟨l, e, missing⟩ := missing_frame (p := p) (x := 1 - c.net) (s := slotFreed p c s) (by rw [freed, few]; decide) c.bytes
  have pair := missed_pair p (1 - c.net) (slotFreed p c s)
  rw [freed] at pair
  refine ⟨_, e, missing, ?_, ?_, ?_, missed_missCnt p (1 - c.net) (slotFreed p c s)⟩
  · rw [pair, first, List.erase_cons_head]
  · rw [pair, get_upd_same, few]
  · rw [pair]

theorem exec_slotExpiry {rest : List Slot} (first : s.tg.pair[p.1].slots = c :: rest) : exec (.slotExpiry p 0) s =
    .next (if tgReceives s && decide (c.at_ + skewUs p s < s.now) then expireSlot p c s else s) := by
  change execSlotExpiry p 0 s = _
  simp [execSlotExpiry, first]

end Expiry

/-! ### Lapses (R339, R340) -/

section Lapse

variable {s : State}

theorem exec_lapse (notReset : s.sys.mode ≠ .reset) (clock : clockSafe s = false) (k : Fin 5) :
    exec (.lapse k) s = .next (lapsePeer (atTick s) k) := by
  change execLapse k s = _
  simp [execLapse, notReset, clock, atTick]

/-- The held command loses its freshness with its echo. -/
theorem lapsePeer_command (valid : s.tg.benValid = true) (fresh : s.tg.benFresh = true) : lapsePeer s 0 =
    if echoFresh 0 s.tg.benEcho s then s
    else lapseEvent 0 2 (nodeOf 0 s) (setTg (fun t => { t with benFresh := false }) s) := by
  rw [lapsePeer, if_pos rfl, valid, fresh]
  cases echoFresh 0 s.tg.benEcho s <;> rfl

theorem exec_lapse_command (notReset : s.sys.mode ≠ .reset) (clock : clockSafe s = false) (valid : s.tg.benValid = true)
    (fresh : s.tg.benFresh = true) : exec (.lapse 0) s = .next (if echoFresh 0 s.tg.benEcho (atTick s) then atTick s
      else lapseEvent 0 2 (nodeOf 0 (atTick s)) (setTg (fun t => { t with benFresh := false }) (atTick s))) :=
  (exec_lapse notReset clock 0).trans (congrArg _ (lapsePeer_command (s := atTick s) valid fresh))

end Lapse

/-! ### The statement -/

/-- Settles O30: a command in sequence is accepted, and its echo decides its use (`CommandInSequence.copyArrives_fresh`,
`CommandInSequence.copyArrives_stale`); a held copy goes missing by its age (`expireSlot_first`), and the held command lapses with its echo
(`lapsePeer_command`). -/
theorem freshCommandsAreUsedAndHeldCopiesExpire : Obligations.FreshCommandsAreUsedAndHeldCopiesExpire := by
  unfold Obligations.FreshCommandsAreUsedAndHeldCopiesExpire
  refine ⟨fun s b service loaded length empty single unseen sound peer command sync next window alive moved time noOrder => ?command,
    fun s p c rest => ⟨fun receives first old few => ?expired, fun first young => ?kept,
      fun notReset clock valid fresh => ⟨fun stale => ?lapsed, fun still => ?held⟩⟩⟩
  case command =>
    have h : CommandInSequence b s := ⟨service, loaded, length, empty, single, unseen, sound, peer, command, sync, next, window, alive,
      moved, time, noOrder⟩
    refine ⟨fun fresh => ?used, fun stale => ?stale⟩
    case used =>
      obtain ⟨t, a, used⟩ := h.copyArrives_fresh fresh
      have source := noteSource_source 0 b t
      refine ⟨_, exec_copyReceive 0 b s, ?_⟩
      rw [used]
      refine ⟨congrArg (tPay b 8 &&& ·) (berthsOn_congr a.cfg_eq), rfl, rfl, rfl, congrArg Source.seq source,
        congrArg Source.alive source, congrArg Source.time source, a.echo_eq, congrArg Sc.orders a.sc_eq⟩
    case stale =>
      obtain ⟨t, a, counted⟩ := h.copyArrives_stale stale
      obtain ⟨l, e, v, reported⟩ := staleFault_frame 0 b (noteSource 0 b t)
      refine ⟨_, exec_copyReceive 0 b s, ?_⟩
      rw [counted, reported]
      exact ⟨a.ben_eq, a.benFresh_eq, congrArg satInc a.stale_eq, congrArg Source.seq (noteSource_source 0 b t),
        a.echo_eq⟩
  case expired =>
    obtain ⟨g, e, gone, slots, miss, mode, count⟩ := expireSlot_first first few
    refine ⟨_, (exec_slotExpiry first).trans (by rw [if_pos (by simp [receives, old])]), ?_⟩
    rw [gone]
    exact ⟨slots, count, miss, mode, rfl⟩
  case kept =>
    rw [exec_slotExpiry first, if_neg (by simp [young])]
  case lapsed =>
    obtain ⟨e, v, lapsed⟩ := lapseEvent_frame 0 2 (nodeOf 0 (atTick s)) (setTg (fun t => { t with benFresh := false }) (atTick s))
    refine ⟨_, exec_lapse_command notReset clock valid fresh, ?_⟩
    rw [stale, if_neg Bool.false_ne_true, lapsed]
    exact ⟨rfl, rfl, rfl, rfl⟩
  case held =>
    rw [exec_lapse_command notReset clock valid fresh, if_pos still]

end Sys2Proof.Machine
end

section
/-! PROOFS. Transmit cycles (R321, R323, R324, R357): a telegram is built once, waits for its mark and for room, and goes to both
ports of its pair. -/

namespace Sys2Proof.Machine

open Sys2Proof

/-! ### Building (R321, R324) -/

/-- A stream moves on to the number after the telegram that was built, which is kept for its echo (R324, R326). -/
def streamMoved (k : Fin 5) (s : State) : State := setTg (fun t => { t with
  stream := upd t.stream k fun x => { x with seq := x.seq + 1, sent := (s.tg.stream[k.1].seq, senderTime s) :: x.sent.take 255 } }) s

section Build

variable {k : Fin 5} {s : State}

theorem markStream_frame (k : Fin 5) (s : State) : ∃ v, markStream k s = { s with nv := v } := by
  unfold markStream
  dsimp only
  split <;> exact ⟨_, rfl⟩

theorem build_eq (k : Fin 5) (type : Nat) (pay : List Byte) (s : State) :
    build k type pay s = (tgBytes k type pay s, streamMoved k (markStream k s)) := by
  obtain ⟨v, marked⟩ := markStream_frame k s
  unfold build
  dsimp only
  rw [marked]
  rfl

theorem markStream_of_unmarked (h : s.nv.vault.marks[k.1] = s.tg.stream[k.1].seq ∨ s.tg.stream[k.1].seq.toNat % 65536 ≠ 0) :
    markStream k s = s := by
  refine if_neg fun due => ?_
  obtain ⟨multiple, other, -⟩ := due
  exact h.elim other fun no => no multiple

theorem markStream_of_due (multiple : s.tg.stream[k.1].seq.toNat % 65536 = 0)
    (other : s.nv.vault.marks[k.1] ≠ s.tg.stream[k.1].seq) (good : s.tg.markBad = false) : markStream k s =
      { s with nv := { s.nv with vault := { s.nv.vault with marks := s.nv.vault.marks.set k.1 s.tg.stream[k.1].seq } } } :=
  if_pos ⟨multiple, other, by simp [good]⟩

theorem streamMoved_stream (k : Fin 5) (s : State) : (streamMoved k s).tg.stream[k.1] = { s.tg.stream[k.1] with
    seq := s.tg.stream[k.1].seq + 1, sent := (s.tg.stream[k.1].seq, senderTime s) :: s.tg.stream[k.1].sent.take 255 } :=
  get_upd_same s.tg.stream k _

end Build

/-! ### Sending (R324, R398) -/

section Send

variable {u : Unsent} {s : State}

theorem sendTelegram_of_noneWaiting (none : s.tg.unsent = []) (u : Unsent) : sendTelegram u s = sendStep s u := by
  have same : setTg (fun t => { t with unsent := [] }) s = s := by
    rw [← none]
    rfl
  rw [sendTelegram, sendWaiting, none, List.foldl_nil, same]

theorem markWritten_of_stored {k : Fin 5} (stored : s.nv.stored.marks[k.1] = s.nv.vault.marks[k.1]) : markWritten k s = true := by
  simp [markWritten, stored]

/-- Room behind a tap is a matter of the check units, the mode and the time. -/
theorem tapRoom_congr {t : State} (ck : t.ck = s.ck) (sys : t.sys = s.sys) (now : t.now = s.now) (tap : Nat) (b : Block) :
    tapRoom tap b t = tapRoom tap b s :=
  calc tapRoom tap b t = tapRoom tap b { s with ck := t.ck, sys := t.sys, now := t.now } := rfl
    _ = tapRoom tap b s := by rw [ck, sys, now]

/-- A telegram whose mark is written and for which the tap has room is sent at once. -/
theorem sendTelegram_sent (none : s.tg.unsent = []) (mark : markWritten u.peer s = true)
    (room : tapRoom (sendTap u) (sendBlock u s) s = true) : sendTelegram u s = sendNow s u := by
  rw [sendTelegram_of_noneWaiting none, sendStep, mark, room, none]
  rfl

/-- One without its mark or without room waits. -/
theorem sendTelegram_waits (none : s.tg.unsent = [])
    (held : markWritten u.peer s = false ∨ tapRoom (sendTap u) (sendBlock u s) s = false) :
    sendTelegram u s = setTg (fun t => { t with unsent := [u] }) s := by
  have first : setTg (fun t => { t with unsent := t.unsent ++ [u] }) s = setTg (fun t => { t with unsent := [u] }) s := by
    simp only [setTg, none, List.nil_append]
  rw [sendTelegram_of_noneWaiting none, sendStep, first]
  refine if_neg ?_
  obtain held | held := held <;> simp [held]

/-- The frame of a copy is a matter of the configuration. -/
theorem ethWire_congr {t : State} (h : t.cfg = s.cfg) (b : List Byte) : ethWire b t = ethWire b s := by
  unfold ethWire
  rw [h]

/-- The node of a peer is a matter of the configuration. -/
theorem nodeOf_congr {t : State} (h : t.cfg = s.cfg) (k : Fin 5) : nodeOf k t = nodeOf k s :=
  calc nodeOf k t = nodeOf k { s with cfg := t.cfg } := rfl
    _ = nodeOf k s := by rw [h]

/-- An idle Ethernet port that is up begins to send (R364). -/
theorem ethQueue_idle {x : Fin 2} (up : s.ports.eth[x.1].up = true) (idle : s.ports.eth[x.1].sending = none) (b : List Byte) :
    ethQueue b x s = setEth x (fun e => { e with sending := some (ethWire b s) }) s := by
  simp [ethQueue, ethTakes, up, idle]

/-- Both idle Ethernet ports that are up send the frame of one telegram. -/
theorem sendNow_ethernet (plain : u.can = none) (up : ∀ x : Fin 2, s.ports.eth[x.1].up = true)
    (idle : ∀ x : Fin 2, s.ports.eth[x.1].sending = none) : ∃ c e v,
      sendNow s u = { s with ck := c, ev := e, ports := { s.ports with eth := v } } ∧
        ∀ x : Fin 2, v[x.1].sending = some (ethWire u.bytes s) := by
  obtain ⟨c, e, tapped⟩ := tapOut_frame (sendTap u) (sendBlock u s) s
  have first := ethQueue_idle (s := { s with ck := c, ev := e }) (up 0) (idle 0) u.bytes
  have other : (upd s.ports.eth 0 fun y => { y with sending := some (ethWire u.bytes s) })[1] = s.ports.eth[1] :=
    get_upd_of_ne s.ports.eth (i := 0) (j := 1) _ (by decide)
  have second := ethQueue_idle (x := 1) (b := u.bytes)
    (s := setEth 0 (fun y => { y with sending := some (ethWire u.bytes s) }) { s with ck := c, ev := e })
    ((congrArg Eth.up other).trans (up 1)) ((congrArg Eth.sending other).trans (idle 1))
  refine ⟨c, e, upd (upd s.ports.eth 0 fun y => { y with sending := some (ethWire u.bytes s) }) 1
    fun y => { y with sending := some (ethWire u.bytes s) }, ?_, fun x => ?_⟩
  · simp only [sendNow, tapped, plain]
    rw [first, ethWire_congr (t := { s with ck := c, ev := e }) (s := s) rfl, second]
    rw [ethWire_congr (s := s) rfl]
    rfl
  · fin_cases x <;> simp

theorem setCan_can (x : Fin 2) (f : Can → Can) (s : State) : (setCan x f s).ports.can[x.1] = f s.ports.can[x.1] :=
  get_upd_same _ _ _

theorem canDown_of_runs {x : Fin 2} (runs : canRuns x s = true) : canDown x s = false := by
  simp only [canRuns, Bool.and_eq_true, Bool.not_eq_true'] at runs
  obtain ⟨⟨⟨bus, recovering⟩, awake⟩, stb⟩ := runs
  simp only [canDown, bus, recovering, stb, Bool.not_true, Bool.or_self, Bool.false_or]
  rw [← Option.not_isNone, awake]
  rfl

theorem canRuns_congr {x : Fin 2} {t : State} (h : t.ports.can[x.1] = s.ports.can[x.1]) : canRuns x t = canRuns x s := by
  rw [canRuns, h, canRuns]

/-- A running controller begins to send the one copy in its queue. -/
theorem canStart_one {x : Fin 2} {t : CanTx} (runs : canRuns x s = true) (one : s.ports.can[x.1].queue = [t])
    (idle : s.ports.can[x.1].sending = none) :
    canStart x s = setCan x (fun c => { c with sending := some t, queue := c.queue.erase t }) s := by
  have next : canNext [t] = some t := by simp [canNext]
  simp [canStart, runs, idle, one, next]

/-- A controller that runs idle sends a copy that is queued (R377). -/
theorem canQueue_idle {x : Fin 2} (runs : canRuns x s = true) (empty : s.ports.can[x.1].queue = [])
    (idle : s.ports.can[x.1].sending = none) (t : CanTx) :
    canQueue t x s = setCan x (fun c => { c with queue := [], sending := some t }) s := by
  have can := setCan_can x (fun c => { c with queue := [t] }) s
  have runs' : canRuns x (setCan x (fun c => { c with queue := [t] }) s) = true := by
    rw [canRuns, can]
    exact runs
  have start := canStart_one runs' (congrArg Can.queue can) ((congrArg Can.sending can).trans idle)
  have queued : canQueue t x s = canStart x (setCan x (fun c => { c with queue := [t] }) s) := by
    simp [canQueue, canDown_of_runs runs, empty, withdrawn]
  rw [queued, start]
  simp [setCan, upd_upd]

/-- Both idle controllers send the same copy of a telegram. -/
theorem sendNow_can {t : CanTx} (copy : u.can = some t) (runs : ∀ x : Fin 2, canRuns x s = true)
    (empty : ∀ x : Fin 2, s.ports.can[x.1].queue = []) (idle : ∀ x : Fin 2, s.ports.can[x.1].sending = none) : ∃ c e v,
      sendNow s u = { s with ck := c, ev := e, ports := { s.ports with can := v } } ∧ ∀ x : Fin 2, v[x.1].sending = some t := by
  obtain ⟨c, e, tapped⟩ := tapOut_frame (sendTap u) (sendBlock u s) s
  have first := canQueue_idle (s := { s with ck := c, ev := e }) (runs 0) (empty 0) (idle 0) t
  have other : (upd s.ports.can 0 fun y => { y with queue := [], sending := some t })[1] = s.ports.can[1] :=
    get_upd_of_ne s.ports.can (i := 0) (j := 1) _ (by decide)
  have runs' := (canRuns_congr (x := 1) (s := s)
    (t := setCan 0 (fun y => { y with queue := [], sending := some t }) { s with ck := c, ev := e }) other).trans (runs 1)
  have second := canQueue_idle runs' ((congrArg Can.queue other).trans (empty 1)) ((congrArg Can.sending other).trans (idle 1)) t
  refine ⟨c, e, upd (upd s.ports.can 0 fun y => { y with queue := [], sending := some t }) 1
    fun y => { y with queue := [], sending := some t }, ?_, fun x => ?_⟩
  · simp only [sendNow, tapped, copy]
    rw [first, second]
    rfl
  · fin_cases x <;> simp

end Send

/-! ### The cycles (R323, R357) -/

section Cycles

variable {k : Fin 5} {p : Fin 2} {s t : State}

/-- A due cycle's telegram has been built: the stream has moved on, its mark may be new, and the cycle is served. -/
structure CycleBuilt (k : Fin 5) (p : Fin 2) (s t : State) : Prop where
  outside : t = { s with tg := t.tg, nv := t.nv }
  tg : t.tg = { s.tg with stream := t.tg.stream, cycleAt := t.tg.cycleAt }
  nv : t.nv = (markStream k (cycleMark p s)).nv
  numbers : t.tg.stream[k.1].seq = s.tg.stream[k.1].seq + 1 ∧
    t.tg.stream[k.1].sent.head? = some (s.tg.stream[k.1].seq, senderTime s) ∧ t.tg.cycleAt[p.1] = some s.now

theorem cycleBuilt_streamMoved (k : Fin 5) (p : Fin 2) (s : State) :
    CycleBuilt k p s (streamMoved k (markStream k (cycleMark p s))) := by
  obtain ⟨v, marked⟩ := markStream_frame k (cycleMark p s)
  have stream := streamMoved_stream k { cycleMark p s with nv := v }
  refine ⟨?_, ?_, rfl, ?_⟩ <;> rw [marked]
  · rfl
  · rfl
  · exact ⟨congrArg Stream.seq stream, (congrArg (fun x => x.sent.head?) stream).trans rfl, Vector.getElem_set_self _⟩

namespace CycleBuilt

variable (a : CycleBuilt k p s t)

include a

theorem ports_eq : t.ports = s.ports := by rw [a.outside]
theorem cfg_eq : t.cfg = s.cfg := by rw [a.outside]
theorem unsent_eq : t.tg.unsent = s.tg.unsent := by rw [a.tg]
theorem markBad_eq : t.tg.markBad = s.tg.markBad := by rw [a.tg]

/-- Away from a new multiple of 65,536 no mark is written (R324). -/
theorem nv_of_unmarked (h : s.nv.vault.marks[k.1] = s.tg.stream[k.1].seq ∨ s.tg.stream[k.1].seq.toNat % 65536 ≠ 0) :
    t.nv = s.nv := a.nv.trans ((congrArg State.nv (markStream_of_unmarked (s := cycleMark p s) h)).trans rfl)

theorem nv_of_due (multiple : s.tg.stream[k.1].seq.toNat % 65536 = 0) (other : s.nv.vault.marks[k.1] ≠ s.tg.stream[k.1].seq)
    (good : s.tg.markBad = false) :
    t.nv = { s.nv with vault := { s.nv.vault with marks := s.nv.vault.marks.set k.1 s.tg.stream[k.1].seq } } :=
  a.nv.trans (congrArg State.nv (markStream_of_due (s := cycleMark p s) multiple other good))

theorem frame_of_unmarked (h : s.nv.vault.marks[k.1] = s.tg.stream[k.1].seq ∨ s.tg.stream[k.1].seq.toNat % 65536 ≠ 0) :
    ∃ g, t = { s with tg := g } :=
  ⟨t.tg, a.outside.trans (by rw [a.nv_of_unmarked h])⟩

/-- The building of a telegram takes no room. -/
theorem tapRoom_eq (u : Unsent) : tapRoom (sendTap u) (sendBlock u t) t = tapRoom (sendTap u) (sendBlock u s) s := by
  have block : sendBlock u t = sendBlock u s := by rw [sendBlock, nodeOf_congr a.cfg_eq, sendBlock]
  rw [block]
  exact tapRoom_congr (by rw [a.outside]) (by rw [a.outside]) (by rw [a.outside]) _ _

end CycleBuilt

/-- The telegram of a due Ethernet cycle (R357). -/
abbrev statusTelegram (s : State) : Unsent := ⟨0, tgBytes 0 1 s.tg.pay[0] s, none⟩

theorem exec_ethernetCycle_due (due : cycleDue 0 s = true) :
    ∃ t, CycleBuilt 0 0 s t ∧ exec .ethernetCycle s = .next (sendTelegram (statusTelegram s) t) := by
  refine ⟨_, cycleBuilt_streamMoved 0 0 s, ?_⟩
  change execEthernetCycle s = _
  rw [execEthernetCycle, if_pos due, build_eq]
  rfl

theorem exec_ethernetCycle_early (early : cycleDue 0 s = false) : exec .ethernetCycle s = .next s := by
  change execEthernetCycle s = _
  rw [execEthernetCycle, if_neg (by simp [early])]

/-- A door-controller slot that is not in use gets no telegram (R315). -/
theorem sendStat_unused {n : Fin 4} (unused : nodeOf ⟨n.1 + 1, by omega⟩ s = 0) : sendStat s n = s := if_pos unused

/-- The telegram of a due CAN cycle to the first door controller. -/
abbrev statTelegram (s : State) : Unsent :=
  ⟨1, tgBytes 1 4 s.tg.pay[1] s, some (canCopy false 0 0 (tgBytes 1 4 s.tg.pay[1] s) s)⟩

theorem sendStat_first (used : nodeOf 1 s ≠ 0) :
    ∃ t, CycleBuilt 1 1 s t ∧ sendStat (cycleMark 1 s) 0 = sendTelegram (statTelegram s) t := by
  refine ⟨_, cycleBuilt_streamMoved 1 1 s, (if_neg used).trans ?_⟩
  rw [build_eq]
  rfl

/-- With no door controller in use but the first, a due CAN cycle is what it sends to that one. -/
theorem exec_canCycle_first (due : cycleDue 1 s = true) (first : sendStat (cycleMark 1 s) 0 = t)
    (unused : ∀ k : Fin 5, 1 < k.1 → nodeOf k t = 0) : exec .canCycle s = .next t := by
  have idle (n : Fin 4) (later : 0 < n.1) : sendStat t n = t := sendStat_unused (unused _ (Nat.succ_lt_succ later))
  have others : [(1 : Fin 4), 2, 3].foldl sendStat (sendStat (cycleMark 1 s) 0) = t := by
    simp only [first, List.foldl_cons, List.foldl_nil, idle 1 (by decide), idle 2 (by decide), idle 3 (by decide)]
  change execCanCycle s = _
  rw [execCanCycle, if_pos due]
  exact congrArg _ others

theorem exec_canCycle_early (early : cycleDue 1 s = false) : exec .canCycle s = .next s := by
  change execCanCycle s = _
  rw [execCanCycle, if_neg (by simp [early])]

end Cycles

/-! ### The statement -/

/-- Settles O31: a due cycle's telegram is built (`CycleBuilt`), waits (`sendTelegram_waits`), or goes to both ports
(`sendNow_ethernet`, `sendNow_can`). -/
theorem transmitCyclesBuildOneTelegramForBothNetworks : Obligations.TransmitCyclesBuildOneTelegramForBothNetworks := by
  unfold Obligations.TransmitCyclesBuildOneTelegramForBothNetworks
  refine fun s => ⟨?ethernet, exec_ethernetCycle_early, ?can, exec_canCycle_early⟩
  case ethernet =>
    intro due none q u built
    obtain ⟨t, a, run⟩ := exec_ethernetCycle_due due
    have unsent : t.tg.unsent = [] := a.unsent_eq.trans none
    refine ⟨fun unmarked stored => ?unmarked, fun multiple other unstored good => ?marking⟩
    case unmarked =>
      obtain ⟨g, rfl⟩ := a.frame_of_unmarked unmarked
      refine ⟨fun room upA upB idleA idleB => ?sent, fun full => ?full⟩
      case sent =>
        obtain ⟨c, e, v, sent, both⟩ := sendNow_ethernet (u := u) (s := { s with tg := g }) rfl
          (Fin.forall_fin_two.2 ⟨upA, upB⟩) (Fin.forall_fin_two.2 ⟨idleA, idleB⟩)
        rw [ethWire_congr a.cfg_eq] at both
        rw [sendTelegram_sent unsent (markWritten_of_stored stored) ((a.tapRoom_eq u).trans room), sent] at run
        exact ⟨_, run, a.numbers, unsent, both 0, both 1, rfl⟩
      case full =>
        rw [sendTelegram_waits unsent (.inr ((a.tapRoom_eq u).trans full))] at run
        exact ⟨_, run, a.numbers, rfl, rfl⟩
    case marking =>
      have nv := a.nv_of_due multiple other good
      have marked : (s.nv.vault.marks.set 0 q)[0] = q := Vector.getElem_set_self _
      have unwritten : markWritten 0 t = false := by
        rw [markWritten, a.markBad_eq, good, nv]
        exact decide_eq_false (ne_of_ne_of_eq unstored marked.symm)
      rw [sendTelegram_waits unsent (.inl unwritten)] at run
      exact ⟨_, run, a.numbers, rfl, (congrArg (fun n => n.vault.marks[0]) nv).trans marked, a.ports_eq⟩
  case can =>
    intro due none used two three four unmarked stored runsA runsB emptyA emptyB idleA idleB b x room
    obtain ⟨t, a, first⟩ := sendStat_first used
    obtain ⟨g, rfl⟩ := a.frame_of_unmarked (.inr unmarked)
    obtain ⟨seq, -, cycle⟩ := a.numbers
    obtain ⟨c, e, v, sent, both⟩ := sendNow_can (u := statTelegram s) (s := { s with tg := g }) rfl
      (Fin.forall_fin_two.2 ⟨runsA, runsB⟩) (Fin.forall_fin_two.2 ⟨emptyA, emptyB⟩) (Fin.forall_fin_two.2 ⟨idleA, idleB⟩)
    rw [sendTelegram_sent (a.unsent_eq.trans none) (markWritten_of_stored stored) ((a.tapRoom_eq (statTelegram s)).trans room), sent] at first
    have unused : ∀ k : Fin 5, 1 < k.1 → nodeOf k s = 0
      | 0, later | 1, later => absurd later (by decide)
      | 2, _ => two
      | 3, _ => three
      | 4, _ => four
    refine ⟨_, exec_canCycle_first due first fun k later => ?_, seq, both 0, both 1, cycle, rfl⟩
    exact (nodeOf_congr rfl k).trans (unused k later)

end Sys2Proof.Machine
end

section
/-! PROOFS. Ethernet frames (R362 to R365), MDIO polls and the ports that they bring up or take down (R366 to R370). -/

namespace Sys2Proof.Machine

open Sys2Proof

/-! ### Frames (R362 to R365) -/

section Frames

variable {x : Fin 2} {f : EthFrame} {s : State}

/-- While Ethernet receives, the clock runs (Table NW-4). -/
theorem clockSafe_of_ethReceives (receives : ethReceives s = true) : clockSafe s = false := by
  simp only [ethReceives, Bool.or_eq_true, Bool.and_eq_true, decide_eq_true_eq, Bool.not_eq_true'] at receives
  obtain (service | configure) | ⟨-, clock⟩ := receives
  · exact clockSafe_of_inService service
  · simp [clockSafe, configure]
  · exact clock

/-- A frame with an error or of a wrong length is dropped (R363). -/
theorem exec_ethFrameReceive_bad (receives : ethReceives s = true)
    (bad : f.fcsOk = false ∨ f.rxer = true ∨ f.octets.length < 60 ∨ 1518 < f.octets.length) :
    exec (.ethFrameReceive x f) s = .next (setEth x (fun e => { e with drop := satInc e.drop }) s) := by
  have dropped : (!f.fcsOk || f.rxer || decide (f.octets.length < 60) || decide (1518 < f.octets.length)) = true := by
    simpa [or_assoc] using bad
  change execEthFrameReceive x f s = _
  simp only [execEthFrameReceive, receives, dropped, Bool.not_true, Bool.false_eq_true, if_false, if_true]

/-- A good frame passes the filter of R362, or is ignored. -/
theorem exec_ethFrameReceive_good (receives : ethReceives s = true) (fcs : f.fcsOk = true) (rxer : f.rxer = false)
    (long : 60 ≤ f.octets.length) (short : f.octets.length ≤ 1518) : exec (.ethFrameReceive x f) s =
      .next (if macOk f.octets s && etherOk f.octets s then
        copyArrives (portIx 0 x) (f.octets.drop (if bitOf s.cfg.en.vlan 15 then 18 else 14)) s else s) := by
  have good : (!f.fcsOk || f.rxer || decide (f.octets.length < 60) || decide (1518 < f.octets.length)) = false := by
    simp [fcs, rxer, long, short]
  change execEthFrameReceive x f s = _
  simp only [execEthFrameReceive, receives, good, Bool.not_true, Bool.false_eq_true, if_false]

/-- The end of a transmission starts the waiting frame (R365). -/
theorem exec_ethTransmitDone (clock : clockSafe s = false) :
    exec (.ethTransmitDone x) s = .next (setEth x (fun e => { e with sending := e.waiting, waiting := none }) s) := by
  change execEthTransmitDone x s = _
  simp only [execEthTransmitDone, clock, Bool.false_eq_true, if_false]

theorem setEth_eth (x : Fin 2) (f : Eth → Eth) (s : State) : (setEth x f s).ports.eth[x.1] = f s.ports.eth[x.1] :=
  get_upd_same _ _ _

end Frames

/-! ### The loss of a network leaves the ports (R345 to R347) -/

section Loss

variable (q : Fin 4) (b : List Byte) (p x : Fin 2) (s : State)

@[simp] theorem accept_ports (seen : Bool) : (accept q b seen s).ports = s.ports := by
  cases known : peerOf (pairOf q) (tSrc b) s with
  | some k =>
    rw [accept_known seen known]
    exact (ports_of_arrivals (arrivals_telegram _ _ _ _)).trans rfl
  | none =>
    have known' : peerOf (pairOf q) (tSrc b) (accepted q b seen s) = none := known
    unfold accept
    dsimp only
    rw [← accepted, known']
    rfl

theorem acceptHeld_ports : (acceptHeld p x s).ports = s.ports :=
  foldl_unchanged (f := fun s (c : Slot) => accept (portIx p x) c.bytes false s) State.ports (fun _ _ => accept_ports _ _ _ _) _ _

theorem pairLose_ports (cause : Nat) : (pairLose p cause s).ports = s.ports :=
  ((((itemsOnly_netEvent _ _ _ _).trans (itemsOnly_eventRecord _ _ _)).trans (itemsOnly_setItem _ _ _)).trans
    (itemsOnly_clearItem _ _)).ports_eq

theorem netLose_ports (cause : Nat) : (netLose p x cause s).ports = s.ports := by
  have reported (y : State) (w : W16) (code : Nat) : (eventRecord code w (netEvent (portIx p x) 1 cause y)).ports = y.ports :=
    ((itemsOnly_netEvent _ _ _ _).trans (itemsOnly_eventRecord _ _ _)).ports_eq
  unfold netLose
  dsimp only
  split
  · rfl
  · split
    · rw [acceptHeld_ports, (itemsOnly_setItem _ _ _).ports_eq]
      exact reported _ _ _
    · rw [pairLose_ports]
      exact reported _ _ _

end Loss

/-! ### Port-state events (R387) -/

/-- What of an Ethernet port the reports of its state leave alone. -/
def ethLine (x : Fin 2) (s : State) : Bool × BitVec 4 × Option (List Byte) × Option (List Byte) :=
  let e := s.ports.eth[x.1]
  (e.up, e.cause, e.sending, e.waiting)

section Events

variable (q : Fin 4) (x : Fin 2) (s : State)

theorem ethLine_congr {s t : State} {x : Fin 2} (h : t.ports = s.ports) : ethLine x t = ethLine x s := by
  rw [ethLine, h, ethLine]

/-- An event that has no limit of its own changes the events only. -/
theorem portEvent_frame {what : Nat} (free : ¬ (what = 3 ∨ what = 4 ∨ what = 7)) (cause detail : Nat) :
    ∃ e, portEvent q what cause detail s = { s with ev := e } := by
  rw [portEvent, if_neg free]
  exact raiseAt_frame _ _ _ _ s

/-- A limited one keeps its instant at its port as well. -/
theorem ethLine_portEvent (what cause detail : Nat) : ethLine x (portEvent q what cause detail s) = ethLine x s := by
  have eth (y : Fin 2) (v : Vector (Option Nat) 3 → Vector (Option Nat) 3) :
      ethLine x (setEth y (fun e => { e with evAt := v e.evAt }) s) = ethLine x s := by
    simp only [ethLine, setEth_ports, get_upd]
    split <;> rfl
  have raised (code : Nat) (w : W16) (y : State) : ethLine x (raise code w y) = ethLine x y :=
    ethLine_congr (ports_of_arrivals (arrivals_raise y code w))
  by_cases limited : what = 3 ∨ what = 4 ∨ what = 7
  · simp only [portEvent, if_pos limited]
    split
    · rw [raised]
      split
      · exact eth _ fun v => upd v (whatIx what) fun _ => some s.now
      · rfl
    · rfl
  · obtain ⟨e, frame⟩ := portEvent_frame q s limited cause detail
    rw [frame]
    rfl

theorem ethLine_withdrawn (cause n : Nat) : ethLine x (withdrawn (portIx 0 x) cause n s) = ethLine x s := by
  have ethernet : pairOf (portIx 0 x) ≠ 1 := by revert x; decide
  unfold withdrawn
  dsimp only
  rw [if_neg ethernet]
  split
  · rfl
  · exact ethLine_portEvent _ _ _ _ _ _

/-- A port that goes down ends its frames (R369). -/
theorem ethLine_ethGoesDown (cause : Nat) : ethLine x (ethGoesDown x cause s) = (false, BitVec.ofNat 4 cause, none, none) := by
  have down : ethLine x (setEth x (fun e => { e with up := false, cause := BitVec.ofNat 4 cause, waiting := none, sending := none }) s) =
      (false, BitVec.ofNat 4 cause, none, none) := by
    rw [ethLine, setEth_eth]
  unfold ethGoesDown
  dsimp only
  split
  · rw [ethLine_congr (netLose_ports _ _ _ _), ethLine_withdrawn, ethLine_congr (itemsOnly_eventRecord _ _ _).ports_eq,
      ethLine_portEvent, down]
  · exact down

theorem recovery_frame (kind unit : Nat) : ∃ e, recovery kind unit s = { s with ev := e } := by
  unfold recovery
  split <;> exact ⟨_, rfl⟩

/-- A port that comes up has no cause any more (R368). -/
theorem ethGoesUp_frame : ∃ e, ethGoesUp x s = { setEth x (fun e => { e with up := true, cause := 0 }) s with ev := e } := by
  have recovered : ∃ e, (if s.ports.eth[x.1].cause = 0 then s else recovery 4 x.1 s) = { s with ev := e } := by
    split
    · exact ⟨_, rfl⟩
    · exact recovery_frame _ _ _
  obtain ⟨e, recovered⟩ := recovered
  obtain ⟨e', raised⟩ := portEvent_frame (portIx 0 x) (setEth x (fun e => { e with up := true, cause := 0 }) { s with ev := e })
    (what := 1) (by decide) 0 s.ports.eth[x.1].reg1.toNat
  refine ⟨e', ?_⟩
  unfold ethGoesUp
  dsimp only
  rw [recovered, raised]
  rfl

end Events

/-! ### Polls (R367, R368) -/

/-- A poll has been made: its reads are on MDIO, and its port shows what they read. -/
def polled (x : Fin 2) (r1 r5 : W16) (answered : Bool) (s : State) : State :=
  setEth x (fun e => pollEth r1 r5 answered { e with pollAt := some s.now })
    { s with ports := { s.ports with mdioOut := pollFrames x s } }

section Polls

variable {x : Fin 2} {r1 r5 : W16} {answered : Bool} {s : State}

theorem mdioRuns_of_mode (on : s.ports.mdioOn = true) (notReset : s.sys.mode ≠ .reset) (notProve : s.sys.mode ≠ .prove)
    (clock : clockSafe s = false) : mdioRuns s = true := by
  simp [mdioRuns, on, notReset, notProve, clock]

theorem polled_eth (x : Fin 2) (r1 r5 : W16) (answered : Bool) (s : State) : (polled x r1 r5 answered s).ports.eth[x.1] =
    pollEth r1 r5 answered { s.ports.eth[x.1] with pollAt := some s.now } := setEth_eth _ _ _

theorem pollEth_cause (r1 r5 : W16) (answered : Bool) (e : Eth) : (pollEth r1 r5 answered e).cause = e.cause := by
  unfold pollEth
  split <;> rfl

theorem exec_mdioPoll_early (early : pollDue x s = false) : exec (.mdioPoll x r1 r5 answered) s = .next s := by
  change execMdioPoll x r1 r5 answered s = _
  simp [execMdioPoll, early]

/-- What the state of a port after a poll decides (R368). -/
def pollDecided (x : Fin 2) (s : State) : State :=
  match pollCause s.ports.eth[x.1] with
  | 0 => if !s.ports.eth[x.1].up && decide (10 ≤ s.ports.eth[x.1].good) then ethGoesUp x s else s
  | c => ethGoesDown x c s

theorem exec_mdioPoll (runs : mdioRuns s = true) (due : pollDue x s = true) (active : s.ports.eth[x.1].cause ≠ 5) :
    exec (.mdioPoll x r1 r5 answered) s = .next (pollDecided x (polled x r1 r5 answered s)) := by
  have cause : (polled x r1 r5 answered s).ports.eth[x.1].cause ≠ 5 := by
    rw [polled_eth, pollEth_cause]
    exact active
  change execMdioPoll x r1 r5 answered s = _
  rw [execMdioPoll, if_neg (by simp [runs, due])]
  exact congrArg _ (if_neg cause)

/-- A poll that shows a cause takes its port down. -/
theorem pollDecided_down {c : Nat} (shown : pollCause s.ports.eth[x.1] = c + 1) : pollDecided x s = ethGoesDown x (c + 1) s := by
  rw [pollDecided, shown]
  rfl

theorem exec_mdioPoll_down (runs : mdioRuns s = true) (due : pollDue x s = true) (active : s.ports.eth[x.1].cause ≠ 5) {c : Nat}
    (shown : pollCause (polled x r1 r5 answered s).ports.eth[x.1] = c + 1) :
    ∃ t, exec (.mdioPoll x r1 r5 answered) s = .next t ∧ ethLine x t = (false, BitVec.ofNat 4 (c + 1), none, none) :=
  ⟨_, (exec_mdioPoll runs due active).trans (congrArg _ (pollDecided_down shown)), ethLine_ethGoesDown _ _ _⟩

/-- The tenth good poll in a row brings its port up. -/
theorem pollDecided_up (shown : pollCause s.ports.eth[x.1] = 0) (down : s.ports.eth[x.1].up = false)
    (ten : 10 ≤ s.ports.eth[x.1].good) : pollDecided x s = ethGoesUp x s := by
  rw [pollDecided, shown]
  exact if_pos (by simp [down, ten])

/-- What an answered poll shows of its port (R368). -/
theorem pollEth_answered (readable : r1 ≠ 0xFFFF) (e : Eth) : pollEth r1 r5 true e = { e with
    link := bitOf r1 2, anDone := bitOf r1 5, fd100 := bitOf r5 8, mdioOk := true, reg1 := r1.setWidth 8, ffs := 0,
    good := if bitOf r1 2 && bitOf r1 5 && bitOf r5 8 then e.good + 1 else 0, polls := e.polls + 1 } := by
  rw [pollEth, if_pos (by rw [Bool.true_and]; exact bne_iff_ne.2 readable)]

/-- What an unreadable poll leaves of it. -/
theorem pollEth_unreadable (e : Eth) : pollEth 0xFFFF r5 true e =
    { e with mdioOk := false, reg1 := 0xFF, ffs := e.ffs + 1, good := 0, polls := e.polls + 1 } :=
  if_neg (by decide)

end Polls

/-! ### The start of MDIO and reads for the host (R367, R370) -/

section Mdio

variable {s : State}

theorem exec_portStart (notReset : s.sys.mode ≠ .reset) (clock : clockSafe s = false) (loaded : s.sys.loaded = true)
    (off : s.ports.mdioOn = false) : exec .portStart s = .next { s with ports := { s.ports with
      mdioOn := true, mdioOut := phyStart 0 s ++ phyStart 1 s,
      eth := mapv (fun _ e => { e with good := 0, ffs := 0, polls := 0, pollAt := none }) s.ports.eth } } := by
  change execPortStart s = _
  simp [execPortStart, notReset, clock, imageTaken, loaded, mdioStart, off]

/-- A keyed write of EN_MDIOCMD puts a read of the PHY's register on MDIO (R370). -/
theorem mdioRequest_keyed {v : W16} (key : v.toNat / 256 = 0x4D) (s : State) :
    let x : Fin 2 := if bitOf v 5 then 1 else 0
    let r := BitVec.ofNat 5 (v.toNat % 32)
    mdioRequest v s = { s with ports := { s.ports with mdioRead := some (x, r), mdioOut := [⟨phyAddr x s, r, none⟩] } } := by
  have keyed : keyOf v = 0x4D := by simp [keyOf, fld, key]
  have reg : fld v 4 0 = v.toNat % 32 := by simp [fld]
  rw [mdioRequest, if_pos keyed, reg]

theorem exec_mdioReadRequest (notReset : s.sys.mode ≠ .reset) (clock : clockSafe s = false) (p : Port) (v : W16) :
    ∃ h, exec (.mdioReadRequest p v) s = .next (mdioRequest v { s with hb := h }) := by
  have live := portLive_of_mode_of_clock notReset clock
  refine ⟨(countWrite p 0x17E s).hb, ?_⟩
  rw [← countWrite_frame_of_not_loginWord p 0x17E s (by decide)]
  change Host.Outcome.next (portWrite p 0x17E (mdioRequest v) s) = _
  rw [portWrite, live, if_pos rfl]

theorem exec_mdioReadDone (runs : mdioRuns s = true) (asked : s.ports.mdioRead ≠ none) (answered : Bool) (data : W16) :
    exec (.mdioReadDone answered data) s = .next { s with ports := { s.ports with
      mdioRead := none, mdioData := if answered then data else 0xFFFF } } := by
  have waits : s.ports.mdioRead.isNone = false := Option.isNone_eq_false_iff.2 (Option.isSome_iff_ne_none.2 asked)
  change execMdioReadDone answered data s = _
  simp only [execMdioReadDone, waits, runs, Bool.not_true, Bool.or_self, Bool.false_eq_true, if_false]

end Mdio

/-! ### The statement -/

/-- Settles O32: frames by their errors and the filter, polls by what they show (`pollDecided_up`, `pollDecided_down`), and the commands
of MDIO each by an equation. -/
theorem ethernetFramesAndMdioPolls : Obligations.EthernetFramesAndMdioPolls := by
  unfold Obligations.EthernetFramesAndMdioPolls
  refine ⟨fun s x f receives => ⟨exec_ethFrameReceive_bad receives, fun fcs rxer long short => ⟨fun other => ?ignored,
      fun mac ether untagged => ?passed⟩, ?transmitted⟩,
    fun s x r1 r5 p v notReset notProve clock => ⟨fun on due active readable => ⟨fun link done full down nine => ?up,
      fun noLink up => ?linkLost⟩, fun on due active two => ?unread, fun early a => exec_mdioPoll_early early,
      fun off loaded => ?start, ?request, fun on asked a d =>
        exec_mdioReadDone (mdioRuns_of_mode on notReset notProve clock) asked a d⟩⟩
  case ignored =>
    rw [exec_ethFrameReceive_good receives fcs rxer long short, if_neg (by obtain no | no := other <;> simp [no])]
  case passed =>
    rw [exec_ethFrameReceive_good receives fcs rxer long short, if_pos (by rw [mac, ether]; rfl), untagged]
    rfl
  case transmitted =>
    have eth := setEth_eth x (fun e => { e with sending := e.waiting, waiting := none }) s
    exact ⟨_, exec_ethTransmitDone (clockSafe_of_ethReceives receives), congrArg Eth.sending eth, congrArg Eth.waiting eth, rfl⟩
  case up =>
    have eth := (polled_eth x r1 r5 true s).trans (pollEth_answered readable _)
    have clear : pollCause (polled x r1 r5 true s).ports.eth[x.1] = 0 := by simp [eth, pollCause, link, full]
    have ten : 10 ≤ (polled x r1 r5 true s).ports.eth[x.1].good := by simp [eth, link, done, full, nine]
    have run := exec_mdioPoll (r1 := r1) (r5 := r5) (answered := true) (mdioRuns_of_mode on notReset notProve clock) due active
    obtain ⟨e, frame⟩ := ethGoesUp_frame x (polled x r1 r5 true s)
    rw [pollDecided_up clear (by rw [eth]; exact down) ten, frame] at run
    have shown := setEth_eth x (fun e => { e with up := true, cause := 0 }) (polled x r1 r5 true s)
    rw [eth] at shown
    exact ⟨_, run, congrArg Eth.up shown, congrArg Eth.cause shown, (congrArg Eth.link shown).trans link, rfl⟩
  case linkLost =>
    have eth := (polled_eth x r1 r5 true s).trans (pollEth_answered readable _)
    have lost : pollCause (polled x r1 r5 true s).ports.eth[x.1] = 0 + 1 := by rw [eth]; simp [pollCause, noLink]
    obtain ⟨t, run, line⟩ := exec_mdioPoll_down (mdioRuns_of_mode on notReset notProve clock) due active lost
    simp only [ethLine, Prod.mk.injEq] at line
    exact ⟨t, run, line⟩
  case unread =>
    have eth := (polled_eth x 0xFFFF r5 true s).trans (pollEth_unreadable _)
    have silent : pollCause (polled x 0xFFFF r5 true s).ports.eth[x.1] = 1 + 1 := by rw [eth]; simp [pollCause, two]
    obtain ⟨t, run, line⟩ := exec_mdioPoll_down (mdioRuns_of_mode on notReset notProve clock) due active silent
    simp only [ethLine, Prod.mk.injEq] at line
    obtain ⟨isDown, cause, -⟩ := line
    exact ⟨t, run, isDown, cause⟩
  case start =>
    refine ⟨_, exec_portStart notReset clock loaded off, rfl, fun y => ?_, rfl⟩
    simp only [get_mapv, and_self]
  case request =>
    intro key y r
    obtain ⟨h, run⟩ := exec_mdioReadRequest (s := s) notReset clock p v
    rw [mdioRequest_keyed key] at run
    exact ⟨_, run, rfl⟩

end Sys2Proof.Machine
end

section
/-! PROOFS. The end of a bus-off recovery (R381), writes of CN_RECOVER (R382), and the end of standby (R383, R768). -/

namespace Sys2Proof.Machine

open Sys2Proof

section BusOff

variable {x : Fin 2} {v : W16} {s : State}

/-! ### The end of a recovery (R381) -/

/-- A controller whose recovery has ended: error active, with both counters at 0. -/
def recovered (c : Can) : Can := { c with state := .active, recovering := false, tec := 0, rec_ := 0 }

theorem exec_busOffRecoveryDone_recovering (off : s.ports.can[x.1].state = .busOff) (recovering : s.ports.can[x.1].recovering = true) :
    ∃ e, exec (.busOffRecoveryDone x) s = .next { setCan x recovered s with ev := e } := by
  obtain ⟨e, marked⟩ := recovery_frame (setCan x recovered s) 4 (portIx 1 x).1
  obtain ⟨e', raised⟩ := portEvent_frame (portIx 1 x) { setCan x recovered s with ev := e } (what := 6) (by decide) 0
    (boffCount s.ports.can[x.1] s.now)
  refine ⟨e', ?_⟩
  change execBusOffRecoveryDone x s = _
  rw [execBusOffRecoveryDone, if_pos (by rw [off, recovering]; rfl)]
  exact congrArg _ ((congrArg _ marked).trans raised)

theorem exec_busOffRecoveryDone_of_not_busOff (on : s.ports.can[x.1].state ≠ .busOff) :
    exec (.busOffRecoveryDone x) s = .next s := by
  change execBusOffRecoveryDone x s = _
  rw [execBusOffRecoveryDone, if_neg (by simp [on])]

/-! ### Writes of CN_RECOVER (R382) -/

/-- A controller after a keyed write of CN_RECOVER: a bus-off one that the write names starts its recovery. -/
def recoveryAsked (named : Bool) (c : Can) : Can :=
  if named = true ∧ c.state = .busOff then { c with recovering := true, holdoff := false } else c

theorem recoveryAsked_of_busOff {c : Can} (off : c.state = .busOff) :
    recoveryAsked true c = { c with recovering := true, holdoff := false } := if_pos ⟨rfl, off⟩

theorem recoveryAsked_of_not_busOff {c : Can} (on : c.state ≠ .busOff) (named : Bool) : recoveryAsked named c = c :=
  if_neg fun ⟨_, off⟩ => on off

theorem canRecover_named (named : Bool) (x : Fin 2) (s : State) :
    (if named then canRecover x s else s) = setCan x (recoveryAsked named) s := by
  have idle (same : recoveryAsked named s.ports.can[x.1] = s.ports.can[x.1]) : setCan x (recoveryAsked named) s = s := by
    rw [setCan, upd_congr (g := id) _ _ same, upd_id]
  cases named with
  | false => exact (idle (if_neg fun ⟨no, _⟩ => Bool.false_ne_true no)).symm
  | true =>
    by_cases off : s.ports.can[x.1].state = .busOff
    · rw [if_pos rfl, canRecover, if_pos off, setCan, setCan, upd_congr _ _ (recoveryAsked_of_busOff off).symm]
    · rw [if_pos rfl, canRecover, if_neg off, idle (recoveryAsked_of_not_busOff off true)]

theorem upd_upd_eq_mapv {α : Type} (v : Vector α 2) (f : Fin 2 → α → α) : upd (upd v 0 (f 0)) 1 (f 1) = mapv f v := by
  ext1 j small
  obtain rfl | rfl : j = 0 ∨ j = 1 := by omega
  · simp
  · simp

/-- A keyed write reaches both controllers, each by its own bit. -/
theorem recoverWrite_keyed (key : v.toNat / 256 = 0xB5) (s : State) : recoverWrite v s = { s with ports := { s.ports with
    can := mapv (fun x => recoveryAsked (bitOf v x.1)) s.ports.can } } := by
  simp only [recoverWrite, keyOf_eq_div, key, if_true, canRecover_named]
  rw [← upd_upd_eq_mapv]
  rfl

theorem recoverWrite_unkeyed (key : v.toNat / 256 ≠ 0xB5) (s : State) : recoverWrite v s = s :=
  if_neg (keyOf_eq_div v ▸ key)

/-- A write of CN_RECOVER asks for no login, and it keeps none alive. -/
theorem exec_canRecover (notReset : s.sys.mode ≠ .reset) (clock : clockSafe s = false) (p : Port) (v : W16) :
    ∃ h, exec (.canRecover p v) s = .next (recoverWrite v { s with hb := h }) := by
  refine ⟨(countWrite p 0x18F s).hb, ?_⟩
  rw [← countWrite_frame_of_not_loginWord p 0x18F s (by decide)]
  exact congrArg _ (if_pos (portLive_of_mode_of_clock notReset clock))

end BusOff

/-! ### The end of standby (R383, R768) -/

/-- What is left at a time of an instant until which a transceiver leaves standby: nothing once it has passed. -/
def exitLeft (now : Nat) (at_ : Option Nat) : Option Nat := at_.filter fun t => decide (now < t)

theorem exitLeft_of_due {now : Nat} {at_ : Option Nat} (due : at_.any (fun t => decide (t ≤ now)) = true) :
    exitLeft now at_ = none := by
  cases at_ with
  | none => rfl
  | some t => simpa [exitLeft, Option.filter_some] using due

theorem exitLeft_of_early {now : Nat} {at_ : Option Nat} (early : ¬ at_.any (fun t => decide (t ≤ now)) = true) :
    exitLeft now at_ = at_ := by
  cases at_ with
  | none => rfl
  | some t => simpa [exitLeft, Option.filter_some] using early

/-- A controller takes part in the bus when the 50 µs of its transceiver have passed. -/
def standbyEnded (x : Fin 2) (s : State) : State :=
  if s.ports.can[x.1].exitAt.any (fun t => decide (t ≤ s.now)) then
    canStart x (portEvent (portIx 1 x) 1 0 0 (setCan x (fun c => { c with exitAt := none }) s))
  else s

section Standby

variable (x : Fin 2) (s : State)

theorem exec_standbyExit_eq : exec .standbyExit s = .next (standbyEnded 1 (standbyEnded 0 s)) := rfl

/-- The start of a transmission leaves standby as it is. -/
theorem canStart_frame : ∃ v, canStart x s = { s with ports := { s.ports with can := v } } ∧
    ∀ y : Fin 2, v[y.1].exitAt = s.ports.can[y.1].exitAt := by
  unfold canStart
  dsimp only
  split
  · exact ⟨_, rfl, fun _ => rfl⟩
  · split
    · refine ⟨_, rfl, fun y => ?_⟩
      rw [get_upd]
      split <;> rfl
    · exact ⟨_, rfl, fun _ => rfl⟩

/-- The end of standby of one controller leaves the other in standby. -/
theorem standbyEnded_frame : ∃ v e, standbyEnded x s = { s with ports := { s.ports with can := v }, ev := e } ∧
    ∀ y : Fin 2, v[y.1].exitAt = if y = x then exitLeft s.now s.ports.can[y.1].exitAt else s.ports.can[y.1].exitAt := by
  by_cases due : s.ports.can[x.1].exitAt.any (fun t => decide (t ≤ s.now)) = true
  · obtain ⟨e, raised⟩ := portEvent_frame (portIx 1 x) (setCan x (fun c => { c with exitAt := none }) s) (what := 1) (by decide) 0 0
    obtain ⟨v, started, same⟩ := canStart_frame x { setCan x (fun c => { c with exitAt := none }) s with ev := e }
    refine ⟨v, e, (if_pos due).trans ((congrArg _ raised).trans started), fun y => (same y).trans ?_⟩
    obtain rfl | other := eq_or_ne y x
    · rw [if_pos rfl, exitLeft_of_due due]
      exact congrArg Can.exitAt (setCan_can y _ s)
    · rw [if_neg other]
      exact congrArg Can.exitAt (get_upd_of_ne s.ports.can _ other)
  · refine ⟨_, _, if_neg due, fun y => ?_⟩
    obtain rfl | other := eq_or_ne y x
    · rw [if_pos rfl, exitLeft_of_early due]
    · rw [if_neg other]

/-- Both controllers leave standby when their times have come. -/
theorem exec_standbyExit : ∃ v e, exec .standbyExit s = .next { s with ports := { s.ports with can := v }, ev := e } ∧
    ∀ x : Fin 2, v[x.1].exitAt = exitLeft s.now s.ports.can[x.1].exitAt := by
  obtain ⟨u, e, first, exitsA⟩ := standbyEnded_frame 0 s
  obtain ⟨v, e', second, exitsB⟩ := standbyEnded_frame 1 (standbyEnded 0 s)
  rw [first] at second exitsB
  refine ⟨v, e', (exec_standbyExit_eq s).trans (congrArg _ ((congrArg _ first).trans second)), fun x => ?_⟩
  refine (exitsB x).trans ?_
  change (if x = 1 then exitLeft s.now u[x.1].exitAt else u[x.1].exitAt) = _
  rw [exitsA]
  fin_cases x <;> rfl

end Standby

/-! ### The statement -/

/-- Settles O34: the end of a recovery (`exec_busOffRecoveryDone_recovering`), keyed and other writes of CN_RECOVER (`recoverWrite_keyed`,
`recoverWrite_unkeyed`), and the end of standby (`exec_standbyExit`). -/
theorem canControllersRecoverAndLeaveStandby : Obligations.CanControllersRecoverAndLeaveStandby := by
  unfold Obligations.CanControllersRecoverAndLeaveStandby
  intro s x p v e0 c
  refine ⟨fun off recovering => ?recovered, exec_busOffRecoveryDone_of_not_busOff,
    fun notReset clock key named off => ?started, fun notReset clock on => ?other, fun notReset clock key => ?unkeyed,
    fun waits due => ?standby⟩
  case recovered =>
    obtain ⟨e, run⟩ := exec_busOffRecoveryDone_recovering off recovering
    have can := setCan_can x recovered s
    exact ⟨_, run, congrArg Can.state can, congrArg Can.recovering can, congrArg Can.tec can, congrArg Can.rec_ can, rfl⟩
  case started =>
    obtain ⟨h, run⟩ := exec_canRecover notReset clock p v
    rw [recoverWrite_keyed key] at run
    have can : (mapv (fun x => recoveryAsked (bitOf v x.1)) s.ports.can)[x.1] = { c with recovering := true, holdoff := false } := by
      rw [get_mapv, named, recoveryAsked_of_busOff off]
    exact ⟨_, run, congrArg Can.recovering can, congrArg Can.holdoff can, (congrArg Can.state can).trans off, rfl⟩
  case other =>
    obtain ⟨h, run⟩ := exec_canRecover notReset clock p v
    refine ⟨_, run, ?_⟩
    by_cases key : v.toNat / 256 = 0xB5
    · rw [recoverWrite_keyed key, get_mapv, recoveryAsked_of_not_busOff on]
    · rw [recoverWrite_unkeyed key]
  case unkeyed =>
    obtain ⟨h, run⟩ := exec_canRecover notReset clock p v
    rw [recoverWrite_unkeyed key] at run
    exact ⟨_, run, rfl⟩
  case standby =>
    obtain ⟨v, e, run, exits⟩ := exec_standbyExit s
    refine ⟨_, run, (exits x).trans ?_, rfl⟩
    exact exitLeft_of_due (by rw [waits]; exact decide_eq_true due)

end Sys2Proof.Machine
end

section
/-! PROOFS. The check units (chapter 11): a block at a snoop unit (R400 to R405), the end of a CKBLK (R406, R409, R410),
self-tests (R422, R425), and what a unit fault does (R426, R429). -/

namespace Sys2Proof.Machine

open Sys2Proof

/-! ### An entry to SAFE leaves the check units but for the operations that wait (Table CK-6) -/

section Reports

variable (type code : Nat) (data : List Byte) (w : W16) (ts : TStamp) (s : State)

@[simp] theorem raise_ck : (raise code w s).ck = s.ck := by
  obtain ⟨e, raised⟩ := raise_frame code w s
  rw [raised]

@[simp] theorem recordAt_ck : (recordAt type code data ts s).ck = s.ck := by
  obtain ⟨e, v, recorded, -⟩ := recordAt_frame type code data ts s
  rw [recorded]

@[simp] theorem record_ck : (record type code data s).ck = s.ck := recordAt_ck _ _ _ _ _

end Reports

section Safe

variable (s : State)

theorem drpFalls_ck : (drpFalls s).ck = s.ck :=
  foldl_unchanged State.ck (fun y b => by
    split
    · exact recordAt_ck _ _ _ _ _
    · rfl) _ _

theorem inactiveEvents_ck : ((List.finRange 16).foldl inactiveEvent s).ck = s.ck :=
  foldl_unchanged State.ck (fun y c => by
    unfold inactiveEvent
    dsimp only
    split
    · rfl
    · exact raise_ck _ _ _) _ _

theorem SectionsOnly.ck_eq {s t : State} (h : SectionsOnly s t) : t.ck = s.ck := by rw [h]

theorem stopProving_ck : (stopProving s).ck = s.ck := rfl

theorem safeOutputs_ck : (safeOutputs s).ck = s.ck := rfl

theorem safeStops_ck : (safeStops s).ck = s.ck := by
  rw [safeStops, safeOutputs_ck, inactiveEvents_ck, (sectionsOnly_disturbAll _).ck_eq, stopProving_ck, drpFalls_ck]

theorem safeReported_ck (cause : Nat) (info : W16) (old : Mode) (unproved : Bool) :
    (safeReported cause info old unproved s).ck = s.ck := by
  unfold safeReported
  dsimp only
  split <;> simp only [record_ck, raise_ck]

theorem unlockDrop_ck : (unlockDrop s).ck = s.ck :=
  foldl_unchanged State.ck (fun _ _ => record_ck _ _ _ _) _ _

theorem endLogin_ck (p : Fin 2) (reason : Nat) : (endLogin p reason s).ck = s.ck := by
  unfold endLogin
  split
  · exact record_ck _ _ _ _
  · rfl

theorem commitAbandon_ck : (commitAbandon s).ck = s.ck := by
  unfold commitAbandon
  split
  · rfl
  · split
    · exact record_ck _ _ _ _
    · rfl

theorem safeEnd_ck (clock : Prop) [Decidable clock] : (safeEnd clock s).ck = (discardOps s).ck := by
  unfold safeEnd
  dsimp only
  split
  · rfl
  · obtain ⟨p, on⟩ := canOn_ethOn_frame (cantleStop .halted { s with cs := { s.cs with permit := 0 } })
    rw [on]
    rfl

theorem discardOps_congr {s t : State} (h : t.ck = s.ck) : (discardOps t).ck = (discardOps s).ck := by
  rw [discardOps, h, discardOps]

/-- An entry to SAFE discards the operations that wait. -/
theorem enterSafe_ck {s : State} (notReset : s.sys.mode ≠ .reset) (notSafe : s.sys.mode ≠ .safe) (cause : Nat) (info : W16) :
    (enterSafe cause info s).ck = (discardOps s).ck := by
  rw [enterSafe_eq notReset notSafe, safeEnd_ck]
  refine discardOps_congr ?_
  rw [commitAbandon_ck, endLogin_ck, endLogin_ck, unlockDrop_ck, safeReported_ck, safeStops_ck]
  rfl

theorem discardOps_disabled (n : Fin 8) : (discardOps s).ck[n.1].disabled = s.ck[n.1].disabled := by
  simp only [discardOps, get_mapv]
  split <;> rfl

end Safe

/-! ### Changes of one unit -/

section Units

variable {n : Fin 8} {f g : Ck → Ck} {s : State}

theorem setCk_same (n : Fin 8) (f : Ck → Ck) (s : State) : (setCk n f s).ck[n.1] = f s.ck[n.1] := get_upd_same _ _ _

theorem setCk_setCk : setCk n g (setCk n f s) = setCk n (fun u => g (f u)) s := by
  simp only [setCk, upd_upd]

theorem setCk_congr (h : f s.ck[n.1] = g s.ck[n.1]) : setCk n f s = setCk n g s := by
  rw [setCk, upd_congr _ _ h, setCk]

end Units

/-! ### A unit fault (R426, R429, Table CK-8) -/

/-- A check unit out of service. -/
def ckOut (u : Ck) : Ck :=
  { u with disabled := true, fifo := [], feed := none, ops := [], spec := none, testing := none, held := false }

section Faults

variable {n : Fin 8} {s : State} (cause : Nat)

/-- A fault of CK0 to CK3 in service enters SAFE with cause LOGIC, detail 8. -/
theorem ckFault_safe (low : n.1 < 4) (service : inService s = true) :
    InSafe (ckFault n cause s) 2 8 ∧ (ckFault n cause s).ck[n.1].disabled = true := by
  have run : ckFault n cause s = enterSafe 2 8 (raise (0x1E8 + n.1) (faultWord cause true) (setCk n ckOut s)) := if_pos low
  have mode : (raise (0x1E8 + n.1) (faultWord cause true) (setCk n ckOut s)).sys.mode = s.sys.mode := by
    rw [raise_sys, setCk_sys]
  have notReset := mode.symm ▸ notReset_of_inService service
  have notSafe := mode.symm ▸ notSafe_of_inService service
  refine ⟨run ▸ inSafe_enterSafe notReset notSafe 2 8, ?_⟩
  rw [run]
  simp only [enterSafe_ck notReset notSafe, discardOps_disabled, raise_ck, setCk_same, ckOut]

/-- A fault of CK4 to CK7 takes that unit out of service and is reported. -/
theorem ckFault_reported (high : 4 ≤ n.1) : ∃ e v, ckFault n cause s = { setCk n ckOut s with ev := e, nv := v } := by
  obtain ⟨e, v, reported⟩ := raiseRec_frame (faultWord cause true) (setCk n ckOut s) (0x1E8 + n.1)
  exact ⟨e, v, (if_neg (Nat.not_lt.mpr high)).trans reported⟩

end Faults

/-! ### A block at a snoop unit (R400 to R405) -/

/-- Snoop unit `n` is in service, runs no self-test, and has block `b` waiting before `q`. -/
structure BlockWaits (n : Fin 8) (b : Block) (q : List Block) (s : State) : Prop where
  snoop : ckOwner s.ck[n.1] = 1
  enabled : s.ck[n.1].disabled = false
  untested : s.ck[n.1].testing = none
  service : inService s = true
  waits : s.ck[n.1].fifo = b :: q

/-- A snoop unit without alive counter checks a block that is long enough by its code alone. -/
structure CodeOnly (u : Ck) (b : Block) : Prop where
  long : ckShort u b = false
  noAlive : ckAwin u = 0

/-- The unit has taken its oldest block. -/
abbrev ckTook (n : Fin 8) (q : List Block) (s : State) : State := setCk n (fun u => { u with fifo := q }) s

section Snoop

variable {n : Fin 8} {b : Block} {q : List Block} {s : State} {u : Ck}

theorem snoopRuns_of_inService (service : inService s = true) : snoopRuns n s = true := by
  obtain mode | mode := mode_of_inService service <;> simp [snoopRuns, mode]

theorem ckTesting_of_none (untested : u.testing = none) (t : Nat) : ckTesting u t = false := by
  simp [ckTesting, untested]

/-- The oldest block is processed, unless the unit is found faulty. -/
theorem BlockWaits.exec_eq (h : BlockWaits n b q s) (f : CkFinding) : exec (.snoopBlock n f) s =
    .next ((ckFound n f (setCk n (fun u => ckAfter u b) (ckTook n q s))).getD (ckServe n (ckTook n q s) b)) := by
  change execSnoopBlock n f s = _
  simp only [execSnoopBlock, h.snoop, h.enabled, h.waits, snoopRuns_of_inService h.service, ckTesting_of_none h.untested]
  cases f <;> rfl

theorem BlockWaits.exec_shadow (h : BlockWaits n b q s) :
    exec (.snoopBlock n .shadow) s = .next (ckFault n 2 (setCk n (fun u => ckAfter u b) (ckTook n q s))) :=
  h.exec_eq .shadow

theorem exec_snoopBlock_empty (f : CkFinding) (empty : s.ck[n.1].fifo = []) : exec (.snoopBlock n f) s = .next s := by
  change execSnoopBlock n f s = _
  simp [execSnoopBlock, empty]

/-- A unit after its oldest block, without alive counter or self-test. -/
def ckDone (q : List Block) (b : Block) (u : Ck) : Ck :=
  { u with fifo := q, val := ckBlockResult u b, bseq := u.bseq + 1, held := false }

theorem CodeOnly.ckAfter_eq (h : CodeOnly u b) (untested : u.testing = none) (q : List Block) :
    ckAfter { u with fifo := q } b = ckDone q b u := by
  have noAlive : ckAwin { u with fifo := q } = 0 := h.noAlive
  have unwatched : ckAliveHere { u with fifo := q } b = false := by simp [ckAliveHere, noAlive]
  rw [ckAfter, unwatched, ckDone, untested]
  rfl

theorem CodeOnly.taken (h : CodeOnly s.ck[n.1] b) (untested : s.ck[n.1].testing = none) (q : List Block) :
    setCk n (fun u => ckAfter u b) (ckTook n q s) = setCk n (ckDone q b) s :=
  setCk_setCk.trans (setCk_congr (h.ckAfter_eq untested q))

theorem CodeOnly.ckBlockKind_eq (h : CodeOnly u b) : ckBlockKind u b = (ckCode u b).getD (0, 0) := by
  have noKind : ckAliveKind u b = (0, 0) := by
    unfold ckAliveKind
    dsimp only
    split
    · simp [ckAliveHere, h.noAlive]
    · rfl
  simp [ckBlockKind, h.long, noKind]

/-- What waits behind a block has no part in its kind. -/
theorem ckBlockKind_took (s : State) : ckBlockKind (ckTook n q s).ck[n.1] b = ckBlockKind s.ck[n.1] b := by
  rw [setCk_same]
  rfl

theorem ckCode_none (agrees : ckCmp u = 0 ∨ ckCmp u = 1 ∧ ckBlockResult u b = u.exp) : ckCode u b = none := by
  obtain off | ⟨on, same⟩ := agrees
  · simp [ckCode, off]
  · simp [ckCode, on, same]

theorem ckCode_expect (on : ckCmp u = 1) (differs : ckBlockResult u b ≠ u.exp) :
    ckCode u b = some (2, (ckBlockResult u b ^^^ u.exp).toNat) := by
  simp [ckCode, on, differs]

theorem ckServe_agrees (kind : (ckBlockKind s.ck[n.1] b).1 = 0) : ckServe n s b = setCk n (fun u => ckAfter u b) s := if_pos kind

theorem ckServe_differs {k d : Nat} (kind : ckBlockKind s.ck[n.1] b = (k, d)) (found : k ≠ 0) :
    ckServe n s b = ckMismatch n k d (setCk n (fun u => ckAfter u b) s) := by
  simp [ckServe, kind, found]

/-- A unit after a mismatch of kind `k`, with its latest mismatch event at `reported`. -/
def ckMarked (k : Nat) (reported : Option Nat) (u : Ck) : Ck :=
  { u with mis := true, lastk := BitVec.ofNat 4 k, cnt := satInc u.cnt, evAt := reported }

/-- A mismatch of a snoop unit is marked and counted, and may be reported. -/
theorem ckMismatch_snoop (snoop : ckOwner s.ck[n.1] = 1) (k d : Nat) :
    ∃ reported e, ckMismatch n k d s = { setCk n (ckMarked k reported) s with ev := e } := by
  unfold ckMismatch
  dsimp only
  rw [if_neg (show ckOwner s.ck[n.1] ≠ 2 by omega)]
  split
  · obtain ⟨e, raised⟩ := raise_frame (0x1E0 + n.1) (misWord s.ck[n.1] k d) (setCk n (fun u => { u with evAt := some s.now })
      (setCk n (fun u => { u with mis := true, lastk := BitVec.ofNat 4 k, cnt := satInc u.cnt }) s))
    exact ⟨some s.now, e, raised.trans (congrArg (fun t : State => { t with ev := e }) setCk_setCk)⟩
  · exact ⟨s.ck[n.1].evAt, s.ev, setCk_congr rfl⟩

/-- A block that agrees is taken. -/
theorem BlockWaits.exec_agrees (h : BlockWaits n b q s) (plain : CodeOnly s.ck[n.1] b)
    (agrees : ckCmp s.ck[n.1] = 0 ∨ ckCmp s.ck[n.1] = 1 ∧ ckBlockResult s.ck[n.1] b = s.ck[n.1].exp) :
    exec (.snoopBlock n .good) s = .next (setCk n (ckDone q b) s) := by
  have kind : (ckBlockKind (ckTook n q s).ck[n.1] b).1 = 0 := by
    rw [ckBlockKind_took, plain.ckBlockKind_eq, ckCode_none agrees]
    rfl
  exact (h.exec_eq .good).trans (congrArg _ ((ckServe_agrees kind).trans (plain.taken h.untested q)))

/-- A block that does not meet the expectation is taken, with mismatch EXPECT. -/
theorem BlockWaits.exec_differs (h : BlockWaits n b q s) (plain : CodeOnly s.ck[n.1] b) (on : ckCmp s.ck[n.1] = 1)
    (differs : ckBlockResult s.ck[n.1] b ≠ s.ck[n.1].exp) :
    exec (.snoopBlock n .good) s =
      .next (ckMismatch n 2 (ckBlockResult s.ck[n.1] b ^^^ s.ck[n.1].exp).toNat (setCk n (ckDone q b) s)) := by
  have kind : ckBlockKind (ckTook n q s).ck[n.1] b = (2, (ckBlockResult s.ck[n.1] b ^^^ s.ck[n.1].exp).toNat) := by
    rw [ckBlockKind_took, plain.ckBlockKind_eq, ckCode_expect on differs]
    rfl
  rw [← plain.taken h.untested q, ← ckServe_differs kind (by decide)]
  exact h.exec_eq .good

end Snoop

/-! ### The end of a CKBLK (R406, R409, R410) -/

section Feeds

variable {n : Fin 8} {s : State} {f : Feed}

theorem ckFrozen_of_noMonitor (noMonitor : s.db.mon = false) : ckFrozen n s = false := by
  simp [ckFrozen, frozen, noMonitor]

/-- A feed ends with nothing behind it. -/
theorem exec_ckblkDone (feeding : s.ck[n.1].feed = some f) (noMonitor : s.db.mon = false) (e : Ecc)
    (alone : (ckFeedEnd n f e s).ck[n.1].ops = []) :
    exec (.ckblkDone n e .good) s = .next (setCk n (fun u => { u with held := false }) (ckFeedEnd n f e s)) := by
  have drained : ckDrain n [] (ckFeedEnd n f e s) = setCk n (fun u => { u with held := false }) (ckFeedEnd n f e s) :=
    setCk_congr (by rw [← alone])
  change execCkblkDone n e .good s = _
  simp [execCkblkDone, feeding, ckFrozen_of_noMonitor noMonitor, ckFound, alone, drained]

theorem ckFeedEnd_good (noCompare : f.cmp = false) : ckFeedEnd n f .good s =
    setCk n (fun u => { u with raw := crcFeed (ckPreset s.ck[n.1]) u.raw f.bytes, feed := none }) s := by
  simp [ckFeedEnd, eccFound, noCompare]

theorem StitchingOnly.ck_eq {t : State} (h : StitchingOnly s t) : t.ck = s.ck := by rw [h]

/-- An uncorrectable word ends the feed with a free raw value. -/
theorem ckFeedEnd_uncorrectable (f : Feed) : ∃ r : W32, (ckFeedEnd n f .uncorrectable s).ck =
    upd s.ck n fun u => { u with raw := r, feed := none, dataEcc := true } := by
  have found : (eccFound 9 (BitVec.ofNat 8 (f.addr / 512)) .uncorrectable s).ck = s.ck :=
    (stitchingOnly_eccUncorrectable _ _ s).ck_eq
  simp only [ckFeedEnd, if_true, setCk_ck, draw, found]
  exact ⟨_, rfl⟩

end Feeds

/-! ### Self-tests (R422, R425) -/

section Tests

variable {n : Fin 8} {s : State}

/-- Check unit `n` is on a tap or Cantle's, and in service. -/
structure UnitRuns (n : Fin 8) (s : State) : Prop where
  owned : ckOwner s.ck[n.1] ≠ 0
  enabled : s.ck[n.1].disabled = false
  service : inService s = true

/-- The unit has nothing to do. -/
structure UnitRests (n : Fin 8) (s : State) : Prop where
  noBlock : s.ck[n.1].fifo = []
  noFeed : s.ck[n.1].feed = none
  noOps : s.ck[n.1].ops = []
  untested : s.ck[n.1].testing = none
  noMonitor : s.db.mon = false

theorem testRuns_of_inService (service : inService s = true) : testRuns s = true := by simp [testRuns, service]

theorem UnitRests.ckIdle (h : UnitRests n s) : ckIdle n s = true := by
  simp [Machine.ckIdle, ckFree, h.noBlock, h.noFeed, h.noOps, ckTesting_of_none h.untested, ckFrozen_of_noMonitor h.noMonitor]

theorem UnitRuns.exec_selfTest (h : UnitRuns n s) (rests : UnitRests n s) (ok : Bool) :
    exec (.ckSelfTest n ok) s = .next (if ok then setCk n (fun u =>
      { u with testBefore := (u.lastTest, u.overdue), testing := some s.now, lastTest := s.now, overdue := false }) s
      else ckFault n 1 s) := by
  change execCkSelfTest n ok s = _
  simp [execCkSelfTest, h.owned, h.enabled, testRuns_of_inService h.service, rests.ckIdle]

theorem UnitRuns.exec_overdue_low (h : UnitRuns n s) (low : n.1 < 4) (late : s.ck[n.1].lastTest + 10000000 < s.now) :
    exec (.ckSelfTestOverdue n) s = .next (ckFault n 3 s) := by
  change execCkSelfTestOverdue n s = _
  simp [execCkSelfTestOverdue, h.owned, h.enabled, testRuns_of_inService h.service, low, late]

theorem UnitRuns.exec_overdue_high (h : UnitRuns n s) (high : 4 ≤ n.1) (late : s.ck[n.1].lastTest + 60000000 ≤ s.now)
    (unmarked : s.ck[n.1].overdue = false) : ∃ e v, exec (.ckSelfTestOverdue n) s =
      .next { setCk n (fun u => { u with overdue := true }) s with ev := e, nv := v } := by
  obtain ⟨e, v, reported⟩ :=
    raiseRec_frame (faultWord 3 false) (setCk n (fun u => { u with overdue := true }) s) (0x1E8 + n.1)
  refine ⟨e, v, ?_⟩
  rw [← reported]
  change execCkSelfTestOverdue n s = _
  simp [execCkSelfTestOverdue, h.owned, h.enabled, testRuns_of_inService h.service, Nat.not_lt.mpr high, late, unmarked]

end Tests

/-! ### The statement -/

/-- Settles O35: a block is checked by its code (`BlockWaits.exec_agrees`, `BlockWaits.exec_differs`), a feed ends alone
(`exec_ckblkDone`), and a fault of a unit enters SAFE or is reported (`ckFault_safe`, `ckFault_reported`). -/
theorem snoopUnitsCheckBlocksAndTestThemselves : Obligations.SnoopUnitsCheckBlocksAndTestThemselves := by
  unfold Obligations.SnoopUnitsCheckBlocksAndTestThemselves
  intro s n b q e u res
  refine ⟨fun snoop enabled untested service waits long noAlive => ?block, fun _ => exec_snoopBlock_empty .good,
    fun f feeding noOps noMonitor => ⟨fun noCompare => ?fed, ?unread⟩,
    fun owned enabled service noBlock noFeed noOps untested noMonitor => ?tested, fun owned enabled service => ?overdue⟩
  case block =>
    have ready : BlockWaits n b q s := ⟨snoop, enabled, untested, service, waits⟩
    have plain : CodeOnly s.ck[n.1] b := ⟨long, noAlive⟩
    refine ⟨fun agrees => (ready.exec_agrees plain agrees).trans ?_, fun on differs => ?_, fun low => ?_, fun high => ?_⟩
    · exact congrArg _ (setCk_congr rfl)
    · have snoop' : ckOwner (setCk n (ckDone q b) s).ck[n.1] = 1 := by rw [setCk_same]; exact snoop
      obtain ⟨reported, e, marked⟩ := ckMismatch_snoop snoop' 2 (ckBlockResult s.ck[n.1] b ^^^ s.ck[n.1].exp).toNat
      have unit := (setCk_same n (ckMarked 2 reported) _).trans (congrArg (ckMarked 2 reported) (setCk_same n (ckDone q b) s))
      exact ⟨_, (ready.exec_differs plain on differs).trans (congrArg _ marked), congrArg Ck.val unit, congrArg Ck.fifo unit,
        congrArg Ck.mis unit, congrArg Ck.lastk unit, congrArg Ck.cnt unit, rfl⟩
    · exact ⟨_, ready.exec_shadow, ckFault_safe 2 low service⟩
    · obtain ⟨e, v, reported⟩ := ckFault_reported (s := setCk n (fun u => ckAfter u b) (ckTook n q s)) 2 high
      have unit := ((setCk_same n ckOut _).trans (congrArg ckOut (setCk_same n (fun u => ckAfter u b) (ckTook n q s)))).trans
        (congrArg (fun u => ckOut (ckAfter u b)) (setCk_same n (fun u => { u with fifo := q }) s))
      exact ⟨_, ready.exec_shadow.trans (congrArg _ reported), congrArg Ck.disabled unit, (congrArg Ck.mis unit).trans rfl,
        rfl⟩
  case fed =>
    have ended := ckFeedEnd_good (n := n) (s := s) noCompare
    have alone : (ckFeedEnd n f .good s).ck[n.1].ops = [] := by rw [ended, setCk_same]; exact noOps
    rw [exec_ckblkDone feeding noMonitor .good alone, ended, setCk_setCk]
    rfl
  case unread =>
    rintro rfl
    obtain ⟨r, ended⟩ := ckFeedEnd_uncorrectable (n := n) (s := s) f
    have unit : (ckFeedEnd n f .uncorrectable s).ck[n.1] = { s.ck[n.1] with raw := r, feed := none, dataEcc := true } := by
      simp only [ended, get_upd_same]
    refine ⟨_, exec_ckblkDone feeding noMonitor _ ((congrArg Ck.ops unit).trans noOps), ?_⟩
    simp only [setCk_same, unit, and_self]
  case tested =>
    have runs : UnitRuns n s := ⟨owned, enabled, service⟩
    have rests : UnitRests n s := ⟨noBlock, noFeed, noOps, untested, noMonitor⟩
    refine ⟨runs.exec_selfTest rests true,
      fun low => ⟨_, runs.exec_selfTest rests false, ckFault_safe 1 low service⟩, fun high => ?_⟩
    obtain ⟨e, v, reported⟩ := ckFault_reported (s := s) 1 high
    exact ⟨_, (runs.exec_selfTest rests false).trans (congrArg _ reported), rfl, congrArg Ck.disabled (setCk_same n ckOut s)⟩
  case overdue =>
    have runs : UnitRuns n s := ⟨owned, enabled, service⟩
    refine ⟨fun low late => ⟨_, runs.exec_overdue_low low late, (ckFault_safe 3 low service).1⟩,
      fun high late unmarked => ?_⟩
    obtain ⟨e, v, run⟩ := runs.exec_overdue_high high late unmarked
    have marked := setCk_same n (fun u => { u with overdue := true }) s
    exact ⟨_, run, congrArg Ck.overdue marked, (congrArg Ck.disabled marked).trans enabled, rfl, rfl⟩

end Sys2Proof.Machine
end

section
/-! PROOFS. Events and rings (chapter 12): the write of the oldest fabric item into its ring (R433, R437, R445), pops (R447, R448),
the interrupt lines (R450, R451), and the mismatches of the route table and of a ring's control state (R465). -/

namespace Sys2Proof.Machine

open Sys2Proof

/-! ### One ring (R445, R459) -/

section OneRing

variable {r : Ring} {e : Entry} {ts : W32} {t : Nat}

theorem ringFlush_of_no_marker (noMarker : r.pend = []) (k : Nat) : ringFlush k r = r := by
  cases k with
  | zero => rfl
  | succ k => rw [ringFlush, noMarker]

theorem ringPut_of_room (room : r.q.length + 1 < depthOf r) : ringPut ts t e r = { ringPush e r with episode := false } := by
  rw [ringPut, if_neg (by omega), if_pos room]

/-- The last free entry takes the OVERFLOW marker of a new episode in place of the entry that arrives. -/
theorem ringPut_of_full (full : depthOf r ≤ r.q.length + 1) (holds : depthOf r ≠ 0) (fresh : r.episode = false) :
    ringPut ts t e r =
      { ringPush (overflowMarker 1 ts t) { r with drop := r.drop + 1, ovf := true } with episode := true } := by
  rw [ringPut, if_neg holds, if_neg (Nat.not_lt.mpr full)]
  exact if_neg (fresh ▸ Bool.false_ne_true)

/-- The ring after a pop, with no RECOVERY marker to write. -/
theorem ringPopped_of_no_marker (noMarker : r.pend = []) :
    ringPopped r = { r with q := r.q.tail, episode := r.episode && !r.q.tail.isEmpty } :=
  ringFlush_of_no_marker (by exact noMarker) 4

end OneRing

/-! ### The rings seen through the change of one -/

section Rings

variable {n : Fin 8} {f g : Ring → Ring} {s : State}

theorem setRing_congr (h : f s.ev.rings[n.1] = g s.ev.rings[n.1]) : setRing n f s = setRing n g s := by
  rw [setRing, setRing, setEv, upd_congr _ _ h, setEv]

variable (n f s)

theorem setRing_same : (setRing n f s).ev.rings[n.1] = f s.ev.rings[n.1] := get_upd_same _ _ _

theorem setRing_other {m : Fin 8} (other : m ≠ n) : (setRing n f s).ev.rings[m.1] = s.ev.rings[m.1] :=
  get_upd_of_ne _ _ other

end Rings

/-! ### Reports leave the rings, the routes and the interrupt lines -/

/-- The event system without the fabric and what it counts as lost. -/
def behindFabric (s : State) : Ev := { s.ev with fabric := [], lost := 0, srcDrop := 0, lastSl := 0 }

section BehindFabric

variable {s t : State}

theorem rings_of_behindFabric (h : behindFabric t = behindFabric s) : t.ev.rings = s.ev.rings := (congrArg Ev.rings h :)

theorem routeBusy_of_behindFabric (h : behindFabric t = behindFabric s) : t.ev.routeBusy = s.ev.routeBusy :=
  (congrArg Ev.routeBusy h :)

theorem routeBad_of_behindFabric (h : behindFabric t = behindFabric s) : t.ev.routeBad = s.ev.routeBad := (congrArg Ev.routeBad h :)

theorem routeDefault_of_behindFabric (h : behindFabric t = behindFabric s) : t.ev.routeDefault = s.ev.routeDefault :=
  (congrArg Ev.routeDefault h :)

variable (s)

@[simp] theorem behindFabric_fabricPut (g : Nat) (code : BitVec 9) (mk : Bool → FabItem) :
    behindFabric (fabricPut g code mk s) = behindFabric s := by
  unfold fabricPut
  split
  · rfl
  · split <;> rfl

@[simp] theorem behindFabric_raise (code : Nat) (data : W16) : behindFabric (raise code data s) = behindFabric s :=
  behindFabric_fabricPut _ _ _ _

@[simp] theorem behindFabric_mirror (r : LRec) (unl : Bool) : behindFabric (mirror r unl s) = behindFabric s :=
  behindFabric_fabricPut _ _ _ _

@[simp] theorem behindFabric_recovery (kind unit : Nat) : behindFabric (recovery kind unit s) = behindFabric s := by
  unfold recovery
  split <;> rfl

theorem behindFabric_recordLost (r : LRec) : behindFabric (recordLost r s) = behindFabric s := by
  have mirrored : behindFabric (mirror r true { s with nv := { s.nv with unlogged := satInc s.nv.unlogged } }) = behindFabric s :=
    behindFabric_mirror _ _ _
  unfold recordLost
  dsimp only
  split
  · exact mirrored
  · split
    · exact mirrored
    · exact (behindFabric_raise _ _ _).trans mirrored

theorem behindFabric_queueRec (r : LRec) : behindFabric (queueRec r s) = behindFabric s := by
  unfold queueRec
  split
  · rfl
  · exact behindFabric_mirror _ _ _

theorem behindFabric_recordAt (type code : Nat) (data : List Byte) (ts : TStamp) :
    behindFabric (recordAt type code data ts s) = behindFabric s := by
  unfold recordAt
  dsimp only
  split
  · rfl
  · split
    · exact behindFabric_recordLost _ _
    · exact behindFabric_queueRec _ _

@[simp] theorem behindFabric_raiseRec (code : Nat) (data : W16) : behindFabric (raiseRec code data s) = behindFabric s :=
  (behindFabric_recordAt _ _ _ _ _).trans (behindFabric_raise _ _ _)

end BehindFabric

/-! ### Routing (R433, R437) -/

/-- A class word that names ring `n` alone: enabled, without a copy to Q0. -/
structure NamesOnly (n : Fin 8) (w : W16) : Prop where
  enabled : bitOf w 3 = true
  ring : fld w 2 0 = n.1
  noCopy : fld w 5 4 = 0

section Routing

variable {n : Fin 8} {w : W16} {s : State} {code : BitVec 9} {data : W16} {ts : TStamp} {sr sl : Bool} {rest : List FabItem}

theorem NamesOnly.classRing_eq (h : NamesOnly n w) : classRing w = some n := by
  rw [classRing, if_pos h.enabled, h.ring]
  exact congrArg some (Fin.ext (Nat.mod_eq_of_lt n.2))

theorem NamesOnly.classCopies_eq (h : NamesOnly n w) (sr : Bool) : classCopies w sr = false := by
  simp [classCopies, h.noCopy]

/-- The entry of an event that is written at instant `t`. -/
abbrev eventEntry (code : BitVec 9) (data : W16) (ts : TStamp) (sr sl : Bool) (t : Nat) : Entry :=
  { code := code, sr := sr, sl := sl, data := data, ts := ts.setWidth 32, at_ := t }

theorem ringWrite_of_no_marker (notQ0 : n ≠ 0) (noMarker : s.ev.rings[n.1].pend = []) (e : Entry) :
    ringWrite n e s = setRing n (ringPut (ts32 s) s.now e) s := by
  rw [ringWrite, if_neg notQ0]
  exact setRing_congr (by rw [ringFlush_of_no_marker noMarker])

theorem routeEvent_of_namesOnly (names : NamesOnly n (classWord (classOf code.toNat s) s)) (notQ0 : n ≠ 0)
    (noMarker : s.ev.rings[n.1].pend = []) :
    routeEvent code data ts sr sl s = setRing n (ringPut (ts32 s) s.now (eventEntry code data ts sr sl s.now)) s := by
  simp only [routeEvent, names.classRing_eq, names.classCopies_eq, Bool.false_eq_true, if_false]
  exact ringWrite_of_no_marker notQ0 noMarker _

theorem fabricWrite_event : fabricWrite (.event code data ts sr sl :: rest) s =
    setEv (fun e => { e with fabric := rest }) (routeEvent code data ts sr sl s) := rfl

/-- With no reload going on, the fabric writes its first item. -/
theorem exec_eventFabricWrite (notReset : s.sys.mode ≠ .reset) (clock : clockSafe s = false) (idle : s.ev.routeBusy = none) :
    exec .eventFabricWrite s = .next (irqUpdate (fabricWrite s.ev.fabric s)) := by
  have unchanged : setEv (fun e => { e with routeBusy := none }) s = s :=
    congrArg (fun b => { s with ev := { s.ev with routeBusy := b } }) idle.symm
  change execEventFabricWrite s = _
  rw [execEventFabricWrite, if_neg (by simp [notReset, clock, idle]), unchanged]

/-- An event of a class that names ring `n` alone changes the fabric, that ring and the interrupt lines. -/
theorem exec_eventFabricWrite_routed (notReset : s.sys.mode ≠ .reset) (clock : clockSafe s = false) (idle : s.ev.routeBusy = none)
    (waits : s.ev.fabric = .event code data ts sr sl :: rest) (names : NamesOnly n (classWord (classOf code.toNat s) s))
    (notQ0 : n ≠ 0) (noMarker : s.ev.rings[n.1].pend = []) :
    exec .eventFabricWrite s = .next (irqUpdate (setEv (fun e => { e with fabric := rest })
      (setRing n (ringPut (ts32 s) s.now (eventEntry code data ts sr sl s.now)) s))) := by
  rw [exec_eventFabricWrite notReset clock idle, waits, fabricWrite_event, routeEvent_of_namesOnly names notQ0 noMarker]

end Routing

/-! ### Pops (R447, R448) -/

section Pops

variable {n : Fin 8} {s : State} {e : Entry} {q : List Entry}

theorem exec_ringPop_usb (n : Fin 8) (s : State) : exec (.ringPop .usb n .good) s = .next (portData .usb 0 s) := rfl

theorem exec_ringPop_bus (notReset : s.sys.mode ≠ .reset) (n : Fin 8) :
    exec (.ringPop .bus n .good) s = .next (irqUpdate (ringPop .bus n .good s)) :=
  congrArg Host.Outcome.next (if_neg (by simpa [busSoon] using notReset))

theorem ringPop_of_cons (noLoss : s.ev.rings[n.1].removed = 0) (waits : s.ev.rings[n.1].q = e :: q) (p : Port) :
    ringPop p n .good s = popOut p n (entryWord e) e.data e.ts (setRing n ringPopped s) := by
  simp [ringPop, noLoss, waits, eccFound]

theorem ringPop_of_nil (noLoss : s.ev.rings[n.1].removed = 0) (empty : s.ev.rings[n.1].q = []) (p : Port) (ecc : Ecc) :
    ringPop p n ecc s = popOut p n 0 0 0 s := by
  simp [ringPop, noLoss, empty]

variable (p : Port) (n : Fin 8) (w d : W16) (ts : W32) (s : State)

theorem popOut_ring : (popOut p n w d ts s).ev.rings[n.1] = { s.ev.rings[n.1] with d1 := d, d2 := word0 ts, d3 := word1 ts } :=
  setRing_same n _ s

theorem portData_data : (portData p w s).hb.port[p.ix.1].data = w := congrArg PortRegs.data (setPort_port_same p s _)

theorem popOut_data : (popOut p n w d ts s).hb.port[p.ix.1].data = w := portData_data _ _ _

end Pops

/-! ### Interrupt lines (R450, R451) -/

section Lines

variable {n : Fin 8} {s : State}

theorem ringAged_of_oldest {e : Entry} {q : List Entry} (timed : s.ev.itime ≠ 0) (waits : s.ev.rings[n.1].q = e :: q)
    (old : e.at_ + 1000 * s.ev.itime.toNat ≤ s.now) : ringAged n s = true := by
  simpa [ringAged, waits, old] using timed

theorem ringCond_of_ringAged (enabled : bitOf s.ev.ien n.1 = true) (aged : ringAged n s = true) : ringCond n s = true := by
  simp [ringCond, enabled, aged]

/-- A ring with its condition makes its output line `b` active. -/
theorem line_of_ringCond (cond : ringCond n s = true) {b : Bool} (line : bitOf s.ev.irqsel n.1 = b) :
    ((List.finRange 8).any fun m => bitOf s.ev.irqsel m.1 == b && ringCond m s) = true :=
  List.any_eq_true.mpr ⟨n, List.mem_finRange n, by simp [line, cond]⟩

theorem irqUpdate_hirqa_of_ringCond (cond : ringCond n s = true) (line : bitOf s.ev.irqsel n.1 = false) :
    (irqUpdate s).ev.hirqa = false := congrArg Bool.not (line_of_ringCond cond line)

theorem irqUpdate_hirqb_of_ringCond (cond : ringCond n s = true) (line : bitOf s.ev.irqsel n.1 = true) :
    (irqUpdate s).ev.hirqb = false := congrArg Bool.not (line_of_ringCond cond line)

theorem exec_ringAgeExpiry (notReset : s.sys.mode ≠ .reset) (aged : ringAged n s = true) :
    exec (.ringAgeExpiry n) s = .next (irqUpdate s) :=
  congrArg Host.Outcome.next (if_pos (by simp [notReset, aged]))

end Lines

/-! ### Mismatches (R465) -/

section Mismatches

variable {s : State}

/-- A route-table mismatch within 60 s of the last one. -/
def routeBadAgain (s : State) : Bool := s.ev.routeBad.any fun t => decide (s.now < t + 60000000)

theorem routeBadAgain_of_first (first : s.ev.routeBad = none) : routeBadAgain s = false := by
  rw [routeBadAgain, first, Option.any_none]

theorem routeBadAgain_of_last {t : Nat} (last : s.ev.routeBad = some t) (recent : s.now < t + 60000000) :
    routeBadAgain s = true := by
  rw [routeBadAgain, last, Option.any_some, decide_eq_true recent]

/-- The route table after a mismatch: it reloads until an instant within 1 ms, or the built-in routes are in force. -/
def routeMismatched (s : State) : State :=
  setEv (fun e => { e with
    routeBad := some s.now, routeDefault := e.routeDefault || routeBadAgain s,
    routeBusy := if routeBadAgain s then none else some (s.now + (draw s).1.toNat % 1001) }) (draw s).2

/-- A first mismatch starts a reload that ends within 1 ms; one that comes again puts the built-in routes in force. -/
theorem exec_routeTableMismatch (notReset : s.sys.mode ≠ .reset) (clock : clockSafe s = false) :
    ∃ t til, exec .routeTableMismatch s = .next t ∧ t.ev.routeBad = some s.now ∧
      t.ev.routeDefault = (s.ev.routeDefault || routeBadAgain s) ∧
      t.ev.routeBusy = (if routeBadAgain s then none else some til) ∧ s.now ≤ til ∧ til ≤ s.now + 1000 := by
  have run : exec .routeTableMismatch s = .next (raiseRec 0x1F5 (structWord 3 0) (routeMismatched s)) :=
    congrArg Host.Outcome.next (if_neg (by simp [notReset, clock]))
  have kept := behindFabric_raiseRec (routeMismatched s) 0x1F5 (structWord 3 0)
  have short : (draw s).1.toNat % 1001 ≤ 1000 := by omega
  exact ⟨_, _, run, routeBad_of_behindFabric kept, routeDefault_of_behindFabric kept, routeBusy_of_behindFabric kept,
    Nat.le_add_right _ _, Nat.add_le_add_left short _⟩

/-- A ring that has lost its entries. -/
abbrev ringEmptied (r : Ring) : Ring :=
  { r with q := [], pend := [], drop := r.drop + BitVec.ofNat 16 r.q.length, episode := false, removed := 0, wix := 0 }

theorem exec_ringControlMismatch (notReset : s.sys.mode ≠ .reset) (clock : clockSafe s = false) (n : Fin 8) :
    ∃ t, exec (.ringControlMismatch n) s = .next t ∧ t.ev.rings = (setRing n ringEmptied s).ev.rings := by
  have run : exec (.ringControlMismatch n) s =
      .next (irqUpdate (raiseRec 0x1F5 (structWord 4 n.1) (recovery 6 n.1 (setRing n ringEmptied s)))) :=
    congrArg Host.Outcome.next (if_neg (by simp [notReset, clock]))
  have kept := (behindFabric_raiseRec (recovery 6 n.1 (setRing n ringEmptied s)) 0x1F5 (structWord 4 n.1)).trans
    (behindFabric_recovery _ _ _)
  exact ⟨_, run, (irqUpdate_rings _).trans (rings_of_behindFabric kept)⟩

end Mismatches

/-! ### The statement -/

/-- Settles O36: routing by the class word (`exec_eventFabricWrite_routed`) into a ring with room or without (`ringPut_of_room`,
`ringPut_of_full`), pops (`ringPop_of_cons`, `ringPop_of_nil`), the age condition (`exec_ringAgeExpiry`), and the two mismatches
(`exec_routeTableMismatch`, `exec_ringControlMismatch`), whose reports leave the rings and the routes (`behindFabric_raiseRec`). -/
theorem eventsAreRoutedQueuedAndPopped : Obligations.EventsAreRoutedQueuedAndPopped := by
  unfold Obligations.EventsAreRoutedQueuedAndPopped
  intro s n e q r
  refine ⟨fun code data ts sr sl rest waits notReset clock idle => ⟨?stored, ?overflows⟩,
    fun notReset => ⟨?popped, ?empty⟩, ⟨_, exec_ringPop_usb n s, portData_data .usb 0 s, rfl⟩, ?aged,
    fun notReset clock => ⟨?route, ?control⟩⟩
  case stored =>
    rintro w rfl enabled ring notQ0 noCopy noMarker room
    have ringIs := setRing_same n (ringPut (ts32 s) s.now (eventEntry code data ts sr sl s.now)) s
    rw [ringPut_of_room room] at ringIs
    exact ⟨_, exec_eventFabricWrite_routed notReset clock idle waits ⟨enabled, ring, noCopy⟩ notQ0 noMarker, rfl,
      congrArg Ring.q ringIs, (congrArg Ring.drop ringIs :), fun m other => setRing_other n _ s other, rfl⟩
  case overflows =>
    rintro w rfl enabled ring notQ0 noCopy noMarker full holds fresh
    have ringIs := setRing_same n (ringPut (ts32 s) s.now (eventEntry code data ts sr sl s.now)) s
    rw [ringPut_of_full full holds fresh] at ringIs
    have queueIs := congrArg Ring.q ringIs
    refine ⟨_, exec_eventFabricWrite_routed notReset clock idle waits ⟨enabled, ring, noCopy⟩ notQ0 noMarker,
      (congrArg List.length queueIs).trans List.length_append, congrArg Ring.ovf ringIs, congrArg Ring.drop ringIs,
      (congrArg (fun l => l.getLast?.map fun x => (x.code, x.marker, x.data)) queueIs).trans ?_⟩
    simp [ringPush, overflowMarker]
  case popped =>
    intro noLoss waits noMarker
    have run := exec_ringPop_bus notReset n
    rw [ringPop_of_cons noLoss waits] at run
    have ringIs := popOut_ring .bus n (entryWord e) e.data e.ts (setRing n ringPopped s)
    rw [setRing_same, ringPopped_of_no_marker noMarker, waits] at ringIs
    exact ⟨_, run, congrArg Ring.q ringIs, congrArg Ring.d1 ringIs, congrArg Ring.d2 ringIs, congrArg Ring.d3 ringIs,
      popOut_data .bus n (entryWord e) e.data e.ts (setRing n ringPopped s), rfl⟩
  case empty =>
    intro nothing noLoss
    have run := exec_ringPop_bus notReset n
    rw [ringPop_of_nil noLoss nothing] at run
    exact ⟨_, run, popOut_data .bus n 0 0 0 s, (congrArg Ring.q (popOut_ring .bus n 0 0 0 s)).trans nothing⟩
  case aged =>
    intro notReset enabled timed waits old
    have aged := ringAged_of_oldest timed waits old
    have cond := ringCond_of_ringAged enabled aged
    exact ⟨_, exec_ringAgeExpiry notReset aged, irqUpdate_hirqa_of_ringCond cond, irqUpdate_hirqb_of_ringCond cond,
      irqUpdate_frame s⟩
  case route =>
    obtain ⟨t, til, run, bad, defaults, busy, soon, within⟩ := exec_routeTableMismatch notReset clock
    refine ⟨t, run, bad, fun first => ?_, fun t0 last again => ?_⟩
    · have once : routeBadAgain s = false := routeBadAgain_of_first first
      rw [once] at defaults busy
      exact ⟨defaults.trans (Bool.or_false _), til, busy, soon, within⟩
    · have twice : routeBadAgain s = true := routeBadAgain_of_last last again
      rw [twice] at defaults busy
      exact ⟨defaults.trans (Bool.or_true _), busy⟩
  case control =>
    obtain ⟨t, run, rings⟩ := exec_ringControlMismatch notReset clock n
    have ringIs := setRing_same n ringEmptied s
    rw [← rings] at ringIs
    refine ⟨t, run, congrArg Ring.q ringIs, congrArg Ring.wix ringIs, congrArg Ring.drop ringIs, fun m other => ?_⟩
    rw [rings]
    exact setRing_other n _ s other

end Sys2Proof.Machine
end

section
/-! PROOFS. Every command answers a next state, and what that keeps: the dispatch over the laws under Sys2Proof/Laws/Kept*. -/

namespace Sys2Proof.Machine

open Sys2Proof

/-- Settles O1: the step takes the front command and runs it with the queue's rest. -/
theorem stepRunsFrontCommand : Obligations.StepRunsFrontCommand := fun _ _ _ => rfl

/-- Settles O4: at reset every memory is empty, every output is off and no plan is pending. -/
theorem resetMeetsTheInvariant : Obligations.ResetMeetsTheInvariant := by
  unfold Obligations.ResetMeetsTheInvariant
  decide

/-- No command faults and none is refused. -/
theorem exec_next (i : Instr) (s : State) : ∃ t, exec i s = .next t := by
  cases i <;> exact ⟨_, rfl⟩

/-- Every command but a load keeps the image in force or clears it. -/
theorem exec_kept {c : Image} {q : List Instr} {s : State} (h : Kept c q s.sys.mode true s) (i : Instr)
    (noLoad : ∀ n f, i ≠ .configurationLoad n f) : KeptR c q s.sys.mode true (exec i s) :=
  match i with
  | .powerOnReset => execPowerOnReset_kept h
  | .brownOut _ _ _ => execBrownOut_kept _ _ _ h
  | .rstdLowPulse _ => execRstdLowPulse_kept _ h
  | .resetExit _ _ => execResetExit_kept _ _ h rfl
  | .pllLockTimeout _ => execPllLockTimeout_kept _ h rfl
  | .prove _ _ => execProve_kept _ _ h
  | .configurationLoad n f => absurd rfl (noLoad n f)
  | .safetyTick _ => execSafetyTick_kept _ h
  | .laneSample _ => execLaneSample_kept _ h
  | .headBusy _ => execHeadBusy_kept _ h
  | .standingTimeout _ => execStandingTimeout_kept _ h
  | .walk _ => execWalk_kept _ h
  | .tackRefreshDone _ _ => execTackRefreshDone_kept _ _ h
  | .sectionMaskMismatch _ _ _ => execSectionMaskMismatch_kept _ _ _ h
  | .maskReloadDone _ _ => execMaskReloadDone_kept _ _ h
  | .countCopyMismatch _ _ _ => execCountCopyMismatch_kept _ _ _ h
  | .sectionResetApply => execSectionResetApply_kept h
  | .provingStart _ => execProvingStart_kept _ h
  | .agreementWindowExpiry _ => execAgreementWindowExpiry_kept _ h
  | .burstStart _ => execBurstStart_kept _ h
  | .burstEnd _ _ => execBurstEnd_kept _ _ h
  | .provingOverdue _ => execProvingOverdue_kept _ h
  | .faultCheckExpiry _ => execFaultCheckExpiry_kept _ h
  | .inputFaultClear _ => execInputFaultClear_kept _ h
  | .groupReferenceFault _ => execGroupReferenceFault_kept _ h
  | .proveRequest _ _ => execProveRequest_kept _ _ h
  | .contactSample _ => execContactSample_kept _ h
  | .contactFilterExpiry _ => execContactFilterExpiry_kept _ h
  | .pairDiscrepancyTimeout _ => execPairDiscrepancyTimeout_kept _ h
  | .obPairRecovery _ => execObPairRecovery_kept _ h
  | .tpsPulse _ => execTpsPulse_kept _ h
  | .darkCheck _ _ => execDarkCheck_kept _ _ h
  | .sourceFault _ => execSourceFault_kept _ h
  | .tachEdge _ _ _ => execTachEdge_kept _ _ _ h
  | .tachTimeout _ => execTachTimeout_kept _ h
  | .stoDarkPulse _ _ _ _ => execStoDarkPulse_kept _ _ _ _ h
  | .dcUnlock _ _ => execDcUnlock_kept _ _ h
  | .unlockStageTestDone _ => execUnlockStageTestDone_kept _ h
  | .degradedMinute _ => execDegradedMinute_kept _ h
  | .degradedTimerExpiry _ => execDegradedTimerExpiry_kept _ h
  | .stopSequenceComplete => execStopSequenceComplete_kept h
  | .configureRequest _ => execConfigureRequest_kept _ h
  | .restartRequest _ => execRestartRequest_kept _ h
  | .hostResetRequest _ _ => execHostResetRequest_kept _ _ h
  | .clockWindow _ _ _ => execClockWindow_kept _ _ _ h
  | .pinReadbackSample _ _ => execPinReadbackSample_kept _ _ h
  | .temperatureSafe _ => execTemperatureSafe_kept _ h
  | .copyReceive _ _ => execCopyReceive_kept _ _ h
  | .slotExpiry _ _ => execSlotExpiry_kept _ _ h
  | .lapse _ => execLapse_kept _ h
  | .ethernetCycle => execEthernetCycle_kept h
  | .canCycle => execCanCycle_kept h
  | .ethFrameReceive _ _ => execEthFrameReceive_kept _ _ h
  | .ethTransmitDone _ => execEthTransmitDone_kept _ h
  | .mdioPoll _ _ _ _ => execMdioPoll_kept _ _ _ _ h
  | .portStart => execPortStart_kept h
  | .mdioReadRequest _ _ => execMdioReadRequest_kept _ _ h
  | .mdioReadDone _ _ => execMdioReadDone_kept _ _ h
  | .canFrameReceive _ _ => execCanFrameReceive_kept _ _ h
  | .canTransmitDone _ => execCanTransmitDone_kept _ h
  | .canError _ _ => execCanError_kept _ _ h
  | .busOffRecoveryDone _ => execBusOffRecoveryDone_kept _ h
  | .canRecover _ _ => execCanRecover_kept _ _ h
  | .standbyExit => execStandbyExit_kept h
  | .snoopBlock _ _ => execSnoopBlock_kept _ _ h
  | .ckblkDone _ _ _ => execCkblkDone_kept _ _ _ h
  | .ckSelfTest _ _ => execCkSelfTest_kept _ _ h
  | .ckSelfTestOverdue _ => execCkSelfTestOverdue_kept _ h
  | .eventFabricWrite => execEventFabricWrite_kept h
  | .ringPop _ _ _ _ => execRingPop_kept _ _ _ _ h
  | .ringAgeExpiry _ => execRingAgeExpiry_kept _ h
  | .routeTableMismatch => execRouteTableMismatch_kept h
  | .ringControlMismatch _ => execRingControlMismatch_kept _ h
  | .ledgerAppend _ => execLedgerAppend_kept _ h
  | .retirementDone => execRetirementDone_kept h
  | .appendEngineTimeout _ => execAppendEngineTimeout_kept _ h
  | .faultCellMinute _ => execFaultCellMinute_kept _ h
  | .vaultWrite _ => execVaultWrite_kept _ h
  | .vaultWearMove => execVaultWearMove_kept h
  | .passwordBufferWrite _ _ => execPasswordBufferWrite_kept _ _ h
  | .login _ _ => execLogin_kept _ _ h
  | .logout _ _ => execLogout_kept _ _ h
  | .setpwd _ _ _ _ => execSetpwd_kept _ _ _ _ h
  | .clearstage _ _ => execClearstage_kept _ _ h
  | .clearstageDone => execClearstageDone_kept h
  | .commitImage _ _ _ => execCommitImage_kept _ _ _ h
  | .loginTimeout _ => execLoginTimeout_kept _ h
  | .loginLockExpiry => execLoginLockExpiry_kept h
  | .chunkOpen _ _ => execChunkOpen_kept _ _ h
  | .chunkData _ _ => execChunkData_kept _ _ h
  | .chunkComplete _ _ _ => execChunkComplete_kept _ _ _ h
  | .fetchLedgerRecord _ _ => execFetchLedgerRecord_kept _ _ h
  | .fetchFaultCell _ _ => execFetchFaultCell_kept _ _ h
  | .fetchChangeLogEntry _ _ => execFetchChangeLogEntry_kept _ _ h
  | .lgRdataRead _ _ => execLgRdataRead_kept _ _ h
  | .faultCellClear _ _ => execFaultCellClear_kept _ _ h
  | .readVerify _ => execReadVerify_kept _ h
  | .burnishRead _ _ _ => execBurnishRead_kept _ _ _ h
  | .rowStitchDone => execRowStitchDone_kept h
  | .stitchMapAppend _ _ _ => execStitchMapAppend_kept _ _ _ h
  | .burnishOverrun _ => execBurnishOverrun_kept _ h
  | .telemetrySample _ _ => execTelemetrySample_kept _ _ h
  | .telemetrySelect _ _ => execTelemetrySelect_kept _ _ h
  | .telemetryRead _ _ => execTelemetryRead_kept _ _ h
  | .scanStart => execScanStart_kept h
  | .interruptEntry => execInterruptEntry_kept h
  | .cantleTimerExpiry => execCantleTimerExpiry_kept h
  | .instructionRewriteDone _ => execInstructionRewriteDone_kept _ h
  | .addR _ _ _ _ => execAddR_kept _ _ _ _ h
  | .subR _ _ _ _ => execSubR_kept _ _ _ _ h
  | .andR _ _ _ _ => execAndR_kept _ _ _ _ h
  | .orR _ _ _ _ => execOrR_kept _ _ _ _ h
  | .xorR _ _ _ _ => execXorR_kept _ _ _ _ h
  | .sll _ _ _ _ => execSll_kept _ _ _ _ h
  | .srl _ _ _ _ => execSrl_kept _ _ _ _ h
  | .sra _ _ _ _ => execSra_kept _ _ _ _ h
  | .slt _ _ _ _ => execSlt_kept _ _ _ _ h
  | .sltu _ _ _ _ => execSltu_kept _ _ _ _ h
  | .mul _ _ _ _ => execMul_kept _ _ _ _ h
  | .addi _ _ _ => execAddi_kept _ _ _ h
  | .andi _ _ _ => execAndi_kept _ _ _ h
  | .ori _ _ _ => execOri_kept _ _ _ h
  | .xori _ _ _ => execXori_kept _ _ _ h
  | .slti _ _ _ => execSlti_kept _ _ _ h
  | .sltiu _ _ _ => execSltiu_kept _ _ _ h
  | .slli _ _ _ _ => execSlli_kept _ _ _ _ h
  | .srli _ _ _ _ => execSrli_kept _ _ _ _ h
  | .srai _ _ _ _ => execSrai_kept _ _ _ _ h
  | .lui _ _ _ => execLui_kept _ _ _ h
  | .lw _ _ _ _ => execLw_kept _ _ _ _ h
  | .lh _ _ _ _ => execLh_kept _ _ _ _ h
  | .lhu _ _ _ _ => execLhu_kept _ _ _ _ h
  | .lb _ _ _ _ => execLb_kept _ _ _ _ h
  | .lbu _ _ _ _ => execLbu_kept _ _ _ _ h
  | .sw _ _ _ _ => execSw_kept _ _ _ _ h
  | .sh _ _ _ _ => execSh_kept _ _ _ _ h
  | .sb _ _ _ _ => execSb_kept _ _ _ _ h
  | .beq _ _ _ => execBeq_kept _ _ _ h
  | .bne _ _ _ => execBne_kept _ _ _ h
  | .blt _ _ _ => execBlt_kept _ _ _ h
  | .bge _ _ _ => execBge_kept _ _ _ h
  | .bltu _ _ _ => execBltu_kept _ _ _ h
  | .bgeu _ _ _ => execBgeu_kept _ _ _ h
  | .jal _ _ => execJal_kept _ _ h
  | .jalr _ _ _ => execJalr_kept _ _ _ h
  | .loopH _ _ _ => execLoopH_kept _ _ _ h
  | .ckinit _ _ => execCkinit_kept _ _ h
  | .ckset _ _ _ => execCkset_kept _ _ _ h
  | .ckexp _ _ _ => execCkexp_kept _ _ _ h
  | .ckfeed _ _ _ _ => execCkfeed_kept _ _ _ _ h
  | .ckblk _ _ _ _ _ => execCkblk_kept _ _ _ _ _ h
  | .ckget _ _ _ _ => execCkget_kept _ _ _ _ h
  | .ckfin _ _ _ _ => execCkfin_kept _ _ _ _ h
  | .ckcmp _ _ _ _ _ => execCkcmp_kept _ _ _ _ _ h
  | .mfs _ _ _ => execMfs_kept _ _ _ h
  | .mts _ _ _ => execMts_kept _ _ _ h
  | .rth _ => execRth_kept _ h
  | .scanw _ => execScanw_kept _ h
  | .waitd _ => execWaitd_kept _ h
  | .brk _ _ => execBrk_kept _ _ h
  | .vtPut _ => execVtPut_kept _ h
  | .vtGet _ => execVtGet_kept _ h
  | .mailboxSend _ _ => execMailboxSend_kept _ _ h
  | .mailboxAck _ _ => execMailboxAck_kept _ _ h
  | .cantleHalt _ _ => execCantleHalt_kept _ _ h
  | .cantleRestart _ _ => execCantleRestart_kept _ _ h
  | .cantleReloadDone => execCantleReloadDone_kept h
  | .debugFrame _ => execDebugFrame_kept _ h
  | .debugFrameReset _ => execDebugFrameReset_kept _ h
  | .sessionOpen _ _ => execSessionOpen_kept _ _ h
  | .sessionClose _ _ => execSessionClose_kept _ _ h
  | .sessionTimeout => execSessionTimeout_kept h
  | .debugStop _ _ => execDebugStop_kept _ _ h
  | .debugResume _ _ => execDebugResume_kept _ _ h
  | .debugStep _ _ => execDebugStep_kept _ _ h
  | .debugRegisterAccess _ _ _ => execDebugRegisterAccess_kept _ _ _ h
  | .debugMemoryAccess _ _ _ _ => execDebugMemoryAccess_kept _ _ _ _ h
  | .debugWithdraw _ _ => execDebugWithdraw_kept _ _ h
  | .withdrawCopyMismatch => execWithdrawCopyMismatch_kept h
  | .vtOutputRead _ => execVtOutputRead_kept _ h
  | .vtInputWrite _ _ => execVtInputWrite_kept _ _ h
  | .registerWrite _ _ _ _ => execRegisterWrite_kept _ _ _ _ h
  | .strobeConflict => execStrobeConflict_kept h
  | .snapshotRead _ _ _ => execSnapshotRead_kept _ _ _ h
  | .ownerClaim _ _ => execOwnerClaim_kept _ _ h
  | .ownerRelease _ v => execOwnerRelease_kept _ v h
  | .ownerForce _ _ => execOwnerForce_kept _ _ h
  | .getStatus _ => execGetStatus_kept _ h
  | .clearFeature _ => execClearFeature_kept _ h
  | .setFeature _ => execSetFeature_kept _ h
  | .setAddress _ => execSetAddress_kept _ h
  | .getDescriptor _ => execGetDescriptor_kept _ h
  | .getConfiguration _ => execGetConfiguration_kept _ h
  | .setConfiguration _ => execSetConfiguration_kept _ h
  | .getInterface _ => execGetInterface_kept _ h
  | .setInterface _ => execSetInterface_kept _ h
  | .getInfo _ => execGetInfo_kept _ h
  | .readRegs _ => execReadRegs_kept _ h
  | .writeRegs _ _ => execWriteRegs_kept _ _ h
  | .getLast _ => execGetLast_kept _ h
  | .usbLogin _ => execUsbLogin_kept _ h
  | .usbLogout _ => execUsbLogout_kept _ h
  | .usbSetpwd _ _ _ => execUsbSetpwd_kept _ _ _ h
  | .usbClearstage _ => execUsbClearstage_kept _ h
  | .stage _ _ => execStage_kept _ _ h
  | .usbCommit _ _ => execUsbCommit_kept _ _ h
  | .commitStatus _ => execCommitStatus_kept _ h
  | .logStart _ => execLogStart_kept _ h
  | .logStop _ => execLogStop_kept _ h
  | .downloadInToken _ _ => execDownloadInToken_kept _ _ h
  | .usbUnlock _ => execUsbUnlock_kept _ h
  | .resetDevice _ => execResetDevice_kept _ h
  | .usbBusReset => execUsbBusReset_kept h
  | .vbusChange _ => execVbusChange_kept _ h
  | .usbSuspend => execUsbSuspend_kept h
  | .eraseAhead _ _ => execEraseAhead_kept _ _ h
  | .usbResume => execUsbResume_kept h

theorem moves_refl (m : Mode) : moves m m = true := by cases m <;> rfl

/-- A state of the invariant keeps itself. -/
theorem Inv.kept {s : State} (h : Inv s) : Kept s.cfg s.pending s.sys.mode true s := by
  obtain ⟨mems, off, plans⟩ := h
  exact ⟨.inl rfl, rfl, moves_refl _, mems, fun _ => off, plans⟩

/-- From a state of the invariant every command keeps the queue and the invariant; a load puts another image in force. -/
theorem exec_kept_of_inv {i : Instr} {s t : State} (h : Inv s) (run : exec i s = .next t) :
    ∃ c, Kept c s.pending s.sys.mode true t := by
  suffices ∃ c, KeptR c s.pending s.sys.mode true (exec i s) by rwa [run] at this
  by_cases load : ∃ n f, i = .configurationLoad n f
  · obtain ⟨n, f, rfl⟩ := load
    exact execConfigurationLoad_kept n f h.kept
  · exact ⟨_, exec_kept h.kept i fun n f e => load ⟨n, f, e⟩⟩

/-- Settles O5: each arm of `exec` answers a next state, and `Kept` holds the queue. -/
theorem everyCommandAnswersANextState : Obligations.EveryCommandAnswersANextState := by
  intro i s
  obtain ⟨t, run⟩ := exec_next i s
  refine ⟨t, run, fun inv => ?_⟩
  obtain ⟨c, kept⟩ := exec_kept_of_inv inv run
  exact kept.queue

/-- Settles O8: `Kept` holds the outputs off unless the state is in service. -/
theorem outputsAreOffOutsideService : Obligations.OutputsAreOffOutsideService := by
  intro i s t inv run notOperate notDegraded
  obtain ⟨c, kept⟩ := exec_kept_of_inv inv run
  rcases kept.off rfl with inside | ⟨berths, ⟨psiB, psiAll, chans⟩, safeLow, lifeLow⟩
  · simp [inService, notOperate, notDegraded] at inside
  · exact ⟨safeLow, lifeLow, berths, fun c => (chans c).2, psiB, psiAll⟩

end Sys2Proof.Machine
end

section
/-! PROOFS. The instruction at X (chapters 15 and 16): an instruction that nothing stands before runs its effect, and completes where
no debug stop stands at its boundary. -/

namespace Sys2Proof.Machine

open Sys2Proof

/-! ### What stands before an instruction, and at its boundary -/

/-- No debug stop stands at the boundary of an instruction (R628, R629, R631). -/
def NoStop (d : Db) : Prop := d.mon = false ∧ d.stepping = false ∧ (d.session.isSome && d.monEn && d.stopReq) = false

/-- The instruction at PC runs: nothing stands before it (R559, R632), and no debug stop after it. -/
structure Reaches (s : State) : Prop where
  atX_eq : ∀ f, atX f s = f s
  noStop : NoStop s.db

section Boundary

variable {s : State}

theorem setDb_of_db_eq {f : Db → Db} (h : f s.db = s.db) : setDb f s = s := by simp only [setDb, h]

theorem clearSkip_of_noSkip (h : s.db.skipBp = false) (b : Bool) : setDb (fun d => { d with skipBp := d.skipBp && b }) s = s :=
  setDb_of_db_eq (by rw [h, Bool.false_and, ← h])

theorem atX_of_noBreak (running : s.cs.state = .running) (moving : s.cs.stalled = false) (noInt : intSource s = none)
    (noSkip : s.db.skipBp = false) (noBp : monOn s = false ∨ bpAt s.cs.pc s = none) (f : State → State) : atX f s = f s := by
  have free : (if (monOn s && !(s.db.skipBp && s.cs.pc = s.db.pc)) = true then bpAt s.cs.pc s else none) = none := by
    rcases noBp with off | none
    · rw [off, Bool.false_and, if_neg Bool.false_ne_true]
    · rw [none, ite_self]
  simp only [atX, running, moving, noInt, free, clearSkip_of_noSkip noSkip, ne_eq, not_true_eq_false, if_false,
    Bool.false_eq_true]

theorem Fetches.reaches (h : Fetches s) : Reaches s := by
  obtain ⟨running, moving, noInt, noSession, noMon, noStep, noSkip⟩ := h
  exact ⟨atX_of_noBreak running moving noInt noSkip (.inl (by simp [monOn, noSession])), noMon, noStep, by simp [noSession]⟩

theorem FetchesMon.reaches (h : FetchesMon s) : Reaches s := by
  obtain ⟨running, moving, noInt, -, -, noMon, noStep, noSkip, noStop, noBp, -⟩ := h
  exact ⟨atX_of_noBreak running moving noInt noSkip (.inr noBp), noMon, noStep, by simp [noStop]⟩

theorem boundary_of_noStop (h : NoStop s.db) (hl0 : Bool) : boundary hl0 none s = s := by
  obtain ⟨mon, step, stop⟩ := h
  simp [boundary, monOn, mon, step, stop]

theorem frozen_of_noMon (h : s.db.mon = false) (i : Nat) : frozen i s = false := by simp [frozen, h]

theorem clocks_of_noMon (h : s.db.mon = false) (k : Nat) :
    clocks k s = setCs (fun c => { c with cycle := c.cycle + BitVec.ofNat 32 k }) s := by
  simp [clocks, frozen_of_noMon h]

theorem stepPc_of_straight (h : Straight s) : stepPc s = setCs (fun c => { c with pc := c.pc + 4 }) s := by
  rw [stepPc, if_neg (by simpa using h)]

/-- An instruction ends in its clocks, with no debug stop at its boundary. -/
theorem end_of_noStop (h : NoStop s.db) (hl0 : Bool) (k : Nat) :
    boundary hl0 none (clocks k s) = setCs (fun c => { c with cycle := c.cycle + BitVec.ofNat 32 k }) s := by
  rw [clocks_of_noMon h.1, boundary_of_noStop (by exact h)]

/-- An instruction that is not the last of a loop completes with its effect, the next PC and its clocks. -/
theorem complete_of_straight {f : State → State} (noStop : NoStop (f s).db) (straight : Straight (f s)) (k : Nat) :
    complete k f s = setCs (fun c => { c with pc := c.pc + 4, cycle := c.cycle + BitVec.ofNat 32 k }) (f s) := by
  rw [complete, stepPc_of_straight straight]
  exact end_of_noStop (by exact noStop) _ k

end Boundary

/-! ### Registers (R580) -/

section Registers

variable (d r : BitVec 4) (v : W32) (s : State)

theorem setG_frame : setG d v s = { s with cs := { s.cs with g := (setG d v s).cs.g } } := by
  unfold setG
  split <;> rfl

@[simp] theorem setG_db : (setG d v s).db = s.db := by rw [setG_frame]

theorem straight_setG : Straight (setG d v s) ↔ Straight s := by rw [setG_frame]

theorem gr_setG : gr r (setG d v s) = if r = d ∧ d ≠ 0 then v else gr r s := by
  by_cases zero : d = 0
  · rw [setG, if_pos zero, if_neg fun h => h.2 zero]
  · rw [setG, if_neg zero]
    by_cases same : r = d
    · subst same
      rw [gr, if_neg zero, if_pos ⟨rfl, zero⟩]
      exact Vector.getElem_set_self _
    · rw [if_neg fun h => same h.1]
      have other : d.toNat ≠ r.toNat := fun e => same (BitVec.eq_of_toNat_eq e.symm)
      simp only [gr, setCs, Vector.getElem_set_ne _ _ other]

end Registers

/-! ### Instructions with a result, and traps -/

section Instructions

variable {i : Instr} {s : State} {f : State → State} {k : Nat} {d : BitVec 4} {v : W32}

/-- An instruction that writes its result and completes. -/
theorem computes_of_run (fetches : Fetches s) (straight : Straight s) (run : exec i s = .next (complete k (setG d v) s)) :
    Computes s i k d v := by
  have done := complete_of_straight (f := setG d v) (by rw [setG_db]; exact fetches.reaches.noStop)
    ((straight_setG d v s).2 straight) k
  refine ⟨_, run.trans (congrArg _ done), fun r => gr_setG d r v s, ?_⟩
  rw [setG_frame]
  rfl

theorem computes_of_complete (fetches : Fetches s) (straight : Straight s) (run : exec i s = .next (atX f s))
    (effect : f s = complete k (setG d v) s) : Computes s i k d v :=
  computes_of_run fetches straight (run.trans (congrArg _ ((fetches.reaches.atX_eq f).trans effect)))

/-- The state that a trap enters, before its event (R560). -/
def trapped (code : Nat) (addr : W32) (s : State) : State :=
  setCs (fun c => { c with
    retpc := c.pc, tkind := inLoop s + BitVec.ofNat 32 code, taddr := addr.setWidth 20, hl := true, pc := s.cfg.seqr.vbase,
    cycle := c.cycle + 4, excCnt := satInc c.excCnt, lastExc := BitVec.ofNat 4 code, excPc := c.pc,
    excAddr := addr.setWidth 20, excAt := if limitOk 100000 c.excAt s.now then some s.now else c.excAt }) s

theorem exception_eq {addr : W32} (code : Nat) (outside : s.cs.hl = false) (noMon : s.db.mon = false) :
    exception code addr s = if limitOk 100000 s.cs.excAt s.now then
      raise 0x1F9 (pack [(0, code), (4, s.cs.pc.toNat / 16)]) (trapped code addr s) else trapped code addr s := by
  simp only [exception, outside, clocks_of_noMon noMon, Bool.false_eq_true, if_false, Bool.false_or]
  rfl

/-- The trap of an exception outside a handler (R560). -/
theorem exception_parts {addr : W32} (code : Nat) (outside : s.cs.hl = false) (noMon : s.db.mon = false) :
    ∃ e, exception code addr s = { trapped code addr s with ev := e } := by
  rw [exception_eq code outside noMon]
  split
  · exact raise_frame _ _ _
  · exact ⟨_, rfl⟩

/-- An instruction that raises an exception outside a handler traps. -/
theorem traps_of_run {code : Nat} {addr : W32} (fetches : Fetches s) (outside : s.cs.hl = false)
    (run : exec i s = .next (exception code addr s)) : Traps s i code addr := by
  obtain ⟨e, trap⟩ := exception_parts (addr := addr) code outside fetches.reaches.noStop.1
  exact ⟨_, run.trans (congrArg _ trap), rfl, rfl, rfl, rfl, rfl, rfl, rfl, rfl, rfl⟩

theorem traps_of_exception {code : Nat} {addr : W32} (fetches : Fetches s) (outside : s.cs.hl = false)
    (run : exec i s = .next (atX f s)) (effect : f s = exception code addr s) : Traps s i code addr :=
  traps_of_run fetches outside (run.trans (congrArg _ ((fetches.reaches.atX_eq f).trans effect)))

end Instructions

/-! ### Arithmetic (Table CI-3) -/

theorem flag_slt (x y : W32) : flag (x.slt y) = if x.toInt < y.toInt then 1 else 0 := by simp [flag, BitVec.slt]

theorem flag_ult (x y : W32) : flag (x.ult y) = if x.toNat < y.toNat then 1 else 0 := by simp [flag, BitVec.ult]

theorem toInt_sx18 (imm : BitVec 18) : (sx18 imm).toInt = imm.toInt := BitVec.toInt_signExtend_of_le (by decide)

/-- Settles O43: each instruction's effect is the write of its result (`computes_of_complete`). -/
theorem cantleArithmeticWritesItsResult : Obligations.CantleArithmeticWritesItsResult := by
  intro s d a b imm sh hi fetches straight
  have signedImm : (if (gr a s).toInt < imm.toInt then (1 : W32) else 0) = flag ((gr a s).slt (sx18 imm)) := by
    rw [flag_slt, toInt_sx18]
  rw [← flag_slt, ← flag_ult, signedImm, ← flag_ult]
  refine ⟨?_, ?_, ?_, ?_, ?_, ?_, ?_, ?_, ?_, ?_, ?_, ?_, ?_, ?_, ?_, ?_, ?_, ?_, ?_, ?_, ?_⟩
  all_goals exact computes_of_complete fetches straight rfl rfl

/-- Settles O44: each form answers ILLEGAL at X (`traps_of_exception`). -/
theorem cantleReservedFieldsTrapAsIllegal : Obligations.CantleReservedFieldsTrapAsIllegal := by
  intro s d a b u sh hi sz code cmp x fetches outside
  simp only [List.forall_mem_cons]
  refine ⟨?_, ?_, ?_, ?_, ?_, ?_, ?_, ?_, ?_, ?_, ?_, ?_, ?_, ?_, ?_, ?_, ?_, ?_, ?_, ?_, ?_, ?_, ?_, ?_, ?_, ?_, ?_, ?_, ?_, ?_,
    traps_of_exception fetches outside rfl (if_pos (.inr (by simp [outside]))), fun _ h => absurd h List.not_mem_nil⟩
  all_goals exact traps_of_exception fetches outside rfl rfl

end Sys2Proof.Machine
end

section
/-! PROOFS. Branches and jumps (R591 to R593), and the hardware loop (R595 to R597). -/

namespace Sys2Proof.Machine

open Sys2Proof

/-! ### Targets -/

section Targets

variable {pc tgt : BitVec 16} {z : Int}

theorem target_eq_ofInt {n : Nat} (off : BitVec n) (pc : BitVec 16) :
    pc.setWidth 32 + 4 * off.signExtend 32 = BitVec.ofInt 32 (pc.toNat + 4 * off.toInt) := by
  rw [BitVec.ofInt_add, BitVec.ofInt_mul, BitVec.ofInt_natCast, BitVec.ofNat_toNat]
  rfl

theorem toNat_target (h : z = tgt.toNat) : (BitVec.ofInt 32 z).toNat = tgt.toNat := by
  have := tgt.isLt
  rw [h, BitVec.ofInt_natCast, BitVec.toNat_ofNat, Nat.mod_eq_of_lt (by omega)]

/-- A target outside instruction memory stays outside as a word. -/
theorem le_toNat_target (h : z < 0 ∨ 0x10000 ≤ z) (low : -0x1000000 ≤ z) (high : z < 0x1000000) :
    0x10000 ≤ (BitVec.ofInt 32 z).toNat := by
  rw [BitVec.toNat_ofInt]
  omega

theorem offset_bounds {n : Nat} (off : BitVec n) (h : n ≤ 22) : -0x200000 ≤ off.toInt ∧ off.toInt < 0x200000 := by
  have wide : (2 : Int) ^ n ≤ 2 ^ 22 := by exact_mod_cast Nat.pow_le_pow_right (by decide) h
  have low := BitVec.le_two_mul_toInt (x := off)
  have high := BitVec.two_mul_toInt_lt (x := off)
  omega

theorem target_bounds {n : Nat} (off : BitVec n) (h : n ≤ 22) (pc : BitVec 16) :
    -0x1000000 ≤ (pc.toNat : Int) + 4 * off.toInt ∧ (pc.toNat : Int) + 4 * off.toInt < 0x1000000 := by
  have := offset_bounds off h
  have := pc.isLt
  omega

end Targets

/-! ### Jumps (R592, R593) -/

section Jumps

variable {i : Instr} {s : State} {target : W32} {tgt : BitVec 16} {link f : State → State} {d : BitVec 4}

theorem jump_good (noStop : NoStop (link s).db) (good : target.toNat = tgt.toNat) (aligned : tgt.toNat % 4 = 0) :
    jump target link s = setCs (fun c => { c with pc := tgt, cycle := c.cycle + 3 }) (link s) := by
  have inside : ¬(0x10000 ≤ target.toNat ∨ target.toNat % 4 ≠ 0) := by have := tgt.isLt; omega
  have low : target.setWidth 16 = tgt := BitVec.eq_of_toNat_eq (by
    rw [BitVec.toNat_setWidth, good, Nat.mod_eq_of_lt tgt.isLt])
  rw [jump, if_neg inside, low]
  exact end_of_noStop (by exact noStop) _ 3

theorem jump_bad (bad : 0x10000 ≤ target.toNat ∨ target.toNat % 4 ≠ 0) : jump target link s = exception 2 target s := if_pos bad

/-- A jump without a link goes to its target in three clocks. -/
theorem goesTo_of_jump (fetches : Fetches s) (run : exec i s = .next (atX f s)) (effect : f s = jump target id s)
    (good : target.toNat = tgt.toNat) (aligned : tgt.toNat % 4 = 0) : GoesTo s i tgt 3 :=
  run.trans (congrArg _ ((fetches.reaches.atX_eq f).trans
    (effect.trans (jump_good (link := id) fetches.reaches.noStop good aligned))))

/-- An instruction without an effect goes on at the next one. -/
theorem goesTo_of_complete (fetches : Fetches s) (straight : Straight s) (run : exec i s = .next (atX f s)) {k : Nat}
    (effect : f s = complete k id s) : GoesTo s i (s.cs.pc + 4) k :=
  run.trans (congrArg _ ((fetches.reaches.atX_eq f).trans
    (effect.trans (complete_of_straight (f := id) fetches.reaches.noStop straight k))))

/-- A jump with a link writes it and goes to its target in three clocks. -/
theorem links_of_jump (fetches : Fetches s) (run : exec i s = .next (atX f s))
    (effect : f s = jump target (setG d (s.cs.pc.setWidth 32 + 4)) s) (good : target.toNat = tgt.toNat)
    (aligned : tgt.toNat % 4 = 0) : Links s i d tgt := by
  have jumped := jump_good (link := setG d (s.cs.pc.setWidth 32 + 4)) (s := s)
    (by rw [setG_db]; exact fetches.reaches.noStop) good aligned
  refine ⟨_, run.trans (congrArg _ ((fetches.reaches.atX_eq f).trans (effect.trans jumped))), fun r => gr_setG d r _ s, ?_⟩
  rw [setG_frame]
  rfl

/-- A jump outside instruction memory traps as ADDRESS. -/
theorem traps_of_jump (fetches : Fetches s) (outside : s.cs.hl = false) (run : exec i s = .next (atX f s))
    (effect : f s = jump target link s) (bad : 0x10000 ≤ target.toNat ∨ target.toNat % 4 ≠ 0) : Traps s i 2 target :=
  traps_of_exception fetches outside run (effect.trans (jump_bad bad))

end Jumps

/-! ### Branches (R591) -/

/-- What a branch does by its condition `c`. -/
def Branches (s : State) (i : Instr) (c : Bool) (off : BitVec 18) : Prop :=
  (c = false → GoesTo s i (s.cs.pc + 4) 1) ∧
  (c = true → ∀ tgt : BitVec 16, (s.cs.pc.toNat : Int) + 4 * off.toInt = tgt.toNat → tgt.toNat % 4 = 0 → GoesTo s i tgt 3) ∧
  (c = true → s.cs.hl = false → (s.cs.pc.toNat : Int) + 4 * off.toInt < 0 ∨ 0x10000 ≤ (s.cs.pc.toNat : Int) + 4 * off.toInt →
    Traps s i 2 (BitVec.ofInt 32 (s.cs.pc.toNat + 4 * off.toInt)))

section Branches

variable {i : Instr} {s : State} {a b : BitVec 4} {off : BitVec 18} {p : W32 → W32 → Bool} {c : Bool}

theorem branches_of_branch (fetches : Fetches s) (straight : Straight s) (run : exec i s = branch a b off p s)
    (cond : p (gr a s) (gr b s) = c) : Branches s i c off := by
  have target := target_eq_ofInt off s.cs.pc
  refine ⟨fun fails => ?_, fun holds tgt inside aligned => ?_, fun holds outside bad => ?_⟩
  · exact goesTo_of_complete fetches straight run (if_neg (by rw [cond, fails]; exact Bool.false_ne_true))
  · exact goesTo_of_jump fetches run (if_pos (cond.trans holds))
      ((congrArg BitVec.toNat target).trans (toNat_target inside)) aligned
  · have bounds := target_bounds off (by decide) s.cs.pc
    rw [← target]
    refine traps_of_jump (link := id) fetches outside run (if_pos (cond.trans holds)) (.inl ?_)
    exact (congrArg BitVec.toNat target).symm ▸ le_toNat_target bad bounds.1 bounds.2

end Branches

/-- Settles O47: a branch is a jump where its condition holds (`branches_of_branch`), and a jump links or traps by its target. -/
theorem cantleBranchesAndJumpsSetThePc : Obligations.CantleBranchesAndJumpsSetThePc := by
  intro s d a b off joff imm fetches straight
  have jalTarget := target_eq_ofInt joff s.cs.pc
  refine ⟨?_, fun tgt inside aligned => ?_, fun outside bad => ?_, fun tgt inside aligned => ?_, fun outside bad => ?_⟩
  · simp only [List.forall_mem_cons]
    refine ⟨?_, ?_, ?_, ?_, ?_, ?_, fun _ h => absurd h List.not_mem_nil⟩
    · exact branches_of_branch fetches straight rfl (beq_eq_decide _ _)
    · exact branches_of_branch fetches straight rfl (by rw [bne, beq_eq_decide, decide_not])
    · exact branches_of_branch fetches straight rfl rfl
    · exact branches_of_branch (p := fun x y => !x.slt y) fetches straight rfl (by simp only [BitVec.slt, ← decide_not, not_lt])
    · exact branches_of_branch fetches straight rfl rfl
    · exact branches_of_branch (p := fun x y => !x.ult y) fetches straight rfl (by simp only [BitVec.ult, ← decide_not, not_lt])
  · exact links_of_jump fetches rfl rfl ((congrArg BitVec.toNat jalTarget).trans (toNat_target inside)) aligned
  · have bounds := target_bounds joff (by decide) s.cs.pc
    rw [← jalTarget]
    refine traps_of_jump fetches outside rfl rfl (.inl ?_)
    exact (congrArg BitVec.toNat jalTarget).symm ▸ le_toNat_target bad bounds.1 bounds.2
  · exact links_of_jump fetches rfl rfl inside aligned
  · exact traps_of_jump fetches outside rfl rfl bad.symm

/-! ### The hardware loop (R595 to R597) -/

section Loop

variable {s : State} {f : State → State} {len : BitVec 16}

/-- No ILLEGAL stands against a LOOP outside a handler and outside a loop with a length of 1 to 16383 (R595). -/
theorem loopH_legal (unlooped : s.cs.lcount = 0) (outside : s.cs.hl = false) (short : 1 ≤ len.toNat) (long : len.toNat ≤ 16383) :
    ¬((false : Bool) = true ∨ len = 0 ∨ 16383 < len.toNat ∨ s.cs.lcount ≠ 0 ∨ s.cs.hl = true) := by
  rintro (h | rfl | h | h | h)
  · exact Bool.false_ne_true h
  · exact absurd short (by decide)
  · omega
  · exact h unlooped
  · exact Bool.false_ne_true (outside.symm.trans h)

theorem loopH_illegal (bad : s.cs.lcount ≠ 0 ∨ len = 0 ∨ 16383 < len.toNat) :
    (false : Bool) = true ∨ len = 0 ∨ 16383 < len.toNat ∨ s.cs.lcount ≠ 0 ∨ s.cs.hl = true := by
  tauto

/-- The last instruction of a loop turns back to LSTART while passes remain (R597). -/
theorem complete_turns (noStop : NoStop (f s).db) (last : (f s).cs.pc = (f s).cs.lend) (outside : (f s).cs.hl = false)
    (more : 1 < (f s).cs.lcount.toNat) :
    complete 1 f s = setCs (fun c => { c with lcount := c.lcount - 1, pc := c.lstart, cycle := c.cycle + 3 }) (f s) := by
  have loops : (f s).cs.lcount ≠ 0 := fun e => by simp [e] at more
  have remain : (f s).cs.lcount - 1 ≠ 0 := by bv_omega
  have step : stepPc (f s) = clocks 2 (setCs (fun c => { c with lcount := (f s).cs.lcount - 1, pc := c.lstart }) (f s)) :=
    (if_pos ⟨last, loops, by simp [outside]⟩).trans (if_neg remain)
  rw [clocks_of_noMon (by exact noStop.1)] at step
  rw [complete, step, end_of_noStop (by exact noStop)]
  simp only [setCs, BitVec.add_assoc]
  rfl

/-- The last pass of a loop goes on at the next instruction (R597). -/
theorem complete_ends (noStop : NoStop (f s).db) (last : (f s).cs.pc = (f s).cs.lend) (outside : (f s).cs.hl = false)
    (one : (f s).cs.lcount = 1) :
    complete 1 f s = setCs (fun c => { c with lcount := 0, pc := c.pc + 4, cycle := c.cycle + 1 }) (f s) := by
  have step : stepPc (f s) = setCs (fun c => { c with lcount := 0, pc := c.pc + 4 }) (f s) := by
    refine (if_pos ⟨last, by simp [one], by simp [outside]⟩).trans ((if_pos (by simp [one])).trans ?_)
    simp [one]
  rw [complete, step]
  exact end_of_noStop (by exact noStop) _ 1

end Loop

/-- Settles O48: LOOP's cases are those of its effect, and ADDI at LEND completes as `complete_turns` and `complete_ends` say. -/
theorem loopSetsUpAndRunsTheHardwareLoop : Obligations.LoopSetsUpAndRunsTheHardwareLoop := by
  intro s d a c imm len fetches outside last
  have quiet := fetches.reaches.noStop
  have addi : exec (.addi d a imm) s = .next (complete 1 (setG d (gr a s + imm.signExtend 32)) s) :=
    congrArg _ (fetches.reaches.atX_eq _)
  have setDb : (setG d (gr a s + imm.signExtend 32) s).db = s.db := setG_db _ _ _
  have written := fun r => gr_setG d r (gr a s + imm.signExtend 32) s
  have frame := setG_frame d (gr a s + imm.signExtend 32) s
  refine ⟨fun unlooped short long => ?_, fun bad => ?_, fun atEnd more => ?_, fun atEnd one => ?_⟩
  · have legal := loopH_legal unlooped outside short long
    refine ⟨fun inside counts => ?_, fun inside aligned zero => ?_, fun beyond => ?_⟩
    · exact (congrArg _ (fetches.reaches.atX_eq _)).trans (congrArg _ ((if_neg legal).trans ((if_neg (by omega)).trans
        ((if_neg counts).trans (end_of_noStop (by exact quiet) _ 1)))))
    · have target : (BitVec.ofNat 32 (last + 4)).toNat = (BitVec.ofNat 16 (last + 4)).toNat := by
        simp only [BitVec.toNat_ofNat]
        omega
      refine goesTo_of_jump fetches rfl ((if_neg legal).trans ((if_neg (by omega)).trans (if_pos zero))) target ?_
      simp only [BitVec.toNat_ofNat]
      omega
    · exact traps_of_exception fetches outside rfl ((if_neg legal).trans (if_pos beyond))
  · exact traps_of_exception fetches outside rfl (if_pos (loopH_illegal bad))
  · have turned := complete_turns (f := setG d (gr a s + imm.signExtend 32)) (s := s) (by rw [setDb]; exact quiet)
      (by rw [frame]; exact atEnd) (by rw [frame]; exact outside) (by rw [frame]; exact more)
    refine ⟨_, addi.trans (congrArg _ turned), written, ?_⟩
    rw [frame]
    rfl
  · have ended := complete_ends (f := setG d (gr a s + imm.signExtend 32)) (s := s) (by rw [setDb]; exact quiet)
      (by rw [frame]; exact atEnd) (by rw [frame]; exact outside) (by rw [frame]; exact one)
    refine ⟨_, addi.trans (congrArg _ ended), written, ?_⟩
    rw [frame]
    rfl

end Sys2Proof.Machine
end

section
/-! PROOFS. System registers (R604, R610), the ends of traps and scans (R552, R553, R561), and BRK, WAITD and the terminal in
monitor mode (R606, R607, R644). -/

namespace Sys2Proof.Machine

open Sys2Proof

theorem iteRaise_frame (c : Prop) [Decidable c] (code : Nat) (data : W16) (s : State) :
    ∃ e, (if c then raise code data s else s) = { s with ev := e } := by
  split
  · exact raise_frame code data s
  · exact ⟨_, rfl⟩

/-! ### Effects at X -/

section Effects

variable {i : Instr} {s t : State} {f : State → State}

/-- An instruction whose effect at X is `t` answers `t`. -/
theorem Reaches.exec_eq (reaches : Reaches s) (run : exec i s = .next (atX f s)) (effect : f s = t) : exec i s = .next t :=
  run.trans (congrArg _ ((reaches.atX_eq f).trans effect))

end Effects

/-! ### System registers -/

section Registers

variable {s : State} {r : BitVec 4} {v : W32}

theorem sregRead_undefined (h : 8 ≤ r.toNat) : sregRead r s = none := by
  unfold sregRead
  split
  case h_9 => rfl
  all_goals omega

theorem sregWrite_unwritable (h : r ∈ [2, 3] ∨ 7 ≤ r.toNat) (c : Cs) : sregWrite r v c = none := by
  have values : r.toNat = 2 ∨ r.toNat = 3 ∨ 7 ≤ r.toNat := by
    rcases h with h | h
    · simp only [List.mem_cons, List.not_mem_nil, or_false] at h
      rcases h with rfl | rfl
      · exact .inl rfl
      · exact .inr (.inl rfl)
    · exact .inr (.inr h)
  unfold sregWrite
  split
  case h_6 => rfl
  all_goals omega

/-- An MTS writes its register, and nothing else but PC and CYCLE changes. -/
theorem exec_mts {c : Cs} {a : BitVec 4} (fetches : Fetches s) (straight : Straight s)
    (writes : ∀ x, sregWrite r (gr a s) { s.cs with pc := x, cycle := s.cs.cycle + 1 } =
      some { c with pc := x, cycle := s.cs.cycle + 1 }) (legal : (sregWrite r (gr a s) s.cs).isSome = true) :
    exec (.mts r a false) s = .next { s with cs := { c with pc := s.cs.pc + 4, cycle := s.cs.cycle + 1 } } := by
  obtain ⟨c', legal⟩ := Option.isSome_iff_exists.1 legal
  refine fetches.reaches.exec_eq rfl ?_
  have noStop := fetches.reaches.noStop
  simp only [Bool.false_eq_true, if_false, legal, stepPc_of_straight straight]
  rw [clocks_of_noMon (by exact noStop.1), boundary_of_noStop (by exact noStop)]
  exact congrArg (fun c => { s with cs := c }) (congrArg (fun o => Option.getD o c') (writes (s.cs.pc + 4)))

end Registers

/-! ### The scan image as the program sees it (Table CS-3) -/

section Image

variable (img : Vector Byte 144) (n : W32) (late : Bool) (s : State)

theorem markImage_other (j : Fin 144) (h : j.1 < 4 ∨ j.1 = 8 ∨ 10 ≤ j.1) : (markImage img n late)[j.1] = img[j.1] := by
  simp only [markImage, get_vec]
  rw [if_neg (by omega), if_neg (by omega)]

theorem markImage_late : bitOf (markImage img n late)[9] 1 = late := by
  simp only [markImage, get_vec]
  rw [if_neg (by omega), if_pos trivial]
  exact bitOf_putBit_same _ _ (by decide)

theorem scanLatch_frame : ∃ k e, scanLatch img n late s =
    { s with ck := k, ev := e, cs := { s.cs with window := markImage img n late, scanno := n } } := tapOut_frame _ _ _

end Image

/-! ### The terminal -/

section Terminal

variable {s : State} {r : BitVec 4}

theorem termBrk_outside_monitor (h : monOn s = false) (f : State → State) : termBrk f s = exception 8 (pcW s) s :=
  if_neg (by simp [h])

theorem termBrk_in_monitor (h : monOn s = true) (f : State → State) : termBrk f s = complete 1 f s := if_pos h

theorem monOn_of_noSession (h : s.db.session = none) : monOn s = false := by simp [monOn, h]

end Terminal

/-- Outside a session every BRK and terminal call traps (R606, R645). -/
theorem brk_effect_of_noSession {s : State} (h : s.db.session = none) (code : Byte) :
    (if (false : Bool) = true then illegal s
      else if 0xE0 ≤ code.toNat ∧ code.toNat < 0xF0 then termBrk (termPut (code.setWidth 4)) s
      else if 0xF0 ≤ code.toNat then termBrk (termGet (code.setWidth 4)) s
      else if (!monOn s) = true then exception 8 (pcW s) s
      else if s.cs.hl = true then complete 1 (setDb fun d => { d with missed := satInc d.missed }) s
      else monStop 4 0 (clocks 1 (stepPc (setDb (fun d => { d with brkCode := code }) s)))) = exception 8 (pcW s) s := by
  have off := monOn_of_noSession h
  simp only [termBrk_outside_monitor off, off, Bool.not_false, if_true, ite_self, Bool.false_eq_true, if_false]

/-- A late scan begins at once with the latched image (R552). -/
def lateScan (s : State) : State :=
  scanLatch s.cs.image (s.cs.scanno + 1) true (setCs (fun c => { c with ovcnt := 0, late := true, onTime := false }) s)

theorem complete_lateScan {s : State} (noStop : NoStop s.db) (straight : Straight s) :
    ∃ k e, complete 1 lateScan s =
      { s with ck := k, ev := e, cs := { s.cs with
        scanno := s.cs.scanno + 1, ovcnt := 0, late := true, onTime := false,
        window := markImage s.cs.image (s.cs.scanno + 1) true, pc := s.cs.pc + 4, cycle := s.cs.cycle + 1 } } := by
  obtain ⟨k, e, latched⟩ : ∃ k e, lateScan s = { s with ck := k, ev := e, cs := { s.cs with
      scanno := s.cs.scanno + 1, ovcnt := 0, late := true, onTime := false,
      window := markImage s.cs.image (s.cs.scanno + 1) true } } := scanLatch_frame _ _ _ _
  refine ⟨k, e, ?_⟩
  rw [complete_of_straight (by rw [latched]; exact noStop) (by rw [latched]; exact straight), latched]
  rfl

/-- Settles O50: each instruction is its effect at X, and a late scan is `complete_lateScan`. -/
theorem systemInstructionsMoveRegistersAndEndTrapsAndScans :
    Obligations.SystemInstructionsMoveRegistersAndEndTrapsAndScans := by
  intro s d a r code fetches
  have reaches := fetches.reaches
  have noStop := reaches.noStop
  have ⟨_, _, _, noSession, _⟩ := fetches
  have noMon := monOn_of_noSession noSession
  refine ⟨fun straight => ⟨?_, ?_, ?_⟩, fun inside => ?_, fun outside => ⟨?_, fun x undefined => ?_, fun x unwritable => ?_,
    ?_, fun none => ?_, fun overrun due => ?_, fun overrun notDue straight => ?_⟩⟩
  · simp only [List.forall_mem_cons]
    refine ⟨?_, ?_, ?_, ?_, ?_, ?_, ?_, ?_, fun _ h => absurd h List.not_mem_nil⟩
    all_goals exact computes_of_complete fetches straight rfl rfl
  · refine ⟨?_, ?_, ?_, ?_, ?_⟩
    all_goals exact exec_mts fetches straight (fun _ => rfl) rfl
  · refine goesTo_of_complete fetches straight rfl ?_
    simp [noSession]
  · exact reaches.exec_eq rfl ((if_neg (by simp [inside])).trans (end_of_noStop (by exact noStop) true 3))
  · exact traps_of_exception fetches outside rfl (if_pos (.inr (by simp [outside])))
  · refine traps_of_exception fetches outside rfl ?_
    simp only [Bool.false_eq_true, if_false, sregRead_undefined undefined]
    rfl
  · refine traps_of_exception fetches outside rfl ?_
    simp only [Bool.false_eq_true, if_false, sregWrite_unwritable unwritable]
    rfl
  · simp only [List.forall_mem_cons]
    exact ⟨traps_of_exception fetches outside rfl (brk_effect_of_noSession noSession code),
      traps_of_exception (f := termBrk (termPut r)) fetches outside rfl (termBrk_outside_monitor noMon _),
      traps_of_exception (f := termBrk (termGet r)) fetches outside rfl (termBrk_outside_monitor noMon _), fun _ h => absurd h List.not_mem_nil⟩
  · refine ⟨_, reaches.exec_eq rfl ((if_neg (by simp [outside])).trans ((if_neg fun h => h.1 none).trans
      (clocks_of_noMon (by exact noStop.1) 1))), rfl, ?_⟩
    simp only [setCs, ← none]
    rfl
  · refine ⟨_, reaches.exec_eq rfl ((if_neg (by simp [outside])).trans ((if_neg (by simp [due])).trans
      (clocks_of_noMon (by exact noStop.1) 1))), rfl, rfl, rfl, rfl, rfl⟩
  · obtain ⟨k, e, done⟩ := complete_lateScan noStop straight
    have run : exec (.scanw false) s = .next (complete 1 lateScan s) :=
      reaches.exec_eq rfl ((if_neg (by simp [outside])).trans (if_pos ⟨overrun, by simp [notDue]⟩))
    exact ⟨_, run.trans (congrArg _ done), rfl, rfl, rfl, rfl, markImage_late _ _ _, markImage_other _ _ _, rfl⟩

/-! ### Monitor mode (R626 to R628) -/

/-- The state in which a stop leaves Cantle, before its event (R628). -/
def stopped (reason unit : Nat) (s : State) : State :=
  { s with
    cs := { s.cs with state := .waitD },
    db := { s.db with
      mon := true, inh := false, reason := BitVec.ofNat 4 reason, unit := BitVec.ofNat 2 unit, pc := s.cs.pc,
      stops := satInc s.db.stops, stopReq := false, stepping := false,
      stopAt := if limitOk 100000 s.db.stopAt s.now then some s.now else s.db.stopAt } }

theorem monStop_frame (reason unit : Nat) (s : State) : ∃ e, monStop reason unit s = { stopped reason unit s with ev := e } :=
  iteRaise_frame _ _ _ (stopped reason unit s)

section Terminal

variable {s : State} (r : BitVec 4)

theorem FetchesMon.monOn (h : FetchesMon s) : monOn s = true := by
  obtain ⟨-, -, -, session, enabled, -⟩ := h
  simp [Machine.monOn, session, enabled]

/-- BRK 0xE0 plus r is PUT Gr, and 0xF0 plus r GET Gr (R607). -/
theorem terminal_code (k : BitVec 4) :
    (0xE0 ≤ (0xE0 + k.setWidth 8 : Byte).toNat ∧ (0xE0 + k.setWidth 8 : Byte).toNat < 0xF0) ∧
      (0xE0 + k.setWidth 8 : Byte).setWidth 4 = k ∧ 0xF0 ≤ (0xF0 + k.setWidth 8 : Byte).toNat ∧
      (0xF0 + k.setWidth 8 : Byte).setWidth 4 = k := by
  revert k
  decide

theorem termEvent_frame (kind : Nat) (s : State) :
    ∃ e a, termEvent kind s = { s with ev := e, cs := { s.cs with termAt := a } } := by
  unfold termEvent
  split
  · obtain ⟨e, raised⟩ := raise_frame 0x1FA (pack [(0, kind)]) (setCs (fun c => { c with termAt := some s.now }) s)
    exact ⟨e, _, raised⟩
  · exact ⟨_, _, rfl⟩

theorem termPut_of_room (room : s.db.vtOut.length < 16) :
    termPut r s = setDb (fun d => { d with vtOut := d.vtOut ++ [(gr r s).setWidth 8] }) s := if_pos room

theorem termPut_of_full (full : s.db.vtOut.length = 16) :
    ∃ e a, termPut r s = { s with ev := e, db := { s.db with lost := true }, cs := { s.cs with termAt := a } } := by
  rw [termPut, if_neg (by omega)]
  exact termEvent_frame 8 _

end Terminal

section Calls

variable {s : State} (fetches : FetchesMon s) (straight : Straight s)
include fetches

theorem exec_vtPut_mon (k : BitVec 4) : exec (.vtPut k) s = .next (complete 1 (termPut k) s) :=
  fetches.reaches.exec_eq rfl (termBrk_in_monitor fetches.monOn _)

theorem exec_vtGet_mon (k : BitVec 4) : exec (.vtGet k) s = .next (complete 1 (termGet k) s) :=
  fetches.reaches.exec_eq rfl (termBrk_in_monitor fetches.monOn _)

/-- PUT completes with its effect on the terminal (R644). -/
theorem exec_vtPut_of_eq {k : BitVec 4} {t : State} (put : termPut k s = t) (straight : Straight t) (db : NoStop t.db) :
    exec (.vtPut k) s = .next (setCs (fun c => { c with pc := c.pc + 4, cycle := c.cycle + 1 }) t) := by
  subst put
  exact (exec_vtPut_mon fetches k).trans (congrArg _ (complete_of_straight db straight 1))

/-- GET completes with its effect on the terminal (R644). -/
theorem exec_vtGet_of_eq {k : BitVec 4} {t : State} (get : termGet k s = t) (straight : Straight t) (db : NoStop t.db) :
    exec (.vtGet k) s = .next (setCs (fun c => { c with pc := c.pc + 4, cycle := c.cycle + 1 }) t) := by
  subst get
  exact (exec_vtGet_mon fetches k).trans (congrArg _ (complete_of_straight db straight 1))

/-- BRK with the code of a terminal call is that call (R607). -/
theorem exec_brk_terminal (k : BitVec 4) : exec (.brk (0xE0 + k.setWidth 8) false) s = exec (.vtPut k) s ∧
    exec (.brk (0xF0 + k.setWidth 8) false) s = exec (.vtGet k) s := by
  obtain ⟨inPut, atPut, inGet, atGet⟩ := terminal_code k
  rw [exec_vtPut_mon fetches, exec_vtGet_mon fetches]
  constructor
  · refine fetches.reaches.exec_eq rfl ?_
    refine (if_neg Bool.false_ne_true).trans ((if_pos inPut).trans ((termBrk_in_monitor fetches.monOn _).trans ?_))
    rw [atPut]
  · refine fetches.reaches.exec_eq rfl ?_
    refine (if_neg Bool.false_ne_true).trans ((if_neg (by omega)).trans ((if_pos inGet).trans
      ((termBrk_in_monitor fetches.monOn _).trans ?_)))
    rw [atGet]

include straight

/-- WAITD stops after itself (R606). -/
theorem exec_waitd_mon : exec (.waitd false) s =
    .next (monStop 6 0 (setCs (fun c => { c with pc := c.pc + 4, cycle := c.cycle + 1 }) s)) := by
  have ⟨_, _, _, session, _⟩ := fetches
  refine fetches.reaches.exec_eq rfl ?_
  refine (if_neg Bool.false_ne_true).trans ((if_neg ?_).trans (congrArg (monStop 6 0) ?_))
  · rw [Option.isNone_eq_false_iff.2 session]
    exact Bool.false_ne_true
  · rw [stepPc_of_straight straight]
    exact clocks_of_noMon (by exact fetches.reaches.noStop.1) 1

/-- A BRK that is no terminal call stops after itself (R607). -/
theorem exec_brk_mon {code : Byte} (low : code.toNat < 0xE0) : exec (.brk code false) s =
    .next (monStop 4 0 { s with
      db := { s.db with brkCode := code }, cs := { s.cs with pc := s.cs.pc + 4, cycle := s.cs.cycle + 1 } }) := by
  have ⟨_, _, _, _, _, _, _, _, _, _, outside⟩ := fetches
  refine fetches.reaches.exec_eq rfl ?_
  refine (if_neg Bool.false_ne_true).trans ((if_neg (by omega)).trans ((if_neg (by omega)).trans
    ((if_neg ?_).trans ((if_neg ?_).trans (congrArg (monStop 4 0) ?_)))))
  · rw [fetches.monOn]
    exact Bool.false_ne_true
  · rw [outside]
    exact Bool.false_ne_true
  · rw [stepPc_of_straight (by exact straight)]
    exact clocks_of_noMon (by exact fetches.reaches.noStop.1) 1

end Calls

/-- Settles O51: BRK and WAITD are stops after the instruction (`monStop_frame`), the terminal calls complete in monitor mode. -/
theorem breaksAndTheTerminalActInMonitorMode : Obligations.BreaksAndTheTerminalActInMonitorMode := by
  intro s r code fetches straight
  have noStop := fetches.reaches.noStop
  refine ⟨fun low => ?_, ?_, fun room => ?_, fun full => ?_, fun empty => ?_, fun c q waits => ?_, exec_brk_terminal fetches⟩
  · obtain ⟨e, stop⟩ := monStop_frame 4 0 { s with
      db := { s.db with brkCode := code }, cs := { s.cs with pc := s.cs.pc + 4, cycle := s.cs.cycle + 1 } }
    exact ⟨_, (exec_brk_mon fetches straight low).trans (congrArg _ stop), rfl, rfl, rfl, rfl, rfl, rfl, rfl⟩
  · obtain ⟨e, stop⟩ := monStop_frame 6 0 (setCs (fun c => { c with pc := c.pc + 4, cycle := c.cycle + 1 }) s)
    exact ⟨_, (exec_waitd_mon fetches straight).trans (congrArg _ stop), rfl, rfl, rfl, rfl, rfl⟩
  · exact exec_vtPut_of_eq fetches (termPut_of_room r room) (by exact straight) (by exact noStop)
  · obtain ⟨e, a, lost⟩ := termPut_of_full r full
    exact ⟨_, exec_vtPut_of_eq fetches lost (by exact straight) (by exact noStop), rfl, rfl, rfl⟩
  · have get : termGet r s = setG r 0 s := by rw [termGet, empty]
    refine ⟨_, exec_vtGet_of_eq fetches get ((straight_setG r 0 s).2 straight) (by rw [setG_db]; exact noStop),
      fun x => gr_setG r x 0 s, ?_⟩
    rw [setG_frame]
    rfl
  · have get : termGet r s = setG r (0x100 + c.setWidth 32) (setDb (fun d => { d with vtIn := q }) s) := by rw [termGet, waits]
    refine ⟨_, exec_vtGet_of_eq fetches get ((straight_setG r _ _).2 straight) (by rw [setG_db]; exact noStop),
      fun x => gr_setG r x (0x100 + c.setWidth 32) (setDb (fun d => { d with vtIn := q }) s), ?_⟩
    rw [setG_frame]
    rfl

end Sys2Proof.Machine
end

section
/-! PROOFS. Bytes of words, and what the ECC of a word notes (R518, R519): the stitching block, the events and the ledger's queue. -/

namespace Sys2Proof.Machine

open Sys2Proof

/-! ### Bytes and words (R469) -/

@[simp] theorem length_bytesLE (n v : Nat) : (bytesLE n v).length = n := by
  induction n generalizing v with
  | zero => rfl
  | succ n ih => rw [bytesLE, List.length_cons, ih]

theorem getD_bytesLE {n k : Nat} (h : k < n) (v : Nat) : (bytesLE n v).getD k 0 = BitVec.ofNat 8 (v / 256 ^ k) := by
  induction n generalizing k v with
  | zero => omega
  | succ n ih =>
    cases k with
    | zero => simp [bytesLE]
    | succ k =>
      rw [bytesLE, List.getD_cons_succ, ih (by omega), Nat.div_div_eq_div_mul, Nat.pow_succ']

theorem memRead32_toNat (d : Byte) (m : List Host.Cell) (a : Nat) :
    (memRead32 d m a).toNat = (memRead d m a).toNat + 256 * (memRead d m (a + 1)).toNat +
      65536 * (memRead d m (a + 2)).toNat + 16777216 * (memRead d m (a + 3)).toNat := by
  have h0 := (memRead d m a).isLt
  have h1 := (memRead d m (a + 1)).isLt
  have h2 := (memRead d m (a + 2)).isLt
  have h3 := (memRead d m (a + 3)).isLt
  simp only [memRead32, memReadList, List.range_succ, List.range_zero, List.nil_append, List.map_cons,
    List.cons_append, List.map_nil, natLE, Nat.add_zero, BitVec.toNat_ofNat]
  omega

theorem toNat_append8 {n : Nat} (hi : BitVec n) (lo : Byte) : (hi ++ lo).toNat = 256 * hi.toNat + lo.toNat := by
  rw [BitVec.toNat_append, ← Nat.shiftLeft_add_eq_or_of_lt lo.isLt, Nat.shiftLeft_eq]
  omega

section Loads

variable {d : Byte} {m : List Host.Cell} {x : Nat}

theorem loaded_toNat (x : Nat) : (memRead32 d m (x / 4 * 4) >>> (8 * (x % 4))).toNat =
    (memRead32 d m (x / 4 * 4)).toNat / 256 ^ (x % 4) := by
  rw [BitVec.toNat_ushiftRight, Nat.shiftRight_eq_div_pow, Nat.pow_mul]

theorem loaded_word (h : x % 4 = 0) : memRead32 d m (x / 4 * 4) >>> (8 * (x % 4)) =
    memRead d m (x + 3) ++ memRead d m (x + 2) ++ memRead d m (x + 1) ++ memRead d m x := by
  apply BitVec.eq_of_toNat_eq
  rw [loaded_toNat, memRead32_toNat, h, show x / 4 * 4 = x by omega]
  simp only [toNat_append8]
  omega

theorem loaded_half (h : x % 2 = 0) : (memRead32 d m (x / 4 * 4) >>> (8 * (x % 4))).setWidth 16 =
    memRead d m (x + 1) ++ memRead d m x := by
  have b0 := (memRead d m x).isLt
  have b1 := (memRead d m (x + 1)).isLt
  apply BitVec.eq_of_toNat_eq
  rw [BitVec.toNat_setWidth, loaded_toNat, memRead32_toNat, toNat_append8]
  obtain r | r : x % 4 = 0 ∨ x % 4 = 2 := by omega
  · rw [r, show x / 4 * 4 = x by omega]
    omega
  · obtain ⟨q, rfl⟩ : ∃ q, x = q + 2 := ⟨x - 2, by omega⟩
    rw [r, show (q + 2) / 4 * 4 = q by omega, show q + 2 + 1 = q + 3 from rfl]
    have := (memRead d m q).isLt
    have := (memRead d m (q + 1)).isLt
    omega

theorem loaded_byte (x : Nat) : (memRead32 d m (x / 4 * 4) >>> (8 * (x % 4))).setWidth 8 = memRead d m x := by
  apply BitVec.eq_of_toNat_eq
  rw [BitVec.toNat_setWidth, loaded_toNat, memRead32_toNat]
  obtain ⟨q, r, rfl, hr⟩ : ∃ q r, x = 4 * q + r ∧ r < 4 := ⟨x / 4, x % 4, by omega, by omega⟩
  rw [show (4 * q + r) / 4 * 4 = 4 * q by omega, show (4 * q + r) % 4 = r by omega]
  have b0 := (memRead d m (4 * q)).isLt
  have b1 := (memRead d m (4 * q + 1)).isLt
  have b2 := (memRead d m (4 * q + 2)).isLt
  have b3 := (memRead d m (4 * q + 3)).isLt
  interval_cases r
  · change _ = (memRead d m (4 * q)).toNat
    omega
  all_goals omega

end Loads

/-! ### Notes -/

theorem SameStore.refl (a : Nv) : SameStore a a := ⟨rfl, rfl, rfl, rfl, rfl, rfl, rfl⟩

theorem SameStore.trans {a b c : Nv} (h : SameStore a b) (k : SameStore b c) : SameStore a c :=
  ⟨h.mem.trans k.mem, h.vault.trans k.vault, h.stored.trans k.stored, h.login.trans k.login, h.clog.trans k.clog,
    h.ledger.trans k.ledger, h.commit.trans k.commit⟩

/-- Only the stitching block, the events and the ledger's queue with its counters may differ. -/
structure Noted (s t : State) : Prop where
  frame : t = { s with st := t.st, ev := t.ev, nv := t.nv }
  store : SameStore t.nv s.nv

namespace Noted

variable {s t u : State}

theorem refl (s : State) : Noted s s := ⟨rfl, SameStore.refl _⟩

theorem trans (h : Noted s t) (k : Noted t u) : Noted s u := ⟨k.frame.trans (by rw [h.frame]), k.store.trans h.store⟩

theorem setSt (f : St → St) (s : State) : Noted s (setSt f s) := ⟨rfl, SameStore.refl _⟩

theorem raise (code : Nat) (data : W16) (s : State) : Noted s (raise code data s) := by
  obtain ⟨e, h⟩ := raise_frame code data s
  rw [h]
  exact ⟨rfl, SameStore.refl _⟩

theorem record (type code : Nat) (data : List Byte) (s : State) : Noted s (record type code data s) := by
  obtain ⟨e, n, h, store⟩ := record_frame type code data s
  rw [h]
  exact ⟨rfl, store⟩

theorem raiseRec (code : Nat) (data : W16) (s : State) : Noted s (raiseRec code data s) :=
  (raise code data s).trans (record _ _ _ _)

theorem lowCheck (area : Fin 10) (row : Byte) (s : State) : Noted s (lowCheck area row s) := by
  unfold Machine.lowCheck
  split
  · exact (setSt _ s).trans (raiseRec _ _ _)
  · exact refl s

theorem stitchRow (area : Fin 10) (row : Byte) (cause : Nat) (s : State) : Noted s (stitchRow area row cause s) := by
  unfold Machine.stitchRow
  split
  · exact refl s
  · split
    · exact ((setSt _ s).trans (setSt _ _)).trans (lowCheck _ _ _)
    · exact (setSt _ s).trans (raiseRec _ _ _)

theorem eccCorrected (area : Fin 10) (row : Byte) (s : State) : Noted s (eccCorrected area row s) := by
  have event (c : Prop) [Decidable c] (x : State) : Noted x (if c then Machine.raise 0x1F0 (rowWord 1 area row) x else x) := by
    split
    · exact raise _ _ x
    · exact refl x
  have again (c : Prop) [Decidable c] (x : State) : Noted x (if c then Machine.stitchRow area row 3 x else x) := by
    split
    · exact stitchRow _ _ _ x
    · exact refl x
  exact ((setSt _ s).trans (event _ _)).trans (again _ _)

theorem eccUncorrectable (area : Fin 10) (row : Byte) (s : State) : Noted s (eccUncorrectable area row s) :=
  ((setSt _ s).trans (raise _ _ _)).trans (stitchRow _ _ _ _)

theorem eccFound (area : Fin 10) (row : Byte) (e : Ecc) (s : State) : Noted s (eccFound area row e s) := by
  cases e with
  | good => exact refl s
  | corrected => exact eccCorrected area row s
  | uncorrectable => exact eccUncorrectable area row s

theorem dmemEcc (a : Nat) (e : Ecc) (s : State) : Noted s (dmemEcc a e s) := by
  unfold Machine.dmemEcc
  split
  · exact eccFound _ _ _ s
  · exact refl s

end Noted

end Sys2Proof.Machine
end

section
/-! PROOFS. Loads and stores (R585 to R590): what an access at X does to the word it reaches, and what traps. -/

namespace Sys2Proof.Machine

open Sys2Proof

/-! ### The end of an access (R590, R636) -/

section Access

variable {s t : State}

theorem watchAt_of_noSession (h : s.db.session = none) (a : Nat) (v : W32) (store : Bool) : watchAt a v store s = none :=
  if_pos (by rw [monOn_of_noSession h]; rfl)

theorem straight_congr (h : t.cs = s.cs) (straight : Straight s) : Straight t := by rwa [Straight, h]

theorem gr_congr (h : t.cs = s.cs) (r : BitVec 4) : gr r t = gr r s := by rw [gr, gr, h]

/-- An access outside a session completes in the clocks of its address. -/
theorem accessEnd_of_noSession (noSession : s.db.session = none) (noStop : NoStop s.db) (straight : Straight s) (a : Nat)
    (v : W32) (store : Bool) : accessEnd a v store s =
      setCs (fun c => { c with pc := c.pc + 4, cycle := c.cycle + BitVec.ofNat 32 (accessClocks a) }) s := by
  simp only [accessEnd, watchAt_of_noSession noSession, Option.isNone_none, if_true, ite_self, stepPc_of_straight straight]
  exact end_of_noStop (by exact noStop) _ _

end Access

/-! ### Loads -/

section Loads

variable {i : Instr} {s : State} {d a : BitVec 4} {imm : BitVec 18} {ecc : Ecc} {n x : Nat} {f : W32 → W32} {v : W32}

/-- An address that a load accepts. -/
def Reachable (x n : Nat) : Prop := x < 0x100000 ∧ x % n = 0 ∧ (x < 0x8000 ∨ n = 4) ∧ located x = true

theorem addressFault_eq (e : W32) (n : Nat) : addressFault e n = true ↔ ¬ Reachable e.toNat n := by
  simp only [addressFault, Reachable, inDmem, Bool.or_eq_true, decide_eq_true_eq, Bool.and_eq_true, Bool.not_eq_true',
    decide_eq_false_iff_not]
  rw [← Bool.not_eq_true, ← Nat.not_lt]
  tauto

/-- An address outside what a load accepts traps as ADDRESS. -/
theorem traps_of_load (fetches : Fetches s) (outside : s.cs.hl = false) (run : exec i s = load n f d a imm ecc s)
    (bad : ¬ Reachable (effAddr a imm s).toNat n) : Traps s i 2 (BitVec.ofNat 32 (effAddr a imm s).toNat) := by
  rw [BitVec.ofNat_toNat, BitVec.setWidth_eq]
  exact traps_of_exception fetches outside run (if_pos ((addressFault_eq _ n).2 bad))

theorem not_reachable_of_misaligned (h : x % n ≠ 0) : ¬ Reachable x n := fun r => h r.2.1

theorem not_reachable_of_narrow (h : 0x8000 ≤ x) (narrow : n ≠ 4) : ¬ Reachable x n := by
  rintro ⟨-, -, inside | word, -⟩
  · omega
  · exact narrow word

/-- Between data memory and the safety I/O window there is no location (Table CS-1). -/
theorem not_reachable_between (low : 0x8000 ≤ x) (high : x < 0xF0000) : ¬ Reachable x n := by
  rintro ⟨-, -, -, here⟩
  simp only [located, ioWord, Bool.or_eq_true, Bool.and_eq_true, decide_eq_true_eq] at here
  omega

theorem reachable_dmem (inside : x < 0x8000) (aligned : x % n = 0) : Reachable x n :=
  ⟨by omega, aligned, .inl inside, by simp [located, inside]⟩

/-- A word of the safety I/O window but MBIN_STAT and MBOUT_STAT (Table CS-3, Table CI-6). -/
def WindowWord (x : Nat) : Prop :=
  x % 4 = 0 ∧ ((0xF0000 ≤ x ∧ x < 0xF0090) ∨ x = 0xF0100 ∨ x = 0xF0104 ∨ x = 0xF0108 ∨ x = 0xF0110 ∨ x = 0xF0114 ∨
    x = 0xF0118 ∨ (0xF0120 ≤ x ∧ x < 0xF0130) ∨ (0xF0140 ≤ x ∧ x < 0xF0150))

theorem reachable_window (h : WindowWord x) : Reachable x 4 := by
  obtain ⟨aligned, here⟩ := h
  refine ⟨by omega, aligned, .inr rfl, ?_⟩
  simp only [located, ioWord, Bool.or_eq_true, Bool.and_eq_true, decide_eq_true_eq]
  omega

theorem load_reached (reaches : Reaches s) (addr : (effAddr a imm s).toNat = x) (reachable : Reachable x n)
    (good : (inDmem x && ecc = .uncorrectable) = false) :
    load n f d a imm ecc s = .next (accessEnd x (wordLoad x (dmemEcc x ecc s)).1 false
      (setG d (f ((wordLoad x (dmemEcc x ecc s)).1 >>> (8 * (x % 4)))) (wordLoad x (dmemEcc x ecc s)).2)) := by
  subst addr
  rw [load, reaches.atX_eq]
  refine congrArg _ ((if_neg fun h => (addressFault_eq _ n).1 h reachable).trans (if_neg ?_))
  rw [good]
  exact Bool.false_ne_true

/-- A load from data memory: the word that the ECC lets through goes through `f` into Gd. -/
theorem loads_of_dmem (fetches : Fetches s) (straight : Straight s) (run : exec i s = load n f d a imm ecc s)
    (addr : (effAddr a imm s).toNat = x) (inside : x < 0x8000) (aligned : x % n = 0) (good : ecc ≠ .uncorrectable)
    (value : f (memRead32 0 s.cs.dmem (x / 4 * 4) >>> (8 * (x % 4))) = v) : Loads s i 1 d v := by
  have ⟨_, _, _, noSession, _⟩ := fetches
  rw [load_reached fetches.reaches addr (reachable_dmem inside aligned) (by simp [good])] at run
  obtain ⟨t, noted, cs, db, read⟩ : ∃ t, Noted s t ∧ t.cs = s.cs ∧ t.db = s.db ∧
      wordLoad x (dmemEcc x ecc s) = (memRead32 0 s.cs.dmem (x / 4 * 4), t) := by
    have noted := Noted.dmemEcc x ecc s
    have cs : (dmemEcc x ecc s).cs = s.cs := by rw [noted.frame]
    exact ⟨_, noted, cs, by rw [noted.frame], (if_pos (by simp [inDmem, inside])).trans (by rw [cs])⟩
  rw [read, value, accessEnd_of_noSession (by rw [setG_db, db]; exact noSession)
    (by rw [setG_db, db]; exact fetches.reaches.noStop) ((straight_setG d v t).2 (straight_congr cs straight)),
    show accessClocks x = 1 from if_pos inside] at run
  refine ⟨_, run, fun r => ?_, ?_⟩
  · rw [← gr_congr cs r]
    exact gr_setG d r v t
  · rw [setG_frame, noted.frame]
    rfl

/-- A load from the safety I/O window returns its word in two clocks. -/
theorem computes_of_window {y : W32} (fetches : Fetches s) (straight : Straight s) (run : exec i s = load 4 id d a imm ecc s)
    (addr : (effAddr a imm s).toNat = x) (window : WindowWord x) (value : ioRead x s = y) : Computes s i 2 d y := by
  have ⟨_, _, _, noSession, _⟩ := fetches
  obtain ⟨aligned, here⟩ := window
  have high : ¬ x < 0x8000 := by omega
  have outside : inDmem x = false := decide_eq_false high
  have read : wordLoad x (dmemEcc x ecc s) = (y, s) := by
    rw [dmemEcc, outside, if_neg Bool.false_ne_true, wordLoad, outside, if_neg Bool.false_ne_true, if_neg (by omega), value]
  rw [load_reached fetches.reaches addr (reachable_window ⟨aligned, here⟩) (by simp [outside]), read,
    accessEnd_of_noSession (by rw [setG_db]; exact noSession) (by rw [setG_db]; exact fetches.reaches.noStop)
    ((straight_setG d _ s).2 straight), show accessClocks x = 2 from (if_neg high).trans (if_pos (by omega)), aligned] at run
  refine ⟨_, run, fun r => gr_setG d r y s, ?_⟩
  rw [setG_frame]
  rfl

end Loads

/-! ### Words of the window (Table CS-3, Table CI-6) -/

section Window

variable {x : Nat} (s : State)

theorem natLE_four (b0 b1 b2 b3 : Byte) : BitVec.ofNat 32 (natLE [b0, b1, b2, b3]) = b3 ++ b2 ++ b1 ++ b0 := by
  apply BitVec.eq_of_toNat_eq
  simp only [natLE, BitVec.toNat_ofNat, toNat_append8]
  have := b0.isLt
  have := b1.isLt
  have := b2.isLt
  have := b3.isLt
  omega

theorem ioRead_window (k : Fin 36) (h : x = 0xF0000 + 4 * k.1) : ioRead x s =
    s.cs.window[4 * k.1 + 3] ++ s.cs.window[4 * k.1 + 2] ++ s.cs.window[4 * k.1 + 1] ++ s.cs.window[4 * k.1] := by
  rw [ioRead, if_pos (by omega), ← natLE_four]
  have entry (j : Nat) (hj : j < 144) : s.cs.window.toList.getD j 0 = s.cs.window[j] := by
    rw [List.getD_eq_getElem _ _ (by simpa using hj), Vector.getElem_toList]
  simp only [leAt, slice, List.range_succ, List.range_zero, List.nil_append, List.map_cons, List.cons_append, List.map_nil,
    show x - 0xF0000 = 4 * k.1 by omega]
  rw [entry _ (by omega), entry _ (by omega), entry _ (by omega), entry _ (by omega)]
  rfl

theorem ioRead_mbin (k : Fin 4) (h : x = 0xF0120 + 4 * k.1) : ioRead x s = s.cs.mbin[k.1].zeroExtend 32 := by
  have entry : (x - 0xF0120) / 4 % 4 = k.1 := by omega
  rw [ioRead, if_neg (by omega), if_neg (by omega), if_neg (by omega), if_neg (by omega), if_neg (by omega), if_neg (by omega),
    if_neg (by omega), if_pos (by omega), box4]
  simp only [entry]

theorem ioRead_mbout (k : Fin 4) (h : x = 0xF0140 + 4 * k.1) : ioRead x s = s.cs.mbout[k.1].zeroExtend 32 := by
  have entry : (x - 0xF0140) / 4 % 4 = k.1 := by omega
  rw [ioRead, if_neg (by omega), if_neg (by omega), if_neg (by omega), if_neg (by omega), if_neg (by omega), if_neg (by omega),
    if_neg (by omega), if_neg (by omega), if_neg (by omega), if_pos (by omega), box4]
  simp only [entry]

end Window

/-- Settles O45: a load from data memory is `loads_of_dmem`, one from the window `computes_of_window`, and the rest traps. -/
theorem cantleLoadsReturnTheAddressedData : Obligations.CantleLoadsReturnTheAddressedData := by
  intro s d a imm ecc x fetches straight addr
  refine ⟨fun inside good => ?_, fun k here => ?_, fun here => ?_, fun here => ?_, fun here => ?_, fun here => ?_, fun here => ?_,
    fun here => ?_, fun k here => ?_, fun k here => ?_, fun outside => ?_⟩
  · refine ⟨?_, ?_, fun even => ⟨?_, ?_⟩, fun aligned => ?_⟩
    · exact loads_of_dmem (n := 1) (f := fun v => (v.setWidth 8).signExtend 32) fetches straight rfl addr inside
        (Nat.mod_one x) good (congrArg (BitVec.signExtend 32) (loaded_byte x))
    · exact loads_of_dmem (n := 1) (f := fun v => (v.setWidth 8).setWidth 32) fetches straight rfl addr inside
        (Nat.mod_one x) good (congrArg (BitVec.setWidth 32) (loaded_byte x))
    · exact loads_of_dmem (n := 2) (f := fun v => (v.setWidth 16).signExtend 32) fetches straight rfl addr inside even good
        (congrArg (BitVec.signExtend 32) (loaded_half even))
    · exact loads_of_dmem (n := 2) (f := fun v => (v.setWidth 16).setWidth 32) fetches straight rfl addr inside even good
        (congrArg (BitVec.setWidth 32) (loaded_half even))
    · exact loads_of_dmem (n := 4) (f := id) fetches straight rfl addr inside aligned good (loaded_word aligned)
  · refine computes_of_window fetches straight rfl addr ⟨by omega, .inl ⟨by omega, by omega⟩⟩ ?_
    exact ioRead_window s k here
  iterate 6
    · subst here
      exact computes_of_window fetches straight rfl addr (by simp [WindowWord]) rfl
  · exact computes_of_window fetches straight rfl addr ⟨by omega, by omega⟩ (ioRead_mbin s k here)
  · exact computes_of_window fetches straight rfl addr ⟨by omega, by omega⟩ (ioRead_mbout s k here)
  · subst addr
    refine ⟨fun bad => ?_, fun bad => ⟨?_, ?_⟩, fun high => ⟨?_, ?_, ?_, ?_⟩, fun low high => ?_⟩
    · exact traps_of_load (n := 4) (f := id) fetches outside rfl (not_reachable_of_misaligned bad)
    · exact traps_of_load (n := 2) (f := fun v => (v.setWidth 16).signExtend 32) fetches outside rfl (not_reachable_of_misaligned bad)
    · exact traps_of_load (n := 2) (f := fun v => (v.setWidth 16).setWidth 32) fetches outside rfl (not_reachable_of_misaligned bad)
    · exact traps_of_load (n := 2) (f := fun v => (v.setWidth 16).signExtend 32) fetches outside rfl (not_reachable_of_narrow high (by decide))
    · exact traps_of_load (n := 2) (f := fun v => (v.setWidth 16).setWidth 32) fetches outside rfl (not_reachable_of_narrow high (by decide))
    · exact traps_of_load (n := 1) (f := fun v => (v.setWidth 8).signExtend 32) fetches outside rfl (not_reachable_of_narrow high (by decide))
    · exact traps_of_load (n := 1) (f := fun v => (v.setWidth 8).setWidth 32) fetches outside rfl (not_reachable_of_narrow high (by decide))
    · exact traps_of_load (n := 4) (f := id) fetches outside rfl (not_reachable_between low high)

end Sys2Proof.Machine
end

section
/-! PROOFS. Stores (R555, R585, R587, R589): the bytes of data memory, the words of the safety I/O window, and what traps. -/

namespace Sys2Proof.Machine

open Sys2Proof

section Stores

variable {i : Instr} {s : State} {r a : BitVec 4} {imm : BitVec 18} {ecc : Ecc} {n x : Nat}

/-- No PERMIT exception stands against a store of `v` at `x` (R555, R587). -/
def Permitted (x : Nat) (v : W32) : Prop := x = 0xF0100 → permitOk v = true

/-- A store that no exception of R587 stands against. -/
theorem store_reached (reaches : Reaches s) (addr : (effAddr a imm s).toNat = x) (reachable : Reachable x n)
    (writable : loadsOnly x = false) (permitted : Permitted x (gr r s)) :
    store n r a imm ecc s = .next (storeDo n x (gr r s) ecc s) := by
  subst addr
  rw [store, reaches.atX_eq]
  refine congrArg _ ((if_neg fun h => (addressFault_eq _ n).1 h reachable).trans ((if_neg ?_).trans (if_neg ?_)))
  · rw [writable]
    exact Bool.false_ne_true
  · simp only [Bool.and_eq_true, decide_eq_true_eq, Bool.not_eq_true', not_and, Bool.not_eq_false]
    exact permitted

/-- A store to an address outside the map traps as ADDRESS. -/
theorem traps_of_store (fetches : Fetches s) (outside : s.cs.hl = false) (run : exec i s = store n r a imm ecc s)
    (bad : ¬ Reachable (effAddr a imm s).toNat n) : Traps s i 2 (BitVec.ofNat 32 (effAddr a imm s).toNat) := by
  rw [BitVec.ofNat_toNat, BitVec.setWidth_eq]
  exact traps_of_exception fetches outside run (if_pos ((addressFault_eq _ n).2 bad))

/-- A store to a location that accepts loads only traps as APERTURE. -/
theorem traps_of_loadsOnly (fetches : Fetches s) (outside : s.cs.hl = false) (run : exec i s = store 4 r a imm ecc s)
    (reachable : Reachable (effAddr a imm s).toNat 4) (loads : loadsOnly (effAddr a imm s).toNat = true) :
    Traps s i 6 (BitVec.ofNat 32 (effAddr a imm s).toNat) := by
  rw [BitVec.ofNat_toNat, BitVec.setWidth_eq]
  exact traps_of_exception fetches outside run ((if_neg fun h => (addressFault_eq _ 4).1 h reachable).trans (if_pos loads))

/-! ### Data memory -/

/-- The bytes of data memory after a store, and the clock it takes. -/
theorem stores_of_dmem (fetches : Fetches s) (straight : Straight s) (run : exec i s = store n r a imm ecc s)
    (wf : Memory.wf 0 s.cs.dmem = true) (addr : (effAddr a imm s).toNat = x) (inside : x < 0x8000) (aligned : x % n = 0)
    (unheld : ckblkHolds (x / 4 * 4) s = false) (good : ecc ≠ .uncorrectable) : Stores s i x n (gr r s) := by
  have ⟨_, _, _, noSession, _⟩ := fetches
  have loads : loadsOnly x = false := by simp [loadsOnly]; omega
  rw [store_reached fetches.reaches addr (reachable_dmem inside aligned) loads (by intro; omega)] at run
  obtain ⟨ecc', eccGood, ecc'Eq⟩ : ∃ e : Ecc, e ≠ .uncorrectable ∧ e = if n = 4 then .good else ecc :=
    ⟨_, by split <;> simp_all, rfl⟩
  have noted := Noted.dmemEcc x ecc' s
  obtain ⟨t, noted, stored⟩ : ∃ t, Noted s t ∧ storeDo n x (gr r s) ecc s =
      accessEnd x (memRead32 0 (dmemStore n x (gr r s) t).cs.dmem (x / 4 * 4)) true (dmemStore n x (gr r s) t) := by
    refine ⟨_, noted, (if_neg (by simp [inDmem, inside])).trans ((if_neg (by simp [unheld])).trans ?_)⟩
    rw [← ecc'Eq]
    exact if_neg eccGood
  have cs : t.cs = s.cs := by rw [noted.frame]
  have db : t.db = s.db := by rw [noted.frame]
  rw [stored, accessEnd_of_noSession (by exact (congrArg Db.session db).trans noSession)
    (by exact db ▸ fetches.reaches.noStop) (by exact (straight_congr cs straight : Straight t)),
    show accessClocks x = 1 from if_pos inside] at run
  have read (y : Nat) := memRead_memWriteList (bytesLE n (gr r s).toNat) x y (cs ▸ wf : Memory.wf 0 t.cs.dmem = true)
  rw [length_bytesLE] at read
  refine ⟨_, run, fun k low => ?_, fun y other => ?_, ?_⟩
  · refine (read (x + k)).trans ((if_pos ⟨by omega, by omega⟩).trans ?_)
    rw [Nat.add_sub_cancel_left, getD_bytesLE low]
  · refine (read y).trans ((if_neg (by omega)).trans ?_)
    rw [cs]
  · rw [noted.frame]
    rfl

/-! ### The window (Table CI-6) -/

/-- A store to the window that changes only sequencer words completes in two clocks. -/
theorem exec_store_window (fetches : Fetches s) (run : exec i s = store 4 r a imm ecc s)
    (addr : (effAddr a imm s).toNat = x) (window : WindowWord x) (writable : loadsOnly x = false)
    (permitted : Permitted x (gr r s)) {t : State} (stores : ioStore x (gr r s) s = t) (db : t.db = s.db)
    (loop : Straight t) : exec i s = .next (setCs (fun c => { c with pc := c.pc + 4, cycle := c.cycle + 2 }) t) := by
  have ⟨_, _, _, noSession, _⟩ := fetches
  obtain ⟨aligned, here⟩ := window
  have high : ¬ x < 0x8000 := by omega
  rw [run, store_reached fetches.reaches addr (reachable_window ⟨aligned, here⟩) writable permitted]
  refine congrArg _ ((if_pos (by simp [inDmem, high])).trans ?_)
  simp only [stores]
  rw [accessEnd_of_noSession (by rw [db]; exact noSession) (by rw [db]; exact fetches.reaches.noStop) loop,
    show accessClocks x = 2 from (if_neg high).trans (if_pos (by omega))]
  rfl

theorem permitOk_iff (v : W32) : permitOk v = true ↔ v.toNat < 0x10000 ∧ v.toNat / 0x100 = 255 - v.toNat % 0x100 := by
  have upper : word1 v = 0 ↔ v.toNat < 0x10000 := by
    rw [word1, ← BitVec.toNat_inj]
    simp only [BitVec.toNat_setWidth, BitVec.toNat_ushiftRight, Nat.shiftRight_eq_div_pow, show (0 : W16).toNat = 0 from rfl]
    have := v.isLt
    omega
  have bytes (h : v.toNat < 0x10000) : fld (word0 v) 15 8 = v.toNat / 0x100 ∧ fld (word0 v) 7 0 = v.toNat % 0x100 := by
    simp only [fld, word0, BitVec.toNat_setWidth, Nat.mod_eq_of_lt (show v.toNat < 2 ^ 16 from h)]
    omega
  rw [permitOk, Bool.and_eq_true, decide_eq_true_eq, decide_eq_true_eq, upper]
  refine and_congr_right fun h => ?_
  rw [(bytes h).1, (bytes h).2]

/-- A PERMIT word whose bytes do not complement each other traps (R555). -/
theorem traps_of_permit (fetches : Fetches s) (outside : s.cs.hl = false) (run : exec i s = store 4 r a imm ecc s)
    (here : (effAddr a imm s).toNat = 0xF0100)
    (bad : ¬((gr r s).toNat < 0x10000 ∧ (gr r s).toNat / 0x100 = 255 - (gr r s).toNat % 0x100)) :
    Traps s i 7 (BitVec.ofNat 32 (effAddr a imm s).toNat) := by
  have refused : permitOk (gr r s) = false := Bool.not_eq_true _ ▸ mt (permitOk_iff _).1 bad
  have reachable : Reachable (effAddr a imm s).toNat 4 := here ▸ reachable_window (by simp [WindowWord])
  have writable : loadsOnly (effAddr a imm s).toNat = false := by rw [here]; rfl
  rw [BitVec.ofNat_toNat, BitVec.setWidth_eq]
  refine traps_of_exception fetches outside run ((if_neg fun h => (addressFault_eq _ 4).1 h reachable).trans
    ((if_neg ?_).trans (if_pos ?_)))
  · rw [writable]
    exact Bool.false_ne_true
  · simp [here, refused]

/-- The locations that accept loads only, but for MBIN (Table CI-6). -/
theorem loadsOnly_reachable (h : (∃ k : Fin 36, x = 0xF0000 + 4 * k.1) ∨ x = 0xF0104 ∨ x = 0xF0108 ∨
    (∃ k : Fin 512, x = 0xFF000 + 4 * k.1)) : Reachable x 4 ∧ loadsOnly x = true := by
  rcases h with ⟨k, rfl⟩ | rfl | rfl | ⟨k, rfl⟩
  · exact ⟨reachable_window ⟨by omega, by omega⟩, by simp [loadsOnly]; omega⟩
  · exact ⟨reachable_window (by simp [WindowWord]), rfl⟩
  · exact ⟨reachable_window (by simp [WindowWord]), rfl⟩
  · refine ⟨⟨by omega, by omega, .inr rfl, ?_⟩, by simp [loadsOnly]⟩
    simp only [located, Bool.or_eq_true, Bool.and_eq_true, decide_eq_true_eq]
    omega

end Stores

/-- Settles O46: a store to data memory is `stores_of_dmem`, one to the window `exec_store_window`, and the rest traps. -/
theorem cantleStoresWriteTheAddressedBytes : Obligations.CantleStoresWriteTheAddressedBytes := by
  intro s r a imm ecc x fetches straight wf addr
  refine ⟨fun inside unheld good => ⟨?_, fun even => ?_, fun aligned => ?_⟩, fun here => ?_, fun here => ?_,
    fun here low complements => ?_, fun outside => ⟨fun here bad => ?_, fun here => ?_, fun bad => ?_, fun bad => ?_, fun high => ?_⟩⟩
  · exact stores_of_dmem fetches straight rfl wf addr inside (Nat.mod_one x) unheld good
  · exact stores_of_dmem fetches straight rfl wf addr inside even unheld good
  · exact stores_of_dmem fetches straight rfl wf addr inside aligned unheld good
  · subst here
    exact exec_store_window fetches rfl addr (by simp [WindowWord]) rfl (by intro h; simp at h) rfl rfl straight
  · subst here
    exact exec_store_window fetches rfl addr (by simp [WindowWord]) rfl (by intro h; simp at h) rfl rfl straight
  · subst here
    obtain ⟨k, e, tapped⟩ := tapOut_frame 8 { bytes := [(word0 (gr r s)).setWidth 8, (word0 (gr r s) >>> 8).setWidth 8] }
      (noteLatch (setCs (fun c => { c with permit := gr r s }) s))
    exact ⟨_, exec_store_window fetches rfl addr (by simp [WindowWord]) rfl
      (fun _ => (permitOk_iff _).2 ⟨low, complements⟩) tapped rfl straight, rfl⟩
  · subst addr
    exact traps_of_permit fetches outside rfl here bad
  · subst addr
    obtain ⟨reachable, loads⟩ := loadsOnly_reachable here
    exact traps_of_loadsOnly fetches outside rfl reachable loads
  · subst addr
    exact traps_of_store (n := 4) fetches outside rfl (not_reachable_of_misaligned bad)
  · subst addr
    refine traps_of_store (n := 2) fetches outside rfl ?_
    exact bad.elim not_reachable_of_misaligned fun high => not_reachable_of_narrow high (by decide)
  · subst addr
    exact traps_of_store (n := 1) fetches outside rfl (not_reachable_of_narrow high (by decide))

end Sys2Proof.Machine
end

section
/-! PROOFS. Check-unit operations of Cantle (R389, R407 to R414, R601, R602). -/

namespace Sys2Proof.Machine

open Sys2Proof

section Units

variable {i : Instr} {s : State} {u : BitVec 3} {f g : Ck → Ck} {o : CkOp}

/-! ### Issue and commit (R413, R414) -/

theorem ckFrozen_of_noMon (h : s.db.mon = false) (n : Fin 8) : ckFrozen n s = false := by
  simp [ckFrozen, frozen_of_noMon h]

theorem ckCatchUp_of_noOps {n : Fin 8} (h : s.ck[n.1].ops = []) : ckCatchUp n s = s := if_neg (by simp [h])

theorem ckCatchUp_of_feed {n : Fin 8} (h : s.ck[n.1].feed.isSome = true) : ckCatchUp n s = s :=
  if_neg (by simp [Option.isNone_eq_false_iff.2 h])

/-- The last operation that waits is done at once, whatever it does (R407). -/
theorem ckDrain_one (n : Fin 8) (o : CkOp) (s : State) :
    ckDrain n [o] s = setCk n (fun u => { u with ops := [], held := false }) (ckDo n o s) := by
  simp only [ckDrain, ite_self]

/-- The state in which a committed operation stands at the unit (R414). -/
def committed (n : Fin 8) (o : CkOp) (s : State) : State := setCk n (fun k => { k with ops := [o], spec := none }) s

theorem committed_same (n : Fin 8) (o : CkOp) (s : State) :
    (committed n o s).ck[n.1] = { s.ck[n.1] with ops := [o], spec := none } := setCk_same _ _ _

/-- On a unit with nothing ahead an operation is done at once, without a trace of its snapshot (R413, R414). -/
theorem ckIssue_ready (ready : UnitReady s u) (noMon : s.db.mon = false) :
    ckIssue (unitIx u) o s = setCk (unitIx u) (fun k => { k with ops := [], held := false })
      (ckDo (unitIx u) o (committed (unitIx u) o s)) := by
  obtain ⟨-, -, noFeed, noOps, untested, -⟩ := ready
  have testing := ckTesting_of_none untested s.now
  have entered : ckAtD (unitIx u) o s = setCk (unitIx u) (fun k => { k with
      spec := some ⟨k.raw, k.exp, k.ops.length, k.held⟩, ops := [o] }) s :=
    setCk_congr (by simp only [noOps, testing, Bool.or_false, List.nil_append])
  have atUnit : ckAtX (unitIx u) (ckAtD (unitIx u) o s) = ckCatchUp (unitIx u) (committed (unitIx u) o s) := by
    rw [entered, ckAtX, setCk_setCk]
    simp only [setCk_same, List.length_singleton, setCk_now]
    rfl
  rw [ckIssue, atUnit, ckCatchUp, if_pos, committed_same, ckDrain_one]
  rw [committed_same, ckFrozen_of_noMon (by exact noMon)]
  simp [noFeed, ckTesting, untested]

/-! ### Operations that return nothing (R601) -/

/-- The exceptions of R602 do not stand against an operation on a unit of Cantle's. -/
theorem ckGuard_owned (reaches : Reaches s) (own : ckOwner s.ck[(unitIx u).1] = 2) (enabled : s.ck[(unitIx u).1].disabled = false)
    (caughtUp : ckCatchUp (unitIx u) s = s) (effect : State → State) : ckGuard u false effect s = .next (effect s) := by
  rw [ckGuard, reaches.atX_eq]
  refine congrArg _ ((if_neg Bool.false_ne_true).trans ((if_neg ?_).trans ((if_neg ?_).trans (congrArg effect caughtUp))))
  · simp [own]
  · simp [enabled]

theorem ckGuard_ready (reaches : Reaches s) (ready : UnitReady s u) (effect : State → State) :
    ckGuard u false effect s = .next (effect s) := by
  obtain ⟨own, enabled, -, noOps, -⟩ := ready
  exact ckGuard_owned reaches own enabled (ckCatchUp_of_noOps noOps) effect

/-- An operation that changes its unit by `g` completes in one clock. -/
theorem unitOp_of_do (fetches : Fetches s) (straight : Straight s) (ready : UnitReady s u) {effect : State → State}
    (run : exec i s = ckGuard u false effect s) (sends : effect s = ckSend u o s)
    (does : ckDo (unitIx u) o (committed (unitIx u) o s) = setCk (unitIx u) g (committed (unitIx u) o s))
    (value : { g { s.ck[(unitIx u).1] with ops := [o], spec := none } with ops := [], held := false } =
      { f s.ck[(unitIx u).1] with spec := none, held := false }) : UnitOp s i u f := by
  have ⟨_, _, _, noOps, _⟩ := ready
  have noStop := fetches.reaches.noStop
  have issued : ckIssue (unitIx u) o s = setCk (unitIx u) (fun k => { f k with held := false, spec := none }) s := by
    rw [ckIssue_ready ready noStop.1, does, committed, setCk_setCk, setCk_setCk]
    exact setCk_congr value
  rw [ckGuard_ready fetches.reaches ready, sends, ckSend, noOps, if_neg (by decide),
    complete_of_straight (by rw [issued]; exact noStop) (by rw [issued]; exact straight), issued] at run
  exact run

/-- The same for an operation of which only the preset of the unit decides what it does. -/
theorem unitOp_of_preset (op : State → CkOp) (g : Ck → Ck) (fetches : Fetches s) (straight : Straight s) (ready : UnitReady s u)
    (run : exec i s = ckGuard u false (fun s => ckSend u (op s) s) s)
    (does : ∀ t : State, ckPreset t.ck[(unitIx u).1] = ckPreset s.ck[(unitIx u).1] →
      ckDo (unitIx u) (op s) t = setCk (unitIx u) g t)
    (value : { g { s.ck[(unitIx u).1] with ops := [op s], spec := none } with ops := [], held := false } =
      { f s.ck[(unitIx u).1] with spec := none, held := false }) : UnitOp s i u f :=
  unitOp_of_do fetches straight ready run rfl (does _ (by rw [committed_same]; rfl)) value

/-- An operation that completes at once without a change only ends its snapshot. -/
theorem unitOp_of_none (fetches : Fetches s) (straight : Straight s) (ready : UnitReady s u) {effect : State → State}
    (run : exec i s = ckGuard u false effect s) (sends : effect s = ckSend u o s)
    (does : ckDo (unitIx u) o (committed (unitIx u) o s) = committed (unitIx u) o s) : UnitOp s i u id := by
  have ⟨_, _, _, noOps, _⟩ := ready
  refine unitOp_of_do (g := id) fetches straight ready run sends (does.trans ?_) ?_
  · exact congrArg (fun v => { committed (unitIx u) o s with ck := v }) (upd_id _ _).symm
  · simp only [id, noOps]

end Units

/-! ### Bytes of a feed (R389) -/

section Bytes

variable (v : W32)

theorem extractLsb'_byte (k : Nat) : v.extractLsb' (8 * k) 8 = BitVec.ofNat 8 (v.toNat / 256 ^ k) := by
  rw [BitVec.extractLsb', Nat.shiftRight_eq_div_pow, Nat.pow_mul]

theorem bytesBE_one : bytesBE (2 ^ (0 : BitVec 2).toNat) v.toNat = [v.extractLsb' 0 8] := by
  rw [extractLsb'_byte v 0]
  simp only [Nat.pow_zero, Nat.div_one]
  rfl

theorem bytesBE_two : bytesBE (2 ^ (1 : BitVec 2).toNat) v.toNat = [v.extractLsb' 8 8, v.extractLsb' 0 8] := by
  rw [extractLsb'_byte v 0, extractLsb'_byte v 1, Nat.pow_zero, Nat.div_one]
  rfl

theorem bytesBE_four : bytesBE (2 ^ (2 : BitVec 2).toNat) v.toNat =
    [v.extractLsb' 24 8, v.extractLsb' 16 8, v.extractLsb' 8 8, v.extractLsb' 0 8] := by
  rw [extractLsb'_byte v 0, extractLsb'_byte v 1, extractLsb'_byte v 2, extractLsb'_byte v 3, Nat.pow_zero, Nat.div_one,
    show 256 ^ 3 = 256 * 256 * 256 from rfl, show 256 ^ 2 = 256 * 256 from rfl, Nat.pow_one, ← Nat.div_div_eq_div_mul,
    ← Nat.div_div_eq_div_mul]
  rfl

end Bytes

theorem exec_ckfeed {s : State} (u : BitVec 3) (a : BitVec 4) {size : BitVec 2} (defined : size ≠ 3) :
    exec (.ckfeed u a size false) s =
      ckGuard u false (fun s => ckSend u (.feed (bytesBE (2 ^ size.toNat) (gr a s).toNat)) s) s := by
  change execCkfeed u a size false s = _
  rw [execCkfeed, decide_eq_false defined]
  rfl

/-- A CKFEED feeds its bytes. -/
theorem unitOp_ckfeed {s : State} {u : BitVec 3} {a : BitVec 4} {size : BitVec 2} {bytes : List Byte} (fetches : Fetches s)
    (straight : Straight s) (ready : UnitReady s u) (defined : size ≠ 3)
    (feeds : bytesBE (2 ^ size.toNat) (gr a s).toNat = bytes) :
    UnitOp s (.ckfeed u a size false) u fun k => { k with
      raw := crcFeed (ckPreset s.ck[(unitIx u).1]) s.ck[(unitIx u).1].raw bytes } := by
  have ⟨_, _, _, noOps, _⟩ := ready
  refine unitOp_of_preset (fun s => .feed (bytesBE (2 ^ size.toNat) (gr a s).toNat))
    (fun k => { k with raw := crcFeed (ckPreset s.ck[(unitIx u).1]) k.raw bytes }) fetches straight ready
    (exec_ckfeed u a defined) (fun t preset => ?_) (by simp only [noOps])
  simp only [ckDo, preset, feeds]

/-! ### CKBLK (R409 to R411) -/

section Blocks

variable {s : State} {u : BitVec 3} {a b : BitVec 4} {cmp : Bool}

/-- The feed that a CKBLK issues: the bytes of data memory. -/
def blkFeed (a b : BitVec 4) (cmp : Bool) (s : State) : Feed :=
  { bytes := memReadList 0 s.cs.dmem (gr a s).toNat (gr b s).toNat, cmp := cmp, addr := (gr a s).toNat }

/-- What a CKBLK does at X: a block beyond data memory is an ADDRESS exception (R602). -/
def blkEffect (u : BitVec 3) (a b : BitVec 4) (cmp : Bool) (s : State) : State :=
  if (gr b s).toNat ≠ 0 ∧ (0x8000 ≤ (gr a s).toNat ∨ 0x8000 - (gr a s).toNat < (gr b s).toNat) then exception 2 (gr a s) s
  else ckSend u (.blk (blkFeed a b cmp s)) s

theorem exec_ckblk : exec (.ckblk u a b cmp false) s = ckGuard u false (blkEffect u a b cmp) s := rfl

theorem blkEffect_inside (h : gr b s = 0 ∨ (gr a s).toNat + (gr b s).toNat ≤ 0x8000) :
    blkEffect u a b cmp s = ckSend u (.blk (blkFeed a b cmp s)) s := by
  refine if_neg ?_
  rintro ⟨some, beyond⟩
  rcases h with zero | within
  · exact some (congrArg BitVec.toNat zero)
  · omega

/-- A CKBLK without bytes completes at once (R409). -/
theorem unitOp_ckblk_empty (fetches : Fetches s) (straight : Straight s) (ready : UnitReady s u) (zero : gr b s = 0) :
    UnitOp s (.ckblk u a b false false) u id := by
  refine unitOp_of_none fetches straight ready exec_ckblk (blkEffect_inside (.inl zero)) ?_
  have none : (blkFeed a b false s).bytes = [] := by simp [blkFeed, memReadList, zero]
  simp only [ckDo, none, List.isEmpty_nil, if_true]
  rfl

/-- A CKBLK with bytes becomes the feed in progress (R410). -/
theorem unitOp_ckblk (fetches : Fetches s) (straight : Straight s) (ready : UnitReady s u) (some : gr b s ≠ 0)
    (within : (gr a s).toNat + (gr b s).toNat ≤ 0x8000) :
    UnitOp s (.ckblk u a b cmp false) u fun k => { k with feed := Option.some { blkFeed a b cmp s with start := s.now } } := by
  have ⟨_, _, _, noOps, _⟩ := ready
  have bytes : (blkFeed a b cmp s).bytes.isEmpty = false := by
    rw [← Bool.not_eq_true, List.isEmpty_iff_length_eq_zero]
    simp only [blkFeed, memReadList, List.length_map, List.length_range]
    exact fun e => some (BitVec.eq_of_toNat_eq e)
  refine unitOp_of_do (o := .blk (blkFeed a b cmp s)) (g := fun k => { k with feed := Option.some { blkFeed a b cmp s with start := s.now } })
    fetches straight ready exec_ckblk (blkEffect_inside (.inr within)) ?_ (by simp only [noOps])
  simp only [ckDo, bytes, Bool.false_eq_true, if_false]
  rfl

end Blocks

/-! ### Operations that return a value (R407, R408, R420) -/

/-- What CKCMP returns: a compare that differs is a mismatch (R408). -/
def cmpEffect (d : BitVec 4) (u : BitVec 3) (a : BitVec 4) (s : State) : State :=
  setG d (flag (ckResult s.ck[(unitIx u).1] == ckMask (ckPreset s.ck[(unitIx u).1]) (gr a s))) (ckCompare (unitIx u) (gr a s) s)

theorem exec_ckget (d : BitVec 4) (u : BitVec 3) (x : CkFinding) (s : State) :
    exec (.ckget d u false x) s = ckGuard u false (ckReturn u x fun s => setG d s.ck[(unitIx u).1].raw s) s := rfl

theorem exec_ckfin (d : BitVec 4) (u : BitVec 3) (x : CkFinding) (s : State) :
    exec (.ckfin d u false x) s = ckGuard u false (ckReturn u x fun s => setG d (ckResult s.ck[(unitIx u).1]) s) s := rfl

theorem exec_ckcmp (d : BitVec 4) (u : BitVec 3) (a : BitVec 4) (x : CkFinding) (s : State) :
    exec (.ckcmp d u a false x) s = ckGuard u false (ckReturn u x (cmpEffect d u a)) s := rfl

section Returns

variable {i : Instr} {s : State} {u : BitVec 3} {d a : BitVec 4} {v : W32} {effect : State → State} {x : CkFinding}

theorem ckFree_ready (ready : UnitReady s u) (noMon : s.db.mon = false) : ckFree (unitIx u) s = true := by
  obtain ⟨-, -, noFeed, noOps, untested, -⟩ := ready
  simp [ckFree, noFeed, noOps, ckTesting_of_none untested, ckFrozen_of_noMon noMon]

/-- On a unit with nothing ahead the operation returns its value at once. -/
theorem exec_return (reaches : Reaches s) (ready : UnitReady s u) (run : exec i s = ckGuard u false (ckReturn u .good effect) s) :
    exec i s = .next (complete 2 effect s) := by
  have ⟨_, _, _, _, _, noEcc⟩ := ready
  rw [run, ckGuard_ready reaches ready, ckReturn, ckFree_ready ready reaches.noStop.1, if_neg (by decide), ckFound, noEcc]
  rfl

theorem computes_of_return (fetches : Fetches s) (straight : Straight s) (ready : UnitReady s u)
    (run : exec i s = ckGuard u false (ckReturn u .good effect) s) (returns : effect s = setG d v s) : Computes s i 2 d v :=
  computes_of_run fetches straight ((exec_return fetches.reaches ready run).trans (congrArg _ (by simp only [complete, returns])))

/-- A finding of the unit is its fault, and the operation raises the unit-fault exception (R420). -/
theorem exec_return_fault (reaches : Reaches s) (ready : UnitReady s u)
    (run : exec i s = ckGuard u false (ckReturn u x effect) s) (bad : x ≠ .good) :
    ∃ cause, exec i s = .next (exception 4 (unitAddr u) (ckFault (unitIx u) cause s)) := by
  rw [run, ckGuard_ready reaches ready, ckReturn, ckFree_ready ready reaches.noStop.1, if_neg (by decide)]
  cases x with
  | good => exact absurd rfl bad
  | shadow => exact ⟨2, rfl⟩
  | parity => exact ⟨4, rfl⟩

/-- A fault of CK4 to CK7 at a returning operation: the unit is out of service and Cantle traps. -/
theorem exec_return_fault_parts (fetches : Fetches s) (outside : s.cs.hl = false) (ready : UnitReady s u)
    (high : 4 ≤ (unitIx u).1) (run : exec i s = ckGuard u false (ckReturn u x effect) s) (bad : x ≠ .good) :
    ∃ t, exec i s = .next t ∧ t.ck[(unitIx u).1].disabled = true ∧ t.cs.hl = true ∧
      t.cs.tkind = (if s.cs.lcount = 0 then 0 else 0x100) + 4 ∧ t.cs.g = s.cs.g ∧ t.sys = s.sys := by
  obtain ⟨cause, answer⟩ := exec_return_fault fetches.reaches ready run bad
  obtain ⟨e, n, faulted⟩ := ckFault_reported (s := s) cause high
  obtain ⟨e', trap⟩ := exception_parts (addr := unitAddr u) 4 (s := ckFault (unitIx u) cause s) (by rw [faulted]; exact outside)
    (by rw [faulted]; exact fetches.reaches.noStop.1)
  rw [trap, faulted] at answer
  refine ⟨_, answer, ?_, rfl, rfl, rfl, rfl⟩
  exact congrArg Ck.disabled (setCk_same (unitIx u) ckOut s)

/-- A mismatch at a unit of Cantle's is marked and counted, and may be reported and pend its interrupt (R405, R408). -/
theorem ckMismatch_owned {n : Fin 8} (own : ckOwner s.ck[n.1] = 2) (k diff : Nat) : ∃ reported e p,
    ckMismatch n k diff s = { setCk n (ckMarked k reported) s with ev := e, cs := { s.cs with ipend := p } } ∧
      (4 ≤ n.1 → s.ck[n.1].evAt = none → bitOf p (n.1 - 3) = true) := by
  unfold ckMismatch
  dsimp only
  rw [if_pos own]
  split
  · obtain ⟨e, raised⟩ := raise_frame (0x1E0 + n.1) (misWord s.ck[n.1] k diff) (setCk n (fun u => { u with evAt := some s.now })
      (setCk n (fun u => { u with mis := true, lastk := BitVec.ofNat 4 k, cnt := satInc u.cnt }) s))
    refine ⟨some s.now, e, putBit s.cs.ipend (n.1 - 3) true, (congrArg (ipendSet (n.1 - 3)) raised).trans ?_, fun high _ => ?_⟩
    · rw [setCk_setCk]
      rfl
    · exact bitOf_putBit_same _ _ (by have := n.isLt; omega)
  · next quiet =>
    refine ⟨s.ck[n.1].evAt, s.ev, s.cs.ipend, setCk_congr rfl, fun high unreported => absurd ?_ quiet⟩
    rw [unreported]
    simp [high, limitOk]

/-- An operation on a unit of another owner traps as OWNER, one on a disabled unit as CKDIS (R602). -/
theorem traps_of_ckGuard (fetches : Fetches s) (outside : s.cs.hl = false) (run : exec i s = ckGuard u false effect s) :
    (ckOwner s.ck[(unitIx u).1] ≠ 2 → Traps s i 3 (u.zeroExtend 32)) ∧
      (ckOwner s.ck[(unitIx u).1] = 2 → s.ck[(unitIx u).1].disabled = true → Traps s i 4 (u.zeroExtend 32)) := by
  rw [ckGuard, fetches.reaches.atX_eq] at run
  refine ⟨fun other => ?_, fun own off => ?_⟩
  · exact traps_of_run fetches outside (run.trans (congrArg _ ((if_neg Bool.false_ne_true).trans (if_pos (by simp [other])))))
  · exact traps_of_run fetches outside (run.trans (congrArg _ ((if_neg Bool.false_ne_true).trans
      ((if_neg (by simp [own])).trans (if_pos off)))))

theorem cmpEffect_equal (same : ckResult s.ck[(unitIx u).1] = ckMask (ckPreset s.ck[(unitIx u).1]) (gr a s)) :
    cmpEffect d u a s = setG d 1 s := by
  have equal : ckCompare (unitIx u) (gr a s) s = s := if_pos same
  rw [cmpEffect, equal, beq_iff_eq.2 same]
  rfl

/-- A CKCMP that differs returns 0 and reports a mismatch (R408). -/
theorem exec_ckcmp_differs (fetches : Fetches s) (straight : Straight s) (ready : UnitReady s u)
    (differs : ckResult s.ck[(unitIx u).1] ≠ ckMask (ckPreset s.ck[(unitIx u).1]) (gr a s)) (high : 4 ≤ (unitIx u).1) :
    ∃ t, exec (.ckcmp d u a false) s = .next t ∧ WritesG s t d 0 ∧ t.ck[(unitIx u).1].mis = true ∧
      t.ck[(unitIx u).1].lastk = 3 ∧ t.ck[(unitIx u).1].cnt = satInc s.ck[(unitIx u).1].cnt ∧
      (∀ j : Fin 8, j.1 ≠ (unitIx u).1 → t.ck[j.1] = s.ck[j.1]) ∧
      (s.ck[(unitIx u).1].evAt = none → bitOf t.cs.ipend ((unitIx u).1 - 3) = true) ∧
      t = { s with ck := t.ck, ev := t.ev, cs := { s.cs with
        g := t.cs.g, ipend := t.cs.ipend, pc := s.cs.pc + 4, cycle := s.cs.cycle + 2 } } := by
  have ⟨own, _⟩ := ready
  obtain ⟨reported, e, p, mismatch, pends⟩ := ckMismatch_owned own 3 (ckResult s.ck[(unitIx u).1] ^^^ gr a s).toNat
  have marked : (setCk (unitIx u) (ckMarked 3 reported) s).ck[(unitIx u).1] = ckMarked 3 reported s.ck[(unitIx u).1] := setCk_same _ _ _
  obtain ⟨t, frame, effect⟩ : ∃ t : State, t = { setCk (unitIx u) (ckMarked 3 reported) s with ev := e, cs := { s.cs with ipend := p } } ∧
      cmpEffect d u a s = setG d 0 t := by
    refine ⟨_, rfl, ?_⟩
    rw [cmpEffect, ckCompare, if_neg differs, mismatch, beq_eq_false_iff_ne.2 differs]
    rfl
  have db : t.db = s.db := by rw [frame]; rfl
  have run := exec_return fetches.reaches ready (exec_ckcmp d u a .good s)
  rw [complete_of_straight (by rw [effect, setG_db, db]; exact fetches.reaches.noStop)
    (by rw [effect]; exact (straight_setG d 0 t).2 (by rw [frame]; exact straight)), effect] at run
  refine ⟨_, run, fun r => ?_, ?_, ?_, ?_, fun j other => ?_, fun unreported => ?_, ?_⟩
  · refine (gr_setG d r 0 t).trans ?_
    rw [frame]
    rfl
  all_goals rw [setG_frame, frame]
  · exact congrArg Ck.mis marked
  · exact congrArg Ck.lastk marked
  · exact congrArg Ck.cnt marked
  · exact get_upd_of_ne _ _ fun same => other (congrArg Fin.val same)
  · exact pends high unreported
  · rfl

/-! ### Behind a feed (R407, R412) -/

/-- An operation that enters the FIFO behind a feed. -/
theorem ckIssue_behind {f : Feed} (feeds : s.ck[(unitIx u).1].feed = some f) (untested : s.ck[(unitIx u).1].testing = none)
    (o : CkOp) : ckIssue (unitIx u) o s = setCk (unitIx u) (fun k => { k with ops := k.ops ++ [o], spec := none }) s := by
  have testing := ckTesting_of_none untested s.now
  have entered : ckAtD (unitIx u) o s = setCk (unitIx u) (fun k => { k with
      spec := some ⟨k.raw, k.exp, k.ops.length, k.held⟩, ops := k.ops ++ [o] }) s :=
    setCk_congr (by simp only [testing, Bool.or_false])
  have idle : ckTesting (ckAtD (unitIx u) o s).ck[(unitIx u).1] s.now = false := by
    rw [entered, setCk_same]
    exact testing
  have now : (ckAtD (unitIx u) o s).now = s.now := rfl
  simp only [ckIssue, ckAtX, now, idle, Bool.and_false, Bool.false_eq_true, if_false]
  rw [entered, setCk_setCk, ckCatchUp_of_feed]
  rw [setCk_same]
  simp [feeds]

/-- While a feed runs an operation that returns a value takes an entry and waits at X, or waits at D while the FIFO is full (R407,
R412). -/
theorem exec_return_waits {f : Feed} (fetches : Fetches s) (own : ckOwner s.ck[(unitIx u).1] = 2)
    (enabled : s.ck[(unitIx u).1].disabled = false) (feeds : s.ck[(unitIx u).1].feed = some f)
    (run : exec i s = ckGuard u false (ckReturn u x effect) s) :
    (s.ck[(unitIx u).1].ops.getLast? = some .ret → exec i s = .next { s with cs := { s.cs with stalled := true } }) ∧
      (s.ck[(unitIx u).1].ops.getLast? ≠ some .ret → s.ck[(unitIx u).1].ops.length < 32 →
        s.ck[(unitIx u).1].testing = none → exec i s = .next { s with
          ck := upd s.ck (unitIx u) fun y => { y with ops := y.ops ++ [.ret], spec := none },
          cs := { s.cs with stalled := true } }) ∧
      (s.ck[(unitIx u).1].ops.getLast? ≠ some .ret → 32 ≤ s.ck[(unitIx u).1].ops.length → exec i s = .next s) := by
  have free : ckFree (unitIx u) s = false := by simp [ckFree, feeds]
  rw [ckGuard_owned fetches.reaches own enabled (ckCatchUp_of_feed (by simp [feeds])), ckReturn, free,
    if_pos (by decide), ckWait] at run
  refine ⟨fun waits => ?_, fun first room untested => ?_, fun first full => ?_⟩
  · exact run.trans (congrArg _ (if_pos waits))
  · rw [if_neg first, if_neg (by omega), ckIssue_behind feeds untested] at run
    exact run
  · rw [if_neg first, if_pos full] at run
    exact run

end Returns

/-- Settles O49: an operation on a unit with nothing ahead acts at once (`unitOp_of_do`, `exec_return`), one on another unit traps
(`traps_of_ckGuard`), and one behind a feed waits (`exec_return_waits`). -/
theorem checkUnitOperationsActTrapOrWait : Obligations.CheckUnitOperationsActTrapOrWait := by
  constructor
  · intro s d a b u fetches straight ready p raw n
    have ⟨own, enabled, noFeed, noOps, untested, noEcc⟩ := ready
    refine ⟨?_, ?_, ?_, ?_, ?_, ?_, fun zero => ?_, fun cmp some within => ?_, ?_, ?_, fun same => ?_, fun differs high => ?_,
      fun high outside x bad => ?_⟩
    · refine unitOp_of_preset (fun _ => .init) (fun k => { k with raw := crcInit p }) fetches straight ready rfl
        (fun t preset => ?_) (by simp only [noOps])
      simp only [ckDo, preset]
      rfl
    · refine unitOp_of_preset (fun s => .set (gr a s)) (fun k => { k with raw := ckMask p (gr a s) }) fetches straight ready rfl
        (fun t preset => ?_) (by simp only [noOps])
      simp only [ckDo, preset]
      rfl
    · refine unitOp_of_preset (fun s => .exp (gr a s)) (fun k => { k with exp := ckMask p (gr a s) }) fetches straight ready rfl
        (fun t preset => ?_) (by simp only [noOps])
      simp only [ckDo, preset]
      rfl
    · exact unitOp_ckfeed fetches straight ready (by decide) (bytesBE_one _)
    · exact unitOp_ckfeed fetches straight ready (by decide) (bytesBE_two _)
    · exact unitOp_ckfeed fetches straight ready (by decide) (bytesBE_four _)
    · exact unitOp_ckblk_empty fetches straight ready zero
    · exact unitOp_ckblk fetches straight ready some within
    · exact computes_of_return fetches straight ready (exec_ckget d u .good s) rfl
    · exact computes_of_return fetches straight ready (exec_ckfin d u .good s) rfl
    · exact computes_of_return fetches straight ready (exec_ckcmp d u a .good s) (cmpEffect_equal same)
    · exact exec_ckcmp_differs fetches straight ready differs high
    · simp only [List.forall_mem_cons]
      exact ⟨exec_return_fault_parts fetches outside ready high (exec_ckget d u x s) bad,
        exec_return_fault_parts fetches outside ready high (exec_ckfin d u x s) bad,
        exec_return_fault_parts fetches outside ready high (exec_ckcmp d u a x s) bad, fun _ h => absurd h List.not_mem_nil⟩
  · intro s d a b u sz cmp x fetches outside
    refine ⟨?_, traps_of_exception fetches outside rfl (if_pos rfl), fun ready some beyond => ?_, fun f own enabled feeds => ?_⟩
    · simp only [List.forall_mem_cons]
      exact ⟨traps_of_ckGuard (effect := ckSend u .init) fetches outside rfl,
        traps_of_ckGuard (effect := fun s => ckSend u (.set (gr a s)) s) fetches outside rfl,
        traps_of_ckGuard (effect := fun s => ckSend u (.exp (gr a s)) s) fetches outside rfl,
        traps_of_ckGuard fetches outside exec_ckblk, traps_of_ckGuard fetches outside (exec_ckget d u x s),
        traps_of_ckGuard fetches outside (exec_ckfin d u x s), traps_of_ckGuard fetches outside (exec_ckcmp d u a x s),
        fun _ h => absurd h List.not_mem_nil⟩
    · refine traps_of_run fetches outside (exec_ckblk.trans ((ckGuard_ready fetches.reaches ready _).trans (congrArg _ (if_pos ?_))))
      have : (gr b s).toNat ≠ 0 := fun e => some (BitVec.eq_of_toNat_eq e)
      omega
    · simp only [List.forall_mem_cons]
      exact ⟨exec_return_waits fetches own enabled feeds (exec_ckget d u x s),
        exec_return_waits fetches own enabled feeds (exec_ckfin d u x s),
        exec_return_waits fetches own enabled feeds (exec_ckcmp d u a x s), fun _ h => absurd h List.not_mem_nil⟩

end Sys2Proof.Machine
end

section
/-! PROOFS. Scan starts (R550 to R553, R567): a scan that begins on time, one that overruns, and the watchdog fault. -/

namespace Sys2Proof.Machine

open Sys2Proof

/-! ### Degraded items and the watchdog fault (R79, Table CS-9) -/

section Items

variable {s : State}

/-- An item that stands for no unit yet begins to stand (R79). -/
theorem setItem_degsrc (i : Fin 10) {unit : Nat} (none : s.sys.deg[i.1].units = 0) :
    bitOf (setItem i unit s).sys.degsrc i.1 = true := by
  have fresh : ¬ bitOf s.sys.deg[i.1].units unit = true := by simp [none, bitOf]
  rw [setItem, if_neg fresh, record_sys, raise_sys]
  exact bitOf_putBit_same _ _ i.isLt

theorem setItem_mode (i : Fin 10) (unit : Nat) : (setItem i unit s).sys.mode = s.sys.mode := by
  unfold setItem
  dsimp only
  split
  · rfl
  · rw [record_sys, raise_sys]

/-- The state of a watchdog fault before its reports (R557, R567). -/
def watchdogFaulted (s : State) : State := { s with cs := { s.cs with wdf := true, permit := 0 } }

theorem itemsOnly_wdFault (kind count : Nat) (s : State) : ItemsOnly (watchdogFaulted s) (wdFault kind count s) := by
  obtain ⟨e, v, reported⟩ := raiseAt_record_frame (s := watchdogFaulted s) 0x1F8 (wdWord kind count) s.tstamp true
  have set := itemsOnly_setItem (eventRecord 0x1F8 (wdWord kind count) (raiseAt 0x1F8 (wdWord kind count) s.tstamp true
    (watchdogFaulted s))) 7 0
  exact (ItemsOnly.of_report reported).trans set

theorem wdFault_cs (kind count : Nat) (s : State) : (wdFault kind count s).cs = { s.cs with wdf := true, permit := 0 } := by
  rw [itemsOnly_wdFault kind count s]
  rfl

theorem wdFault_mode (kind count : Nat) (s : State) : (wdFault kind count s).sys.mode = s.sys.mode := by
  obtain ⟨e, v, reported⟩ := raiseAt_record_frame (s := watchdogFaulted s) 0x1F8 (wdWord kind count) s.tstamp true
  refine (setItem_mode (s := eventRecord 0x1F8 (wdWord kind count) (raiseAt 0x1F8 (wdWord kind count) s.tstamp true
    (watchdogFaulted s))) 7 0).trans ?_
  rw [reported]
  rfl

theorem wdFault_degsrc (kind count : Nat) (none : s.sys.deg[7].units = 0) :
    bitOf (wdFault kind count s).sys.degsrc 7 = true := by
  obtain ⟨e, v, reported⟩ := raiseAt_record_frame (s := watchdogFaulted s) 0x1F8 (wdWord kind count) s.tstamp true
  refine setItem_degsrc (s := eventRecord 0x1F8 (wdWord kind count) (raiseAt 0x1F8 (wdWord kind count) s.tstamp true
    (watchdogFaulted s))) 7 ?_
  rw [reported]
  exact none

end Items

/-! ### The image of a scan that begins (R551, R554) -/

section Image

variable (img : Vector Byte 144) (n : W32) (late : Bool) (s : State)

theorem markImage_number (j : Fin 4) : (markImage img n late)[4 + j.1]'(by omega) = BitVec.ofNat 8 (n.toNat / 256 ^ j.1) := by
  simp only [markImage, get_vec]
  rw [if_pos (by omega), Nat.add_sub_cancel_left, getD_bytesLE j.isLt]

theorem imageFlags_other (j : Fin 144) (h : j.1 < 9 ∨ 12 ≤ j.1) : (imageFlags img s)[j.1] = img[j.1] := by
  simp only [imageFlags, get_vec]
  rw [if_neg (by omega), if_neg (by omega)]

theorem scanImage_other (j : Fin 144) (h : j.1 < 4 ∨ j.1 = 8 ∨ 12 ≤ j.1) :
    (markImage (imageFlags img s) n late)[j.1] = img[j.1] :=
  (markImage_other _ n late j (by omega)).trans (imageFlags_other img s j (by omega))

end Image

/-! ### A scan that begins on time (R550, R551) -/

section Scans

variable {s : State} {n : W32}

/-- The sequencer in a scan that has begun. -/
def scanBegun (n : W32) (s : State) : Cs :=
  { s.cs with
    onTime := true, reached := false, late := false, scanAt := s.now, first := false, scanned := true, scanno := n,
    window := markImage (imageFlags s.cs.image s) n false }

theorem scanBegin_running (noFault : s.cs.wdf = false) (runs : s.cs.state ≠ .waitScan) :
    ∃ k e, scanBegin n s = { s with ck := k, ev := e, cs := scanBegun n s } := by
  obtain ⟨k, e, latched⟩ := scanLatch_frame (imageFlags s.cs.image s) n false (setCs (fun c => { c with
    onTime := true, reached := false, late := false, scanAt := s.now, first := false, scanned := true }) s)
  refine ⟨k, e, ?_⟩
  simp only [scanBegin, noFault, runs, Bool.false_and, Bool.false_eq_true, if_false]
  exact latched

/-- Cantle waiting in SCANW goes on at the next instruction (R551). -/
theorem scanBegin_waiting (noFault : s.cs.wdf = false) (waits : s.cs.state = .waitScan) (straight : Straight s)
    (noStop : NoStop s.db) : ∃ k e, scanBegin n s =
      { s with ck := k, ev := e, cs := { scanBegun n s with state := .running, pc := s.cs.pc + 4 } } := by
  obtain ⟨k, e, latched⟩ := scanLatch_frame (imageFlags s.cs.image s) n false (setCs (fun c => { c with
    onTime := true, reached := false, late := false, scanAt := s.now, first := false, scanned := true }) s)
  refine ⟨k, e, ?_⟩
  simp only [scanBegin, noFault, waits, Bool.false_and, Bool.false_eq_true, if_false, if_true, latched]
  rw [stepPc_of_straight (by exact straight), boundary_of_noStop (by exact noStop)]
  rfl

/-! ### An overrun (R551, R567) -/

/-- The sequencer after an overrun, before the watchdog. -/
def overran (s : State) : Cs :=
  { s.cs with
    overrun := satInc s.cs.overrun, ovcnt := satInc s.cs.ovcnt, onTime := false, scanAt := s.now, scanned := true,
    ipend := putBit s.cs.ipend 0 true }

theorem scanOverrun_below (below : s.cs.ovcnt.toNat + 1 < wdLimit s) :
    ∃ e a img, scanOverrun s = { s with ev := e, cs := { overran s with ovAt := a, image := img } } := by
  have under : ¬ wdLimit { s with cs := overran s } ≤ s.cs.ovcnt.toNat + 1 := Nat.not_le.2 below
  unfold scanOverrun
  dsimp only
  rw [if_neg (by exact under)]
  split
  · obtain ⟨e, raised⟩ := raise_frame 0x1F8 (wdWord 1 (s.cs.ovcnt.toNat + 1)) { s with cs := { overran s with ovAt := some s.now } }
    exact ⟨e, _, _, congrArg (fun s => setCs (fun c => { c with image := imageFlags c.image s }) s) raised⟩
  · exact ⟨_, _, _, rfl⟩

theorem scanOverrun_last (limit : wdLimit s ≤ s.cs.ovcnt.toNat + 1) (noFault : s.cs.wdf = false) :
    scanOverrun s = setCs (fun c => { c with image := imageFlags c.image (wdFault 2 (s.cs.ovcnt.toNat + 1) { s with cs := overran s }) })
      (wdFault 2 (s.cs.ovcnt.toNat + 1) { s with cs := overran s }) := by
  have fault : (if wdLimit { s with cs := overran s } ≤ s.cs.ovcnt.toNat + 1 then
      (if (overran s).wdf = true then { s with cs := overran s } else wdFault 2 (s.cs.ovcnt.toNat + 1) { s with cs := overran s })
      else if limitOk 1000000 (overran s).ovAt s.now = true then
        raise 0x1F8 (wdWord 1 (s.cs.ovcnt.toNat + 1)) { s with cs := { overran s with ovAt := some s.now } }
      else { s with cs := overran s }) = wdFault 2 (s.cs.ovcnt.toNat + 1) { s with cs := overran s } :=
    (if_pos limit).trans (if_neg (by simp [overran, noFault]))
  exact congrArg (fun s => setCs (fun c => { c with image := imageFlags c.image s }) s) fault


/-- The window of a scan that has begun (R551, R554). -/
theorem scanBegun_window (j : Fin 144) (h : j.1 < 4 ∨ j.1 = 8 ∨ 12 ≤ j.1) :
    (scanBegun n s).window[j.1] = s.cs.image[j.1] :=
  scanImage_other s.cs.image n false s j h

theorem scanBegun_number (j : Fin 4) : (scanBegun n s).window[4 + j.1]'(by omega) = BitVec.ofNat 8 (n.toNat / 256 ^ j.1) :=
  markImage_number (imageFlags s.cs.image s) n false j

/-! ### Which of the three a scan start is (R549 to R551) -/

theorem exec_scanStart_first (due : scanDue s = true) (first : s.cs.first = true) (runs : s.cs.state = .running) :
    exec .scanStart s = .next (scanBegin 0 s) := by
  have isFirst : firstScan s = true := by simp [firstScan, first, runs]
  exact congrArg Host.Outcome.next ((if_neg (by rw [due]; exact Bool.false_ne_true)).trans (if_pos isFirst))

theorem exec_scanStart_waiting (due : scanDue s = true) (later : s.cs.first = false) (waits : s.cs.state = .waitScan) :
    exec .scanStart s = .next (scanBegin (s.cs.scanno + 1) s) := by
  have notFirst : ¬ firstScan s = true := by simp [firstScan, later]
  exact congrArg Host.Outcome.next ((if_neg (by rw [due]; exact Bool.false_ne_true)).trans ((if_neg notFirst).trans (if_pos waits)))

theorem exec_scanStart_running (due : scanDue s = true) (later : s.cs.first = false) (runs : s.cs.state = .running) :
    exec .scanStart s = .next (scanOverrun s) := by
  have notFirst : ¬ firstScan s = true := by simp [firstScan, later]
  exact congrArg Host.Outcome.next ((if_neg (by rw [due]; exact Bool.false_ne_true)).trans ((if_neg notFirst).trans (if_neg (by rw [runs]; exact CsState.noConfusion))))

end Scans

/-- Settles O52: a due scan start is one of three (the first scan, a scan awaited in SCANW, an overrun), each with a normal form. -/
theorem scansBeginOnTheGridOrOverrun : Obligations.ScansBeginOnTheGridOrOverrun := by
  intro s service tick fresh grid noFault
  have due : scanDue s = true := by
    simp only [scanDue, service, tick, decide_true, Bool.true_and, Bool.and_eq_true, bne_iff_ne, Bool.or_eq_true,
      Bool.not_eq_true']
    exact ⟨fresh, grid.imp_right decide_eq_true⟩
  refine ⟨fun first running => ?_, fun later waits straight _ noSession noMon noStep => ?_, fun later running below => ?_,
    fun later running limit => ?_⟩
  case refine_1 =>
    obtain ⟨k, e, begun⟩ := scanBegin_running (n := 0) noFault (by simp [running])
    refine ⟨_, exec_scanStart_first due first running, ?_⟩
    rw [begun]
    refine ⟨rfl, rfl, rfl, rfl, rfl, scanBegun_window, fun j => (scanBegun_number j).trans ?_⟩
    simp
  case refine_2 =>
    obtain ⟨k, e, begun⟩ := scanBegin_waiting (n := s.cs.scanno + 1) noFault waits straight ⟨noMon, noStep, by rw [noSession]; rfl⟩
    refine ⟨_, exec_scanStart_waiting due later waits, ?_⟩
    rw [begun]
    exact ⟨rfl, rfl, rfl, rfl, rfl, rfl, scanBegun_number, scanBegun_window, rfl⟩
  case refine_3 =>
    obtain ⟨e, a, img, overruns⟩ := scanOverrun_below below
    refine ⟨_, exec_scanStart_running due later running, ?_⟩
    rw [overruns]
    exact ⟨rfl, rfl, bitOf_putBit_same _ _ (by omega), rfl, rfl, rfl, noFault, rfl, rfl⟩
  case refine_4 =>
    refine ⟨_, exec_scanStart_running due later running, ?_⟩
    rw [scanOverrun_last limit noFault]
    simp only [setCs, wdFault_cs]
    exact ⟨trivial, trivial, rfl, bitOf_putBit_same _ _ (by omega), wdFault_degsrc (s := { s with cs := overran s }) 2 (s.cs.ovcnt.toNat + 1)⟩

end Sys2Proof.Machine
end

section
/-! PROOFS. Interrupts, the timer and rewritten instruction rows, and what a host port does to Cantle: mailbox, HALT, RESTART (chapter 15). -/

namespace Sys2Proof.Machine

open Sys2Proof

/-! ### Writes of a port that is served (R64, R684) -/

section Ports

variable {p : Port} {a : Nat} {f : State → State} {s : State}

theorem portWrite_live (live : portLive s = true) : portWrite p a f s = f (countWrite p a s) := if_pos live

/-- A write to a word that keeps no login alive acts on a state that differs in the host bus. -/
theorem portWrite_counted (live : portLive s = true) (noLogin : loginWord a = false) : ∃ h, portWrite p a f s = f { s with hb := h } :=
  ⟨_, (portWrite_live live).trans (congrArg f (countWrite_frame_of_not_loginWord p a s noLogin))⟩

end Ports

/-! ### Bits and memories -/

/-- A list of bytes given by their place. -/
theorem getD_map_range {n k : Nat} (f : Nat → Byte) (h : k < n) : ((List.range n).map f).getD k 0 = f k := by
  rw [List.getD_eq_getElem?_getD, List.getElem?_map, List.getElem?_range h]
  rfl

theorem memRead_write_range {d : Byte} {m : List Host.Cell} (f : Nat → Byte) (a n x : Nat) (wf : Memory.wf d m = true) :
    memRead d (memWriteList d m a ((List.range n).map f)) x = if a ≤ x ∧ x < a + n then f (x - a) else memRead d m x := by
  rw [memRead_memWriteList _ _ _ wf, List.length_map, List.length_range]
  split
  · exact getD_map_range f (by omega)
  · rfl

/-! ### Interrupts and the timer (R558, R559) -/

section Interrupts

variable {s : State}

theorem intSource_eq_none (h : s.cs.ie = false ∨ s.cs.hl = true ∨ s.cs.ien &&& s.cs.ipend = 0) : intSource s = none := by
  obtain off | inHandler | noSource := h
  · simp [intSource, off]
  · simp [intSource, inHandler]
  · have bits (n : Nat) : (bitOf s.cs.ien n && bitOf s.cs.ipend n) = false := by
      rw [bitOf, bitOf, ← BitVec.getLsbD_and, noSource]
      exact BitVec.getLsbD_zero
    simp [intSource, bits]

/-- The enabled and pending source of lowest number is the one served. -/
theorem intSource_eq_some {n : Fin 8} (on : s.cs.ie = true) (outside : s.cs.hl = false) (goes : s.cs.stalled = false)
    (runs : s.cs.state = .running ∨ s.cs.state = .waitScan) (enabled : bitOf s.cs.ien n.1 = true)
    (pending : bitOf s.cs.ipend n.1 = true)
    (lowest : ∀ m : Fin 8, m.1 < n.1 → bitOf s.cs.ien m.1 = false ∨ bitOf s.cs.ipend m.1 = false) :
    intSource s = some n.1 := by
  have takes : (s.cs.ie && !s.cs.hl && !s.cs.stalled &&
      (s.cs.state = .running || s.cs.state = .waitScan || s.cs.state = .waitD)) = true := by
    obtain runs | runs := runs <;> simp [on, outside, goes, runs]
  refine (if_pos takes).trans (List.find?_range_eq_some.2 ⟨by simp [enabled, pending], List.mem_range.2 n.isLt, fun m below => ?_⟩)
  obtain no | no := lowest ⟨m, by omega⟩ below <;> simp [no]

theorem clocks_of_mon (noMon : s.db.mon = false) (k : Nat) :
    clocks k s = { s with cs := { s.cs with cycle := s.cs.cycle + BitVec.ofNat 32 k } } :=
  if_neg (by simp [frozen, noMon])

/-- An interrupt that enters from a Cantle that is not stopped (R559). -/
theorem enterInt_of_running (n : Nat) (runs : s.cs.state = .running ∨ s.cs.state = .waitScan) (noMon : s.db.mon = false) :
    enterInt n s = { s with db := { s.db with inh := false }, cs := { s.cs with
      state := .running, retpc := s.cs.pc, tkind := 0x80000000 + inLoop s + BitVec.ofNat 32 (16 * n), hl := true,
      pc := s.cfg.seqr.vbase + BitVec.ofNat 16 (16 * (n + 1)), cycle := s.cs.cycle + 3 } } := by
  have notStopped : s.cs.state ≠ .waitD := by obtain h | h := runs <;> simp [h]
  simp only [enterInt, notStopped, if_false, noMon, Bool.false_and]
  rw [clocks_of_mon rfl]
  simp only [setDb, setCs, ← noMon]
  rfl

theorem exec_interruptEntry_some {n : Nat} (source : intSource s = some n) : exec .interruptEntry s = .next (enterInt n s) := by
  change execInterruptEntry s = _
  rw [execInterruptEntry, source]

theorem exec_interruptEntry_none (source : intSource s = none) : exec .interruptEntry s = .next s := by
  change execInterruptEntry s = _
  rw [execInterruptEntry, source]

theorem exec_cantleTimerExpiry {t : Nat} (armed : s.cs.timerAt = some t) (runs : s.cs.timer ≠ 0) (noMon : s.db.mon = false) :
    exec .cantleTimerExpiry s = .next (if s.now < t then s else { s with cs := { s.cs with
      timerAt := some (t + s.cs.timer.toNat), ipend := s.cs.ipend ||| 0x80 } }) := by
  have going : frozen 0 s = false := by simp [frozen, noMon]
  change execCantleTimerExpiry s = _
  simp only [execCantleTimerExpiry, armed, runs, decide_false, going, Bool.false_or, decide_eq_true_eq]
  rfl

end Interrupts

/-! ### A rewritten row of instruction memory (R543, R544) -/

section Rewrite

variable {s : State}

/-- A rewritten row comes from the image, byte for byte, and every other row is as before. -/
theorem memRead_rewriteImem (row y : Nat) (wf : Memory.wf 0xFF s.cs.imem = true) :
    memRead 0xFF (rewriteImem row s).cs.imem y =
      if y / 512 = row then progInstr y s else memRead 0xFF s.cs.imem y := by
  unfold rewriteImem
  rw [memRead_write_range _ _ _ _ wf]
  by_cases inRow : y / 512 = row
  · rw [if_pos (by omega), if_pos inRow, show 512 * row + (y - 512 * row) = y by omega]
  · rw [if_neg (by omega), if_neg inRow]

/-- The state in which a row that could not be read has been noted. -/
def rowNoted (s : State) : State :=
  eccUncorrectable 8 (BitVec.ofNat 8 (s.cs.pc.toNat / 512)) (setCs (fun c => { c with imecc := satInc c.imecc }) s)

theorem noted_rowNoted (s : State) : Noted (setCs (fun c => { c with imecc := satInc c.imecc }) s) (rowNoted s) :=
  Noted.eccUncorrectable _ _ _

theorem exec_instructionRewriteDone (ok : Bool) (runs : s.cs.state = .running) : exec (.instructionRewriteDone ok) s =
    .next (if ok then rewriteImem (s.cs.pc.toNat / 512) (rowNoted s) else
      enterSafe 3 0x0007 (rewriteImem (s.cs.pc.toNat / 512) (rowNoted s))) := by
  change Host.Outcome.next (if s.cs.state ≠ .running then s else _) = _
  rw [if_neg (not_not_intro runs)]
  rfl

theorem exec_instructionRewriteDone_idle (ok : Bool) (idle : s.cs.state ≠ .running) :
    exec (.instructionRewriteDone ok) s = .next s :=
  congrArg Host.Outcome.next (if_pos idle)

theorem progInstr_congr {t : State} (cfg : t.cfg = s.cfg) (mem : t.nv.mem = s.nv.mem) (a : Nat) : progInstr a t = progInstr a s := by
  simp only [progInstr, nvByte, cfg, mem]

theorem rowNoted_parts (s : State) : ∃ x e n, SameStore n s.nv ∧
    rowNoted s = { s with st := x, ev := e, nv := n, cs := { s.cs with imecc := satInc s.cs.imecc } } := by
  obtain ⟨frame, store⟩ := noted_rowNoted s
  exact ⟨_, _, _, store, frame⟩

end Rewrite

/-! ### The mailbox (R570) -/

section Mailbox

variable {s : State} {n : Nat}

theorem mailSend_free (free : s.cs.inFull = false) (least : 1 ≤ n) (most : n ≤ 4) : ∃ k e, mailSend n s =
    { s with ck := k, ev := e, cs := { s.cs with inFull := true, inLen := BitVec.ofNat 3 n, ipend := s.cs.ipend ||| 0x20 } } := by
  let filled : State := { s with cs := { s.cs with inFull := true, inLen := BitVec.ofNat 3 n, ipend := s.cs.ipend ||| 0x20 } }
  obtain ⟨k, e, tapped⟩ := tapOut_frame 9 { bytes := mailBytes s.cs.mbin n } filled
  obtain ⟨e', raised⟩ := raise_frame 0x1FA (mailWord 1 n) { filled with ck := k, ev := e }
  refine ⟨k, e', (if_neg (by simp [free, mailLen, least, most])).trans ?_⟩
  exact (congrArg (raise 0x1FA (mailWord 1 n)) tapped).trans raised

theorem mailSend_refused (no : s.cs.inFull = true ∨ n = 0 ∨ 4 < n) : ∃ e, mailSend n s =
    { s with ev := e, cs := { s.cs with refused := true } } := by
  obtain ⟨e, raised⟩ := raise_frame 0x1FA (mailWord 3 n) { s with cs := { s.cs with refused := true } }
  refine ⟨e, (if_pos ?_).trans raised⟩
  obtain full | none | long := no
  · simp [full]
  · simp [mailLen, none]
  · simp [mailLen, Nat.not_le.2 long]

theorem mailAck_full {v : W16} (full : s.cs.outFull = true) (take : bitOf v 0 = true) : mailAck v s =
    { s with cs := { s.cs with outFull := false, outLen := 0, ipend := s.cs.ipend ||| 0x40 } } :=
  (if_pos take).trans (if_pos full)

theorem mailAck_nothing {v : W16} (h : s.cs.outFull = false ∨ bitOf v 0 = false) : mailAck v s = s := by
  unfold mailAck mailTake
  split
  · rename_i take
    exact if_neg (by simpa [take] using h)
  · rfl

theorem bitOf_zero_iff (v : W16) : bitOf v 0 = decide (v.toNat % 2 = 1) := by
  simp [bitOf, BitVec.getLsbD, Nat.testBit_zero]

end Mailbox

/-! ### HALT, RESTART and the reload of Cantle (R549, R572) -/

section HostControl

variable {s : State}

theorem csControl_refused (p : Port) (v : W16) (no : s.nv.login[0].on = false ∨ inService s = false) :
    csControl p v s = { s with cs := { s.cs with rej := true } } :=
  if_neg (by obtain h | h := no <;> simp [h])

theorem csControl_halt (login : s.nv.login[0].on = true) (service : inService s = true) (runs : s.cs.state ≠ .halted) :
    csControl .bus 0x5C01 s = cantleHalted 0xFF { s with cs := { s.cs with restart := none } } := by
  have accepted : Port.bus = .bus ∧ keyOf 0x5C01 = 0x5C ∧ s.nv.login[0].on = true ∧ inService s = true ∧
      (fld 0x5C01 3 0 = 1 ∨ fld 0x5C01 3 0 = 2) := ⟨rfl, by decide, login, service, .inl (by decide)⟩
  exact (if_pos accepted).trans ((if_pos (by decide)).trans (if_neg runs))

theorem csControl_restart (login : s.nv.login[0].on = true) (service : inService s = true) :
    csControl .bus 0x5C02 s = setCs (fun c => { c with permit := 0, restart := some s.now }) (cantleStop .held s) := by
  have accepted : Port.bus = .bus ∧ keyOf 0x5C02 = 0x5C ∧ s.nv.login[0].on = true ∧ inService s = true ∧
      (fld 0x5C02 3 0 = 1 ∨ fld 0x5C02 3 0 = 2) := ⟨rfl, by decide, login, service, .inr (by decide)⟩
  exact (if_pos accepted).trans (if_neg (by decide))

/-- A halted Cantle: the watchdog fault stands, no permit, and its memories are as before. -/
theorem cantleHalted_cs (count : Nat) (s : State) :
    (cantleHalted count s).cs = { s.cs with state := .halted, wdf := true, permit := 0 } :=
  wdFault_cs 4 count (cantleStop .halted s)

theorem cantleHalted_mode (count : Nat) (s : State) : (cantleHalted count s).sys.mode = s.sys.mode :=
  wdFault_mode 4 count (cantleStop .halted s)

theorem cantleHalted_degsrc (count : Nat) (none : s.sys.deg[7].units = 0) :
    bitOf (cantleHalted count s).sys.degsrc 7 = true :=
  wdFault_degsrc (s := cantleStop .halted s) 4 count none

theorem memRead_programImem (a : Nat) (s : State) : memRead 0xFF (programImem s) a = progInstr a s := by
  rw [programImem, memRead_write_range _ _ _ _ rfl, Nat.zero_add, Nat.sub_zero]
  by_cases inside : a < s.cfg.seqr.ilen.toNat
  · rw [if_pos ⟨Nat.zero_le a, inside⟩]
  · rw [if_neg (fun h => inside h.2), progInstr, if_neg inside]
    rfl

theorem memRead_programDmem (a : Nat) (s : State) : memRead 0 (programDmem s) a = progData a s := by
  rw [programDmem, memRead_write_range _ _ _ _ rfl, Nat.zero_add, Nat.sub_zero]
  by_cases inside : a < s.cfg.seqr.dlen.toNat
  · rw [if_pos ⟨Nat.zero_le a, inside⟩]
  · rw [if_neg (fun h => inside h.2), progData, if_neg inside]
    rfl

/-- Cantle started anew from the image. -/
def reloaded (s : State) : State := setDb (fun d => { d with patched := false }) (cantleStart (cantleMemories s))

theorem reloaded_frame (s : State) : reloaded s = { s with cs := (reloaded s).cs, db := { s.db with patched := false } } := rfl

theorem gr_reloaded (s : State) (r : BitVec 4) : gr r (reloaded s) = 0 := by
  simp [gr, reloaded, setDb, cantleStart, setCs]

theorem exec_cantleReloadDone (held : s.cs.restart.isSome = true) (service : inService s = true) :
    exec .cantleReloadDone s = .next (raise 0x1F8 (wdWord 5 0) (reloaded s)) := by
  have due : ¬ (s.cs.restart.isNone || !inService s) = true := by simp [service, Option.isSome_iff_ne_none.1 held]
  exact congrArg Host.Outcome.next (if_neg due)

theorem exec_cantleReloadDone_none (running : s.cs.restart = none) : exec .cantleReloadDone s = .next s :=
  congrArg Host.Outcome.next (if_pos (by simp [running]))

end HostControl

/-- Settles O53: each command's case is the equation above for its condition. -/
theorem interruptsMailboxesAndHostControlOfCantle : Obligations.InterruptsMailboxesAndHostControlOfCantle := by
  refine ⟨fun s n => ⟨fun on outside goes runs noMon enabled pending lowest => ?_, fun h => exec_interruptEntry_none (intSource_eq_none h),
    fun t0 armed counts noMon => ?_, fun runs wf => ⟨?_, fun notReset notSafe => ?_⟩, fun idle ok => exec_instructionRewriteDone_idle ok idle⟩,
    fun s p v notReset noClock => ?_⟩
  case refine_1 =>
    rw [exec_interruptEntry_some (intSource_eq_some on outside goes runs enabled pending lowest), enterInt_of_running _ runs noMon]
    rfl
  case refine_2 =>
    rw [exec_cantleTimerExpiry armed counts noMon]
    exact ⟨fun due => by rw [if_neg (Nat.not_lt.2 due)], fun early => by rw [if_pos early]⟩
  case refine_3 =>
    obtain ⟨x, e, n, store, noted⟩ := rowNoted_parts s
    have inImage (y : Nat) : progInstr y (rowNoted s) = progInstr y s :=
      progInstr_congr (by rw [noted]) (by rw [noted]; exact store.mem) y
    have byte (y : Nat) := memRead_rewriteImem (s := rowNoted s) (s.cs.pc.toNat / 512) y (by rw [noted]; exact wf)
    refine ⟨_, exec_instructionRewriteDone true runs, ?_, fun k inRow => ?_, fun y other => ?_, ?_⟩
    all_goals rw [if_pos rfl]
    · rw [rewriteImem, noted]
    · rw [byte, if_pos (by omega), inImage]
    · rw [byte, if_neg other, noted]
    · rw [rewriteImem, noted]
  case refine_4 =>
    obtain ⟨x, e, n, -, noted⟩ := rowNoted_parts s
    have sys : (rowNoted s).sys = s.sys := by rw [noted]
    refine ⟨_, exec_instructionRewriteDone false runs, ?_⟩
    rw [if_neg Bool.false_ne_true]
    exact inSafe_enterSafe (s := rewriteImem _ (rowNoted s)) (by rw [← sys] at notReset; exact notReset)
      (by rw [← sys] at notSafe; exact notSafe) 3 7
  case refine_5 =>
    have live := portLive_of_mode_of_clock notReset noClock
    have bit : bitOf v 0 = decide (v.toNat % 2 = 1) := bitOf_zero_iff v
    refine ⟨fun free least most => ?_, fun no => ?_, fun full take => ?_, fun nothing => ?_, fun login service => ⟨fun runs => ?_, ?_⟩,
      fun no => ?_, fun held service => ?_, fun running => exec_cantleReloadDone_none running⟩
    · obtain ⟨h, counted⟩ := portWrite_counted (p := p) (a := 0x1F4) (f := mailSend (fld v 2 0)) live (by decide)
      obtain ⟨k, e, sent⟩ := mailSend_free (s := { s with hb := h }) (n := fld v 2 0) free (by simpa [fld] using least) (by simpa [fld] using most)
      refine ⟨_, congrArg Host.Outcome.next (counted.trans sent), rfl, ?_, rfl, rfl⟩
      simp [fld]
    · obtain ⟨h, counted⟩ := portWrite_counted (p := p) (a := 0x1F4) (f := mailSend (fld v 2 0)) live (by decide)
      obtain ⟨e, sent⟩ := mailSend_refused (s := { s with hb := h }) (n := fld v 2 0) (by simpa [fld] using no)
      exact ⟨_, congrArg Host.Outcome.next (counted.trans sent), rfl, rfl⟩
    · obtain ⟨h, counted⟩ := portWrite_counted (p := p) (a := 0x1FA) (f := mailAck v) live (by decide)
      exact ⟨_, congrArg Host.Outcome.next (counted.trans (mailAck_full full (by simp [bit, take]))), rfl⟩
    · obtain ⟨h, counted⟩ := portWrite_counted (p := p) (a := 0x1FA) (f := mailAck v) live (by decide)
      exact ⟨_, congrArg Host.Outcome.next (counted.trans (mailAck_nothing (by simpa [bit] using nothing))), rfl⟩
    · obtain ⟨h, counted⟩ := portWrite_counted (p := .bus) (a := 0x1E1) (f := csControl .bus 0x5C01) live (by decide)
      refine ⟨_, congrArg Host.Outcome.next (counted.trans (csControl_halt login service runs)), ?_⟩
      rw [cantleHalted_cs, cantleHalted_mode]
      exact ⟨rfl, rfl, rfl, cantleHalted_degsrc (s := { s with hb := h, cs := { s.cs with restart := none } }) 0xFF, rfl, rfl, rfl⟩
    · obtain ⟨h, counted⟩ := portWrite_counted (p := .bus) (a := 0x1E1) (f := csControl .bus 0x5C02) live (by decide)
      exact ⟨_, congrArg Host.Outcome.next (counted.trans (csControl_restart login service)), rfl, rfl, rfl, rfl⟩
    · obtain ⟨h, counted⟩ := portWrite_counted (p := .bus) (a := 0x1E1) (f := csControl .bus v) live (by decide)
      have refused := counted.trans (csControl_refused .bus v no)
      simp only [List.forall_mem_cons]
      exact ⟨⟨_, congrArg Host.Outcome.next refused, rfl, rfl⟩, ⟨_, congrArg Host.Outcome.next refused, rfl, rfl⟩, fun _ h => absurd h List.not_mem_nil⟩
    · obtain ⟨e, raised⟩ := raise_frame 0x1F8 (wdWord 5 0) (reloaded s)
      refine ⟨_, (exec_cantleReloadDone held service).trans (congrArg Host.Outcome.next raised), rfl, rfl, rfl, rfl, rfl, rfl, rfl, ?_,
        gr_reloaded s, (memRead_programImem · s), (memRead_programDmem · s), ?_⟩
      · rfl
      · rw [reloaded_frame]

end Sys2Proof.Machine
end

section
/-! PROOFS. The debug port: which frames are heard (R613 to R620), sessions and run control (R614, R615, R631, R633). -/

namespace Sys2Proof.Machine

open Sys2Proof

/-! ### Frames that are heard, refused or not answered -/

section Frames

variable {s : State} {w : Wire} {f : State → State}

/-- The debug port serves frames: not in RESET and not under SAFE cause CLOCK. -/
theorem dbSilent_of_mode_of_clock (notReset : s.sys.mode ≠ .reset) (noClock : clockSafe s = false) : dbSilent s = false := by
  simp [dbSilent, notReset, noClock]

/-- The debug port as a frame on a wire leaves it before its effect. -/
def heard (w : Wire) (s : State) : State :=
  setDb (fun d => { d with
    lastFrame := if d.session = some w then s.now else d.lastFrame, partial_ := if w = .rstd then [] else d.partial_ }) s

theorem dbFrameIn_heard (serves : dbSilent s = false) (mine : otherWire w s = false) : dbFrameIn w f s = f (heard w s) :=
  if_neg (by simp [serves, mine])

theorem otherWire_of_session (session : s.db.session = some w ∨ s.db.session = none) : otherWire w s = false := by
  obtain h | h := session <;> simp [otherWire, h]

/-- The wire without the session gets no answer (R616). -/
theorem dbFrameIn_other {w' : Wire} (serves : dbSilent s = false) (session : s.db.session = some w') (other : w' ≠ w) :
    dbFrameIn w f s = dbAnswer .silent 0 0 s :=
  if_pos (by simp [serves, otherWire, session, other])

/-- An access in the session takes its effect. -/
theorem dbInSession_heard (serves : dbSilent s = false) (session : s.db.session = some w) : dbInSession w f s = f (heard w s) := by
  have on : onWire w (heard w s) = true := decide_eq_true session
  exact (dbFrameIn_heard serves (otherWire_of_session (.inl session))).trans (if_pos on)

end Frames

/-- An answer to a read carries the check byte of its header and data. -/
theorem dbData_chk (reg : Nat) (v : W32) (s : State) : (dbData reg v s).db.chk = dbChk (dbHeader false reg) v := rfl

/-! ### DB_CTL -/

section Control

variable {s : State} {w : Wire} {v : W32}

/-- The five commands that write DB_CTL differ in name only. -/
theorem exec_ctl (w : Wire) (v : W32) (s : State) :
    ∀ i ∈ [Instr.sessionOpen w v, .sessionClose w v, .debugStop w v, .debugResume w v, .debugStep w v], exec i s = ctlFrame w v s := by
  simp only [List.forall_mem_cons]
  exact ⟨rfl, rfl, rfl, rfl, rfl, fun _ h => absurd h List.not_mem_nil⟩

theorem ctlFrame_heard (serves : dbSilent s = false) (session : s.db.session = some w ∨ s.db.session = none) :
    ctlFrame w v s = .next (ctlWrite w v (heard w s)) :=
  congrArg Host.Outcome.next (dbFrameIn_heard serves (otherWire_of_session session))

theorem ctlWrite_wrongKey (key : v.toNat / 2 ^ 24 ≠ 0xA5) : ctlWrite w v s = dbReject s := if_pos key

theorem ctlWrite_close (key : v.toNat / 2 ^ 24 = 0xA5) (close : bitOf v 0 = false) (session : s.db.session.isSome = true) :
    ctlWrite w v s = dbOk (raise 0x1FB (dbWord 2 1 0) (sessionEnd s)) := by
  have open_ : ¬ s.db.session.isNone = true := by simp [Option.isSome_iff_ne_none.1 session]
  exact (if_neg (not_not_intro key)).trans ((if_pos (by simp [close])).trans (congrArg dbOk (if_neg open_)))

theorem ctlWrite_refused (key : v.toNat / 2 ^ 24 = 0xA5) (open_ : bitOf v 0 = true) (refused : dbCmdRefused v s = true) :
    ctlWrite w v s = dbReject s :=
  (if_neg (not_not_intro key)).trans ((if_neg (by simp [open_])).trans (if_pos refused))

theorem ctlWrite_accepted (key : v.toNat / 2 ^ 24 = 0xA5) (open_ : bitOf v 0 = true) (accepted : dbCmdRefused v s = false) :
    ctlWrite w v s = dbOk (dbCmdDo v (setDb (fun d => { d with monEn := bitOf v 1 }) (sessionBegin w s))) :=
  (if_neg (not_not_intro key)).trans ((if_neg (by simp [open_])).trans (if_neg (by simp [accepted])))

theorem sessionBegin_open (session : s.db.session = some w) : sessionBegin w s = s := if_pos (by rw [session]; rfl)

theorem sessionBegin_new (none : s.db.session = none) : ∃ e, sessionBegin w s = { s with ev := e, db := { s.db with
    session := some w, lastFrame := s.now, wire := decide (w = .rstd) } } := by
  obtain ⟨e, raised⟩ := raise_frame 0x1FB (dbWord 1 (wireInfo w) 0)
    (setDb (fun d => { d with session := some w, lastFrame := s.now, wire := decide (w = .rstd) }) s)
  exact ⟨e, (if_neg (by rw [none]; exact Bool.false_ne_true)).trans raised⟩

/-- Monitor mode as a command in the session enables it. -/
def armed (s : State) : State := setDb (fun d => { d with monEn := true }) s

theorem armed_monOn (session : s.db.session = some w) : monOn (armed s) = true := by
  simp [monOn, armed, setDb, session]

/-- An accepted command of the session acts with monitor mode enabled. -/
theorem ctlFrame_accepted (serves : dbSilent s = false) (session : s.db.session = some w) (key : v.toNat / 2 ^ 24 = 0xA5)
    (open_ : bitOf v 0 = true) (monitor : bitOf v 1 = true) (accepted : dbCmdRefused v s = false) :
    ctlFrame w v s = .next (dbOk (dbCmdDo v (armed (heard w s)))) := by
  have same : sessionBegin w (heard w s) = heard w s := sessionBegin_open (by exact session)
  rw [ctlFrame_heard serves (.inl session), ctlWrite_accepted key open_ (by exact accepted), same, monitor]
  rfl

theorem ctlFrame_rejected (serves : dbSilent s = false) (session : s.db.session = some w) (key : v.toNat / 2 ^ 24 = 0xA5)
    (open_ : bitOf v 0 = true) (refused : dbCmdRefused v s = true) : ctlFrame w v s = .next (dbReject (heard w s)) :=
  (ctlFrame_heard serves (.inl session)).trans (congrArg _ (ctlWrite_refused key open_ (by exact refused)))

theorem bitOf_sessionEnd (k : Fin 4) :
    bitOf (sessionEnd s).db.ibp[k.1] 0 = false ∧ bitOf (sessionEnd s).db.wa[k.1] 31 = false := by
  simp only [sessionEnd, get_mapv]
  exact ⟨bitOf_putBit_same _ _ (by omega), bitOf_putBit_same _ _ (by omega)⟩

/-- A Cantle at a stop goes on at DB_PC when the session ends. -/
theorem sessionEnd_stopped (mon : s.db.mon = true) (waits : s.cs.state = .waitD) :
    (sessionEnd s).cs = { s.cs with state := .running, pc := s.db.pc } := by
  simp [sessionEnd, leaveMonitor, mon, waits]

theorem sessionEnd_running (noMon : s.db.mon = false) : (sessionEnd s).cs = s.cs := by
  simp [sessionEnd, leaveMonitor, noMon]

end Control

/-! ### Stop, resume and step (R627, R631, R632) -/

section RunControl

variable {s : State}

theorem dbStop_running (runs : s.cs.state = .running) (outside : s.cs.hl = false) (monitor : monOn s = true)
    (noBreak : bpAt s.cs.pc s = none) : dbStop s = monStop 1 0 s := by
  rw [dbStop, if_pos ⟨runs, by simp [outside], monitor⟩, noBreak]

theorem dbStop_handler (inside : s.cs.hl = true) : dbStop s = { s with db := { s.db with stopReq := true } } :=
  if_neg (by simp [inside])

/-- A Cantle that has left its stop. -/
def gone (step : Bool) (s : State) : State :=
  { s with cs := { s.cs with pc := s.db.pc, state := .running },
           db := { s.db with mon := false, inh := false, skipBp := true, stepping := step } }

theorem dbGo_stopped (step : Bool) (atStop : s.db.inh = false) : dbGo step s = gone step s := by
  simp only [dbGo, atStop, Bool.false_eq_true, if_false]
  rfl

theorem dbResume_stopped (atStop : s.db.inh = false) :
    ∃ e a, dbResume s = { gone false s with ev := e, db := { (gone false s).db with resumeAt := a } } := by
  simp only [dbResume, dbGo_stopped false atStop]
  split
  · obtain ⟨e, raised⟩ := raise_frame 0x1FB (dbWord 4 0 0) (setDb (fun d => { d with resumeAt := some s.now }) (gone false s))
    exact ⟨e, _, raised⟩
  · exact ⟨_, _, rfl⟩

end RunControl

/-! ### Headers (R618) -/

/-- A header has the odd parity of its access, and names its direction and register. -/
theorem dbHeader_fields (write : Bool) (reg : Fin 64) : hdrOdd (dbHeader write reg.1) = true ∧
    hdrWrite (dbHeader write reg.1) = write ∧ hdrReg (dbHeader write reg.1) = reg.1 := by
  revert reg
  cases write <;> decide +kernel

theorem dbWriteReg_breakpoint (k : Fin 4) (v : W32) (s : State) : dbWriteReg (8 + k.1) v s =
    dbOk { s with db := { s.db with ibp := upd s.db.ibp k fun _ => v &&& 0x0000FFFD } } := by
  fin_cases k <;> rfl

section Registers

variable {s : State} {w : Wire} (v : W32)

/-- A write frame of the session reaches its register. -/
theorem exec_debugFrame_write (serves : dbSilent s = false) (session : s.db.session = some w) (reg : Fin 64) (notCtl : reg.1 ≠ 1) :
    exec (.debugFrame { wire := w, hdr := dbHeader true reg.1, data := v, chk := dbChk (dbHeader true reg.1) v }) s =
      .next (dbWriteReg reg.1 v (heard w s)) := by
  obtain ⟨odd, write, names⟩ := dbHeader_fields true reg
  have valid : frameOk { wire := w, hdr := dbHeader true reg.1, data := v, chk := dbChk (dbHeader true reg.1) v } = true := by
    simp [frameOk, odd]
  refine congrArg Host.Outcome.next ((if_neg (by simp [valid])).trans ((if_pos write).trans ?_))
  dsimp only
  rw [names, if_neg notCtl]
  exact dbInSession_heard serves session

/-- A valid read frame reaches its register, in a session or without one. -/
theorem exec_debugFrame_read {f : DbFrame} (serves : dbSilent s = false)
    (session : s.db.session = some f.wire ∨ s.db.session = none) (valid : frameOk f = true) (read : hdrWrite f.hdr = false) :
    exec (.debugFrame f) s = .next (dbReadAny f.wire (hdrReg f.hdr) (heard f.wire s)) :=
  congrArg Host.Outcome.next ((if_neg (by simp [valid])).trans ((if_neg (by simp [read])).trans
    (dbFrameIn_heard serves (otherWire_of_session session))))

/-- A frame with an error is counted and not answered (R620). -/
theorem exec_debugFrame_bad {f : DbFrame} (serves : dbSilent s = false) (bad : frameOk f = false) : exec (.debugFrame f) s =
    .next (dbAnswer .silent 0 0 (setDb (fun d => { d with
      ferr := satInc d.ferr, partial_ := if f.wire = .rstd then [] else d.partial_ }) s)) :=
  congrArg Host.Outcome.next ((if_pos (by simp [bad])).trans (if_neg (by simp [serves])))

end Registers

/-! ### The session's commands (R615, R627, R631, R633) -/

/-- The answer to a command, and what holds of the state with it. -/
def Answers (s : State) (i : Instr) (r : Resp) (P : State → Prop) : Prop := ∃ t, exec i s = .next t ∧ t.db.resp = r ∧ P t

section Commands

variable {s : State} {w : Wire} {v : W32} (serves : dbSilent s = false) (session : s.db.session = some w)

include serves session

theorem answers_close (key : v.toNat / 2 ^ 24 = 0xA5) (close : bitOf v 0 = false) : Answers s (.sessionClose w v) .ok fun t =>
    t.db.session = none ∧ t.db.monEn = false ∧
      t.db.mon = false ∧ t.db.freeze = 0 ∧ t.db.vtOut = [] ∧ t.db.vtIn = [] ∧ t.db.wdraw = s.db.wdraw ∧
      (∀ k : Fin 4, bitOf t.db.ibp[k.1] 0 = false ∧ bitOf t.db.wa[k.1] 31 = false) ∧
      (s.db.mon = true → s.cs.state = .waitD → t.cs.state = .running ∧ t.cs.pc = s.db.pc) ∧
      (s.db.mon = false → t.cs = s.cs) ∧ t = { s with db := t.db, ev := t.ev, cs := t.cs } := by
  obtain ⟨e, raised⟩ := raise_frame 0x1FB (dbWord 2 1 0) (sessionEnd (heard w s))
  have run := (ctlFrame_heard serves (.inl session)).trans (congrArg _ (ctlWrite_close key close (by exact session ▸ rfl)))
  rw [raised] at run
  refine ⟨_, run, rfl, rfl, rfl, rfl, rfl, rfl, rfl, rfl, bitOf_sessionEnd, fun mon waits => ?_, sessionEnd_running, rfl⟩
  exact ⟨congrArg Cs.state (sessionEnd_stopped mon waits), congrArg Cs.pc (sessionEnd_stopped mon waits)⟩

/-- A session without a frame for 10 s ends (R615). -/
theorem exec_sessionTimeout (late : s.db.lastFrame + 10000000 ≤ s.now) :
    ∃ t, exec .sessionTimeout s = .next t ∧ t.db.session = none ∧ t.db.monEn = false ∧ t.db.mon = false := by
  obtain ⟨e', raised⟩ := raise_frame 0x1FB (dbWord 2 2 0) (sessionEnd s)
  obtain ⟨e, n, recorded, -⟩ := record_frame 5 0x1FB (bytesLE 2 (dbWord 2 2 0).toNat) (raise 0x1FB (dbWord 2 2 0) (sessionEnd s))
  refine ⟨_, congrArg Host.Outcome.next (if_neg ?_), ?_⟩
  · simp [session, serves, Nat.not_lt.2 late]
  · rw [raiseRec, eventRecord, recorded, raised]
    exact ⟨rfl, rfl, rfl⟩

theorem answers_stop (runs : s.cs.state = .running) (noMon : s.db.mon = false) (outside : s.cs.hl = false)
    (noBreak : bpAt s.cs.pc s = none) : Answers s (.debugStop w 0xA5000103) .ok fun t => t.cs = { s.cs with state := .waitD } ∧
      t.db.mon = true ∧ t.db.reason = 1 ∧ t.db.pc = s.cs.pc ∧ t.db.stops = satInc s.db.stops ∧
      t = { s with db := t.db, ev := t.ev, cs := t.cs } := by
  have run := ctlFrame_accepted (v := 0xA5000103) serves session (by decide) (by decide) (by decide)
    (by simp [dbCmdRefused, dbCmd, bitOf, cantleOff, runs, noMon])
  have command : dbCmdDo 0xA5000103 (armed (heard w s)) = monStop 1 0 (armed (heard w s)) :=
    dbStop_running runs outside (armed_monOn session) noBreak
  obtain ⟨e, stopped⟩ := monStop_frame 1 0 (armed (heard w s))
  rw [command, stopped] at run
  exact ⟨_, run, rfl, rfl, rfl, rfl, rfl, rfl, rfl⟩

theorem answers_stopLater (runs : s.cs.state = .running) (noMon : s.db.mon = false) (inside : s.cs.hl = true) :
    Answers s (.debugStop w 0xA5000103) .ok fun t => t.db.stopReq = true ∧ t.db.mon = false ∧ t = { s with db := t.db } := by
  have run := ctlFrame_accepted (v := 0xA5000103) serves session (by decide) (by decide) (by decide)
    (by simp [dbCmdRefused, dbCmd, bitOf, cantleOff, runs, noMon])
  have command : dbCmdDo 0xA5000103 (armed (heard w s)) = _ := dbStop_handler inside
  rw [command] at run
  exact ⟨_, run, rfl, rfl, noMon, rfl⟩

theorem answers_goRefused (noMon : s.db.mon = false) :
    ∀ i ∈ [Instr.debugResume w 0xA5000203, .debugStep w 0xA5000403], Answers s i .reject fun t => t = { s with db := t.db } := by
  simp only [List.forall_mem_cons]
  refine ⟨⟨_, ctlFrame_rejected serves session (by decide) (by decide) ?_, rfl, rfl⟩,
    ⟨_, ctlFrame_rejected serves session (by decide) (by decide) ?_, rfl, rfl⟩, fun _ h => absurd h List.not_mem_nil⟩
  · simp [dbCmdRefused, dbCmd, bitOf, noMon]
  · simp [dbCmdRefused, dbCmd, bitOf, noMon]

theorem answers_resume (mon : s.db.mon = true) (atStop : s.db.inh = false) (waits : s.cs.state = .waitD) :
    Answers s (.debugResume w 0xA5000203) .ok fun t => t.cs = { s.cs with state := .running, pc := s.db.pc } ∧ t.db.mon = false ∧
      t.db.skipBp = true ∧ t.db.stepping = false ∧ t = { s with db := t.db, ev := t.ev, cs := t.cs } := by
  have run := ctlFrame_accepted (v := 0xA5000203) serves session (by decide) (by decide) (by decide)
    (by simp [dbCmdRefused, dbCmd, bitOf, cantleOff, waits, mon])
  obtain ⟨e, a, resumed⟩ := dbResume_stopped (s := armed (heard w s)) atStop
  have command : dbCmdDo 0xA5000203 (armed (heard w s)) = _ := resumed
  rw [command] at run
  exact ⟨_, run, rfl, rfl, rfl, rfl, rfl, rfl⟩

theorem answers_step (mon : s.db.mon = true) (atStop : s.db.inh = false) (waits : s.cs.state = .waitD) :
    Answers s (.debugStep w 0xA5000403) .ok fun t => t.cs = { s.cs with state := .running, pc := s.db.pc } ∧ t.db.mon = false ∧
      t.db.skipBp = true ∧ t.db.stepping = true ∧ t = { s with db := t.db, cs := t.cs } := by
  have run := ctlFrame_accepted (v := 0xA5000403) serves session (by decide) (by decide) (by decide)
    (by simp [dbCmdRefused, dbCmd, bitOf, cantleOff, waits, mon])
  have command : dbCmdDo 0xA5000403 (armed (heard w s)) = _ := dbGo_stopped true atStop
  rw [command] at run
  exact ⟨_, run, rfl, rfl, rfl, rfl, rfl, rfl⟩

theorem answers_stopRefused (mon : s.db.mon = true) :
    Answers s (.debugStop w 0xA5000103) .reject fun t => t.cs = s.cs ∧ t.db.mon = true := by
  refine ⟨_, ctlFrame_rejected serves session (by decide) (by decide) ?_, rfl, rfl, mon⟩
  simp [dbCmdRefused, dbCmd, bitOf, mon]

/-- A written breakpoint register takes its bits, and no other changes. -/
theorem answers_breakpoint (k : Fin 4) :
    Answers s (.debugFrame { wire := w, hdr := dbHeader true (8 + k.1), data := v, chk := dbChk (dbHeader true (8 + k.1)) v }) .ok
      fun t => t.db.ibp[k.1] = v &&& 0x0000FFFD ∧ (∀ j : Fin 4, j ≠ k → t.db.ibp[j.1] = s.db.ibp[j.1]) ∧ t = { s with db := t.db } := by
  have run := exec_debugFrame_write v serves session ⟨8 + k.1, by omega⟩ (by simp; omega)
  rw [dbWriteReg_breakpoint] at run
  exact ⟨_, run, rfl, (get_upd_same _ _ _), fun j other => get_upd_of_ne _ _ other, rfl⟩

/-- DB_PC is read with its check byte. -/
theorem answers_readPc : Answers s (.debugFrame { wire := w, hdr := dbHeader false 3 }) .ok fun t =>
    t.db.data = s.db.pc.setWidth 32 ∧ t.db.chk = dbChk (dbHeader false 3) (s.db.pc.setWidth 32) ∧ t = { s with db := t.db } := by
  obtain ⟨odd, read, -⟩ := dbHeader_fields false 3
  have valid : frameOk { wire := w, hdr := dbHeader false 3 } = true := by
    change (hdrOdd (dbHeader false 3) && (!hdrWrite (dbHeader false 3) || _)) = true
    rw [show hdrOdd (dbHeader false 3) = true from odd, show hdrWrite (dbHeader false 3) = false from read]
    rfl
  have run := exec_debugFrame_read (f := { wire := w, hdr := dbHeader false 3 }) serves (.inl session) valid read
  have on : onWire w (heard w s) = true := decide_eq_true session
  have read : dbReadAny w (hdrReg (dbHeader false 3)) (heard w s) = _ := if_pos on
  rw [read] at run
  exact ⟨_, run, rfl, rfl, rfl, rfl⟩

end Commands

/-- Settles O54: a frame that is heard is one of the equations above, on the debug port as the frame leaves it. -/
theorem debugSessionsAndRunControl : Obligations.DebugSessionsAndRunControl := by
  intro s w v f notReset noClock ans frameW
  have serves := dbSilent_of_mode_of_clock notReset noClock
  refine ⟨fun none key open_ noStop noResume noStep => ?_, fun session key i command => ?_, fun w' session other => ?_,
    fun session => ?_, fun none wire valid read => ?_, fun none bad => ?_, rfl, rfl⟩
  case refine_1 =>
    obtain ⟨e, begun⟩ := sessionBegin_new (s := heard w s) (w := w) none
    have accepted : dbCmdRefused v (heard w s) = false := by simp [dbCmdRefused, dbCmd, noStop, noResume, noStep]
    have command (x : State) : dbCmdDo v x = x := by simp [dbCmdDo, dbCmd, noStop, noResume, noStep]
    have run := (ctlFrame_heard serves (.inr none)).trans (congrArg _ (ctlWrite_accepted key open_ accepted))
    rw [begun, command] at run
    exact ⟨_, run, rfl, rfl, rfl, rfl, rfl⟩
  case refine_2 =>
    have run := (exec_ctl w v s i command).trans ((ctlFrame_heard serves session).trans (congrArg _ (ctlWrite_wrongKey key)))
    exact ⟨_, run, rfl, rfl, rfl, rfl⟩
  case refine_3 =>
    simp only [List.forall_mem_cons]
    have silent (f : State → State) : (.next (dbFrameIn w f s) : Result) = .next (dbAnswer .silent 0 0 s) :=
      congrArg Host.Outcome.next (dbFrameIn_other serves session other)
    exact ⟨silent _, silent _, silent _, silent _, silent _, fun _ h => absurd h List.not_mem_nil⟩
  case refine_4 =>
    exact ⟨answers_close serves session, exec_sessionTimeout serves session,
      fun early => congrArg Host.Outcome.next (if_pos (by simp [early])),
      fun runs noMon => ⟨answers_stop serves session runs noMon, answers_stopLater serves session runs noMon,
        answers_goRefused serves session noMon⟩,
      fun mon atStop waits => ⟨answers_resume serves session mon atStop waits, answers_step serves session mon atStop waits,
        answers_stopRefused serves session mon⟩,
      answers_breakpoint serves session, ⟨_, exec_debugFrame_write v serves session 4 (by decide), rfl, rfl, rfl⟩,
      answers_readPc serves session⟩
  case refine_5 =>
    have run := exec_debugFrame_read serves (.inr none) valid read
    have off : ¬ onWire f.wire (heard f.wire s) = true := by simp [onWire, heard, setDb, none]
    have any : dbReadAny f.wire (hdrReg f.hdr) (heard f.wire s) = _ := if_neg off
    rw [any] at run
    refine ⟨fun zero => ?_, fun other => ?_⟩
    · rw [if_pos zero, show dbRead 0 (heard f.wire s) = 0x00016416 from rfl] at run
      exact ⟨_, run, rfl, rfl, dbData_chk 0 0x00016416 _, rfl⟩
    · rw [if_neg other] at run
      exact ⟨_, run, rfl, rfl⟩
  case refine_6 => exact ⟨_, exec_debugFrame_bad serves bad, rfl, rfl, rfl⟩

end Sys2Proof.Machine
end

section
/-! PROOFS. Debug accesses to a stopped Cantle, the withdrawal and the terminal (R639 to R652). -/

namespace Sys2Proof.Machine

open Sys2Proof

/-! ### A word of memory (R469) -/

section Words

variable {d : Byte} {m : List Host.Cell} {a : Nat} (v : W32)

theorem memRead_memWrite32 (wf : Memory.wf d m = true) (x : Nat) : memRead d (memWrite32 d m a v) x =
    if a ≤ x ∧ x < a + 4 then BitVec.ofNat 8 (v.toNat / 256 ^ (x - a)) else memRead d m x := by
  rw [memWrite32, memRead_memWriteList _ _ _ wf, length_bytesLE]
  split
  · exact getD_bytesLE (by omega) _
  · rfl

theorem memRead32_memWrite32 (wf : Memory.wf d m = true) : memRead32 d (memWrite32 d m a v) a = v := by
  have byte (k : Nat) (low : k < 4) : (memRead d (memWrite32 d m a v) (a + k)).toNat = v.toNat / 256 ^ k % 256 := by
    rw [memRead_memWrite32 v wf, if_pos ⟨by omega, by omega⟩, Nat.add_sub_cancel_left, BitVec.toNat_ofNat]
  have top := v.isLt
  apply BitVec.eq_of_toNat_eq
  have low : (memRead d (memWrite32 d m a v) a).toNat = v.toNat % 256 := by simpa using byte 0 (by omega)
  rw [memRead32_toNat, low, byte 1 (by omega), byte 2 (by omega), byte 3 (by omega)]
  omega

end Words

/-! ### Accesses in WAITD (R639 to R643) -/

section Accesses

variable {s : State} {v : W32}

theorem dbWritten_frame (space : Nat) (s : State) : ∃ e n a, dbWritten space s =
    { s with ev := e, nv := n, db := { s.db with patched := true, writeAt := a } } := by
  have event : ∃ e a, (if limitOk 100000 s.db.writeAt s.now = true then
      raise 0x1FB (dbWord 6 space 0) (setDb (fun d => { d with patched := true, writeAt := some s.now }) s)
      else setDb (fun d => { d with patched := true }) s) = { s with ev := e, db := { s.db with patched := true, writeAt := a } } := by
    split
    · obtain ⟨e, raised⟩ := raise_frame 0x1FB (dbWord 6 space 0) (setDb (fun d => { d with patched := true, writeAt := some s.now }) s)
      exact ⟨e, _, raised⟩
    · exact ⟨_, _, rfl⟩
  obtain ⟨e, a, event⟩ := event
  obtain ⟨e', n, recorded, -⟩ := record_frame 5 0x1FB (bytesLE 2 (dbWord 6 space 0).toNat)
    { s with ev := e, db := { s.db with patched := true, writeAt := a } }
  exact ⟨e', n, a, (congrArg (eventRecord 0x1FB (dbWord 6 space 0)) event).trans recorded⟩

theorem dbWriteBarred_eq_false (waits : s.cs.state = .waitD) (allowed : inService s = false ∨ bitOf s.db.wdraw 8 = true) :
    dbWriteBarred s = false := by
  obtain h | h := allowed <;> simp [dbWriteBarred, waits, h]

theorem dbWriteBarred_of_service (service : inService s = true) (noWithdrawal : bitOf s.db.wdraw 8 = false) :
    dbWriteBarred s = true := by
  simp [dbWriteBarred, service, noWithdrawal]

theorem dbWriteBarred_of_running (runs : s.cs.state ≠ .waitD) : dbWriteBarred s = true := by
  simp [dbWriteBarred, runs]

theorem gdataAccess_read (waits : s.cs.state = .waitD) : gdataAccess false v s = dbData 5 (gr s.db.gsel s) s :=
  if_neg (not_not_intro waits)

theorem gdataAccess_write (allowed : dbWriteBarred s = false) :
    gdataAccess true v s = dbOk (dbWritten 0 (setG s.db.gsel v s)) :=
  (if_pos rfl).trans (if_neg (by simp [allowed]))

theorem gdataAccess_refused (write : Bool) (refused : dbWriteBarred s = true) (h : write = false → s.cs.state ≠ .waitD) :
    gdataAccess write v s = dbReject s := by
  cases write with
  | false => exact if_pos (h rfl)
  | true => exact (if_pos rfl).trans (if_pos refused)

theorem maSize_data (data : s.db.mspace = false) : maSize s = 0x8000 := if_neg (by simp [data])

theorem maRead_data (data : s.db.mspace = false) : maRead s = memRead32 0 s.cs.dmem (maWord s) := if_neg (by simp [data])

theorem mdataAccess_read (waits : s.cs.state = .waitD) (inside : s.db.maddr.toNat < maSize s) :
    mdataAccess false v .good s = dbData 7 (maRead s) s :=
  (if_neg (not_or.2 ⟨not_not_intro waits, Nat.not_le.2 inside⟩)).trans (if_neg (by decide))

theorem mdataAccess_write (allowed : dbWriteBarred s = false) (inside : s.db.maddr.toNat < maSize s)
    (unheld : s.db.mspace = true ∨ ckblkHolds (maWord s) s = false) :
    mdataAccess true v .good s = dbOk (dbWritten (b2n s.db.mspace) (maNext (maWrite v s))) := by
  refine (if_pos rfl).trans ((if_neg (by simp [allowed, inside])).trans (if_neg ?_))
  obtain h | h := unheld <;> simp [h]

theorem mdataAccess_refused (write : Bool) (h : dbWriteBarred s = true ∧ (write = false → s.cs.state ≠ .waitD) ∨
    maSize s ≤ s.db.maddr.toNat) : mdataAccess write v .good s = dbReject s := by
  cases write with
  | false => exact if_pos (h.imp_left fun h => h.2 rfl)
  | true => exact (if_pos rfl).trans (if_pos (by obtain ⟨barred, -⟩ | beyond := h <;> simp [*]))

/-- DB_MADDR stands still, or advances to the next word of its space. -/
theorem maNext_frame (s : State) : ∃ m, maNext s = { s with db := { s.db with maddr := m } } ∧
    m.toNat = if s.db.minc = true then (maWord s + 4) % maSize s else s.db.maddr.toNat := by
  unfold maNext
  split
  · refine ⟨_, rfl, ?_⟩
    have small : (maWord s + 4) % maSize s < 2 ^ 20 :=
      lt_of_lt_of_le (Nat.mod_lt _ (by unfold maSize; split <;> omega)) (by unfold maSize; split <;> omega)
    rw [BitVec.toNat_ofNat, Nat.mod_eq_of_lt small]
  · exact ⟨_, rfl, rfl⟩

/-- A word written in data memory. -/
theorem mdataAccess_write_data (data : s.db.mspace = false) (allowed : dbWriteBarred s = false) (inside : s.db.maddr.toNat < 0x8000)
    (unheld : ckblkHolds (maWord s) s = false) : ∃ e n d, mdataAccess true v .good s =
      dbOk { s with ev := e, nv := n, db := d, cs := { s.cs with dmem := memWrite32 0 s.cs.dmem (maWord s) v } } ∧
        d.maddr.toNat = if s.db.minc = true then (maWord s + 4) % 0x8000 else s.db.maddr.toNat := by
  have size := maSize_data data
  have word : maWrite v s = { s with cs := { s.cs with dmem := memWrite32 0 s.cs.dmem (maWord s) v } } := if_neg (by simp [data])
  rw [mdataAccess_write allowed (by rw [size]; exact inside) (.inr unheld), word]
  obtain ⟨m, next, addr⟩ := maNext_frame { s with cs := { s.cs with dmem := memWrite32 0 s.cs.dmem (maWord s) v } }
  obtain ⟨e, n, a, written⟩ := dbWritten_frame (b2n s.db.mspace)
    { s with cs := { s.cs with dmem := memWrite32 0 s.cs.dmem (maWord s) v }, db := { s.db with maddr := m } }
  rw [next, written]
  refine ⟨_, _, _, rfl, addr.trans ?_⟩
  rw [← size]
  rfl

/-- A word written in instruction memory. -/
theorem mdataAccess_write_instr (instr : s.db.mspace = true) (allowed : dbWriteBarred s = false)
    (inside : s.db.maddr.toNat < 0x10000) : ∃ e n d, mdataAccess true v .good s =
      dbOk { s with ev := e, nv := n, db := d, cs := { s.cs with imem := memWrite32 0xFF s.cs.imem (maWord s) v } } := by
  have size : maSize s = 0x10000 := if_pos instr
  have word : maWrite v s = { s with cs := { s.cs with imem := memWrite32 0xFF s.cs.imem (maWord s) v } } := if_pos instr
  rw [mdataAccess_write allowed (by rw [size]; exact inside) (.inl instr), word]
  obtain ⟨m, next, -⟩ := maNext_frame { s with cs := { s.cs with imem := memWrite32 0xFF s.cs.imem (maWord s) v } }
  obtain ⟨e, n, a, written⟩ := dbWritten_frame (b2n s.db.mspace)
    { s with cs := { s.cs with imem := memWrite32 0xFF s.cs.imem (maWord s) v }, db := { s.db with maddr := m } }
  rw [next, written]
  exact ⟨_, _, _, rfl⟩

end Accesses

/-! ### The withdrawal (R651, R652) -/

section Withdrawal

variable {s : State} {v : BitVec 9}

theorem wdrawWrite_same (same : s.db.wdraw = v) : wdrawWrite v s = s := if_pos same

theorem wdrawWrite_new (new : s.db.wdraw ≠ v) : ∃ e n, wdrawWrite v s = { s with
    ev := e, nv := n, db := { s.db with wdraw := v, wdrawC := ~~~v }, grid := { s.grid with latch := some s.now } } := by
  obtain ⟨e, n, reported⟩ := raiseAt_record_frame (s := noteLatch (setDb (fun d => { d with wdraw := v, wdrawC := ~~~v }) s))
    0x1FB (dbWord 5 (b2n (bitOf v 8)) (withdrawMap v)) s.tstamp true
  exact ⟨e, n, (if_neg new).trans reported⟩

theorem exec_withdrawCopyMismatch_new (good : s.db.copyFault = false) (notReset : s.sys.mode ≠ .reset) :
    ∃ e n, exec .withdrawCopyMismatch s = .next { s with ev := e, nv := n, db := { s.db with copyFault := true } } := by
  obtain ⟨e, raised⟩ := raise_frame 0x1FB (dbWord 7 0 0) (setDb (fun d => { d with copyFault := true }) s)
  obtain ⟨e', n, recorded, -⟩ := record_frame 5 0x1FB (bytesLE 2 (dbWord 7 0 0).toNat)
    { s with ev := e, db := { s.db with copyFault := true } }
  refine ⟨e', n, congrArg Host.Outcome.next ((if_neg (by simp [good, notReset])).trans ?_)⟩
  exact (congrArg (eventRecord 0x1FB (dbWord 7 0 0)) raised).trans recorded

end Withdrawal

/-! ### The terminal (R646) -/

section Terminal

variable {s : State} {v : W32}

theorem vtRead_empty (empty : s.db.vtOut = []) : vtRead s =
    dbData 0x1C (if s.db.lost = true then 0x200 else 0) (setDb (fun d => { d with lost := false }) s) := by
  rw [vtRead, empty]

theorem vtRead_oldest {c : Byte} {q : List Byte} (out : s.db.vtOut = c :: q) : vtRead s =
    dbData 0x1C (c.setWidth 32 + 0x100 + if s.db.lost = true then 0x200 else 0)
      (setDb (fun d => { d with vtOut := q, lost := false }) s) := by
  rw [vtRead, out]

theorem vtWrite_room (room : s.db.vtIn.length < 16) :
    vtWrite v s = dbOk (setDb (fun d => { d with vtIn := d.vtIn ++ [v.setWidth 8] }) s) := if_pos room

theorem vtWrite_full (full : s.db.vtIn.length = 16) :
    ∃ e a, vtWrite v s = dbReject { s with ev := e, cs := { s.cs with termAt := a } } := by
  obtain ⟨e, a, reported⟩ := termEvent_frame 9 s
  exact ⟨e, a, (if_neg (by omega)).trans (congrArg dbReject reported)⟩

end Terminal

/-- Settles O55: each access is heard in the session, and then one of the equations above. -/
theorem debugAccessesReachStoppedCantleAndTheWithdrawal : Obligations.DebugAccessesReachStoppedCantleAndTheWithdrawal := by
  intro s w v notReset noClock session ans x
  have run (f : State → State) : (.next (dbInSession w f s) : Result) = .next (f (heard w s)) :=
    congrArg Host.Outcome.next (dbInSession_heard (dbSilent_of_mode_of_clock notReset noClock) session)
  have atWord : maWord (heard w s) = s.db.maddr.toNat / 4 * 4 := rfl
  refine ⟨fun waits => ⟨?_, fun allowed => ?_, fun service noWithdrawal => ?_, fun data inside => ⟨?_, fun allowed unheld wf => ?_⟩,
    fun instr inside => ⟨?_, fun allowed wf => ?_⟩, fun data beyond wr => ?_⟩, fun runs wr => ?_, ?_, fun good => ?_, fun fault => ?_,
    fun c q out => ?_, fun empty => ?_, fun room => ?_, fun full => ?_⟩
  case refine_1 => exact ⟨_, (run _).trans (congrArg _ (gdataAccess_read (s := heard w s) waits)), rfl, rfl, rfl⟩
  case refine_2 =>
    obtain ⟨e, n, a, written⟩ := dbWritten_frame 0 (setG s.db.gsel v (heard w s))
    have access := (gdataAccess_write (s := heard w s) (v := v) (dbWriteBarred_eq_false waits allowed)).trans (congrArg dbOk written)
    refine ⟨_, (run _).trans (congrArg _ access), rfl, fun r => ?_, rfl, ?_⟩
    · exact gr_setG s.db.gsel r v (heard w s)
    · rw [setG_frame]
      exact ⟨rfl, rfl, rfl⟩
  case refine_3 =>
    have barred := dbWriteBarred_of_service (s := heard w s) service noWithdrawal
    simp only [List.forall_mem_cons]
    exact ⟨⟨_, (run _).trans (congrArg _ (gdataAccess_refused true barred nofun)), rfl, rfl⟩,
      ⟨_, (run _).trans (congrArg _ (mdataAccess_refused true (.inl ⟨barred, nofun⟩))), rfl, rfl⟩, fun _ h => absurd h List.not_mem_nil⟩
  case refine_4 =>
    have size : maSize (heard w s) = 0x8000 := maSize_data data
    have word : maRead (heard w s) = memRead32 0 s.cs.dmem x := maRead_data data
    have access := mdataAccess_read (v := v) (s := heard w s) waits (by rw [size]; exact inside)
    exact ⟨_, (run _).trans (congrArg _ access), rfl, word, rfl⟩
  case refine_5 =>
    obtain ⟨e, n, d, access, addr⟩ := mdataAccess_write_data (v := v) (s := heard w s) data (dbWriteBarred_eq_false waits allowed) inside unheld
    refine ⟨_, (run _).trans (congrArg _ access), rfl, memRead32_memWrite32 v wf, fun a other => ?_, rfl, addr⟩
    exact (memRead_memWrite32 v wf a).trans (if_neg (by omega))
  case refine_6 =>
    have size : maSize (heard w s) = 0x10000 := if_pos instr
    have access := mdataAccess_read (v := v) (s := heard w s) waits (by rw [size]; exact inside)
    exact ⟨_, (run _).trans (congrArg _ access), rfl, if_pos instr, rfl⟩
  case refine_7 =>
    obtain ⟨e, n, d, access⟩ := mdataAccess_write_instr (v := v) (s := heard w s) instr (dbWriteBarred_eq_false waits allowed) inside
    refine ⟨_, (run _).trans (congrArg _ access), rfl, memRead32_memWrite32 v wf, fun a other => ?_, rfl⟩
    exact (memRead_memWrite32 v wf a).trans (if_neg (by omega))
  case refine_8 =>
    have size : maSize (heard w s) = 0x8000 := maSize_data data
    have access := mdataAccess_refused (v := v) (s := heard w s) wr (.inr (by rw [size]; exact beyond))
    exact ⟨_, (run _).trans (congrArg _ access), rfl, rfl⟩
  case refine_9 =>
    have barred := dbWriteBarred_of_running (s := heard w s) runs
    simp only [List.forall_mem_cons]
    exact ⟨⟨_, (run _).trans (congrArg _ (gdataAccess_refused wr barred fun _ => runs)), rfl, rfl⟩,
      ⟨_, (run _).trans (congrArg _ (mdataAccess_refused wr (.inl ⟨barred, fun _ => runs⟩))), rfl, rfl⟩,
      fun _ h => absurd h List.not_mem_nil⟩
  case refine_10 =>
    by_cases same : s.db.wdraw = v.setWidth 9
    · have write := wdrawWrite_same (s := heard w s) same
      exact ⟨_, (run _).trans (congrArg _ (congrArg dbOk write)), rfl, same, fun new => absurd same new, rfl⟩
    · obtain ⟨e, n, write⟩ := wdrawWrite_new (s := heard w s) same
      exact ⟨_, (run _).trans (congrArg _ (congrArg dbOk write)), rfl, rfl, fun _ => ⟨rfl, rfl⟩, rfl⟩
  case refine_11 =>
    obtain ⟨e, n, marked⟩ := exec_withdrawCopyMismatch_new good notReset
    exact ⟨_, marked, rfl, rfl⟩
  case refine_12 => exact congrArg Host.Outcome.next (if_pos (by simp [fault]))
  case refine_13 =>
    refine ⟨_, (run _).trans (congrArg _ (vtRead_oldest (s := heard w s) out)), rfl, rfl, rfl, ?_, rfl⟩
    exact congrArg (· + _) (BitVec.add_comm _ _)
  case refine_14 => exact ⟨_, (run _).trans (congrArg _ (vtRead_empty (s := heard w s) empty)), rfl, empty, rfl⟩
  case refine_15 => exact ⟨_, (run _).trans (congrArg _ (vtWrite_room (s := heard w s) room)), rfl, rfl, rfl⟩
  case refine_16 =>
    obtain ⟨e, a, write⟩ := vtWrite_full (v := v) (s := heard w s) full
    exact ⟨_, (run _).trans (congrArg _ write), rfl, rfl⟩

end Sys2Proof.Machine
end

section
/-! PROOFS. The semaphore of the ports, strobe conflicts and snapshots (R660, R674 to R676, R688). -/

namespace Sys2Proof.Machine

open Sys2Proof

/-! ### The semaphore (R688) -/

section Owner

variable {s : State} {p : Port}

/-- A command on HB_OWNER changes the host bus only, and the counted write before it leaves owner, tag and DENIED. -/
theorem ownerWrite {f : State → State} {o : BitVec 2} {g : Byte} {d : Bool} (live : portLive s = true)
    (h : ∀ b, b.owner = s.hb.owner → b.tag = s.hb.tag → b.port[p.ix.1].denied = s.hb.port[p.ix.1].denied →
      ∃ b', f { s with hb := b } = { s with hb := b' } ∧ b'.owner = o ∧ b'.tag = g ∧ b'.port[p.ix.1].denied = d) :
    ∃ t, (.next (portWrite p 0x031 f s) : Result) = .next t ∧ t.hb.owner = o ∧ t.hb.tag = g ∧
      t.hb.port[p.ix.1].denied = d ∧ t = { s with hb := t.hb } := by
  have counted := countWrite_frame_of_not_loginWord p 0x031 s (by decide)
  have denied : (countWrite p 0x031 s).hb.port[p.ix.1].denied = s.hb.port[p.ix.1].denied := by rw [countWrite_port_same]
  have owner : (countWrite p 0x031 s).hb.owner = s.hb.owner ∧ (countWrite p 0x031 s).hb.tag = s.hb.tag := by
    simp [countWrite]
  obtain ⟨b, effect, owned, tagged, refused⟩ := h _ owner.1 owner.2 denied
  refine ⟨_, congrArg Host.Outcome.next ((portWrite_live live).trans ((congrArg f counted).trans effect)), owned, tagged, refused, rfl⟩

theorem ownerDeny_denied : (ownerDeny p s).hb.port[p.ix.1].denied = true := by
  rw [ownerDeny, setPort_port_same]

end Owner

/-! ### Snapshots (R674 to R676) -/

section Snapshots

variable {s : State} {p : Port} {a : Nat} {w : W16}

theorem lookup_filter_ne {a b : Nat} (l : List (Nat × W16)) (other : b ≠ a) :
    (l.filter fun x => x.1 ≠ a).lookup b = l.lookup b := by
  induction l with
  | nil => rfl
  | cons x l ih =>
    by_cases here : x.1 = a
    · rw [List.filter_cons_of_neg (by simp [here]), ih, List.lookup_cons, here, beq_false_of_ne other]
    · rw [List.filter_cons_of_pos (by simp [here]), List.lookup_cons, List.lookup_cons, ih]

theorem snapPut_lookup_same : (snapPut p a w s).hb.port[p.ix.1].snap.lookup a = some w := by
  rw [snapPut, setPort_port_same, List.lookup_cons_self]

theorem snapPut_lookup_other {b : Nat} (other : b ≠ a) :
    (snapPut p a w s).hb.port[p.ix.1].snap.lookup b = s.hb.port[p.ix.1].snap.lookup b := by
  rw [snapPut, setPort_port_same, List.lookup_cons, beq_false_of_ne other]
  exact lookup_filter_ne _ other

theorem snapPut_data : (snapPut p a w s).hb.port[p.ix.1].data = s.hb.port[p.ix.1].data := by
  rw [snapPut, setPort_port_same]

theorem snapPut_port_other : (snapPut p a w s).hb.port[(otherPort p).ix.1] = s.hb.port[(otherPort p).ix.1] :=
  setPort_port_other p s _

/-- A snapshot read is the read of its word and the latching of its upper words. -/
theorem exec_snapshotRead {a : BitVec 9} (runs : s.sys.mode ≠ .reset) (defined : ∀ s, openWord a.toNat s = false)
    (low : isUpper a.toNat = false) : exec (.snapshotRead p a) s =
      .next (latchUpper p a.toNat (rsUpper a.toNat) (portData p (liveWord p a.toNat s) s)) := by
  have value : readWord p a.toNat s = liveWord p a.toNat s := (if_neg runs).trans (if_neg (by simp [low]))
  have read : readSnap p a.toNat s = latchUpper p a.toNat (rsUpper a.toNat) (portData p (readWord p a.toNat s) s) :=
    (if_neg runs).trans (if_neg (by simp [defined]))
  exact congrArg Host.Outcome.next (read.trans (by rw [value]))

end Snapshots

/-- Settles O57: the commands by their condition, and a snapshot read by what each latched word then shows. -/
theorem portsShareTheSemaphoreAndLatchSnapshots : Obligations.PortsShareTheSemaphoreAndLatchSnapshots := by
  intro s p tag runs me own
  refine ⟨fun noClock => ?_, congrArg Host.Outcome.next (if_neg runs), ?_, ?_⟩
  case refine_1 =>
    have live := portLive_of_mode_of_clock runs noClock
    have denies {f : State → State} (h : ∀ b : Hb, b.owner = s.hb.owner → f { s with hb := b } = ownerDeny p { s with hb := b }) :
        ∃ t, (.next (portWrite p 0x031 f s) : Result) = .next t ∧ t.hb.owner = s.hb.owner ∧ t.hb.tag = s.hb.tag ∧
          t.hb.port[p.ix.1].denied = true ∧ t = { s with hb := t.hb } :=
      ownerWrite live fun b owner tag _ => ⟨_, h b owner, owner, tag, ownerDeny_denied (s := { s with hb := b })⟩
    refine ⟨fun free => ?_, fun owned => denies fun b owner => ?_, fun mine => ?_, fun other => denies fun b owner => ?_, ?_,
      fun wrong => denies fun b owner => if_neg wrong⟩
    · exact ownerWrite live fun b owner _ denied => ⟨_, if_pos (owner.trans free), rfl, rfl, denied⟩
    · exact if_neg (by rw [← owner] at owned; exact owned)
    · exact ownerWrite live fun b owner _ denied => ⟨_, if_pos (owner.trans mine), rfl, rfl, denied⟩
    · exact if_neg (by rw [← owner] at other; exact other)
    · exact ownerWrite live fun b owner _ denied => ⟨_, if_pos rfl, rfl, rfl, denied⟩
  case refine_2 =>
    refine ⟨_, exec_snapshotRead runs (fun s => by simp [openWord]) (by decide), ?_, ?_, ?_, ?_, rfl⟩
    · exact (snapPut_data.trans snapPut_data).trans (portData_data ..)
    · exact snapPut_lookup_same
    · exact (snapPut_lookup_other (by decide)).trans snapPut_lookup_same
    · exact (snapPut_port_other.trans snapPut_port_other).trans (setPort_port_other ..)
  case refine_3 =>
    refine ⟨_, exec_snapshotRead runs (fun s => by simp [openWord]) (by decide), ?_, ?_, rfl⟩
    · exact snapPut_data.trans (portData_data ..)
    · exact snapPut_lookup_same

end Sys2Proof.Machine
end

section
/-! PROOFS. The standard requests of USB (chapter 20): each is answered in its form and stalls in any other. -/

namespace Sys2Proof.Machine

open Sys2Proof

section Requests

variable {s : State} (live : usbLive s = true) (free : s.um.held = false)

include live free

theorem usbRequest_live (f : State → State) : usbRequest f s = f s := by
  have setup : usbSetup s = s := if_neg (by simp [free])
  exact (if_pos live).trans (congrArg f setup)

theorem usbStandard_supported {ok : Bool} (f : State → State) (form : ok = true) : usbStandard ok f s = .next (f s) :=
  congrArg Host.Outcome.next ((usbRequest_live live free _).trans (if_pos form))

theorem usbStandard_stalls {ok : Bool} (f : State → State) (form : ok = false) : usbStandard ok f s =
    .next { s with um := { s.um with answer := .stall, stalls := satInc s.um.stalls } } :=
  congrArg Host.Outcome.next ((usbRequest_live live free _).trans (if_neg (by simp [form])))

end Requests

/-- There is no descriptor from 0x0400 on. -/
theorem descriptor_above {v : W16} (above : 0x0400 ≤ v.toNat) (index : W16) (uid : BitVec 64) : descriptor v index uid = none := by
  have other (w : W16) (low : w.toNat < 0x0400) : v ≠ w := by rintro rfl; omega
  simp only [descriptor]
  rw [if_neg (other _ (by decide)), if_neg (other _ (by decide)), if_neg (other _ (by decide)), if_neg (other _ (by decide)),
    if_neg (other _ (by decide)), if_neg (other _ (by decide))]
  exact ite_self none

/-- Settles O58: each request is in a supported form, or stalls. -/
theorem usbStandardRequestsAreAnswered : Obligations.UsbStandardRequestsAreAnswered := by
  intro s v n live free next stall
  have supported {ok : Bool} (f : State → State) (form : ok = true) := usbStandard_supported live free f form
  have stalls {ok : Bool} (f : State → State) (form : ok = false) := usbStandard_stalls live free f form
  refine ⟨supported _ rfl, ?_, fun other => stalls _ (by simp [show v ≠ 0#16 from other]), supported _ rfl, supported _ rfl,
    fun other => ⟨stalls _ (by simp [haltRequest, onEp1, show v ≠ 0x0081#16 from other]), stalls _ (by simp [haltRequest, onEp1, show v ≠ 0x0081#16 from other])⟩,
    fun least most => supported _ (by simp [least, most]), fun other => stalls _ ?_, supported _ rfl,
    fun above => stalls _ (by simp [descriptor_above above]), supported _ rfl, supported _ rfl, supported _ rfl,
    fun above => stalls _ ?_, supported _ rfl, supported _ rfl, fun other => stalls _ (by simp [show v ≠ 0#16 from other])⟩
  case refine_1 =>
    refine (supported _ rfl).trans (congrArg (fun b : Byte => Host.Outcome.next { s with um := { s.um with answer := .data [b, 0] } }) ?_)
    simp [onEp1]
  case refine_2 =>
    obtain rfl | large := other
    · rfl
    · simp [Nat.not_le.2 large]
  case refine_3 =>
    have apart (w : W16) (low : w.toNat < 2) : v ≠ w := by rintro rfl; omega
    simp [show v ≠ 0#16 from apart 0 (by decide), show v ≠ 1#16 from apart 1 (by decide)]

end Sys2Proof.Machine
end

section
/-! PROOFS. The bus of the USB port (R705, R706, R723, R770) and downloads of fault cells (R720, R722). -/

namespace Sys2Proof.Machine

open Sys2Proof

/-! ### The end of a login -/

/-- A login that ends changes the events and the NVM block only, and the port is logged out. -/
theorem endLogin_frame (p : Fin 2) (reason : Nat) (s : State) :
    ∃ e n, endLogin p reason s = { s with ev := e, nv := n } ∧ n.login[p.1].on = false := by
  unfold endLogin
  split
  · obtain ⟨e, n, recorded, same⟩ := record_frame 0x0A 0xFFFF [BitVec.ofNat 8 (p.1 + 1), 4, 0, 0, BitVec.ofNat 8 reason]
      { s with nv := { s.nv with login := s.nv.login.set p.1 {} } }
    exact ⟨e, n, recorded, by simp [same.login]⟩
  · rename_i out
    exact ⟨_, _, rfl, by simpa using out⟩

/-! ### The bus -/

section Bus

variable {s : State}

/-- The port after a bus reset, before HB_OWNER and the login (R723). -/
def busReset (s : State) : State :=
  setUm (fun u => { u with
    state := .default_, addr := 0, suspend := false, halt := false, download := none, busRst := satInc u.busRst }) (usbSetup s)

theorem busReset_um (s : State) : ∃ d a, busReset s = { s with um := { s.um with
    state := .default_, addr := 0, suspend := false, halt := false, download := none, busRst := satInc s.um.busRst,
    held := d, aborts := a } } ∧ (s.um.held = true → a = satInc s.um.aborts) := by
  unfold busReset usbSetup
  split
  · exact ⟨_, _, rfl, fun _ => rfl⟩
  · rename_i free
    exact ⟨s.um.held, s.um.aborts, rfl, fun held => absurd held free⟩

theorem exec_usbBusReset (connected : s.um.state ≠ .disconnected) : ∃ e n h, exec .usbBusReset s =
    .next { busReset s with ev := e, nv := n, hb := h } ∧ n.login[1].on = false ∧
      (s.hb.owner = 2 → h.owner = 0) ∧ (s.hb.owner ≠ 2 → h = s.hb) := by
  have hb : (busReset s).hb = s.hb := by
    obtain ⟨d, a, um, -⟩ := busReset_um s
    rw [um]
  have owner : ∃ h, (if (busReset s).hb.owner = 2 then setHb (fun h => { h with owner := 0, tag := 0 }) (busReset s) else busReset s) =
      { busReset s with hb := h } ∧ (s.hb.owner = 2 → h.owner = 0) ∧ (s.hb.owner ≠ 2 → h = s.hb) := by
    rw [hb]
    split
    · rename_i usb
      exact ⟨_, rfl, fun _ => rfl, fun other => absurd usb other⟩
    · rename_i other
      exact ⟨_, rfl, fun usb => absurd usb other, fun _ => hb⟩
  obtain ⟨h, owner, frees, keeps⟩ := owner
  obtain ⟨e, n, ended, out⟩ := endLogin_frame 1 5 { busReset s with hb := h }
  exact ⟨e, n, h, congrArg Host.Outcome.next ((if_neg connected).trans ((congrArg (endLogin 1 5) owner).trans ended)), out, frees, keeps⟩

theorem exec_vbusChange_on (off : s.um.vbus = false) (notReset : s.sys.mode ≠ .reset) (noClock : clockSafe s = false) :
    exec (.vbusChange true) s = .next { s with um := { s.um with vbus := true, state := .default_, sof := true } } := by
  have serves : ¬ (decide (s.sys.mode = .reset) || clockSafe s) = true := by simp [notReset, noClock]
  exact congrArg Host.Outcome.next ((if_neg (by simp [off])).trans ((if_neg serves).trans ((if_pos rfl).trans (if_pos rfl))))

theorem exec_vbusChange_off (on : s.um.vbus = true) (notReset : s.sys.mode ≠ .reset) (noClock : clockSafe s = false) :
    ∃ e n, exec (.vbusChange false) s = .next { usbDisconnect { s with um := { s.um with vbus := false } } with ev := e, nv := n } ∧
      n.login[1].on = false := by
  have serves : ¬ (decide (s.sys.mode = .reset) || clockSafe s) = true := by simp [notReset, noClock]
  obtain ⟨e, n, ended, out⟩ := endLogin_frame 1 5 (usbDisconnect { s with um := { s.um with vbus := false } })
  refine ⟨e, n, congrArg Host.Outcome.next ((if_neg (by simp [on])).trans ((if_neg serves).trans ?_)), out⟩
  exact (if_neg Bool.false_ne_true).trans ended

end Bus

/-! ### Downloads -/

/-- A ledger record takes 32 bytes (Table LV-6). -/
@[simp] theorem length_lrecBytes (r : LRec) : (lrecBytes r).length = 32 := by
  simp [lrecBytes, lrecBody, padTo]
  omega

/-- A fault cell of a download takes 32 bytes, and the next number is its own. -/
theorem nextItem_cell (n : Nat) (s : State) : ∃ b : List Byte, nextItem 1 n s = (n, some b) ∧ b.length = 32 := by
  unfold nextItem
  rw [if_pos rfl]
  split
  · exact ⟨_, rfl, length_lrecBytes _⟩
  · exact ⟨_, rfl, List.length_replicate⟩

/-- A packet of two fault cells. -/
theorem downloadPacket_cells {n : Nat} (more : n < 15) (s : State) : ∃ b : List Byte,
    downloadPacket true { kind := 1, next := n, last := 15 } s = (b, n + 2) ∧ b.length = 64 := by
  obtain ⟨b, first, size⟩ := nextItem_cell n s
  obtain ⟨b', second, size'⟩ := nextItem_cell (n + 1) s
  have one : packetItems true { kind := 1, next := n, last := 15 } s 1 = (b, n + 1) := by
    simp only [packetItems, if_neg (show ¬ 15 < n by omega), first]
    rfl
  have two : packetItems true { kind := 1, next := n, last := 15 } s 2 = (b ++ b', n + 2) := by
    rw [packetItems, one, if_neg (show ¬ 15 < n + 1 by omega)]
    simp only [second]
    rfl
  have pairs : 64 / itemLen 1 = 2 := by decide
  refine ⟨b ++ b', ?_, by rw [List.length_append, size, size']⟩
  rw [downloadPacket, pairs, two]

section Tokens

variable {s : State} {d : Download} (live : usbLive s = true) (configured : s.um.state = .configured) (goes : s.um.halt = false)

include live configured goes

/-- A token while a download runs gets the next packet. -/
theorem exec_downloadInToken (ack reads : Bool) (runs : s.um.download = some d) : exec (.downloadInToken ack reads) s =
    .next { s with um := { s.um with
      packet := (downloadPacket reads d s).1,
      download := if !ack then some d else if (downloadPacket reads d s).1.length < 64 then none
        else some { d with next := (downloadPacket reads d s).2 } } } := by
  change execDownloadInToken ack reads s = _
  rw [execDownloadInToken, if_neg (by simp [live, configured, goes]), runs]
  rfl

theorem exec_downloadInToken_none (ack reads : Bool) (none : s.um.download = none) :
    exec (.downloadInToken ack reads) s = .next s := by
  change execDownloadInToken ack reads s = _
  rw [execDownloadInToken, if_neg (by simp [live, configured, goes]), none]

end Tokens

/-- Settles O60: each event of the bus has an equation above, and a token one for the download that runs. -/
theorem theUsbBusConnectsResetsAndDownloads : Obligations.TheUsbBusConnectsResetsAndDownloads := by
  intro s
  refine ⟨fun connected => ?_, fun off => ⟨congrArg Host.Outcome.next (if_pos off), congrArg Host.Outcome.next (if_pos off)⟩,
    fun connected => congrArg Host.Outcome.next (if_neg connected), rfl,
    fun off notReset noClock => ⟨_, exec_vbusChange_on off notReset noClock, rfl, rfl, rfl⟩, fun on notReset noClock => ?_,
    fun b same => congrArg Host.Outcome.next (if_pos same), fun live configured goes =>
      ⟨fun n runs => ?_, fun ended => ?_, fun ack reads none => exec_downloadInToken_none live configured goes ack reads none⟩⟩
  case refine_1 =>
    obtain ⟨e, n, h, run, out, frees, keeps⟩ := exec_usbBusReset connected
    obtain ⟨d, a, um, aborted⟩ := busReset_um s
    rw [um] at run
    exact ⟨_, run, rfl, rfl, rfl, rfl, rfl, rfl, out, aborted, frees, keeps⟩
  case refine_2 =>
    obtain ⟨e, n, run, out⟩ := exec_vbusChange_off on notReset noClock
    exact ⟨_, run, rfl, rfl, rfl, rfl, out⟩
  case refine_3 =>
    obtain ⟨b, packet, size⟩ := downloadPacket_cells n.isLt s
    have token (ack : Bool) := exec_downloadInToken live configured goes ack true runs
    simp only [packet, size] at token
    exact ⟨⟨_, token true, size, rfl, rfl⟩, ⟨_, token false, size, rfl, rfl⟩⟩
  case refine_4 => exact exec_downloadInToken live configured goes true true ended

end Sys2Proof.Machine
end

section
/-! PROOFS. Fetches of records, entries and fault cells, the read register, and the clearing of cells (R468, R493, R496, R505, R678). -/

namespace Sys2Proof.Machine

open Sys2Proof

section Ports

variable {p : Port} {a : Nat} {f : State → State} {s : State}

/-- A served write acts on a state that differs in the host bus and in the age of logins. -/
theorem portWrite_touched (live : portLive s = true) : ∃ h l, portWrite p a f s = f { s with hb := h, nv := { s.nv with login := l } } ∧
    ∀ q : Fin 2, ∃ last, l[q.1] = { s.nv.login[q.1] with last := last } := by
  refine ⟨_, _, (portWrite_live live).trans (congrArg f (countWrite_frame p a s)), fun q => ?_⟩
  unfold countWrite touchLogin
  dsimp only
  split
  · dsimp only
    rw [get_upd]
    split
    · exact ⟨_, rfl⟩
    · exact ⟨_, rfl⟩
  · exact ⟨_, rfl⟩

end Ports

/-! ### Fetches -/

section Fetch

variable {s : State}

theorem length_drawWords (n : Nat) (s : State) : (drawWords n s).1.length = n := by
  induction n generalizing s with
  | zero => rfl
  | succ n ih => exact congrArg (· + 1) (ih _)

section Items

variable {α : Type} {num : α → W32} {bytes : α → List Byte} {n : Nat} {q : Part α} {x : α} {pre post : List α}

theorem fetchItem_retained (crcOk : Bool) (here : q.recs = pre ++ x :: post) (number : num x = fetchSel s)
    (first : ∀ z ∈ pre, num z ≠ fetchSel s) : fetchItem num bytes n q crcOk s =
      if crcOk then fetched 0 (wordsOf (bytes x)) s else fetched 3 (drawWords n s).1 (drawWords n s).2 := by
  have found : (q.recs.find? fun x => num x = fetchSel s) = some x := by
    rw [here, List.find?_append, List.find?_eq_none.2 fun z hz => by simp [first z hz], List.find?_cons_of_pos (by simp [number])]
    rfl
  rw [fetchItem, found]

/-- A number that no retained item has is not yet written, or no longer retained. -/
theorem fetchItem_absent (crcOk : Bool) (recs : q.recs = pre ++ [x]) (absent : ∀ z ∈ q.recs, num z ≠ fetchSel s) :
    fetchItem num bytes n q crcOk s = fetched (if (num x).toNat < (fetchSel s).toNat then 1 else 2) [] s := by
  have missing : (q.recs.find? fun x => num x = fetchSel s) = none := List.find?_eq_none.2 fun z hz => by simp [absent z hz]
  have newest : q.recs.getLast? = some x := by rw [recs, List.getLast?_concat]
  rw [fetchItem, missing, newest]

theorem fetchItem_above (crcOk : Bool) (recs : q.recs = pre ++ [x]) (absent : ∀ z ∈ q.recs, num z ≠ fetchSel s)
    (above : (num x).toNat < (fetchSel s).toNat) : fetchItem num bytes n q crcOk s = fetched 1 [] s := by
  rw [fetchItem_absent crcOk recs absent, if_pos above]

theorem fetchItem_below (crcOk : Bool) (recs : q.recs = pre ++ [x]) (absent : ∀ z ∈ q.recs, num z ≠ fetchSel s)
    (below : (fetchSel s).toNat < (num x).toNat) : fetchItem num bytes n q crcOk s = fetched 2 [] s := by
  rw [fetchItem_absent crcOk recs absent, if_neg (Nat.not_lt.2 below.le)]

theorem fetchItem_empty (crcOk : Bool) (recs : q.recs = []) : fetchItem num bytes n q crcOk s = fetched 1 [] s := by
  rw [fetchItem, recs]
  rfl

end Items

theorem fetchCell_some {n : Nat} {x : LRec} (sel : (fetchSel s).toNat = n) (cell : cellAt n s = some x) :
    fetchCell true s = fetched 0 (wordsOf (lrecBytes x)) s := by
  simp only [fetchCell, Bool.true_or, if_true, sel, cell]

theorem fetchCell_none {n : Nat} (sel : (fetchSel s).toNat = n) (cell : cellAt n s = none) :
    fetchCell true s = fetched 4 [] s := by
  simp only [fetchCell, Bool.true_or, if_true, sel, cell]

theorem rdataRead_next {p : Port} {w : W16} {ws : List W16} (runs : s.sys.mode ≠ .reset) (data : s.nv.rdata = w :: ws) :
    rdataRead p s = portData p w { s with nv := { s.nv with rdata := ws } } := by
  rw [rdataRead, if_neg runs, data]
  rfl

theorem rdataRead_empty {p : Port} (runs : s.sys.mode ≠ .reset) (data : s.nv.rdata = []) : rdataRead p s = portData p 0 s := by
  rw [rdataRead, if_neg runs, data]

end Fetch

section Clear

variable {s : State} {p : Fin 2} {v : W16}

theorem keyOf_eq (v : W16) : keyOf v = v.toNat / 256 := by
  have := v.isLt
  simp only [keyOf, fld]
  omega

theorem cellsClear_accepted (key : v.toNat / 256 = 0x3E) (login : s.nv.login[p.1].on = true) (ledger : s.nv.ledger.lost = none)
    (clog : s.nv.clog.lost = none) : cellsClear p v s =
      { s with nv := { s.nv with cells := Vector.replicate 16 none, cellNext := 1 } } :=
  if_pos ⟨(keyOf_eq v).trans key, login, by rw [ledger]; rfl, by rw [clog]; rfl⟩

theorem cellsClear_refused (no : v.toNat / 256 ≠ 0x3E ∨ s.nv.login[p.1].on = false ∨ s.nv.ledger.lost.isSome = true ∨
    s.nv.clog.lost.isSome = true) : cellsClear p v s = s := by
  refine if_neg fun ⟨key, login, ledger, clog⟩ => ?_
  obtain h | h | h | h := no
  · exact h ((keyOf_eq v).symm.trans key)
  · exact Bool.false_ne_true (h.symm.trans login)
  · rw [Option.isNone_iff_eq_none.1 ledger] at h
    exact Bool.false_ne_true h
  · rw [Option.isNone_iff_eq_none.1 clog] at h
    exact Bool.false_ne_true h

end Clear

/-- Settles O38: a served write fetches or clears on the state it touches; a read takes the next word. -/
theorem fetchesDeliverLogItemsToTheReadRegister : Obligations.FetchesDeliverLogItemsToTheReadRegister := by
  intro s p x y pre post pre' post' notReset noClock sel got
  have live := portLive_of_mode_of_clock notReset noClock
  have gets {i : Instr} {f : State → State} {res : Nat} {ws : List W16} (run : exec i s = .next (portWrite p 0x1C9 f s))
      (fetch : ∀ h l, f { s with hb := h, nv := { s.nv with login := l } } = fetched res ws { s with hb := h, nv := { s.nv with login := l } }) :
      got i (BitVec.ofNat 3 res) ws := by
    obtain ⟨h, l, touched, -⟩ := portWrite_touched (p := p) (a := 0x1C9) (f := f) live
    exact ⟨_, run.trans (congrArg _ (touched.trans (fetch h l))), rfl, rfl, rfl, rfl⟩
  refine ⟨fun here number first => ⟨?_, ?_⟩, fun recs absent => ⟨fun above => ?_, fun below => ?_⟩, fun here number first => ?_,
    fun recs => ?_, fun k number => ⟨fun cell => ?_, fun cell => ?_⟩, fun beyond => ?_, fun w ws data => ?_, fun data => ?_,
    fun v key login noLoss noLoss' => ?_, fun v no => ?_⟩
  case refine_1 => exact gets rfl fun h l => fetchItem_retained true here number first
  case refine_2 =>
    obtain ⟨h, l, touched, -⟩ := portWrite_touched (p := p) (a := 0x1C9) (f := fetchLedger false) live
    have fetch : fetchLedger false { s with hb := h, nv := { s.nv with login := l } } = _ :=
      fetchItem_retained false here number first
    exact ⟨_, congrArg Host.Outcome.next (touched.trans fetch), rfl, rfl, length_drawWords 16 _⟩
  case refine_3 => exact gets rfl fun h l => fetchItem_above true recs absent above
  case refine_4 => exact gets rfl fun h l => fetchItem_below true recs absent below
  case refine_5 => exact gets rfl fun h l => fetchItem_retained true here number first
  case refine_6 => exact gets rfl fun h l => fetchItem_empty true recs
  case refine_7 => exact gets rfl fun h l => fetchCell_some number ((dif_pos k.isLt).trans cell)
  case refine_8 => exact gets rfl fun h l => fetchCell_none number ((dif_pos k.isLt).trans cell)
  case refine_9 => exact gets rfl fun h l => fetchCell_none rfl (dif_neg (Nat.not_lt.2 beyond))
  case refine_10 => exact ⟨_, congrArg Host.Outcome.next (rdataRead_next notReset data), portData_data .., rfl⟩
  case refine_11 => exact ⟨_, congrArg Host.Outcome.next (rdataRead_empty notReset data), portData_data .., rfl⟩
  case refine_12 =>
    obtain ⟨h, l, touched, ages⟩ := portWrite_touched (p := p) (a := 0x1CF) (f := cellsClear p.ix v) live
    obtain ⟨last, age⟩ := ages p.ix
    have clear := cellsClear_accepted (s := { s with hb := h, nv := { s.nv with login := l } }) key (by rw [age]; exact login) noLoss noLoss'
    exact ⟨_, congrArg Host.Outcome.next (touched.trans clear), fun k => Vector.getElem_replicate .., rfl, rfl⟩
  case refine_13 =>
    obtain ⟨h, l, touched, ages⟩ := portWrite_touched (p := p) (a := 0x1CF) (f := cellsClear p.ix v) live
    obtain ⟨last, age⟩ := ages p.ix
    have clear := cellsClear_refused (s := { s with hb := h, nv := { s.nv with login := l } }) (p := p.ix) (v := v) (by rw [age]; exact no)
    exact ⟨_, congrArg Host.Outcome.next (touched.trans clear), rfl, rfl⟩

end Sys2Proof.Machine
end

section
/-! PROOFS. The ledger: appends, retirements, the loss of a partition, header minutes and the erase ahead (R499 to R504). -/

namespace Sys2Proof.Machine

open Sys2Proof

/-! ### What a record of a lost ledger leaves (R502) -/

/-- A cell of 1 to 15 takes a record of R502. -/
def keptInCell (r : LRec) (s : State) : State :=
  if !cellType r.type then s
  else if s.nv.cellsBad then { s with nv := { s.nv with cellFail := true } }
  else
    let i := cellNextIx s.nv.cellNext
    let s := cellPut i r { s with nv := { s.nv with cellNext := if i.1 = 15 then 1 else i.1 + 1 } }
    raise 0x1F6 (ledgerWord 2 0 i.1) s

theorem recordLost_eq (r : LRec) (s : State) : recordLost r s = keptInCell r (unlogged r s) := rfl

/-- Only the events and the NVM block may differ; the queue is as before, and a first fault cell that is used stays used. -/
structure Drained (s t : State) : Prop where
  frame : t = { s with ev := t.ev, nv := t.nv }
  store : SameStore t.nv s.nv
  queue : t.nv.queue = s.nv.queue
  cell : s.nv.cells[0].isSome = true → t.nv.cells[0].isSome = true

namespace Drained

variable {s t u : State}

theorem refl (s : State) : Drained s s := ⟨rfl, SameStore.refl _, rfl, id⟩

theorem trans (h : Drained s t) (k : Drained t u) : Drained s u :=
  ⟨k.frame.trans (by rw [h.frame]), k.store.trans h.store, k.queue.trans h.queue, k.cell ∘ h.cell⟩

theorem raise (code : Nat) (data : W16) (s : State) : Drained s (raise code data s) := by
  obtain ⟨e, raised⟩ := raise_frame code data s
  rw [raised]
  exact ⟨rfl, SameStore.refl _, rfl, id⟩

theorem unlogged (r : LRec) (s : State) : Drained s (unlogged r s) := by
  obtain ⟨e, mirrored⟩ := fabricPut_frame 95 (if r.code = 0xFFFF then 0x1F6 else r.code.setWidth 9)
    (fun sl => .mirror (if r.code = 0xFFFF then 0x1F6 else r.code.setWidth 9) (r.lseq.setWidth 16) r.time true sl)
    { s with nv := { s.nv with unlogged := satInc s.nv.unlogged } }
  rw [show Machine.unlogged r s = _ from mirrored]
  exact ⟨rfl, ⟨rfl, rfl, rfl, rfl, rfl, rfl, rfl⟩, rfl, id⟩

/-- The next of cells 1 to 15 is not the first cell. -/
theorem cellNextIx_ne_zero (n : Nat) : (cellNextIx n).1 ≠ 0 := by
  unfold cellNextIx
  split
  · rename_i range
    exact Nat.ne_of_gt range.1
  · decide

theorem keptInCell (r : LRec) (s : State) : Drained s (keptInCell r s) := by
  unfold Machine.keptInCell
  split
  · exact refl s
  · split
    · exact ⟨rfl, ⟨rfl, rfl, rfl, rfl, rfl, rfl, rfl⟩, rfl, id⟩
    · refine Drained.trans (t := cellPut (cellNextIx s.nv.cellNext) r { s with nv := { s.nv with
        cellNext := if (cellNextIx s.nv.cellNext).1 = 15 then 1 else (cellNextIx s.nv.cellNext).1 + 1 } })
        ⟨rfl, ⟨rfl, rfl, rfl, rfl, rfl, rfl, rfl⟩, rfl, fun used => ?_⟩ (raise _ _ _)
      have other := cellNextIx_ne_zero s.nv.cellNext
      simpa [cellPut, Vector.getElem_set, other] using used

theorem recordLost (r : LRec) (s : State) : Drained s (recordLost r s) := (unlogged r s).trans (keptInCell r _)

theorem drainQueue (q : List (LRec × Nat)) (s : State) : Drained s (drainQueue q s) := by
  induction q generalizing s with
  | nil => exact refl s
  | cons x q ih => exact (recordLost x.1 s).trans (ih _)

theorem record (lost : s.nv.ledger.lost.isSome = true) (type code : Nat) (data : List Byte) : Drained s (record type code data s) := by
  unfold Machine.record recordAt
  split
  · exact refl s
  · dsimp only
    rw [if_pos lost]
    exact Drained.trans (t := { s with nv := { s.nv with lseq := s.nv.lseq + 1 } })
      ⟨rfl, ⟨rfl, rfl, rfl, rfl, rfl, rfl, rfl⟩, rfl, id⟩ (recordLost _ _)

end Drained

/-! ### The loss of the ledger (R502, R504) -/

section Loss

variable {s : State}

/-- The record of a loss goes into the first fault cell, where the store can be written. -/
theorem firstCell_cells (r : LRec) (s : State) : ∃ (cs : Vector (Option LRec) 16) (f : Bool), firstCell r s = { s with nv := { s.nv with cells := cs, cellFail := f } } ∧
    (s.nv.cellsBad = false → cs[0].isSome = true) := by
  unfold firstCell
  split
  · rename_i bad
    exact ⟨_, _, rfl, fun good => absurd bad (by simp [good])⟩
  · exact ⟨_, _, rfl, fun _ => by simp⟩

/-- With the ledger lost the waiting records and the LOST record go unlogged, and the queue is empty. -/
theorem lostRecord_lost (first : Bool) (r : LRec) (lost : s.nv.ledger.lost.isSome = true) :
    Drained { s with nv := { s.nv with queue := [] } } (lostRecord first r s) := by
  have drained := Drained.drainQueue s.nv.queue { s with nv := { s.nv with queue := [] } }
  unfold lostRecord
  rw [if_pos lost]
  cases first with
  | true => exact drained.trans (Drained.unlogged r _)
  | false => exact drained.trans (Drained.recordLost r _)

/-- An item set while the ledger is lost keeps queue, ledger and first cell. -/
theorem setItem_lost (i : Fin 10) (unit : Nat) (lost : s.nv.ledger.lost.isSome = true) :
    SameStore (setItem i unit s).nv s.nv ∧ (setItem i unit s).nv.queue = s.nv.queue ∧
      (s.nv.cells[0].isSome = true → (setItem i unit s).nv.cells[0].isSome = true) := by
  unfold setItem
  dsimp only
  split
  · exact ⟨SameStore.refl _, rfl, id⟩
  · let marked : State := { s with sys := { s.sys with
      degsrc := putBit s.sys.degsrc i.1 true,
      deg := s.sys.deg.set i.1 { (if bitOf s.sys.degsrc i.1 then s.sys.deg[i.1] else { unit := BitVec.ofNat 8 unit }) with
        units := putBit (if bitOf s.sys.degsrc i.1 then s.sys.deg[i.1] else { unit := BitVec.ofNat 8 unit }).units unit true } } }
    have raised := Drained.raise 0x1FD (itemWord i.1 true unit) marked
    have noted := raised.trans (Drained.record (by rw [raised.store.ledger]; exact lost) 8 0x1FD [BitVec.ofNat 8 i.1, 1, BitVec.ofNat 8 unit])
    exact ⟨noted.store, noted.queue, noted.cell⟩

/-- A ledger that is lost keeps its records, drops its queue, and its item stands (R502 to R504). -/
theorem lose_ledger (cause : LossCause) (idx : Nat) (stands : s.nv.ledger.lost = none) :
    let t := lose false cause idx s
    t.nv.ledger.lost = some cause ∧ t.nv.ledger.recs = s.nv.ledger.recs ∧ t.nv.queue = [] ∧
      (s.nv.cellsBad = false → t.nv.cells[0].isSome = true) ∧
      (s.sys.deg[8].units = 0 → bitOf t.sys.degsrc 8 = true) := by
  let r := mkRec 0x0E 0x1F6 (lostData false cause idx s) s.tstamp s
  let marked := setNv (fun v => { v with lseq := v.lseq + 1 }) (markLost false cause s)
  have celled : ∃ (cs : Vector (Option LRec) 16) (f : Bool), (if s.nv.cells[0].isNone = true then firstCell r marked else marked) =
      { marked with nv := { marked.nv with cells := cs, cellFail := f } } ∧ (s.nv.cellsBad = false → cs[0].isSome = true) := by
    split
    · exact firstCell_cells r marked
    · rename_i used
      exact ⟨_, _, rfl, fun _ => (by simpa [Option.isSome_iff_ne_none] using used : s.nv.cells[0].isSome = true)⟩
  obtain ⟨cs, f, celled, cell⟩ := celled
  let kept : State := { marked with nv := { marked.nv with cells := cs, cellFail := f } }
  have raised := Drained.raise 0x1F6 (ledgerWord 3 0 0) kept
  have drained := lostRecord_lost (s := raise 0x1F6 (ledgerWord 3 0 0) kept) s.nv.cells[0].isNone r (by rw [raised.store.ledger]; rfl)
  let t := lostRecord s.nv.cells[0].isNone r (raise 0x1F6 (ledgerWord 3 0 0) kept)
  have same : lose false cause idx s = setItem 8 0 t := (if_neg (by simp [partLost, stands])).trans
    (congrArg (fun y => setItem 8 0 (lostRecord s.nv.cells[0].isNone r (raise 0x1F6 (ledgerWord 3 0 0) y))) celled)
  have ledger : t.nv.ledger = { s.nv.ledger with lost := some cause, retiring := none, again := false, weak := false } :=
    drained.store.ledger.trans raised.store.ledger
  have sys : t.sys = s.sys := (congrArg State.sys drained.frame).trans (raise_sys 0x1F6 (ledgerWord 3 0 0) kept)
  obtain ⟨store, queue, cellKept⟩ := setItem_lost (s := t) 8 0 (by rw [ledger]; rfl)
  rw [same]
  refine ⟨?_, ?_, queue.trans drained.queue, fun good => cellKept (drained.cell (raised.cell (cell good))),
    fun none => setItem_degsrc 8 (by rw [sys]; exact none)⟩
  · rw [store.ledger, ledger]
  · rw [store.ledger, ledger]

end Loss

/-! ### Appends (R499) -/

section Appends

variable {s : State}

theorem clockSafe_of_service (service : inService s = true) : clockSafe s = false :=
  clockSafe_of_not_safe (notSafe_of_inService service)

/-- The ledger's room is that of its sector being filled, or an erased one. -/
theorem partRoom_of_room {α : Type} {q : Part α} {cap : Nat} (room : q.recs.length + q.fill < cap * (q.full + 1)) :
    slotCount cap q < cap := by
  have : cap * (q.full + 1) = q.full * cap + cap := by ring
  have positive : 0 < cap := Nat.pos_of_ne_zero fun zero => by simp [zero] at room
  unfold slotCount
  omega

/-- The record as the ledger holds it, with the gap flag where one stands. -/
def gapped (r : LRec) (s : State) : LRec := { r with gap := r.gap || s.nv.gapNext }

theorem ledgerWrite_frame (r : LRec) (since : Nat) (s : State) : ∃ e k m, ledgerWrite r since s = { s with ev := e, ck := k, nv := { s.nv with
    ledger := partPut 511 188 (gapped r s) s.nv.ledger, gapNext := false, appMax := m } } := by
  let t := sat16 ((s.now - since) / 10)
  let written : State := { s with nv := { s.nv with
    ledger := partPut 511 188 (gapped r s) s.nv.ledger, gapNext := false, appMax := if s.nv.appMax < t then t else s.nv.appMax } }
  obtain ⟨e, mirrored⟩ := fabricPut_frame 95 (if (gapped r s).code = 0xFFFF then 0x1F6 else (gapped r s).code.setWidth 9)
    (fun sl => .mirror (if (gapped r s).code = 0xFFFF then 0x1F6 else (gapped r s).code.setWidth 9)
      ((gapped r s).lseq.setWidth 16) (gapped r s).time false sl) written
  obtain ⟨k, e', tapped⟩ := tapOut_frame 4 { bytes := lrecBytes (gapped r s), tag := bytesBE 3 (ledgerAddr written) } { written with ev := e }
  exact ⟨e', k, _, (congrArg (tapOut 4 { bytes := lrecBytes (gapped r s), tag := bytesBE 3 (ledgerAddr written) }) mirrored).trans tapped⟩

theorem appendRuns_of_service (service : inService s = true) (stands : s.nv.ledger.lost = none) (idle : s.nv.ledger.retiring = none)
    (filling : slotCount 511 s.nv.ledger < 511) : appendRuns s = true := by
  obtain mode | mode := mode_of_inService service <;> simp [appendRuns, partRoom, mode, stands, idle, filling]

theorem appendNext_empty (noClock : clockSafe s = false) (empty : s.nv.queue = []) : appendNext s = none := by
  rw [appendNext, if_neg (by simp [noClock]), empty]

theorem appendNext_first {x : LRec × Nat} {q : List (LRec × Nat)} (noClock : clockSafe s = false) (queue : s.nv.queue = x :: q) :
    appendNext s = some (x, q) := by
  rw [appendNext, if_neg (by simp [noClock]), queue]

theorem exec_ledgerAppend_empty (ok : Bool) (noClock : clockSafe s = false) (empty : s.nv.queue = []) :
    exec (.ledgerAppend ok) s = .next s := by
  change Host.Outcome.next (if (!appendRuns s) = true then s else _) = _
  rw [appendNext_empty noClock empty]
  exact congrArg Host.Outcome.next (ite_self s)

theorem exec_ledgerAppend {x : LRec × Nat} {q : List (LRec × Nat)} (ok : Bool) (runs : appendRuns s = true)
    (noClock : clockSafe s = false) (queue : s.nv.queue = x :: q) : exec (.ledgerAppend ok) s = .next
      (if ok then ledgerWrite x.1 x.2 (setNv (fun v => { v with queue := q }) s) else retireStart false s.nv.ledger.cur true false s) := by
  change Host.Outcome.next (if (!appendRuns s) = true then s else _) = _
  rw [appendNext_first noClock queue, if_neg (by simp [runs])]
  simp only [noClock, Bool.false_eq_true, if_false]

theorem exec_appendEngineTimeout (service : inService s = true) :
    exec (.appendEngineTimeout false) s = .next (lose false .engine s.nv.ledger.cur s) := by
  have noClock := clockSafe_of_service service
  obtain mode | mode := mode_of_inService service <;> exact congrArg Host.Outcome.next (if_neg (by simp [mode, noClock]))

theorem retireStart_spare {clog again weak : Bool} {idx : Nat} (spare : partUsed clog s < partSpares clog) : retireStart clog idx again weak s =
    setPart clog (fun p => { p with retiring := some idx, again := again, weak := weak }) s := if_pos spare

theorem retireStart_noSpare {clog again weak : Bool} {idx : Nat} (none : partSpares clog ≤ partUsed clog s) :
    retireStart clog idx again weak s = lose clog .noSpare idx s := if_neg (Nat.not_lt.2 none)

end Appends

/-! ### The end of a retirement (R501) -/

section Retirement

variable {s : State}

/-- A record of a ledger that stands joins the queue while it has room. -/
theorem record_queued (type code : Nat) (data : List Byte) (notReset : s.sys.mode ≠ .reset) (noClock : clockSafe s = false)
    (stands : s.nv.ledger.lost = none) (room : s.nv.queue.length < 32) :
    (record type code data s).nv.queue.length = s.nv.queue.length + 1 := by
  unfold record recordAt queueRec
  simp only [notReset, noClock, stands, decide_false, Bool.false_and, Bool.or_self, Bool.false_eq_true, if_false, Option.isSome_none,
    room, if_true]
  exact List.length_append

theorem retireData_frame (clog : Bool) (idx spare : Nat) (s : State) : ∃ x, (retireData clog idx spare s).2 = { s with free := x } := by
  unfold retireData
  dsimp only
  split
  · exact ⟨_, rfl⟩
  · exact ⟨_, rfl⟩

/-- A ledger retirement that ends lists its sector with the lowest free spare, and notes it in the stitch map. -/
theorem retireEnd_ledger (idx : Nat) (notReset : s.sys.mode ≠ .reset) (noClock : clockSafe s = false) (stands : s.nv.ledger.lost = none) :
    let t := retireEnd false idx s
    t.nv.ledger = { s.nv.ledger with
      retired := s.nv.ledger.retired ++ [(idx, s.nv.ledger.retired.length)], retiring := none, again := false, weak := false } ∧
      t.st.entries.length = s.st.entries.length + 1 ∧ (s.nv.queue.length < 32 → t.nv.queue.length = s.nv.queue.length + 1) := by
  let spare := partSpare0 false + partUsed false s
  let cause := if partWeak false s then 8 else 9
  obtain ⟨x, drawn⟩ := retireData_frame false idx spare s
  let listed (y : State) := mapAppend 3 cause (partBase false + idx % partLen false) spare
    (setPart false (fun p => { p with retired := p.retired ++ [(idx, spare)], retiring := none, again := false, weak := false }) y)
  let t := record 0x0C 0x1F6 (retireData false idx spare s).1 (listed { s with free := x })
  have same : retireEnd false idx s = raise 0x1F6 (ledgerWord 1 (b2n false) spare) t :=
    congrArg (fun y => raise 0x1F6 (ledgerWord 1 (b2n false) spare) (record 0x0C 0x1F6 (retireData false idx spare s).1 (listed y))) drawn
  have first : spare = s.nv.ledger.retired.length := Nat.zero_add _
  obtain ⟨e, n, recorded, store⟩ := record_frame 0x0C 0x1F6 (retireData false idx spare s).1 (listed { s with free := x })
  have nv : t.nv = n := congrArg State.nv recorded
  have st : (raise 0x1F6 (ledgerWord 1 (b2n false) spare) t).st = (listed { s with free := x }).st := by
    obtain ⟨e', raised⟩ := raise_frame 0x1F6 (ledgerWord 1 (b2n false) spare) t
    rw [raised]
    exact (congrArg State.st recorded).trans rfl
  rw [same]
  refine ⟨?_, ?_, fun room => ?_⟩
  · rw [raise_nv, nv, store.ledger, ← first]
    rfl
  · rw [st]
    exact List.length_append
  · rw [raise_nv]
    exact record_queued _ _ _ notReset noClock stands room

theorem exec_retirementDone {i : Nat} (notReset : s.sys.mode ≠ .reset) (noClock : clockSafe s = false)
    (retires : s.nv.ledger.retiring = some i) (first : s.nv.ledger.again = false) :
    exec .retirementDone s = .next (retireEnd false i (recovery 5 0 s)) := by
  have serves : ¬ (decide (s.sys.mode = .reset) || clockSafe s) = true := by simp [notReset, noClock]
  change execRetirementDone s = _
  rw [execRetirementDone, if_neg serves, retires]
  simp only [first, Bool.false_eq_true, if_false]

theorem exec_retirementDone_none (ledger : s.nv.ledger.retiring = none) (clog : s.nv.clog.retiring = none) :
    exec .retirementDone s = .next s := by
  change execRetirementDone s = _
  rw [execRetirementDone, ledger, clog]
  exact congrArg Host.Outcome.next (ite_self s)

end Retirement

/-! ### Header minutes (R504) -/

section Minutes

variable {s : State}

theorem itemMinutes_eq {i : Fin 10} {st0 : Nat} (start : s.sys.deg[i.1].start = some st0) :
    itemMinutes i s = s.sys.deg[i.1].before + (s.now - st0) / 60000000 := by
  rw [itemMinutes, start]

theorem minuteStep_ledger (stands : bitOf s.sys.degsrc 8 = true) (more : s.nv.hdrMin[0] < sat16 (itemMinutes 8 s)) :
    minuteStep s 0 = { s with nv := { s.nv with hdrMin := s.nv.hdrMin.set 0 (sat16 (itemMinutes 8 s)) } } :=
  if_pos ⟨stands, more⟩

theorem minuteStep_clog (idle : bitOf s.sys.degsrc 9 = false) : minuteStep s 1 = s :=
  if_neg fun h => Bool.false_ne_true (idle.symm.trans h.1)

/-- Item 8's header entry takes its minutes, and item 9 that does not stand takes none. -/
theorem minuteSteps (ledger : bitOf s.sys.degsrc 8 = true) (clog : bitOf s.sys.degsrc 9 = false)
    (more : s.nv.hdrMin[0] < sat16 (itemMinutes 8 s)) : (List.finRange 2).foldl minuteStep s =
      { s with nv := { s.nv with hdrMin := s.nv.hdrMin.set 0 (sat16 (itemMinutes 8 s)) } } := by
  rw [show List.finRange 2 = [0, 1] from rfl, List.foldl_cons, List.foldl_cons, List.foldl_nil, minuteStep_ledger ledger more]
  exact minuteStep_clog clog

theorem exec_faultCellMinute (notReset : s.sys.mode ≠ .reset) (noClock : clockSafe s = false) : exec (.faultCellMinute true) s = .next
    (setNv (fun v => { v with cellsBad := false, cellFail := v.cellFail }) ((List.finRange 2).foldl minuteStep s)) := by
  have serves : ¬ (decide (s.sys.mode = .reset) || clockSafe s) = true := by simp [notReset, noClock]
  refine congrArg Host.Outcome.next ((if_neg serves).trans ?_)
  simp only [setNv, Bool.not_true, Bool.false_and, Bool.or_false]

end Minutes

/-! ### The erase ahead (R500) -/

section Erase

variable {s : State}

theorem exec_eraseAhead (ok : Bool) (notReset : s.sys.mode ≠ .reset) (noClock : clockSafe s = false) (stands : s.nv.ledger.lost = none)
    (idle : s.nv.ledger.retiring = none) (bare : s.nv.ledger.ahead = false) : exec (.eraseAhead false ok) s = .next
      (if ok then { s with nv := { s.nv with ledger := partWorn (partErased 511 188 s.nv.ledger) } }
        else retireStart false ((s.nv.ledger.cur + 1) % 188) false false s) := by
  have due : ¬ (decide (s.sys.mode = .reset) || clockSafe s || partLost false s || partRetiring false s || partAhead false s) = true := by
    simp [notReset, noClock, partLost, partRetiring, partAhead, stands, idle, bare]
  exact congrArg Host.Outcome.next (if_neg due)

theorem exec_eraseAhead_ready (ok : Bool) (ahead : s.nv.ledger.ahead = true) : exec (.eraseAhead false ok) s = .next s :=
  congrArg Host.Outcome.next (if_pos (by simp [partAhead, ahead]))

end Erase

/-- Settles O37: each command's case is the equation above for its condition. -/
theorem ledgerAppendsRetirementsAndLosses : Obligations.LedgerAppendsRetirementsAndLosses := by
  intro s r t0 q service stands
  have notReset := notReset_of_inService service
  have noClock := clockSafe_of_service service
  refine ⟨fun queue idle room => ⟨?_, fun spare => ?_, fun none => ?_⟩, fun empty ok => exec_ledgerAppend_empty ok noClock empty,
    fun i retires first => ?_, exec_retirementDone_none, ?_,
    fun m minutes small ledger clog more => ?_,
    fun idle bare => ⟨fun free => ?_, fun full => ?_, fun spare => ?_⟩, fun ok ahead => ?_⟩
  case refine_1 =>
    have filling := partRoom_of_room room
    obtain ⟨e, k, m, written⟩ := ledgerWrite_frame r t0 (setNv (fun v => { v with queue := q }) s)
    have run := exec_ledgerAppend true (appendRuns_of_service service stands idle filling) noClock queue
    rw [if_pos rfl, written, partPut, if_pos (by exact filling)] at run
    exact ⟨_, run, rfl, rfl, rfl, rfl, rfl, rfl, rfl⟩
  case refine_2 =>
    have run := exec_ledgerAppend false (appendRuns_of_service service stands idle (partRoom_of_room room)) noClock queue
    exact run.trans (congrArg _ ((if_neg Bool.false_ne_true).trans (retireStart_spare spare)))
  case refine_3 =>
    have run := exec_ledgerAppend false (appendRuns_of_service service stands idle (partRoom_of_room room)) noClock queue
    obtain ⟨lost, recs, queue, -, item⟩ := lose_ledger .noSpare s.nv.ledger.cur stands
    exact ⟨_, run.trans (congrArg _ ((if_neg Bool.false_ne_true).trans (retireStart_noSpare none))), lost, recs, queue, item⟩
  case refine_4 =>
    obtain ⟨e, recovered⟩ := recovery_frame s 5 0
    have run := exec_retirementDone notReset noClock retires first
    rw [recovered] at run
    obtain ⟨ledger, entries, queued⟩ := retireEnd_ledger (s := { s with ev := e }) i notReset noClock stands
    refine ⟨_, run, ?_, ?_, ?_, entries, queued⟩
    · rw [ledger]
    · rw [ledger]
    · rw [ledger]
  case refine_5 =>
    obtain ⟨lost, recs, queue, cell, item⟩ := lose_ledger .engine s.nv.ledger.cur stands
    exact ⟨_, exec_appendEngineTimeout service, lost, queue, recs, cell, item⟩
  case refine_6 =>
    obtain ⟨st0, start, minutes⟩ := minutes
    have entry : sat16 (itemMinutes 8 s) = BitVec.ofNat 16 m := by
      have value : itemMinutes 8 s = m := (itemMinutes_eq (i := 8) start).trans minutes.symm
      rw [value, sat16, Nat.min_eq_right (by omega)]
    have below : s.nv.hdrMin[0] < sat16 (itemMinutes 8 s) := by
      rw [entry, BitVec.lt_def, BitVec.toNat_ofNat, Nat.mod_eq_of_lt small]
      exact more
    rw [exec_faultCellMinute notReset noClock, minuteSteps ledger clog below, entry]
    rfl
  case refine_7 =>
    have early : ¬ 188 ≤ s.nv.ledger.full + 1 := by omega
    refine (exec_eraseAhead true notReset noClock stands idle bare).trans ?_
    rw [if_pos rfl, partErased, if_neg early]
    rfl
  case refine_8 =>
    have last : 188 ≤ s.nv.ledger.full + 1 := by omega
    refine (exec_eraseAhead true notReset noClock stands idle bare).trans ?_
    rw [if_pos rfl, partErased, if_pos last]
    rfl
  case refine_9 =>
    exact (exec_eraseAhead false notReset noClock stands idle bare).trans
      (congrArg _ ((if_neg Bool.false_ne_true).trans (retireStart_spare spare)))
  case refine_10 => exact exec_eraseAhead_ready ok ahead

end Sys2Proof.Machine
end

section
/-! PROOFS. Telemetry: the sample, its warnings, and the words a port reads (R531 to R533). -/

namespace Sys2Proof.Machine

open Sys2Proof

section Warnings

variable {s : State}

/-- The temperature warning sets at 105 °C, clears below 100 °C and stays between (R533). -/
theorem tempStep_frame (temp : W16) (s : State) : ∃ e n h w, tempStep temp s =
    { s with ev := e, nv := n, st := { s.st with hot := h, tempWarns := w } } ∧ (210 ≤ temp.toInt → h = true) ∧
      (temp.toInt < 200 → h = false) ∧ (200 ≤ temp.toInt → temp.toInt < 210 → h = s.st.hot) := by
  unfold tempStep
  dsimp only
  split
  · rename_i sets
    obtain ⟨cold, above⟩ : s.st.hot = false ∧ 210 ≤ temp.toInt := by simpa using sets
    obtain ⟨e, n, raised⟩ := raiseRec_frame (telemWord 1 false (BitVec.ofInt 8 (temp.toInt / 2)))
      (setSt (fun x => { x with hot := true, tempWarns := satInc x.tempWarns }) s) 0x1F7
    exact ⟨e, n, true, _, raised, fun _ => rfl, fun below => by omega, fun _ below => by omega⟩
  · rename_i stays
    split
    · rename_i clears
      obtain ⟨hot, below⟩ : s.st.hot = true ∧ temp.toInt < 200 := by simpa using clears
      obtain ⟨e, raised⟩ := raise_frame 0x1F7 (telemWord 1 true (BitVec.ofInt 8 (temp.toInt / 2))) (setSt (fun x => { x with hot := false }) s)
      exact ⟨e, _, false, _, raised, fun above => by omega, fun _ => rfl, fun above => by omega⟩
    · rename_i stays'
      simp only [Bool.and_eq_true, Bool.not_eq_true', decide_eq_true_eq, not_and] at stays stays'
      refine ⟨_, _, s.st.hot, _, rfl, fun above => ?_, fun below => ?_, fun _ _ => rfl⟩
      · exact Bool.eq_true_of_not_eq_false fun cold => stays cold above
      · exact Bool.eq_false_of_not_eq_true fun hot => stays' hot below

/-- A supply is out of its operating range. -/
def outOfRange (mv : Vector W16 4) (k : Fin 4) : Bool :=
  decide (mv[k.1].toNat < supplyLow k) || decide (supplyHigh k < mv[k.1].toNat)

/-- The warning of a supply after a sample, but for its flag. -/
def supplyCounted (mv : Vector W16 4) (k : Fin 4) (w : SupWarn) : SupWarn :=
  { w with out := if outOfRange mv k then w.out + 1 else 0, back := if outOfRange mv k then 0 else w.back + 1 }

/-- A supply in its range counts no sample out of it; the third one out of it warns (R533). -/
theorem supplyStep_frame (mv : Vector W16 4) (s : State) (k : Fin 4) : ∃ e n x w, supplyStep mv s k =
    { s with ev := e, nv := n, st := { s.st with supply := s.st.supply.set k.1 x, supplyWarns := w } } ∧
      (outOfRange mv k = false → x.out = 0) ∧ (outOfRange mv k = true → s.st.supply[k.1].out = 2 → x.warn = true) := by
  let w' := supplyCounted mv k s.st.supply[k.1]
  have inRange (x : SupWarn) (same : x.out = w'.out) (good : outOfRange mv k = false) : x.out = 0 := by
    simp [same, w', supplyCounted, good]
  have third (bad : outOfRange mv k = true) (two : s.st.supply[k.1].out = 2) : w'.out = 3 := by
    simp [w', supplyCounted, bad, two]
  change ∃ e n x w, (if (outOfRange mv k && !s.st.supply[k.1].warn && decide (3 ≤ w'.out)) = true then _ else
    if (!outOfRange mv k && s.st.supply[k.1].warn && decide (3 ≤ w'.back)) = true then _ else _) = _ ∧ _
  split
  · obtain ⟨e, n, raised⟩ := raiseRec_frame (telemWord (3 + k.1) false (supplyDev k mv[k.1])) (setSt (fun y => { y with
      supply := y.supply.set k.1 { w' with warn := true }, supplyWarns := satInc y.supplyWarns }) s) 0x1F7
    exact ⟨e, n, _, _, raised, inRange { w' with warn := true } rfl, fun _ _ => rfl⟩
  · rename_i quiet
    split
    · rename_i clears
      obtain ⟨e, raised⟩ := raise_frame 0x1F7 (telemWord (3 + k.1) true (supplyDev k mv[k.1]))
        (setSt (fun y => { y with supply := y.supply.set k.1 { w' with warn := false } }) s)
      refine ⟨e, _, _, _, raised, inRange { w' with warn := false } rfl, fun bad => ?_⟩
      simp [bad] at clears
    · refine ⟨_, _, w', _, rfl, inRange w' rfl, fun bad two => ?_⟩
      have warned : ¬ s.st.supply[k.1].warn = false := fun off => quiet (by simp [bad, off, third bad two])
      exact Bool.eq_true_of_not_eq_false warned

/-- After a sample of the four supplies the first one is as its own step leaves it. -/
theorem supplySteps_frame (mv : Vector W16 4) (s : State) : ∃ e n q w, (List.finRange 4).foldl (supplyStep mv) s =
    { s with ev := e, nv := n, st := { s.st with supply := q, supplyWarns := w } } ∧
      (outOfRange mv 0 = false → q[0].out = 0) ∧ (outOfRange mv 0 = true → s.st.supply[0].out = 2 → q[0].warn = true) := by
  have others (l : List (Fin 4)) (later : ∀ k ∈ l, k ≠ 0) (y : State) : ∃ e n q w, l.foldl (supplyStep mv) y =
      { y with ev := e, nv := n, st := { y.st with supply := q, supplyWarns := w } } ∧ q[0] = y.st.supply[0] := by
    induction l generalizing y with
    | nil => exact ⟨_, _, _, _, rfl, rfl⟩
    | cons k l ih =>
      obtain ⟨e, n, x, w, step, -⟩ := supplyStep_frame mv y k
      obtain ⟨e', n', q, w', rest, first⟩ := ih (fun k hk => later k (List.mem_cons_of_mem _ hk)) (supplyStep mv y k)
      rw [step] at rest first
      have apart : k.1 ≠ 0 := fun h => later k List.mem_cons_self (Fin.ext h)
      refine ⟨e', n', q, w', ?_, ?_⟩
      · rw [List.foldl_cons, step]
        exact rest
      · rw [first]
        exact Vector.getElem_set_ne k.isLt (by omega) apart
  obtain ⟨e, n, x, w, step, inRange, third⟩ := supplyStep_frame mv s 0
  obtain ⟨e', n', q, w', rest, first⟩ := others [1, 2, 3] (by decide) (supplyStep mv s 0)
  rw [step] at rest first
  have own : q[0] = x := first.trans (Vector.getElem_set_self _)
  refine ⟨e', n', q, w', ?_, ?_, ?_⟩
  · rw [show List.finRange 4 = 0 :: [1, 2, 3] from rfl, List.foldl_cons, step]
    exact rest
  · rw [own]
    exact inRange
  · rw [own]
    exact third

end Warnings

/-! ### The sample (R531) -/

section Sample

variable {s : State}

theorem telemSet_frame (temp : W16) (mv : Vector W16 4) (s : State) : ∃ x, (telemSet temp mv s).2 = { s with free := x } := by
  simp only [telemSet, verifyItem]
  split <;> exact ⟨_, rfl⟩

theorem telemSet_items (temp : W16) (mv : Vector W16 4) (s : State) :
    (telemSet temp mv s).1[0] = temp ∧ (telemSet temp mv s).1[3] = mv[0] ∧ (telemSet temp mv s).1[4] = mv[1] ∧
      (telemSet temp mv s).1[5] = mv[2] ∧ (telemSet temp mv s).1[6] = mv[3] := by
  simp [telemSet]

theorem telemItem_inside {k : Fin 16} (sel : s.st.tsel.toNat = k.1) : telemItem s = s.st.latched[k.1] := by
  rw [telemItem, sel, List.getD_eq_getElem?_getD]
  simp

theorem telemItem_above (above : 16 ≤ s.st.tsel.toNat) : telemItem s = 0 := by
  rw [telemItem, List.getD_eq_getElem?_getD, List.getElem?_eq_none (by simpa using above)]
  rfl

theorem exec_telemetryRead {p : Port} (runs : s.sys.mode ≠ .reset) : exec (.telemetryRead p) s =
    .next (portData p (telemItem s) (setSt (fun x => { x with tsel := x.tsel + 1 }) s)) :=
  congrArg Host.Outcome.next (if_neg runs)

/-- The state in which a sample's warnings are judged. -/
def sampleBegun (temp : W16) (s : State) : State :=
  extremes temp { reach 10000 s.grid.telem s with grid := { (reach 10000 s.grid.telem s).grid with
    telem := some (reach 10000 s.grid.telem s).now } }

/-- A sample set becomes current whole (R531). -/
def sampleTaken (temp : W16) (mv : Vector W16 4) (s : State) : State :=
  setSt (fun x => { x with shadow := (telemSet temp mv s).1, current := (telemSet temp mv s).1 }) (telemSet temp mv s).2

theorem exec_telemetrySample (temp : W16) (mv : Vector W16 4) (runs : s.sys.mode ≠ .reset) (noClock : clockSafe s = false) :
    exec (.telemetrySample temp mv) s =
      .next (sampleTaken temp mv ((List.finRange 4).foldl (supplyStep mv) (tempStep temp (sampleBegun temp s)))) :=
  congrArg Host.Outcome.next (if_neg (by simp [runs, noClock]))

end Sample

/-- Settles O42: the sample is its three steps' frames in turn; a select and a read are one change each. -/
theorem telemetryIsSampledLatchedAndRead : Obligations.TelemetryIsSampledLatchedAndRead := by
  intro s p v temp mv runs noClock
  refine ⟨?_, ?_, fun k sel => ?_, fun above => ?_⟩
  case refine_1 =>
    obtain ⟨e, n, h, w, warmed, sets, clears, stays⟩ := tempStep_frame temp (sampleBegun temp s)
    obtain ⟨e', n', q, w', supplied, inRange, third⟩ := supplySteps_frame mv (tempStep temp (sampleBegun temp s))
    have run := exec_telemetrySample temp mv runs noClock
    rw [warmed] at supplied third
    rw [warmed, supplied] at run
    let judged : State := { sampleBegun temp s with ev := e', nv := n', st := { (sampleBegun temp s).st with
      hot := h, tempWarns := w, supply := q, supplyWarns := w' } }
    obtain ⟨f, drawn⟩ := telemSet_frame temp mv judged
    obtain ⟨item0, item3, item4, item5, item6⟩ := telemSet_items temp mv judged
    rw [sampleTaken, drawn] at run
    refine ⟨_, run, rfl, rfl, rfl, item0, item3, item4, item5, item6, rfl, sets, clears, stays, fun low high => inRange ?_,
      fun low => third ?_⟩
    · simpa [outOfRange, supplyLow, supplyHigh] using ⟨low, high⟩
    · simp [outOfRange, supplyLow, low]
  case refine_2 =>
    obtain ⟨h, counted⟩ := portWrite_counted (p := p) (a := 0x1DE) (f := telemSelect v) (portLive_of_mode_of_clock runs noClock) (by decide)
    exact ⟨_, congrArg Host.Outcome.next counted, rfl, rfl, rfl⟩
  case refine_3 => exact ⟨_, exec_telemetryRead runs, (portData_data ..).trans (telemItem_inside sel), rfl, rfl⟩
  case refine_4 => exact ⟨_, exec_telemetryRead runs, (portData_data ..).trans (telemItem_above above), rfl⟩

end Sys2Proof.Machine
end

section
/-! PROOFS. Row stitches, the map's copies, burnishing and read-verify (R515, R520, R526 to R530). -/

namespace Sys2Proof.Machine

open Sys2Proof

/-! ### Row stitches (R515, R520) -/

section RowStitch

variable {s : State} {j : RowJob} {js : List RowJob}

/-- A recorded stitch adds its entry to the map; nothing else of the stitching block changes. -/
theorem recordStitch_entry (resource cause item spare code : Nat) (s : State) : ∃ e n, recordStitch resource cause item spare code s =
    { mapAppend resource cause item spare s with ev := e, nv := n } := by
  obtain ⟨e, n, recorded, -⟩ := record_frame 7 code
    ([BitVec.ofNat 8 (if resource = 5 then 1 else resource), BitVec.ofNat 8 cause] ++ bytesLE 2 item ++ bytesLE 2 spare)
    (mapAppend resource cause item spare s)
  exact ⟨e, n, recorded⟩

/-- The map entry of a job, but for its load number. -/
theorem mapAppend_entries (j : RowJob) (s : State) :
    ((mapAppend (rowResource j.area) j.cause.toNat (rowItem j.area j.row) j.spare.toNat s).st.entries.map
      fun e => (e.kind.toNat, e.cause, e.item.toNat, e.spare)) =
      (s.st.entries.map fun e => (e.kind.toNat, e.cause, e.item.toNat, e.spare)) ++
        [(if j.area.1 < 8 then 2 else 4, j.cause,
          if j.area.1 < 8 then j.area.1 * 128 + j.row.toNat else if j.area.1 = 8 then j.row.toNat else 128 + j.row.toNat, j.spare)] := by
  have row := j.row.isLt
  have area := j.area.isLt
  have kind : (BitVec.ofNat 8 (rowResource j.area)).toNat = if j.area.1 < 8 then 2 else 4 := by
    unfold rowResource
    split <;> rfl
  have item : (BitVec.ofNat 16 (rowItem j.area j.row)).toNat =
      if j.area.1 < 8 then j.area.1 * 128 + j.row.toNat else if j.area.1 = 8 then j.row.toNat else 128 + j.row.toNat := by
    rw [BitVec.toNat_ofNat, Nat.mod_eq_of_lt (by unfold rowItem; split_ifs <;> omega), rowItem]
  simp only [mapAppend, Machine.setSt, List.map_append, List.map_cons, List.map_nil, kind, item, BitVec.ofNat_toNat, BitVec.setWidth_eq]

/-- The state in which a job that is done is recorded: its spare has taken the row's place. -/
def rowTaken (j : RowJob) (js : List RowJob) (s : State) : State :=
  let s := setSt (fun x => { x with jobs := js }) s
  if j.area.1 = 8 then rewriteImem j.row.toNat s else s

theorem exec_rowStitchDone (runs : s.sys.mode ≠ .reset) (noClock : clockSafe s = false) (jobs : s.st.jobs = j :: js) :
    exec .rowStitchDone s = .next (recordStitch (rowResource j.area) j.cause.toNat (rowItem j.area j.row) j.spare.toNat 0x1F0
      (raise 0x1F0 (rowWord 3 j.area j.row) (rowTaken j js s))) := by
  change execRowStitchDone s = _
  rw [execRowStitchDone, if_neg (by simp [runs, noClock]), jobs]
  rfl

theorem exec_rowStitchDone_none (jobs : s.st.jobs = []) : exec .rowStitchDone s = .next s := by
  change execRowStitchDone s = _
  rw [execRowStitchDone, jobs]
  exact congrArg Host.Outcome.next (ite_self s)

theorem rowTaken_st (j : RowJob) (js : List RowJob) (s : State) : (rowTaken j js s).st = { s.st with jobs := js } := by
  unfold rowTaken
  dsimp only
  split <;> rfl

end RowStitch

/-! ### The map's copies (R515, R516) -/

section Copies

variable {s : State} {c : Fin 2}

theorem copyDue_eq_true (alive : s.st.copies[c.1].dead = false) (waits : s.st.copies[c.1].written < s.st.entries.length)
    (turn : c = 0 ∨ s.st.copies[0].dead = true ∨ s.st.copies[1].written < s.st.copies[0].written) : copyDue c s = true := by
  simpa [copyDue, alive, waits] using or_assoc.2 turn

theorem exec_stitchMapAppend (ok rewriteOk : Bool) (runs : s.sys.mode ≠ .reset) (noClock : clockSafe s = false) (due : copyDue c s = true) :
    exec (.stitchMapAppend c ok rewriteOk) s = .next (
      if ok then setCopy c (fun x => { x with written := x.written + 1, ok := true }) s
      else if rewriteOk then
        raise 0x1F2 (mapWord 2 c s) (setCopy c (fun x => { x with written := s.st.entries.length, ok := true }) s)
      else
        let s := setCopy c (fun x => { x with ok := false, dead := true }) s
        if s.st.copies[(otherCopy c).1].dead then enterSafe 3 0x0003 s
        else raiseRec 0x1F2 (mapWord 3 c s) (setSt (fun x => { x with single := true }) s)) :=
  congrArg Host.Outcome.next (if_neg (by simp [runs, noClock, due]))

theorem setCopy_other (f : MapCopy → MapCopy) : (setCopy c f s).st.copies[(1 - c).1] = s.st.copies[(1 - c).1] :=
  get_upd_of_ne _ _ (by revert c; decide)

/-- The map after a copy that cannot be written. -/
def copyDead (c : Fin 2) (s : State) : State := setCopy c (fun x => { x with ok := false, dead := true }) s

theorem copyDead_dead (c : Fin 2) (s : State) : (copyDead c s).st.copies[c.1].dead = true :=
  congrArg MapCopy.dead (get_upd_same _ c _)

theorem copyDead_other (c : Fin 2) (s : State) : (copyDead c s).st.copies[(1 - c).1].dead = s.st.copies[(1 - c).1].dead :=
  congrArg MapCopy.dead (setCopy_other _)

theorem exec_stitchMapAppend_dead (runs : s.sys.mode ≠ .reset) (noClock : clockSafe s = false) (due : copyDue c s = true) :
    exec (.stitchMapAppend c false false) s = .next (if s.st.copies[(1 - c).1].dead then enterSafe 3 0x0003 (copyDead c s)
      else raiseRec 0x1F2 (mapWord 3 c (copyDead c s)) (setSt (fun x => { x with single := true }) (copyDead c s))) := by
  rw [exec_stitchMapAppend false false runs noClock due, ← copyDead_other]
  rfl

end Copies

/-! ### What the words of a pass leave (R526 to R529) -/

/-- Time, its grids and the passes are as before. -/
structure PassKept (s t : State) : Prop where
  burn : t.st.burn = s.st.burn
  grid : t.grid = s.grid
  now : t.now = s.now

namespace PassKept

variable {s t u : State}

theorem refl (s : State) : PassKept s s := ⟨rfl, rfl, rfl⟩

theorem trans (h : PassKept s t) (k : PassKept t u) : PassKept s u :=
  ⟨k.burn.trans h.burn, k.grid.trans h.grid, k.now.trans h.now⟩

theorem raise (code : Nat) (data : W16) (s : State) : PassKept s (raise code data s) := by
  obtain ⟨e, raised⟩ := raise_frame code data s
  rw [raised]
  exact ⟨rfl, rfl, rfl⟩

theorem raiseRec (code : Nat) (data : W16) (s : State) : PassKept s (raiseRec code data s) := by
  obtain ⟨e, n, raised⟩ := raiseRec_frame data s code
  rw [raised]
  exact ⟨rfl, rfl, rfl⟩

theorem eventRecord (code : Nat) (data : W16) (s : State) : PassKept s (eventRecord code data s) := by
  obtain ⟨e, n, recorded, -⟩ := record_frame 5 code (bytesLE 2 data.toNat) s
  rw [Machine.eventRecord, recorded]
  exact ⟨rfl, rfl, rfl⟩

theorem setSt (f : St → St) (s : State) (same : ∀ x, (f x).burn = x.burn := by intro; rfl) : PassKept s (setSt f s) :=
  ⟨same s.st, rfl, rfl⟩

theorem setEv (f : Ev → Ev) (s : State) : PassKept s (setEv f s) := ⟨rfl, rfl, rfl⟩

theorem rewriteImem (row : Nat) (s : State) : PassKept s (rewriteImem row s) := by
  unfold Machine.rewriteImem
  generalize memWriteList _ _ _ _ = m
  exact ⟨rfl, rfl, rfl⟩

theorem lowCheck (area : Fin 10) (row : Byte) (s : State) : PassKept s (lowCheck area row s) := by
  unfold Machine.lowCheck
  split
  · exact (setSt _ s).trans (raiseRec _ _ _)
  · exact refl s

theorem useSpare (area : Fin 10) (s : State) : PassKept s (useSpare area s) := by
  refine setSt _ s fun x => ?_
  split <;> rfl

theorem stitchRow (area : Fin 10) (row : Byte) (cause : Nat) (s : State) : PassKept s (stitchRow area row cause s) := by
  unfold Machine.stitchRow
  split
  · exact refl s
  · split
    · exact ((useSpare area s).trans (setSt _ _)).trans (lowCheck _ _ _)
    · exact (setSt _ s).trans (raiseRec _ _ _)

theorem eccCorrected (area : Fin 10) (row : Byte) (s : State) : PassKept s (eccCorrected area row s) := by
  have event (c : Prop) [Decidable c] (x : State) : PassKept x (if c then Machine.raise 0x1F0 (rowWord 1 area row) x else x) := by
    split
    · exact raise _ _ x
    · exact refl x
  have again (c : Prop) [Decidable c] (x : State) : PassKept x (if c then Machine.stitchRow area row 3 x else x) := by
    split
    · exact stitchRow _ _ _ x
    · exact refl x
  exact ((setSt _ s).trans (event _ _)).trans (again _ _)

theorem eccUncorrectable (area : Fin 10) (row : Byte) (s : State) : PassKept s (eccUncorrectable area row s) :=
  ((setSt _ s).trans (raise _ _ _)).trans (stitchRow _ _ _ _)

theorem of_sectionsOnly (h : SectionsOnly s t) : PassKept s t :=
  ⟨by rw [h], by rw [h], by rw [h]⟩

theorem refreshStart (s : State) : PassKept s (refreshStart s) := by
  unfold Machine.refreshStart
  split
  · exact refl s
  · exact trans (t := { s with sc := { s.sc with refresh := some s.now } }) ⟨rfl, rfl, rfl⟩
      (of_sectionsOnly (SectionsOnly.foldl (fun y i => sectionsOnly_secEval i none y) allHeads _))

theorem damaged (a : Nat) (s : State) : PassKept s (damaged a s) :=
  ((setEv _ s).trans (eccUncorrectable _ _ _)).trans (eventRecord _ _ _)

theorem sramUnc (a : Nat) (s : State) : PassKept s (sramUnc a s) := by
  unfold Machine.sramUnc
  dsimp only
  split
  · exact (eccUncorrectable _ _ s).trans (refreshStart _)
  · split
    · split
      · exact (setEv _ s).trans (damaged _ _)
      · exact eccUncorrectable _ _ s
    · exact eccUncorrectable _ _ s

theorem cantleUnc (w : Nat) (s : State) : PassKept s (cantleUnc w s) := by
  unfold Machine.cantleUnc
  dsimp only
  split
  · exact (eccUncorrectable _ _ s).trans (rewriteImem _ _)
  · exact eccUncorrectable _ _ s

theorem burnWord (k : Fin 2) (ecc : Ecc) (rewriteOk : Bool) (s : State) : PassKept s (burnWord k ecc rewriteOk s) := by
  unfold Machine.burnWord
  cases ecc with
  | good => exact refl s
  | corrected =>
    dsimp only
    split
    · exact eccCorrected _ _ s
    · exact (eccCorrected _ _ s).trans (stitchRow _ _ _ _)
  | uncorrectable =>
    dsimp only
    split
    · exact sramUnc _ s
    · exact cantleUnc _ s

end PassKept

/-! ### The count of corrected words -/

section Corrected

variable {s : State}

theorem raiseRec_st (code : Nat) (data : W16) (s : State) : (raiseRec code data s).st = s.st := by
  obtain ⟨e, n, raised⟩ := raiseRec_frame data s code
  rw [raised]

theorem lowCheck_eccCor (area : Fin 10) (row : Byte) (s : State) : (lowCheck area row s).st.eccCor = s.st.eccCor := by
  unfold lowCheck
  split
  · rw [raiseRec_st]
    rfl
  · rfl

theorem useSpare_eccCor (area : Fin 10) (s : State) : (useSpare area s).st.eccCor = s.st.eccCor := by
  unfold useSpare setSt
  dsimp only
  split <;> rfl

theorem stitchRow_eccCor (area : Fin 10) (row : Byte) (cause : Nat) (s : State) :
    (stitchRow area row cause s).st.eccCor = s.st.eccCor := by
  unfold stitchRow
  split
  · rfl
  · split
    · exact (lowCheck_eccCor _ _ _).trans (useSpare_eccCor area s)
    · rw [raiseRec_st]
      rfl

/-- Each corrected word counts once. -/
theorem eccCorrected_eccCor (area : Fin 10) (row : Byte) (s : State) : (eccCorrected area row s).st.eccCor = satInc s.st.eccCor := by
  have event (c : Prop) [Decidable c] (x : State) : (if c then raise 0x1F0 (rowWord 1 area row) x else x).st.eccCor = x.st.eccCor := by
    obtain ⟨e, raised⟩ := iteRaise_frame c 0x1F0 (rowWord 1 area row) x
    rw [raised]
  have again (c : Prop) [Decidable c] (x : State) : (if c then stitchRow area row 3 x else x).st.eccCor = x.st.eccCor := by
    split
    · exact stitchRow_eccCor _ _ _ x
    · rfl
  exact (again _ _).trans (event _ _)

end Corrected

/-! ### Burnishing (R526 to R528) -/

section Burnish

variable {s : State}

theorem burnRuns_of_service (service : inService s = true) : burnRuns s = true := by
  obtain mode | mode := mode_of_inService service <;> simp [burnRuns, clockSafe, mode]

/-- The state in which a slot's word is burnished: its instant has come. -/
def sramSlot (s : State) : State :=
  { reach 5 s.grid.burnSram s with grid := { (reach 5 s.grid.burnSram s).grid with burnSram := some (reach 5 s.grid.burnSram s).now } }
def cantleSlot (s : State) : State :=
  { reach 20 s.grid.burnCantle s with grid := { (reach 20 s.grid.burnCantle s).grid with
      burnCantle := some (reach 20 s.grid.burnCantle s).now } }

theorem exec_burnishRead_sram (ecc : Ecc) (rewriteOk : Bool) (runs : burnRuns s = true) :
    exec (.burnishRead false ecc rewriteOk) s = .next (burnNext 0 (burnWord 0 ecc rewriteOk (sramSlot s))) :=
  congrArg Host.Outcome.next ((if_neg (by simp [runs])).trans (if_neg Bool.false_ne_true))

theorem exec_burnishRead_cantle (ecc : Ecc) (rewriteOk : Bool) (runs : burnRuns s = true) :
    exec (.burnishRead true ecc rewriteOk) s = .next (burnNext 1 (burnWord 1 ecc rewriteOk (cantleSlot s))) :=
  congrArg Host.Outcome.next ((if_neg (by simp [runs])).trans (if_pos rfl))

/-- A pass that goes on moves to its next word. -/
theorem burnNext_next {k : Fin 2} (more : s.st.burn[k.1].next + 1 < burnWords k) :
    (burnNext k s).st.burn[k.1] = { s.st.burn[k.1] with next := s.st.burn[k.1].next + 1 } :=
  (get_upd_same _ _ _).trans (if_pos more)

/-- A pass that ends restarts with its time (R528). -/
theorem burnNext_end {k : Fin 2} (last : burnWords k ≤ s.st.burn[k.1].next + 1) :
    (burnNext k s).st.burn[k.1] = { next := 0, start := s.now, dur := (s.now - s.st.burn[k.1].start) / 1000, reported := false } :=
  (get_upd_same _ _ _).trans (if_neg (Nat.not_lt.2 last))

/-- Before 4 s a pass is not reported. -/
theorem exec_burnishOverrun_early {k : Fin 2} (early : s.now < s.st.burn[k.1].start + 4000000) :
    exec (.burnishOverrun ⟨k.1, k.isLt.trans (by decide)⟩) s = .next s :=
  congrArg Host.Outcome.next ((congrArg (ite _ s) ((dif_pos k.isLt).trans (if_pos (.inr early)))).trans (ite_self s))

/-- A pass of 4 s is reported once. -/
theorem exec_burnishOverrun_late {k : Fin 2} (runs : burnRuns s = true)
    (fresh : s.st.burn[k.1].reported = false) (late : s.st.burn[k.1].start + 4000000 ≤ s.now) : ∃ e n,
      exec (.burnishOverrun ⟨k.1, k.isLt.trans (by decide)⟩) s = .next { s with st := { s.st with overrun := true, burn := upd s.st.burn k fun b => { b with reported := true } }, ev := e, nv := n } := by
  let noted : State := { s with st := { s.st with overrun := true, burn := upd s.st.burn k fun b => { b with reported := true } } }
  obtain ⟨e, n, raised⟩ := raiseRec_frame (overWord k.1 ((s.now - s.st.burn[k.1].start - 4000000) / 10000)) noted 0x1F4
  have open_ : ¬(s.st.burn[k.1].reported = true ∨ s.now < s.st.burn[k.1].start + 4000000) := by simp [fresh, late]
  exact ⟨e, n, congrArg Host.Outcome.next ((if_neg (by simp [runs])).trans ((dif_pos k.isLt).trans ((if_neg open_).trans raised)))⟩

end Burnish

/-! ### Read-verify (R522, R530) -/

section Verify

variable {s : State} {k : Nat}

theorem verifyRuns_of_service (service : inService s = true) (run : s.st.verify.run = true) : verifyRuns s = true := by
  obtain mode | mode := mode_of_inService service <;> simp [verifyRuns, clockSafe, mode, run]

/-- The state in which a sector that has been read is judged. -/
def sectorRead (k : Nat) (s : State) : State :=
  verifyNext k (if s.st.verify.next = 0 then
    setSt (fun x => { x with verify := { x.verify with start := s.now, reported := false } }) s else s)

theorem sectorRead_frame (k : Nat) (s : State) : ∃ v, sectorRead k s = { s with st := { s.st with verify := v } } ∧
    v.sector = BitVec.ofNat 8 k ∧ s.now + 120000000 ≤ v.due := by
  have begun : ∃ v, (if s.st.verify.next = 0 then
      setSt (fun x => { x with verify := { x.verify with start := s.now, reported := false } }) s else s) =
        { s with st := { s.st with verify := v } } := by
    split <;> exact ⟨_, rfl⟩
  obtain ⟨v, begun⟩ := begun
  unfold sectorRead verifyNext
  rw [begun]
  refine ⟨_, rfl, ?_⟩
  dsimp only
  split
  · exact ⟨rfl, le_refl _⟩
  · exact ⟨rfl, le_max_left _ _⟩

theorem exec_readVerify (r : Margin) (runs : verifyRuns s = true) (due : s.st.verify.due ≤ s.now) (next : nextSector s.st.verify.next s = some k) :
    exec (.readVerify r) s = .next (match r with
      | .good => sectorRead k s
      | .weak => sectorBad k false (sectorRead k s)
      | .failed => sectorBad k true (sectorRead k s)) := by
  change execReadVerify r s = _
  rw [execReadVerify, if_neg (by simp [runs, Nat.not_lt.2 due]), next]
  rfl

/-- A failed sector of the bank in use enters SAFE. -/
theorem sectorBad_inUse (service : inService s = true) (bank : k / 16 = curBank s) :
    ∃ e, sectorBad k true s = enterSafe 4 5 { s with ev := e } := by
  have one : curBank s ≤ 1 := by
    unfold curBank b2n
    split <;> omega
  obtain ⟨e, raised⟩ := raise_frame 0x1F1 (sectWord 2 0xF k) s
  have current : currentBank k { s with ev := e } = some 5 := (if_pos (by omega)).trans (if_pos bank)
  refine ⟨e, ?_⟩
  simp only [sectorBad, if_true, raised]
  rw [if_neg (by omega), if_neg (by omega), if_neg (by omega), current, show (true && inService { s with ev := e }) = true from service]

/-- A weak sector of the ledger is retired while a spare is left. -/
theorem sectorBad_ledger (ledger : 68 ≤ k) (stands : s.nv.ledger.lost = none) (idle : s.nv.ledger.retiring = none)
    (spare : s.nv.ledger.retired.length < 8) : ∃ e, sectorBad k false s = { s with ev := e, nv := { s.nv with
      ledger := { s.nv.ledger with retiring := some (k - 68), again := false, weak := true } } } := by
  obtain ⟨e, raised⟩ := raise_frame 0x1F1 (sectWord 1 0xF k) s
  refine ⟨e, ?_⟩
  simp only [sectorBad, Bool.false_eq_true, if_false, raised]
  rw [if_pos ledger, if_neg (by simp [stands, idle]), retireStart_spare (by exact spare)]
  rfl

end Verify

/-- Settles O41: each command's case is the equation above for its condition. -/
theorem rowStitchesMapAppendsBurnishingAndReadVerify : Obligations.RowStitchesMapAppendsBurnishingAndReadVerify := by
  intro s j js service
  have notReset := notReset_of_inService service
  have noClock := clockSafe_of_service service
  have burns := burnRuns_of_service service
  refine ⟨fun jobs => ?_, exec_rowStitchDone_none, fun c alive waits turn => ⟨?_, ?_, fun other => ?_, fun other => ?_⟩,
    fun e rw => ⟨fun more => ?_, fun more => ?_⟩, ?_, fun last => ?_, fun a below k same => ⟨fun fresh late => ?_, fun early => ?_⟩,
    fun k run due next => ⟨?_, fun bank => ?_, fun ledger stands idle spare => ?_⟩, fun early m => ?_⟩
  case refine_1 =>
    obtain ⟨e, raised⟩ := raise_frame 0x1F0 (rowWord 3 j.area j.row) (rowTaken j js s)
    obtain ⟨e', n, recorded⟩ := recordStitch_entry (rowResource j.area) j.cause.toNat (rowItem j.area j.row) j.spare.toNat 0x1F0
      { rowTaken j js s with ev := e }
    have run := exec_rowStitchDone notReset noClock jobs
    rw [raised, recorded] at run
    refine ⟨_, run, ?_, ?_, fun elsewhere => ?_⟩
    · exact congrArg St.jobs (rowTaken_st j js s)
    · refine (mapAppend_entries j (rowTaken j js s)).trans ?_
      rw [rowTaken_st]
    · have taken : rowTaken j js s = { s with st := { s.st with jobs := js } } := if_neg elsewhere
      simp only [taken]
      rfl
  case refine_2 => exact exec_stitchMapAppend true true notReset noClock (copyDue_eq_true alive waits turn)
  case refine_3 =>
    obtain ⟨e, raised⟩ := raise_frame 0x1F2 (mapWord 2 c s) (setCopy c (fun x => { x with written := s.st.entries.length, ok := true }) s)
    have run := exec_stitchMapAppend false true notReset noClock (copyDue_eq_true alive waits turn)
    rw [if_neg Bool.false_ne_true, if_pos rfl, raised] at run
    exact ⟨_, run, congrArg MapCopy.written (get_upd_same _ c _), congrArg MapCopy.ok (get_upd_same _ c _), rfl⟩
  case refine_4 =>
    obtain ⟨e, n, raised⟩ := raiseRec_frame (mapWord 3 c (copyDead c s)) (setSt (fun x => { x with single := true }) (copyDead c s)) 0x1F2
    have run := exec_stitchMapAppend_dead notReset noClock (copyDue_eq_true alive waits turn)
    rw [if_neg (by rw [other]; exact Bool.false_ne_true), raised] at run
    exact ⟨_, run, copyDead_dead c s, rfl, rfl⟩
  case refine_5 =>
    have run := exec_stitchMapAppend_dead notReset noClock (copyDue_eq_true alive waits turn)
    rw [if_pos other] at run
    exact ⟨_, run, inSafe_enterSafe (s := copyDead c s) notReset (notSafe_of_inService service) 3 3⟩
  case refine_6 =>
    have kept := PassKept.burnWord 0 e rw (sramSlot s)
    have next := burnNext_next (s := burnWord 0 e rw (sramSlot s)) (k := 0) (by rw [kept.burn]; exact Nat.succ_lt_succ more)
    refine ⟨_, exec_burnishRead_sram e rw burns, ?_, ?_, kept.now⟩
    · exact (congrArg Burnish.next next).trans (by rw [kept.burn]; rfl)
    · exact kept.grid ▸ kept.now ▸ rfl
  case refine_7 =>
    have kept := PassKept.burnWord 1 e rw (cantleSlot s)
    have next := burnNext_next (s := burnWord 1 e rw (cantleSlot s)) (k := 1) (by rw [kept.burn]; exact Nat.succ_lt_succ more)
    refine ⟨_, exec_burnishRead_cantle e rw burns, ?_, ?_, kept.now⟩
    · exact (congrArg Burnish.next next).trans (by rw [kept.burn]; rfl)
    · exact kept.grid ▸ kept.now ▸ rfl
  case refine_8 => exact ⟨_, exec_burnishRead_sram .corrected true burns, eccCorrected_eccCor _ _ (sramSlot s)⟩
  case refine_9 =>
    have ended := burnNext_end (s := cantleSlot s) (k := 1) (by exact last.ge)
    refine ⟨_, exec_burnishRead_cantle .good true burns, ?_, ?_, ?_, ?_⟩
    · exact congrArg Burnish.next ended
    · exact congrArg Burnish.start ended
    · exact congrArg Burnish.dur ended
    · exact congrArg Burnish.reported ended
  case refine_10 =>
    obtain rfl : a = ⟨k.1, k.isLt.trans (by decide)⟩ := Fin.ext same.symm
    obtain ⟨e, n, run⟩ := exec_burnishOverrun_late burns fresh late
    exact ⟨_, run, rfl, congrArg Burnish.reported (get_upd_same _ k _), rfl⟩
  case refine_11 =>
    obtain rfl : a = ⟨k.1, k.isLt.trans (by decide)⟩ := Fin.ext same.symm
    exact exec_burnishOverrun_early early
  case refine_12 =>
    obtain ⟨v, read, sector, later⟩ := sectorRead_frame k.1 s
    have run := exec_readVerify .good (verifyRuns_of_service service run) due next
    rw [read] at run
    exact ⟨_, run, sector, later, rfl⟩
  case refine_13 =>
    obtain ⟨v, read, -⟩ := sectorRead_frame k.1 s
    obtain ⟨e, bad⟩ := sectorBad_inUse (s := { s with st := { s.st with verify := v } }) service bank
    have run := exec_readVerify .failed (verifyRuns_of_service service run) due next
    rw [read] at run
    refine ⟨_, run.trans (congrArg _ bad), ?_⟩
    exact inSafe_enterSafe (s := { s with st := { s.st with verify := v }, ev := e }) notReset (notSafe_of_inService service) 4 5
  case refine_14 =>
    obtain ⟨v, read, -⟩ := sectorRead_frame k.1 s
    obtain ⟨e, bad⟩ := sectorBad_ledger (s := { s with st := { s.st with verify := v } }) ledger stands idle spare
    have run := exec_readVerify .weak (verifyRuns_of_service service run) due next
    rw [read] at run
    exact ⟨_, run.trans (congrArg _ bad), rfl, rfl⟩
  case refine_15 => exact congrArg Host.Outcome.next (if_pos (by simp [early]))

end Sys2Proof.Machine
end

section
/-! PROOFS. Staging: the erase of the staging banks, chunks, and the start of a commit (R484 to R489). -/

namespace Sys2Proof.Machine

open Sys2Proof

/-! ### A record's own fields -/

/-- Only the events and what the ledger notes of a record may differ: its number, its queue, its counters and the fault cells. -/
def RecordOnly (s t : State) : Prop :=
  t = { s with ev := t.ev, nv := { s.nv with
    lseq := t.nv.lseq, unlogged := t.nv.unlogged, cells := t.nv.cells, cellNext := t.nv.cellNext, cellFail := t.nv.cellFail,
    queue := t.nv.queue, qPeak := t.nv.qPeak, qDrop := t.nv.qDrop, gapNext := t.nv.gapNext } }

namespace RecordOnly

variable {s t u : State}

theorem trans (h : RecordOnly s t) (k : RecordOnly t u) : RecordOnly s u := Eq.trans k (by rw [h])

theorem raise (code : Nat) (data : W16) (s : State) : RecordOnly s (raise code data s) := by
  obtain ⟨e, raised⟩ := raise_frame code data s
  rw [raised]
  rfl

theorem mirror (r : LRec) (unl : Bool) (s : State) : RecordOnly s (mirror r unl s) := by
  obtain ⟨e, mirrored⟩ := fabricPut_frame 95 (if r.code = 0xFFFF then 0x1F6 else r.code.setWidth 9)
    (fun sl => .mirror (if r.code = 0xFFFF then 0x1F6 else r.code.setWidth 9) (r.lseq.setWidth 16) r.time unl sl) s
  rw [show Machine.mirror r unl s = _ from mirrored]
  rfl

theorem keptInCell (r : LRec) (s : State) : RecordOnly s (keptInCell r s) := by
  unfold Machine.keptInCell
  split
  · rfl
  · split
    · rfl
    · exact trans (t := cellPut (cellNextIx s.nv.cellNext) r { s with nv := { s.nv with
        cellNext := if (cellNextIx s.nv.cellNext).1 = 15 then 1 else (cellNextIx s.nv.cellNext).1 + 1 } }) rfl (raise _ _ _)

theorem recordLost (r : LRec) (s : State) : RecordOnly s (recordLost r s) :=
  (trans (t := { s with nv := { s.nv with unlogged := satInc s.nv.unlogged } }) rfl (mirror r true _)).trans (keptInCell r _)

theorem queueRec (r : LRec) (s : State) : RecordOnly s (queueRec r s) := by
  unfold Machine.queueRec
  split
  · rfl
  · exact trans (t := { s with nv := { s.nv with qDrop := satInc s.nv.qDrop, gapNext := true } }) rfl (mirror r true _)

theorem record (type code : Nat) (data : List Byte) (s : State) : RecordOnly s (record type code data s) := by
  unfold Machine.record recordAt
  split
  · rfl
  · dsimp only
    split
    · exact trans (t := { s with nv := { s.nv with lseq := s.nv.lseq + 1 } }) rfl (recordLost _ _)
    · exact trans (t := { s with nv := { s.nv with lseq := s.nv.lseq + 1 } }) rfl (queueRec _ _)

end RecordOnly

/-! ### Erased memory -/

/-- An erased byte reads the fill, and every other reads as before. -/
theorem memRead_memErase {d : Byte} {m : List Host.Cell} (lo hi a : Nat) (wf : Memory.wf d m = true) :
    memRead d (memErase m lo hi) a = if lo ≤ a ∧ a < hi then d else memRead d m a := by
  induction m with
  | nil => exact (ite_self d).symm
  | cons c m ih =>
    obtain ⟨-, above, wf⟩ := (wf_cons d c m).1 wf
    have rest := ih wf
    unfold memErase at rest ⊢
    by_cases kept : c.1 < lo ∨ hi ≤ c.1
    · rw [List.filter_cons_of_pos (by simpa using kept), memRead, rest, memRead]
      by_cases inside : lo ≤ a ∧ a < hi
      · rw [if_pos inside, if_neg (by omega), ite_self]
        exact (if_pos inside).symm
      · rw [if_neg inside]
        exact (if_neg inside).symm
    · rw [List.filter_cons_of_neg (by simpa using kept), rest, memRead]
      split_ifs with inside here before
      · rfl
      · omega
      · exact memRead_above above (by omega)
      · rfl

/-! ### Commands of CV_CMD (R484) -/

/-- A state whose host bus and logins are replaced: a counted write touches no more, and of a login only its age. -/
abbrev touched (s : State) (h : Hb) (l : Vector Login 2) : State := { s with hb := h, nv := { s.nv with login := l } }

section Commands

variable {s : State} {p : Port} {f : State → State}

/-- A command with its key acts on the state its counted write touches. -/
theorem cvCommand_keyed (live : portLive s = true) : ∃ h l, cvCommand p 0xC7 f s = .next (f { s with hb := h, nv := { s.nv with login := l } }) ∧
    ∀ q : Fin 2, ∃ last, l[q.1] = { s.nv.login[q.1] with last := last } := by
  obtain ⟨h, l, touched, ages⟩ := portWrite_touched (p := p) (a := 0x1A4) (f := fun s => if (0xC7 : Byte) = 0xC7 then f s else s) live
  exact ⟨h, l, congrArg Host.Outcome.next (touched.trans (if_pos rfl)), ages⟩

end Commands

section Staging

variable {s : State} {p : Fin 2}

theorem clearstageDo_starts (login : s.nv.login[p.1].on = true) (mode : stageMode s = true) (free : s.nv.erasing = false)
    (noCommit : s.nv.commit = none) : RecordOnly { s with nv := { s.nv with erasing := true, prep := false, dirD := [], dirP := [] } }
      (clearstageDo p s) := by
  unfold clearstageDo
  rw [if_neg (by simp [free, noCommit]), if_neg (by simp [login, mode])]
  exact RecordOnly.record _ _ _ _

theorem clearstageDo_busy (busy : s.nv.erasing = true ∨ s.nv.commit.isSome = true) : clearstageDo p s = setLast 4 s :=
  if_pos (by simpa using busy)

theorem clearstageDo_refused (out : s.nv.login[p.1].on = false) (free : s.nv.erasing = false) (noCommit : s.nv.commit = none) :
    clearstageDo p s = setLast 5 s :=
  (if_neg (by simp [free, noCommit])).trans (if_pos (by simp [out]))

theorem exec_clearstageDone (erases : s.nv.erasing = true) (notReset : s.sys.mode ≠ .reset) (noClock : clockSafe s = false) :
    exec .clearstageDone s = .next { s with nv := { s.nv with
      mem := memErase (memErase s.nv.mem (stageConf s) (stageConf s + 262144)) (stageProg s) (stageProg s + 98304),
      erasing := false, prep := true, stageBad := false } } :=
  congrArg Host.Outcome.next (if_neg (by simp [erases, notReset, noClock]))

/-! ### Chunks (R485, R486) -/

theorem chunkWord_room (w : W16) (opened : s.nv.chunk.opened = true) (room : s.nv.chunk.words.length < 128) : chunkWord p w s =
    setNv (fun v => { v with chunk := { v.chunk with words := v.chunk.words ++ [w] } })
      { s with hb := { s.hb with chunkBy := putBit s.hb.chunkBy p.1 true } } := if_pos ⟨opened, room⟩

theorem chunkWord_ignored (w : W16) (no : s.nv.chunk.opened = false ∨ 128 ≤ s.nv.chunk.words.length) : chunkWord p w s = s :=
  if_neg fun ⟨opened, room⟩ => by
    obtain h | h := no
    · exact Bool.false_ne_true (h.symm.trans opened)
    · omega

theorem mixNote_frame (s : State) : ∃ h, mixNote s = { s with hb := h } := by
  unfold mixNote
  split <;> exact ⟨_, rfl⟩

theorem chunkProg_eq_false (conf : fld s.nv.ssel 15 15 = 0) : chunkProg s = false := by
  simp only [chunkProg, bitOf, BitVec.getLsbD, Nat.testBit_eq_decide_div_mod_eq]
  exact decide_eq_false fun odd => absurd (odd.symm.trans conf) (by decide)

theorem chunkIx_lt (s : State) : chunkIx s < 1024 := Nat.mod_lt _ (by decide)

section Chunk

variable {crc : W32} (opened : s.nv.chunk.opened = true) (full : s.nv.chunk.words.length = 128)

include opened full

theorem chunkLast_wrong (wrong : crc32c (chunkBytes s) ≠ crc) (ok : Bool) : chunkLast p crc ok s = 2 :=
  (if_neg (by simp [opened, full])).trans (if_pos wrong)

theorem chunkLast_stored (right : crc32c (chunkBytes s) = crc) (conf : chunkProg s = false)
    (fresh : s.nv.dirD.contains (chunkIx s) = false) (prep : s.nv.prep = true) (noCommit : s.nv.commit = none)
    (login : s.nv.login[p.1].on = true) (mode : stageMode s = true) : chunkLast p crc true s = 1 := by
  have inside := chunkIx_lt s
  have notStaged : chunkStaged s = false := by rw [chunkStaged, conf]; exact fresh
  unfold chunkLast
  rw [if_neg (by simp [opened, full]), if_neg (not_not_intro right), if_neg (by rw [conf, if_neg Bool.false_ne_true]; omega),
    if_neg (by simp [notStaged]), if_neg (by simp [prep, noCommit]), if_neg (by simp [login, mode]), if_pos rfl]

end Chunk

theorem chunkEnd_frame (hi : W16) (ok : Bool) {k : Nat} (last : chunkLast p (join32 s.nv.scrc0 hi) ok s = k) : ∃ h, chunkEnd p hi ok s =
    { setLast k (if k = 1 then chunkStore s else s) with
      hb := h, nv := { (setLast k (if k = 1 then chunkStore s else s)).nv with
        chunk := { (setLast k (if k = 1 then chunkStore s else s)).nv.chunk with opened := false } } } := by
  obtain ⟨h, noted⟩ := mixNote_frame (setLast k (if k = 1 then chunkStore s else s))
  subst last
  exact ⟨h, congrArg (setNv (fun v => { v with chunk := { v.chunk with opened := false } })) noted⟩

end Staging

section Completion

variable {s : State} {p : Fin 2} {v : W16}

/-- Completing a chunk that is in order moves the memory, the directory and the chunk. -/
theorem chunkEnd_stored (last : chunkLast p (join32 s.nv.scrc0 v) true s = 1) (conf : chunkProg s = false) : ∃ h, chunkEnd p v true s =
    { s with hb := h, nv := { s.nv with
      sLast := 1, mem := memWriteList 0xFF s.nv.mem (stageConf s + 256 * chunkIx s) (chunkBytes s),
      dirD := s.nv.dirD ++ [chunkIx s], chunk := { s.nv.chunk with opened := false } } } := by
  obtain ⟨h, ended⟩ := chunkEnd_frame v true last
  have stored : chunkStore s = setNv (fun v => { v with
      mem := memWriteList 0xFF s.nv.mem (stageConf s + 256 * chunkIx s) (chunkBytes s), dirD := v.dirD ++ [chunkIx s] }) s := by
    simp only [chunkStore, conf, Bool.false_eq_true, if_false]
  rw [if_pos rfl, stored] at ended
  exact ⟨h, ended⟩

/-- Completing a chunk that is in order writes its bytes, lists it and closes it. -/
theorem chunkEnd_stores (last : chunkLast p (join32 s.nv.scrc0 v) true s = 1) (conf : chunkProg s = false) (wf : Memory.wf 0xFF s.nv.mem = true) :
    let t := chunkEnd p v true s
    let base := stageConf s + 256 * chunkIx s
    t.nv.sLast = 1 ∧ (∀ k (h : k < (chunkBytes s).length), memRead 0xFF t.nv.mem (base + k) = (chunkBytes s)[k]) ∧
      (∀ a, a < base ∨ base + (chunkBytes s).length ≤ a → memRead 0xFF t.nv.mem a = memRead 0xFF s.nv.mem a) ∧
      t.nv.dirD = s.nv.dirD ++ [chunkIx s] ∧ t.nv.chunk.opened = false := by
  intro t base
  obtain ⟨h, ended⟩ := chunkEnd_stored last conf
  have mem : t.nv.mem = memWriteList 0xFF s.nv.mem base (chunkBytes s) := congrArg (·.nv.mem) ended
  refine ⟨congrArg (·.nv.sLast) ended, fun k inside => ?_, fun a outside => ?_, congrArg (·.nv.dirD) ended,
    congrArg (·.nv.chunk.opened) ended⟩
  · rw [mem, memRead_memWriteList _ _ _ wf, if_pos (by omega), Nat.add_sub_cancel_left, List.getD_eq_getElem _ _ inside]
  · rw [mem, memRead_memWriteList _ _ _ wf, if_neg (by omega)]

/-- A chunk that is not in order is closed and nothing of it is kept. -/
theorem chunkEnd_rejects {ok : Bool} {k : Nat} (last : chunkLast p (join32 s.nv.scrc0 v) ok s = k) (not : k ≠ 1) :
    let t := chunkEnd p v ok s
    t.nv.sLast = BitVec.ofNat 3 k ∧ t.nv.mem = s.nv.mem ∧ t.nv.dirD = s.nv.dirD ∧ t.nv.chunk.opened = false := by
  intro t
  obtain ⟨h, ended⟩ := chunkEnd_frame v ok last
  rw [if_neg not] at ended
  exact ⟨congrArg (·.nv.sLast) ended, congrArg (·.nv.mem) ended, congrArg (·.nv.dirD) ended, congrArg (·.nv.chunk.opened) ended⟩

end Completion

/-! ### COMMIT (R488) -/

section Commit

variable {s : State} {p : Fin 2} {f : CommitFindings} (noCommit : s.nv.commit = none)

include noCommit

theorem commitDo_starts (starts : commitRefused p s = none) : commitDo p f s = setResult 0x01 p 0 0 (setNv (fun v => { v with
    commit := some { port := p, code := s.nv.code, start := s.now, f := f } }) s) := by
  unfold commitDo
  rw [if_neg (by simp [noCommit]), starts]

/-- A refused COMMIT shows its result and makes a record. -/
theorem commitDo_refused {r : Nat} (refused : commitRefused p s = some r) :
    RecordOnly (setResult r p 0 0 (setNv (fun v => { v with commit := none }) s)) (commitDo p f s) := by
  unfold commitDo
  rw [if_neg (by simp [noCommit]), refused]
  exact RecordOnly.record _ _ _ _

end Commit

section Refusal

variable {s : State} {p : Fin 2} (mode : s.sys.mode = .configure)

include mode

theorem commitRefused_out (out : s.nv.login[p.1].on = false) : commitRefused p s = some 0x10 := by
  unfold commitRefused
  rw [if_neg (not_not_intro mode), if_pos (by simp [out])]

theorem commitRefused_noPassword (login : s.nv.login[p.1].on = true) (noPassword : s.nv.vault.hash = List.replicate 32 0) :
    commitRefused p s = some 0x12 := by
  unfold commitRefused
  rw [if_neg (not_not_intro mode), if_neg (by simp [login]), if_pos (by simp [defPwd, noPassword])]

end Refusal

/-- Why a COMMIT is refused asks of the logins only whether the port is logged in, and nothing of the code given. -/
theorem commitRefused_congr {s : State} {p : Fin 2} {h : Hb} {l : Vector Login 2} (code : W32)
    (same : l[p.1].on = s.nv.login[p.1].on) :
    commitRefused p { s with hb := h, nv := { s.nv with login := l, code := code } } = commitRefused p s := by
  unfold commitRefused
  dsimp only
  rw [same]
  rfl

/-- Settles O40: every command acts on the state its counted write touches, which differs from the state before in the host bus and in
the age of the logins alone; the cases are then those of CLEARSTAGE, of the chunk and of COMMIT. -/
theorem stagingWritesChunksAndStartsCommits : Obligations.StagingWritesChunksAndStartsCommits := by
  intro s p v f mode wf l conf prog
  have notReset : s.sys.mode ≠ .reset := by simp [mode]
  have noClock : clockSafe s = false := clockSafe_of_not_safe (by simp [mode])
  have live := portLive_of_mode_of_clock notReset noClock
  have stages : stageMode s = true := by simp [stageMode, mode]
  refine ⟨fun free noCommit => ?clearstage, fun busy => ?busy, fun erases => ?erased, fun free => ?idle, ?opens, fun opened room => ?data,
    fun no => ?full, fun opened full confChunk fresh prep noCommit login => ?chunk, fun noCommit => ?commit⟩
  case clearstage =>
    obtain ⟨h, lo, run, ages⟩ := cvCommand_keyed (p := p) (f := clearstageDo p.ix) live
    obtain ⟨last, aged⟩ := ages p.ix
    refine ⟨fun login => ?_, fun out => ?_⟩
    · have only := clearstageDo_starts (s := touched s h lo) (p := p.ix)
        ((congrArg Login.on aged).trans login) stages free noCommit
      exact ⟨_, run, congrArg (·.nv.erasing) only, congrArg (·.nv.prep) only, congrArg (·.nv.dirD) only, congrArg (·.nv.dirP) only,
        congrArg (·.nv.mem) only⟩
    · have refused := clearstageDo_refused (s := touched s h lo) (p := p.ix) ((congrArg Login.on aged).trans out) free noCommit
      exact ⟨_, run.trans (congrArg Host.Outcome.next refused), rfl, free⟩
  case busy =>
    obtain ⟨h, lo, run, -⟩ := cvCommand_keyed (p := p) (f := clearstageDo p.ix) live
    have refused := clearstageDo_busy (s := touched s h lo) (p := p.ix) (.inl busy)
    exact ⟨_, run.trans (congrArg Host.Outcome.next refused), rfl, busy, rfl⟩
  case erased =>
    refine ⟨_, exec_clearstageDone erases notReset noClock, rfl, rfl, fun a inside => ?_, fun a noConf noProg => ?_, rfl⟩
    · refine (memRead_memErase _ _ a (memErase_wf _ _ wf)).trans ?_
      split_ifs with inProg
      · rfl
      · exact (memRead_memErase _ _ a wf).trans (if_pos (inside.resolve_right inProg))
    · exact (memRead_memErase _ _ a (memErase_wf _ _ wf)).trans ((if_neg noProg).trans
        ((memRead_memErase _ _ a wf).trans (if_neg noConf)))
  case idle => exact congrArg Host.Outcome.next (if_pos (by simp [free]))
  case opens =>
    obtain ⟨h, lo, run, -⟩ := portWrite_touched (p := p) (a := 0x1A5) (f := chunkOpen v) live
    exact ⟨_, congrArg Host.Outcome.next run, rfl, rfl, rfl⟩
  case data =>
    obtain ⟨h, lo, run, -⟩ := portWrite_touched (p := p) (a := 0x1A6) (f := chunkWord p.ix v) live
    have appended := chunkWord_room (s := touched s h lo) (p := p.ix) v opened room
    exact ⟨_, congrArg Host.Outcome.next (run.trans appended), rfl, rfl⟩
  case full =>
    obtain ⟨h, lo, run, -⟩ := portWrite_touched (p := p) (a := 0x1A6) (f := chunkWord p.ix v) live
    have ignored := chunkWord_ignored (s := touched s h lo) (p := p.ix) v no
    exact ⟨_, congrArg Host.Outcome.next (run.trans ignored), rfl⟩
  case chunk =>
    intro bytes base
    obtain ⟨h, lo, run, ages⟩ := portWrite_touched (p := p) (a := 0x1A8) (f := chunkEnd p.ix v true) live
    obtain ⟨last, aged⟩ := ages p.ix
    have isConf : chunkProg s = false := chunkProg_eq_false confChunk
    refine ⟨fun right => ?_, fun wrong => ?_⟩
    · have stored := chunkLast_stored (s := touched s h lo) (p := p.ix) opened full right isConf
        fresh prep noCommit ((congrArg Login.on aged).trans login) stages
      exact ⟨_, congrArg Host.Outcome.next run, chunkEnd_stores stored isConf wf⟩
    · have rejected := chunkLast_wrong (s := touched s h lo) (p := p.ix) opened full wrong true
      exact ⟨_, congrArg Host.Outcome.next run, chunkEnd_rejects rejected (by decide)⟩
  case commit =>
    obtain ⟨h, lo, run, ages⟩ := cvCommand_keyed (p := p) (f := commitDo p.ix f) live
    obtain ⟨last, aged⟩ := ages p.ix
    have same := congrArg Login.on aged
    refine ⟨fun starts => ?_, fun out => ?_, fun login noPassword => ?_⟩
    · have started := commitDo_starts (s := touched s h lo) (f := f) noCommit ((commitRefused_congr s.nv.code same).trans starts)
      exact ⟨_, run.trans (congrArg Host.Outcome.next started), rfl, rfl, rfl⟩
    · have only := commitDo_refused (s := touched s h lo) (f := f) noCommit
        (commitRefused_out (p := p.ix) mode (same.trans out))
      exact ⟨_, run, congrArg (·.nv.result) only, congrArg (·.nv.commit) only, congrArg (·.nv.mem) only⟩
    · have only := commitDo_refused (s := touched s h lo) (f := f) noCommit
        (commitRefused_noPassword (p := p.ix) mode (same.trans login) noPassword)
      exact ⟨_, run, congrArg (·.nv.result) only, congrArg (·.nv.commit) only⟩

end Sys2Proof.Machine
end

section
/-! PROOFS. The vault, logins and passwords (R471 to R482). -/

namespace Sys2Proof.Machine

open Sys2Proof

/-! ### Sending changes nothing in NVM -/

section Sending

@[simp] theorem raiseAt_nv (code : Nat) (data : W16) (ts : TStamp) (b : Bool) (s : State) : (raiseAt code data ts b s).nv = s.nv := by
  obtain ⟨e, raised⟩ := raiseAt_frame code data ts b s
  rw [raised]

@[simp] theorem portEvent_nv (q : Fin 4) (what cause detail : Nat) (s : State) : (portEvent q what cause detail s).nv = s.nv := by
  unfold portEvent
  split
  · split
    · dsimp only
      split <;> simp
    · rfl
  · simp

@[simp] theorem withdrawn_nv (q : Fin 4) (cause n : Nat) (s : State) : (withdrawn q cause n s).nv = s.nv := by
  unfold withdrawn
  split
  · rfl
  · dsimp only
    split <;> simp

@[simp] theorem ethQueue_nv (b : List Byte) (x : Fin 2) (s : State) : (ethQueue b x s).nv = s.nv := by
  unfold ethQueue
  split
  · rfl
  · dsimp only
    split
    · rfl
    · split <;> simp

@[simp] theorem canStart_nv (x : Fin 2) (s : State) : (canStart x s).nv = s.nv := by
  unfold canStart
  dsimp only
  split
  · rfl
  · split <;> rfl

@[simp] theorem canQueue_nv (t : CanTx) (x : Fin 2) (s : State) : (canQueue t x s).nv = s.nv := by
  unfold canQueue
  dsimp only
  split
  · rfl
  · simp

@[simp] theorem tapOut_nv (t : Nat) (b : Block) (s : State) : (tapOut t b s).nv = s.nv := by
  obtain ⟨k, e, out⟩ := tapOut_frame t b s
  rw [out]

@[simp] theorem tapOut_um (t : Nat) (b : Block) (s : State) : (tapOut t b s).um = s.um := by
  obtain ⟨k, e, out⟩ := tapOut_frame t b s
  rw [out]

@[simp] theorem sendStep_nv (s : State) (u : Unsent) : (sendStep s u).nv = s.nv := by
  unfold sendStep sendNow
  split
  · dsimp only
    split <;> simp
  · rfl

@[simp] theorem sendWaiting_nv (s : State) : (sendWaiting s).nv = s.nv :=
  List.foldlRecOn (motive := fun t => t.nv = s.nv) s.tg.unsent sendStep (b := setTg (fun t => { t with unsent := [] }) s) rfl
    fun y h u _ => (sendStep_nv y u).trans h

theorem sendWaiting_of_none {s : State} (none : s.tg.unsent = []) : sendWaiting s = s := by
  unfold sendWaiting
  rw [none]
  exact congrArg (fun u => { s with tg := { s.tg with unsent := u } }) none.symm

end Sending

/-! ### Vault records (R471, R472) -/

section Records

variable {s : State}

theorem pageNext_frame (v : Nv) : ∃ w m, pageNext v = { v with page := (v.page + 1) % 128, wear := w, moveDue := m } := by
  unfold pageNext
  dsimp only
  split <;> exact ⟨_, _, rfl⟩

theorem vaultRuns_of_service (service : inService s = true) : vaultRuns s = true := by
  obtain mode | mode := mode_of_inService service <;> simp [vaultRuns, clockSafe, mode]

theorem exec_vaultWrite_stored (runs : vaultRuns s = true) (changed : s.nv.vault ≠ s.nv.stored) :
    exec (.vaultWrite true) s = .next (sendWaiting (setNv vaultStored s)) :=
  congrArg Host.Outcome.next ((if_neg (by simp [runs, changed])).trans (if_pos rfl))

theorem exec_vaultWrite_failed (runs : vaultRuns s = true) (changed : s.nv.vault ≠ s.nv.stored) :
    exec (.vaultWrite false) s = .next (vaultFailed s) :=
  congrArg Host.Outcome.next ((if_neg (by simp [runs, changed])).trans (if_neg Bool.false_ne_true))

theorem exec_vaultWrite_unchanged (same : s.nv.vault = s.nv.stored) (ok : Bool) : exec (.vaultWrite ok) s = .next s :=
  congrArg Host.Outcome.next (if_pos (by simp [same]))

theorem vaultStored_frame (v : Nv) : ∃ w m, vaultStored v =
    { v with page := (v.page + 1) % 128, wear := w, moveDue := m, stored := v.vault, gen := v.gen + 1, pageFails := 0 } := by
  obtain ⟨w, m, next⟩ := pageNext_frame v
  exact ⟨w, m, by rw [vaultStored, next]⟩

/-- A failed page counts, and nothing but the place of the next record moves. -/
theorem vaultFailed_counts (few : s.nv.pageFails < 127) :
    vaultFailed s = setNv (fun v => { pageNext v with pageFails := v.pageFails + 1 }) s := by
  have few : ¬ 128 ≤ s.nv.pageFails + 1 := by omega
  unfold vaultFailed
  dsimp only [setNv]
  rw [if_neg (by simp [few])]

theorem inSafe_vaultDead (notReset : s.sys.mode ≠ .reset) (notSafe : s.sys.mode ≠ .safe) : InSafe (vaultDead s) 3 4 := by
  have dead := inSafe_enterSafe (s := { s with
    nv := { s.nv with vault := { s.nv.vault with marks := s.nv.stored.marks } }, tg := { s.tg with markBad := true } }) notReset notSafe 3 4
  exact dead

theorem inSafe_vaultFailed (service : inService s = true) (many : 127 ≤ s.nv.pageFails) (first : s.tg.markBad = false) :
    InSafe (vaultFailed s) 3 4 := by
  have dead : (decide (128 ≤ s.nv.pageFails + 1) && !s.tg.markBad) = true := by
    rw [first, decide_eq_true (by omega)]
    rfl
  unfold vaultFailed
  dsimp only [setNv]
  rw [if_pos dead]
  exact inSafe_vaultDead (notReset_of_inService service) (notSafe_of_inService service)

theorem exec_vaultWearMove (runs : vaultRuns s = true) (due : s.nv.moveDue = true) (written : s.nv.vault = s.nv.stored)
    (sent : s.nv.queue = []) (ledger : s.nv.ledger.retiring = none) (clog : s.nv.clog.retiring = none) :
    ∃ w, exec .vaultWearMove s = .next { s with nv := { s.nv with
      pair := if 58 ≤ s.nv.pair then 52 else s.nv.pair + 2, page := 0, moveDue := false, wear := w } } :=
  ⟨_, congrArg Host.Outcome.next (if_neg (by simp [runs, due, written, sent, ledger, clog]))⟩

end Records

/-! ### The password buffer (R482) -/

theorem setWidth_append_low (hi lo : Byte) : BitVec.setWidth 8 (hi ++ lo : W16) = lo :=
  BitVec.eq_of_toNat_eq (by rw [BitVec.toNat_setWidth, toNat_append8]; omega)

theorem setWidth_append_high (hi lo : Byte) : BitVec.setWidth 8 ((hi ++ lo : W16) >>> 8) = hi :=
  BitVec.eq_of_toNat_eq (by
    rw [BitVec.toNat_setWidth, BitVec.toNat_ushiftRight, Nat.shiftRight_eq_div_pow, toNat_append8]
    omega)

theorem pwWord_append {lo hi : Byte} {b : PwBuf} (room : b.words < 16) (going : b.ended = false) (low : lo ≠ 0) (high : hi ≠ 0) :
    pwWord (hi ++ lo) b = { chars := b.chars ++ [lo, hi], words := b.words + 1, ended := false } := by
  unfold pwWord
  rw [if_neg (by simp [going]; omega)]
  dsimp only
  rw [setWidth_append_low, setWidth_append_high, if_neg low, if_neg high]

/-! ### Wrong passwords (R480) -/

section Wrong

variable {s : State} {p : Fin 2}

theorem wrongPw_counts (few : s.nv.vault.wrong.toNat < 4) :
    RecordOnly (setVault (fun v => { v with wrong := v.wrong + 1 }) s) (wrongPw p s) := by
  have only : RecordOnly (setVault (fun v => { v with wrong := v.wrong + 1 }) s)
    (access p 2 0 (setVault (fun v => { v with wrong := v.wrong + 1 }) s)) := RecordOnly.record _ _ _ _
  have count : (access p 2 0 (setVault (fun v => { v with wrong := v.wrong + 1 }) s)).nv.vault.wrong = s.nv.vault.wrong + 1 :=
    congrArg (·.nv.vault.wrong) only
  unfold wrongPw
  dsimp only
  rw [if_pos]
  · exact only
  · rw [count, BitVec.toNat_add, show (1 : Byte).toNat = 1 from rfl]
    omega

/-- The state with login locked on both ports for ten minutes. -/
def locked10 (s : State) : State :=
  setNv (fun v => { v with vault := { v.vault with wrong := 0, k := 1, lockMin := 10 }, lockNext := some (s.now + 60000000) }) s

theorem wrongPw_locks (fifth : s.nv.vault.wrong = 4) (first : s.nv.vault.k = 0) : RecordOnly (locked10 s) (wrongPw p s) := by
  unfold wrongPw
  dsimp only
  generalize counted : access p 2 0 (setVault (fun v => { v with wrong := v.wrong + 1 }) s) = y
  have only : RecordOnly (setVault (fun v => { v with wrong := v.wrong + 1 }) s) y := counted ▸ RecordOnly.record _ _ _ _
  have count : y.nv.vault.wrong = s.nv.vault.wrong + 1 := congrArg (·.nv.vault.wrong) only
  have lockCount : y.nv.vault.k = s.nv.vault.k := congrArg (·.nv.vault.k) only
  have now : y.now = s.now := congrArg (·.now) only
  rw [if_neg (by rw [count, fifth]; decide), lockCount, first, now]
  have locked : RecordOnly (locked10 s) (setNv (fun v => { v with
      vault := { v.vault with wrong := 0, k := 1, lockMin := 10 }, lockNext := some (s.now + 60000000) }) y) :=
    (congrArg (setNv fun v => { v with
      vault := { v.vault with wrong := 0, k := 1, lockMin := 10 }, lockNext := some (s.now + 60000000) }) only).trans rfl
  exact locked.trans (RecordOnly.record _ _ _ _)

end Wrong

/-! ### Login (R479, R480) -/

section Login

variable {s : State} {p : Fin 2}

theorem lockTick_of_unlocked (none : s.nv.lockNext = none) : lockTick s = s := by
  unfold lockTick
  rw [none]

theorem lockTick_of_early {t : Nat} (next : s.nv.lockNext = some t) (early : s.now < t) : lockTick s = s := by
  unfold lockTick
  rw [next]
  exact if_pos early

/-- One minute of the lock runs out. -/
theorem lockTick_minute {t : Nat} (next : s.nv.lockNext = some t) (due : t ≤ s.now) (one : s.now < t + 60000000) :
    lockTick s = setNv (fun v => { v with
      vault := { v.vault with lockMin := BitVec.ofNat 16 (s.nv.vault.lockMin.toNat - 1) },
      lockNext := if BitVec.ofNat 16 (s.nv.vault.lockMin.toNat - 1) = 0 then none else some (t + 60000000) }) s := by
  have minute : (s.now - t) / 60000000 + 1 = 1 := by omega
  unfold lockTick
  rw [next]
  dsimp only
  rw [if_neg (by omega), minute]

variable (still : lockTick s = s)

include still

theorem loginDo_locked (locked : s.nv.vault.lockMin ≠ 0) : loginDo p s = pwClear p s := by
  unfold loginDo
  rw [still]
  exact if_pos locked

variable (unlocked : s.nv.vault.lockMin = 0)

include unlocked

theorem loginDo_wrong (wrong : pwRight s.nv.login[p.1].pw.chars s = false) : loginDo p s = wrongPw p (pwClear p s) := by
  unfold loginDo
  rw [still]
  exact (if_neg (not_not_intro unlocked)).trans (if_neg (Bool.not_eq_true _ ▸ wrong))

/-- A right password logs the port in and clears the counts. -/
theorem loginDo_right (right : pwRight s.nv.login[p.1].pw.chars s = true) :
    (loginDo p s).nv.login[p.1] = { on := true, last := s.now, pw := {} } ∧
      (loginDo p s).nv.vault = { s.nv.vault with wrong := 0, k := 0 } := by
  have only : RecordOnly
      (setVault (fun v => { v with wrong := 0, k := 0 }) (setLogin p (fun l => { l with on := true, last := s.now }) (pwClear p s)))
      (loginDo p s) := by
    unfold loginDo
    rw [still]
    refine (congrArg (RecordOnly _) ((if_neg (not_not_intro unlocked)).trans (if_pos right))).mpr ?_
    exact RecordOnly.record _ _ _ _
  have login := (get_upd_same (upd s.nv.login p fun l => { l with pw := {} }) p fun l => { l with on := true, last := s.now }).trans
    (congrArg (fun l : Login => { l with on := true, last := s.now }) (get_upd_same _ _ _))
  exact ⟨(congrArg (·.nv.login[p.1]) only).trans login, congrArg (·.nv.vault) only⟩

/-- A wrong password counts. -/
theorem loginDo_counts (wrong : pwRight s.nv.login[p.1].pw.chars s = false) (few : s.nv.vault.wrong.toNat < 4) :
    (loginDo p s).nv.login[p.1].on = s.nv.login[p.1].on ∧
      (loginDo p s).nv.vault = { s.nv.vault with wrong := s.nv.vault.wrong + 1 } := by
  rw [loginDo_wrong still unlocked wrong]
  have only := wrongPw_counts (s := pwClear p s) (p := p) few
  exact ⟨(congrArg (·.nv.login[p.1].on) only).trans (congrArg Login.on (get_upd_same _ _ _)), congrArg (·.nv.vault) only⟩

/-- The fifth wrong password in a row locks login for ten minutes. -/
theorem loginDo_locks (wrong : pwRight s.nv.login[p.1].pw.chars s = false) (fifth : s.nv.vault.wrong = 4) (first : s.nv.vault.k = 0) :
    (loginDo p s).nv.login[p.1].on = s.nv.login[p.1].on ∧
      (loginDo p s).nv.vault = { s.nv.vault with wrong := 0, k := 1, lockMin := 10 } ∧
      (loginDo p s).nv.lockNext = some (s.now + 60000000) := by
  rw [loginDo_wrong still unlocked wrong]
  have only := wrongPw_locks (s := pwClear p s) (p := p) fifth first
  exact ⟨(congrArg (·.nv.login[p.1].on) only).trans (congrArg Login.on (get_upd_same _ _ _)), congrArg (·.nv.vault) only,
    congrArg (·.nv.lockNext) only⟩

end Login

/-- A login that stands ends with a record of its own. -/
theorem endLogin_on {s : State} {p : Fin 2} (on : s.nv.login[p.1].on = true) (reason : Nat) :
    RecordOnly { s with nv := { s.nv with login := s.nv.login.set p.1 {} } } (endLogin p reason s) := by
  unfold endLogin
  rw [if_pos on]
  exact RecordOnly.record _ _ _ _

/-- After the end of a port's login that port is not logged in and the others are as before. -/
theorem endLogin_clears (p : Fin 2) (reason : Nat) (s : State) :
    ∃ l, RecordOnly { s with nv := { s.nv with login := l } } (endLogin p reason s) ∧ l[p.1].on = false ∧
      ∀ q : Fin 2, q ≠ p → l[q.1] = s.nv.login[q.1] := by
  by_cases on : s.nv.login[p.1].on = true
  · exact ⟨_, endLogin_on on reason, by simp, fun q other => Vector.getElem_set_ne _ _ (Fin.val_ne_of_ne other.symm)⟩
  · refine ⟨s.nv.login, ?_, by simpa using on, fun _ _ => rfl⟩
    unfold endLogin
    rw [if_neg on]
    rfl

/-! ### Setting a password (R481) -/

section Setpwd

variable {s : State} {p : Fin 2} {vaultOk : Bool}

theorem setpwdDo_out (out : s.nv.login[p.1].on = false) : setpwdDo p true vaultOk s = setResult 0x10 p 0 0 (pwClear p s) :=
  if_pos (by simp [pwClear, setLogin, setNv, out])

theorem setpwdDo_invalid (on : s.nv.login[p.1].on = true) (invalid : pwValid s.nv.login[p.1].pw.chars = false) :
    setpwdDo p true vaultOk s = setResult 0x26 p 0 0 (pwClear p s) :=
  (if_neg (by simp [pwClear, setLogin, setNv, on])).trans (if_pos (by simp [invalid]))

/-- An entry that is written takes the next number and the next slot. -/
theorem clogWrite_room (e : CEnt) (kept : s.nv.clog.lost = none) (whole : s.nv.clog.retiring = none)
    (room : s.nv.clog.recs.length + s.nv.clog.fill < 255 * (s.nv.clog.full + 1)) : ∃ t, clogWrite e true s = some t ∧
      t.nv.vault = s.nv.vault ∧ t.nv.login = s.nv.login ∧ t.nv.cseq = s.nv.cseq + 1 ∧
      t.nv.clog.recs.length = s.nv.clog.recs.length + 1 ∧ t.um = s.um := by
  have free := partRoom_of_room room
  have put : partPut 255 6 { e with cseq := s.nv.cseq + 1 } s.nv.clog =
    { s.nv.clog with recs := s.nv.clog.recs ++ [{ e with cseq := s.nv.cseq + 1 }] } := if_pos free
  have roomy : partRoom 255 s.nv.clog = true := by simp [partRoom, free]
  have written : clogWrite e true s = some (clogPut e s) := by
    simp [clogWrite, kept, whole, roomy]
  have nv : (clogPut e s).nv = { s.nv with
      cseq := s.nv.cseq + 1, clog := { s.nv.clog with recs := s.nv.clog.recs ++ [{ e with cseq := s.nv.cseq + 1 }] } } :=
    (tapOut_nv _ _ _).trans (congrArg (fun q => { s.nv with cseq := s.nv.cseq + 1, clog := q }) put)
  exact ⟨_, written, by rw [nv], by rw [nv], by rw [nv], by rw [nv]; exact List.length_append,
    tapOut_um _ _ _⟩

theorem pwStore_frame (chars : List Byte) (s : State) : ∃ salt w m, pwStore chars true s = { s with free := s.free + 1, nv := { s.nv with
    vault := { s.nv.vault with salt := salt, hash := sha256 (salt ++ chars) },
    stored := { s.nv.vault with salt := salt, hash := sha256 (salt ++ chars) },
    page := (s.nv.page + 1) % 128, wear := w, moveDue := m, gen := s.nv.gen + 1, pageFails := 0 } } := by
  obtain ⟨w, m, stored⟩ := vaultStored_frame { s.nv with vault := { s.nv.vault with
    salt := (Config.freeSalt s.free).take 16, hash := sha256 ((Config.freeSalt s.free).take 16 ++ chars) } }
  exact ⟨_, w, m, congrArg (fun v => { s with free := s.free + 1, nv := v }) stored⟩

/-- A new password that is allowed is stored and logged, and ends the other port's login only. -/
theorem setpwdDo_stores (on : s.nv.login[p.1].on = true) (valid : pwValid s.nv.login[p.1].pw.chars = true)
    (kept : s.nv.clog.lost = none) (whole : s.nv.clog.retiring = none)
    (room : s.nv.clog.recs.length + s.nv.clog.fill < 255 * (s.nv.clog.full + 1)) :
    let t := setpwdDo p true true s
    ∃ salt, t.nv.vault = { s.nv.vault with salt := salt, hash := sha256 (salt ++ s.nv.login[p.1].pw.chars) } ∧ t.nv.stored = t.nv.vault ∧
      t.nv.clog.recs.length = s.nv.clog.recs.length + 1 ∧ t.nv.cseq = s.nv.cseq + 1 ∧ t.nv.login[p.1].on = true ∧
      (∀ q : Fin 2, q ≠ p → t.nv.login[q.1].on = false) ∧ t.um = s.um := by
  intro t
  have cleared : (pwClear p s).nv.login[p.1].on = true := by simp [pwClear, setLogin, setNv, on]
  obtain ⟨u, written, vault, login, cseq, recs, um⟩ := clogWrite_room (s := pwClear p s) (pwEntry p (pwClear p s)) kept whole room
  have done : t = endLogin (1 - p) 4 (access p 5 0 (pwStore s.nv.login[p.1].pw.chars true u)) := by
    refine (if_neg (by simp [cleared])).trans ((if_neg (by simp [valid])).trans ?_)
    rw [written]
  obtain ⟨salt, w, m, stored⟩ := pwStore_frame s.nv.login[p.1].pw.chars u
  have recorded : RecordOnly (pwStore s.nv.login[p.1].pw.chars true u) (access p 5 0 (pwStore s.nv.login[p.1].pw.chars true u)) :=
    RecordOnly.record _ _ _ _
  obtain ⟨l, only, out, others⟩ := endLogin_clears (1 - p) 4 (access p 5 0 (pwStore s.nv.login[p.1].pw.chars true u))
  rw [← done] at only
  rw [stored] at recorded only others
  have lastVault := (congrArg (·.nv.vault) only).trans (congrArg (·.nv.vault) recorded)
  have lastStored := (congrArg (·.nv.stored) only).trans (congrArg (·.nv.stored) recorded)
  have lastClog := (congrArg (·.nv.clog) only).trans (congrArg (·.nv.clog) recorded)
  have lastCseq := (congrArg (·.nv.cseq) only).trans (congrArg (·.nv.cseq) recorded)
  have lastLogin : t.nv.login = l := congrArg (·.nv.login) only
  have mine : l[p.1] = (pwClear p s).nv.login[p.1] := (others p (by omega)).trans
    ((congrArg (·.nv.login[p.1]) recorded).trans (congrArg (fun l => l[p.1]) login))
  exact ⟨salt, lastVault.trans (congrArg (fun v : Vault => { v with salt := salt, hash := sha256 (salt ++ s.nv.login[p.1].pw.chars) }) vault),
    lastStored.trans lastVault.symm, (congrArg (·.recs.length) lastClog).trans recs, lastCseq.trans cseq,
    (congrArg (fun l => l[p.1].on) lastLogin).trans ((congrArg Login.on mine).trans cleared),
    fun q other => by
      obtain rfl : q = 1 - p := by omega
      exact (congrArg (fun l => l[(1 - p).1].on) lastLogin).trans out,
    ((congrArg (·.um) only).trans (congrArg (·.um) recorded)).trans um⟩

end Setpwd

/-! ### Keys and hashes -/

/-- A command of CV_CMD with a wrong key touches the age of a login at most. -/
theorem cvCommand_wrongKey {s : State} {p : Port} {k : Byte} (wrong : k ≠ 0xC7) (f : State → State) (live : portLive s = true) :
    ∃ t, cvCommand p k f s = .next t ∧ t = { s with hb := t.hb, nv := { s.nv with login := t.nv.login } } ∧
      t.nv.login[p.ix.1].on = s.nv.login[p.ix.1].on := by
  obtain ⟨h, l, run, ages⟩ := portWrite_touched (p := p) (a := 0x1A4) (f := fun s => if k = 0xC7 then f s else s) live
  obtain ⟨last, aged⟩ := ages p.ix
  exact ⟨_, congrArg Host.Outcome.next (run.trans (if_neg wrong)), rfl, (congrArg Login.on aged :)⟩

theorem pwRight_of_hash {s : State} {chars : List Byte} (set : s.nv.vault.hash ≠ List.replicate 32 0) :
    pwRight chars s = decide (sha256 (s.nv.vault.salt ++ chars) = s.nv.vault.hash) :=
  if_neg (by rw [defPwd, decide_eq_false set]; exact Bool.false_ne_true)

theorem otherPort_ix_ne (p : Port) : (otherPort p).ix ≠ p.ix := by cases p <;> decide

/-- Settles O39: a served command of CV_CMD acts on a state in which only the host bus and the age of logins differ, so each clause is the
rule of what it does: of the vault's pages, of the password buffer, of LOGIN, LOGOUT and SETPWD, and of the lock's minutes. -/
theorem loginsPasswordsAndTheVault : Obligations.LoginsPasswordsAndTheVault := by
  intro s p service l v
  have notReset := notReset_of_inService service
  have noClock : clockSafe s = false := clockSafe_of_service service
  have live := portLive_of_mode_of_clock notReset noClock
  have runs := vaultRuns_of_service service
  refine ⟨fun changed => ?write, fun same => exec_vaultWrite_unchanged same, fun due written sent ledger clog => ?move,
    fun lo hi room going low high => ?word, fun none unlocked set => ?login, fun t1 next locked early => ?locked, fun k wrong => ?wrongKey,
    fun on => ?logout, fun out => ?out, fun on invalid => ?invalid, fun on valid kept whole room => ?setpwd, fun on idle => ?timeout,
    fun fresh => ?fresh, fun t1 next => ?expiry⟩
  case write =>
    refine ⟨?_, fun few => ?_, fun many first => ⟨_, exec_vaultWrite_failed runs changed, inSafe_vaultFailed service many first⟩⟩
    · obtain ⟨w, m, stored⟩ := vaultStored_frame s.nv
      have nv : (sendWaiting (setNv vaultStored s)).nv = _ := (sendWaiting_nv _).trans stored
      refine ⟨_, exec_vaultWrite_stored runs changed, by rw [nv], by rw [nv], by rw [nv], by rw [nv], by rw [nv], fun noneWaits => ?_⟩
      rw [sendWaiting_of_none (s := setNv vaultStored s) noneWaits]
      rfl
    · obtain ⟨w, m, next⟩ := pageNext_frame s.nv
      have run := exec_vaultWrite_failed runs changed
      rw [vaultFailed_counts few] at run
      refine ⟨_, run, ?_, rfl, rfl⟩
      exact (congrArg Nv.stored next :)
  case move =>
    obtain ⟨w, run⟩ := exec_vaultWearMove runs due written sent ledger clog
    exact ⟨_, run, rfl, rfl, rfl, rfl, rfl⟩
  case word =>
    obtain ⟨h, lo', run, ages⟩ := portWrite_touched (p := p) (a := 0x1A3) (f := pwWrite p.ix (hi ++ lo)) live
    obtain ⟨last, aged⟩ := ages p.ix
    have new : (pwWrite p.ix (hi ++ lo) (touched s h lo')).nv.login[p.ix.1] =
        { l with last := last, pw := { chars := l.pw.chars ++ [lo, hi], words := l.pw.words + 1, ended := false } } := by
      refine (get_upd_same _ _ _).trans ?_
      rw [show (touched s h lo').nv.login[p.ix.1] = _ from aged]
      exact congrArg (fun b => { l with last := last, pw := b }) (pwWord_append room going low high)
    exact ⟨_, congrArg Host.Outcome.next run, (congrArg (·.pw.chars) new :), (congrArg (·.pw.words) new :),
      (congrArg Login.on new :), rfl⟩
  case login =>
    obtain ⟨h, lo, run, ages⟩ := cvCommand_keyed (p := p) (f := loginDo p.ix) live
    obtain ⟨last, aged⟩ := ages p.ix
    have still := lockTick_of_unlocked (s := touched s h lo) none
    have right := pwRight_of_hash (s := touched s h lo) (chars := lo[p.ix.1].pw.chars) set
    have same : lo[p.ix.1].on = l.on := (congrArg Login.on aged :)
    rw [show l.pw.chars = lo[p.ix.1].pw.chars from (congrArg (·.pw.chars) aged).symm]
    refine ⟨fun is => ?_, fun no few => ?_, fun no fifth first => ?_⟩
    · exact ⟨_, run, loginDo_right still unlocked (right.trans (decide_eq_true is))⟩
    · obtain ⟨on, vault⟩ := loginDo_counts still unlocked (right.trans (decide_eq_false no)) few
      exact ⟨_, run, on.trans same, vault⟩
    · obtain ⟨on, vault, next⟩ := loginDo_locks still unlocked (right.trans (decide_eq_false no)) fifth first
      exact ⟨_, run, on.trans same, vault, next⟩
  case locked =>
    obtain ⟨h, lo, run, ages⟩ := cvCommand_keyed (p := p) (f := loginDo p.ix) live
    obtain ⟨last, aged⟩ := ages p.ix
    have refused := loginDo_locked (p := p.ix) (lockTick_of_early (s := touched s h lo) next early) locked
    exact ⟨_, run.trans (congrArg Host.Outcome.next refused), (congrArg Login.on (get_upd_same _ _ _)).trans (congrArg Login.on aged :), rfl, rfl⟩
  case wrongKey =>
    simp only [List.forall_mem_cons]
    exact ⟨cvCommand_wrongKey wrong _ live, cvCommand_wrongKey wrong _ live, cvCommand_wrongKey wrong _ live,
      cvCommand_wrongKey wrong _ live, fun _ h => absurd h List.not_mem_nil⟩
  case logout =>
    obtain ⟨h, lo, run, ages⟩ := cvCommand_keyed (p := p) (f := endLogin p.ix 1) live
    obtain ⟨last, aged⟩ := ages p.ix
    have only := endLogin_on (s := touched s h lo) (p := p.ix) ((congrArg Login.on aged).trans on) 1
    exact ⟨_, run, (congrArg (·.nv.login[p.ix.1]) only).trans (Vector.getElem_set_self _)⟩
  case out =>
    obtain ⟨h, lo, run, ages⟩ := cvCommand_keyed (p := p) (f := setpwdDo p.ix true true) live
    obtain ⟨last, aged⟩ := ages p.ix
    have refused := setpwdDo_out (s := touched s h lo) (p := p.ix) (vaultOk := true) ((congrArg Login.on aged).trans out)
    exact ⟨_, run.trans (congrArg Host.Outcome.next refused), rfl, rfl⟩
  case invalid =>
    obtain ⟨h, lo, run, ages⟩ := cvCommand_keyed (p := p) (f := setpwdDo p.ix true true) live
    obtain ⟨last, aged⟩ := ages p.ix
    have refused := setpwdDo_invalid (s := touched s h lo) (p := p.ix) (vaultOk := true) ((congrArg Login.on aged).trans on)
      ((congrArg (fun x => pwValid x.pw.chars) aged).trans invalid)
    exact ⟨_, run.trans (congrArg Host.Outcome.next refused), rfl, rfl⟩
  case setpwd =>
    obtain ⟨h, lo, run, ages⟩ := cvCommand_keyed (p := p) (f := setpwdDo p.ix true true) live
    obtain ⟨last, aged⟩ := ages p.ix
    obtain ⟨salt, vault, stored, recs, cseq, mine, others, -⟩ := setpwdDo_stores (s := touched s h lo) (p := p.ix)
      ((congrArg Login.on aged).trans on)
      ((congrArg (fun x => pwValid x.pw.chars) aged).trans valid) kept whole room
    rw [show (touched s h lo).nv.login[p.ix.1].pw.chars = l.pw.chars from congrArg (·.pw.chars) aged] at vault
    exact ⟨_, salt, run, vault, stored, recs, cseq, mine, others _ (otherPort_ix_ne p)⟩
  case timeout =>
    have only := endLogin_on on 2
    exact ⟨_, congrArg Host.Outcome.next (if_pos (by simp [l, on, idle])),
      (congrArg (·.nv.login[p.ix.1]) only).trans (Vector.getElem_set_self _)⟩
  case fresh =>
    have stays : ¬ (l.on && decide (l.last + 900000000 ≤ s.now)) = true := by
      obtain out | young := fresh
      · simp [out]
      · simp [young]
    exact congrArg Host.Outcome.next (if_neg stays)
  case expiry =>
    have run : exec .loginLockExpiry s = .next (lockTick s) := congrArg Host.Outcome.next (if_neg notReset)
    refine ⟨fun early => ?_, fun due one many => ?_, fun due one last => ?_⟩
    · rw [run, lockTick_of_early next early]
    · have rest : BitVec.ofNat 16 (v.lockMin.toNat - 1) = v.lockMin - 1 := by bv_omega
      have going : v.lockMin - 1 ≠ 0 := by bv_omega
      rw [run, lockTick_minute next due one, show s.nv.vault.lockMin = v.lockMin from rfl, rest, if_neg going]
      rfl
    · have rest : BitVec.ofNat 16 (v.lockMin.toNat - 1) = 0 := by rw [last]; rfl
      rw [run, lockTick_minute next due one, show s.nv.vault.lockMin = v.lockMin from rfl, rest, if_pos rfl]
      rfl

end Sys2Proof.Machine
end

section
/-! PROOFS. Vendor requests of USB: how an OUT request completes, and what its register writes do (R710 to R722). -/

namespace Sys2Proof.Machine

open Sys2Proof

/-! ### Completion (R712, R713) -/

/-- The command is answered, and notes its request code and outcome; of what it leaves `P` holds. -/
def Completes (s : State) (i : Instr) (code : Byte) (res : BitVec 4) (P : State → Prop) : Prop :=
  ∃ t, exec i s = .next t ∧ t.um.lastReq = code ∧ t.um.lastRes = res ∧ t.um.reqCnt = s.um.reqCnt + 1 ∧ P t

theorem portLive_of_usbLive {s : State} (live : usbLive s = true) : portLive s = true := by
  simp only [usbLive, Bool.and_eq_true] at live
  simp [portLive, live]

section Completion

variable {s : State} {code : Byte} {ok inProve login : Bool} {r : UsbReq} (live : usbLive s = true) (free : s.um.held = false)

include live free

theorem vendorIn_answers (type : r.rtype = 0xC0) (form : ok = true) (f : State → List Byte × State) :
    vendorIn code ok r f s = .next (vendorDone code 0 (usbAnswer (.data (f s).1) (f s).2)) :=
  congrArg Host.Outcome.next ((usbRequest_live live free _).trans (if_pos (by simp [type, form])))

variable {i : Instr} {f : State → Nat × State} {P : State → Prop} (is : exec i s = vendorOut code ok inProve login r f s)
variable (type : r.rtype = 0x40) (form : ok = true) (complete : r.length.toNat ≤ r.data.length) (notProve : s.sys.mode ≠ .prove)

include is type form complete notProve

/-- A request that is allowed completes with the outcome of what it does. -/
theorem vendorOut_done {n : Nat} {t : State} {res : BitVec 4} (allowed : login = true → s.nv.login[1].on = true) (act : f s = (n, t))
    (outcome : BitVec.ofNat 4 n = res) (count : t.um.reqCnt = s.um.reqCnt) (holds : P (vendorDone code n (usbAnswer .status t))) :
    Completes s i code res P := by
  have permitted : ¬ (login && !s.nv.login[1].on) = true := by
    intro refused
    rw [Bool.and_eq_true] at refused
    obtain ⟨needs, out⟩ := refused
    simp [allowed needs] at out
  refine ⟨_, is.trans (congrArg Host.Outcome.next ((usbRequest_live live free _).trans ((if_neg (by simp [type, form])).trans
    ((if_neg (by omega)).trans ((if_neg (by simp [notProve])).trans ((if_neg permitted).trans
    (congrArg (fun x : Nat × State => vendorDone code x.1 (usbAnswer .status x.2)) act))))))), rfl, outcome, ?_, holds⟩
  exact congrArg (· + 1) count

/-- A request that needs a login completes without it as not logged in. -/
theorem vendorOut_notLoggedIn (needs : login = true) (out : s.nv.login[1].on = false)
    (holds : P (vendorDone code 1 (usbAnswer .status s))) : Completes s i code 1 P :=
  ⟨_, is.trans (congrArg Host.Outcome.next ((usbRequest_live live free _).trans ((if_neg (by simp [type, form])).trans
    ((if_neg (by omega)).trans ((if_neg (by simp [notProve])).trans (if_pos (by simp [needs, out]))))))), rfl, rfl, rfl, holds⟩

end Completion

/-! ### What each OUT request runs -/

section Runs

variable (r : UsbReq) (s : State)

theorem exec_writeRegs (f : WriteFindings) : exec (.writeRegs r f) s = vendorOut 0x03 (regsForm r) false false r (fun s =>
    (if usbSkips (r.length.toNat / 2) r.value.toNat then 5 else 0,
      usbWrites f r.value.toNat (wordsOf (r.data.take r.length.toNat)) s)) s := rfl

theorem exec_usbLogin : exec (.usbLogin r) s = vendorOut 0x10 (pwForm r) false false r (fun s =>
    (loginRes (pwWrites (pwWords r) s), usbWrite 0x1A4 0xC701 {} (pwWrites (pwWords r) s))) s := rfl

theorem exec_usbLogout : exec (.usbLogout r) s = vendorOut 0x11 (plain r && r.length = 0) false false r (fun s =>
    (0, usbWrite 0x1A4 0xC702 {} s)) s := rfl

theorem exec_usbSetpwd (entryOk vaultOk : Bool) : exec (.usbSetpwd r entryOk vaultOk) s =
    vendorOut 0x12 (pwForm r) false true r (fun s => (if setpwdOk 1 entryOk (pwWrites (pwWords r) s) then 0 else 5,
      usbWrite 0x1A4 0xC703 { entryOk := entryOk, vaultOk := vaultOk } (pwWrites (pwWords r) s))) s := rfl

theorem exec_usbClearstage : exec (.usbClearstage r) s = vendorOut 0x20 (plain r && r.length = 0) false true r (fun s =>
    (clearRes s, usbWrite 0x1A4 0xC704 {} s)) s := rfl

/-- The writes of a chunk. -/
def stageWrites (r : UsbReq) (nvmOk : Bool) (s : State) : State :=
  usbWrite 0x1A8 (BitVec.ofNat 16 (leAt r.data 258 2)) { nvmOk := nvmOk } (usbWrite 0x1A7 (BitVec.ofNat 16 (leAt r.data 256 2)) {}
    (chunkWrites (wordsOf (r.data.take 256)) (usbWrite 0x1A5 (r.value ||| (if r.index = 1 then 0x8000 else 0)) {} s)))

theorem exec_stage (nvmOk : Bool) : exec (.stage r nvmOk) s =
    vendorOut 0x21 (decide (r.value.toNat < 1024) && decide (r.index.toNat ≤ 1) && r.length = 260) false true r (fun s =>
      (stageRes (stageWrites r nvmOk s), stageWrites r nvmOk s)) s := rfl

/-- The writes of a check code. -/
def codeWrites (r : UsbReq) (s : State) : State :=
  usbWrite 0x1AD (BitVec.ofNat 16 (leAt r.data 2 2)) {} (usbWrite 0x1AC (BitVec.ofNat 16 (leAt r.data 0 2)) {} s)

theorem exec_usbCommit (f : CommitFindings) : exec (.usbCommit r f) s = vendorOut 0x22 (plain r && r.length = 4) false true r (fun s =>
    (commitRes (codeWrites r s),
      usbWrite 0x1A4 0xC705 { entryOk := f.entryOk, vaultOk := f.vaultOk, ends := f.ends } (codeWrites r s))) s := rfl

theorem exec_logStart : exec (.logStart r) s =
    vendorOut 0x30 (r.value = 0 && decide (r.index.toNat ≤ 2) && r.length = 8) true false r (fun s =>
      (0, downloadStart ⟨r.index.toNat % 3, by omega⟩ (leAt r.data 0 4) (leAt r.data 4 4) s)) s := rfl

theorem exec_logStop : exec (.logStop r) s = vendorOut 0x31 (plain r && r.length = 0) true false r (fun s =>
    (0, setUm (fun u => { u with download := none }) s)) s := rfl

theorem exec_usbUnlock : exec (.usbUnlock r) s =
    vendorOut 0x40 (decide (r.value.toNat < 16) && r.index = 0 && r.length = 0) false true r (fun s =>
      (if !unlockWaits ⟨r.value.toNat % 16, by omega⟩ s && unlockOk ⟨r.value.toNat % 16, by omega⟩ s then 0 else 5,
        unlockRequest ⟨r.value.toNat % 16, by omega⟩ true s)) s := rfl

theorem exec_resetDevice : exec (.resetDevice r) s =
    vendorOut 0x41 (r.value = 0x52A7 && r.index = 0x0C9E && r.length = 0) false false r usbResetAsk s := rfl

end Runs

/-! ### Register writes of the port (R714) -/

/-- A write that USB may make acts on a state that differs in the host bus and in the age of logins. -/
theorem usbWrite_touched {s : State} {a : Nat} (v : W16) (f : WriteFindings) (live : portLive s = true) (may : usbBarred a = false)
    (word : writable a = true) : ∃ h l, usbWrite a v f s = wordWrite .usb a v f (touched s h l) ∧
      ∀ q : Fin 2, ∃ last, l[q.1] = { s.nv.login[q.1] with last := last } := by
  obtain ⟨h, l, run, ages⟩ := portWrite_touched (p := .usb) (a := a) (f := wordWrite .usb a v f) live
  refine ⟨h, l, ?_, ages⟩
  unfold usbWrite regWrite
  rw [if_neg (by simp [may]), if_pos word]
  exact run

theorem usbWrite_barred {s : State} {a : Nat} (v : W16) (f : WriteFindings) (barred : usbBarred a = true) : usbWrite a v f s = s :=
  if_pos (by simp [barred])

/-- One word below the end of the map is a transfer that READ_REGS and WRITE_REGS take. -/
theorem regsForm_word {type : Byte} {a : W16} {data : List Byte} (word : a.toNat < 512) :
    regsForm { rtype := type, value := a, length := 2, data := data } = true := by
  simp [regsForm, word]

/-! ### Words of a data stage -/

theorem word_eq_append (a b : Byte) : (b.setWidth 16 <<< 8 ||| a.setWidth 16 : W16) = b ++ a := by
  refine BitVec.eq_of_getLsbD_eq fun i inside => ?_
  rw [BitVec.getLsbD_append]
  by_cases low : i < 8
  · simp [low, inside]
  · simp [low, inside, BitVec.getLsbD_of_ge a i (by omega)]

theorem wordsOf_cons_cons (a b : Byte) (l : List Byte) : wordsOf (a :: b :: l) = (b ++ a) :: wordsOf l :=
  congrArg (· :: wordsOf l) (word_eq_append a b)

/-- A transfer of one word writes it. -/
theorem exec_writeRegs_word (a : W16) (lo hi : Byte) (f : WriteFindings) (s : State) :
    exec (.writeRegs { rtype := 0x40, value := a, length := 2, data := [lo, hi] } f) s =
      vendorOut 0x03 (regsForm { rtype := 0x40, value := a, length := 2, data := [lo, hi] }) false false
        { rtype := 0x40, value := a, length := 2, data := [lo, hi] }
        (fun s => (if usbSkips 1 a.toNat then 5 else 0, usbWrite a.toNat (hi ++ lo) f s)) s := by
  have words : wordsOf (([lo, hi] : List Byte).take (2 : W16).toNat) = [hi ++ lo] := wordsOf_cons_cons lo hi []
  rw [exec_writeRegs]
  dsimp only
  rw [words, show (2 : W16).toNat / 2 = 1 from rfl]
  rfl

theorem bytesLE_append (hi lo : Byte) : bytesLE 2 (hi ++ lo : W16).toNat = [lo, hi] := by
  have low : BitVec.ofNat 8 (256 * hi.toNat + lo.toNat) = lo := by bv_omega
  have high : BitVec.ofNat 8 ((256 * hi.toNat + lo.toNat) / 256) = hi := by bv_omega
  rw [toNat_append8]
  exact congrArg₂ (fun a b => [a, b]) low high

/-- An even number of bytes, two at a time. -/
theorem even_bytes_induction {motive : (l : List Byte) → l.length % 2 = 0 → Prop} (nil : motive [] rfl)
    (pair : ∀ a b l even, motive l even → motive (a :: b :: l) ((Nat.add_mod_right l.length 2).trans even)) :
    ∀ (l : List Byte) (even : l.length % 2 = 0), motive l even
  | [], _ => nil
  | [_], odd => absurd (show 1 = 0 from odd) Nat.one_ne_zero
  | a :: b :: l, even => pair a b l ((Nat.add_mod_right l.length 2).symm.trans even) (even_bytes_induction nil pair l _)

theorem flatMap_wordsOf (l : List Byte) (even : l.length % 2 = 0) : (wordsOf l).flatMap (fun w => bytesLE 2 w.toNat) = l := by
  induction l, even using even_bytes_induction with
  | nil => rfl
  | pair a b l even ih => rw [wordsOf_cons_cons, List.flatMap_cons, bytesLE_append, ih]; rfl

theorem length_wordsOf (l : List Byte) (even : l.length % 2 = 0) : 2 * (wordsOf l).length = l.length := by
  have bytes := congrArg List.length (flatMap_wordsOf l even)
  rw [← bytes]
  simp [List.length_flatMap, Nat.mul_comm]

/-- A number at an offset behind the first bytes is read from the rest. -/
theorem leAt_append (l m : List Byte) (o n : Nat) : leAt (l ++ m) (l.length + o) n = leAt m o n := by
  unfold leAt slice
  refine congrArg natLE (List.map_congr_left fun i _ => ?_)
  rw [List.getD_append_right _ _ _ _ (by omega)]
  congr 1
  omega

theorem leAt_bytesLE_low (n : Nat) : leAt (bytesLE 4 n) 0 2 = n % 65536 := by
  simp [leAt, slice, bytesLE, natLE, List.range_succ]
  omega

theorem leAt_bytesLE_high (n : Nat) : leAt (bytesLE 4 n) 2 2 = n / 65536 % 65536 := by
  simp [leAt, slice, bytesLE, natLE, List.range_succ]
  omega

/-- The halves of a code are joined again. -/
theorem join32_halves (w : W32) : join32 (BitVec.ofNat 16 (w.toNat % 65536)) (BitVec.ofNat 16 (w.toNat / 65536 % 65536)) = w := by
  rw [join32_eq_append]
  refine BitVec.eq_of_toNat_eq ?_
  rw [BitVec.toNat_append, ← Nat.shiftLeft_add_eq_or_of_lt (BitVec.isLt _), Nat.shiftLeft_eq, BitVec.toNat_ofNat, BitVec.toNat_ofNat]
  have := w.isLt
  omega

/-! ### A password written in words (R714, R482) -/

/-- Two characters go to the port's buffer. -/
theorem pwWrite_pair {s : State} {a b : Byte} (live : portLive s = true) (low : a ≠ 0) (high : b ≠ 0)
    (going : s.nv.login[1].pw.ended = false) (room : s.nv.login[1].pw.words < 16) : ∃ h x,
      usbWrite 0x1A3 (b ++ a) {} s = touched s h x ∧ x[1].on = s.nv.login[1].on ∧
        x[1].pw = { chars := s.nv.login[1].pw.chars ++ [a, b], words := s.nv.login[1].pw.words + 1, ended := false } := by
  obtain ⟨h, x, wrote, ages⟩ := usbWrite_touched (s := s) (a := 0x1A3) (b ++ a) {} live rfl rfl
  obtain ⟨last, aged⟩ := ages 1
  have buffered := get_upd_same x 1 fun y => { y with pw := pwWord (b ++ a) y.pw }
  exact ⟨h, _, wrote, (congrArg Login.on buffered).trans (congrArg Login.on aged :), (congrArg Login.pw buffered).trans
    ((congrArg (fun y : Login => pwWord (b ++ a) y.pw) aged).trans (pwWord_append room going low high))⟩

/-- The bytes of a password go to the port's buffer, and nothing else moves but the host bus and the login's age. -/
theorem pwWrites_frame (l : List Byte) (even : l.length % 2 = 0) : ∀ s : State, portLive s = true → (∀ b ∈ l, b ≠ 0) →
    s.nv.login[1].pw.ended = false → 2 * s.nv.login[1].pw.words + l.length ≤ 32 → ∃ h x, pwWrites (wordsOf l) s = touched s h x ∧
      x[1].on = s.nv.login[1].on ∧ x[1].pw.chars = s.nv.login[1].pw.chars ++ l := by
  induction l, even using even_bytes_induction with
  | nil => exact fun s _ _ _ _ => ⟨s.hb, s.nv.login, rfl, rfl, (List.append_nil _).symm⟩
  | pair a b l even ih =>
    intro s live nonzero going room
    simp only [List.forall_mem_cons] at nonzero
    simp only [List.length_cons] at room
    obtain ⟨aNonzero, bNonzero, rest⟩ := nonzero
    obtain ⟨h, x, wrote, on, pw⟩ := pwWrite_pair live aNonzero bNonzero going (by omega)
    have words : x[1].pw.words = s.nv.login[1].pw.words + 1 := congrArg PwBuf.words pw
    obtain ⟨h', x', written, on', chars⟩ := ih (touched s h x) live rest (congrArg PwBuf.ended pw)
      (show 2 * x[1].pw.words + l.length ≤ 32 by omega)
    refine ⟨h', x', ?_, on'.trans on, ?_⟩
    · rw [wordsOf_cons_cons, pwWrites, wrote]
      exact written
    · calc x'[1].pw.chars = x[1].pw.chars ++ l := chars
        _ = s.nv.login[1].pw.chars ++ [a, b] ++ l := congrArg (fun p : PwBuf => p.chars ++ l) pw
        _ = s.nv.login[1].pw.chars ++ a :: b :: l := List.append_assoc _ _ _

/-! ### A chunk written in words (R485, R486) -/

/-- Words go to the open chunk, and nothing else moves but the host bus and the login's age. -/
theorem chunkWrites_frame (ws : List W16) : ∀ s : State, portLive s = true → s.nv.chunk.opened = true →
    s.nv.chunk.words.length + ws.length ≤ 128 → ∃ h x, chunkWrites ws s = { s with hb := h, nv := { s.nv with
      login := x, chunk := { s.nv.chunk with words := s.nv.chunk.words ++ ws } } } ∧ x[1].on = s.nv.login[1].on := by
  induction ws with
  | nil => exact fun s _ _ _ => ⟨s.hb, s.nv.login, by rw [List.append_nil]; rfl, rfl⟩
  | cons w ws ih =>
    intro s live opened room
    rw [List.length_cons] at room
    obtain ⟨h, x, wrote, ages⟩ := usbWrite_touched (s := s) (a := 0x1A6) w {} live rfl rfl
    obtain ⟨last, aged⟩ := ages 1
    have fits : s.nv.chunk.words.length < 128 := by omega
    have appended := wrote.trans (chunkWord_room (s := touched s h x) (p := 1) w opened fits)
    obtain ⟨h', x', written, on⟩ := ih (setNv (fun v => { v with chunk := { v.chunk with words := v.chunk.words ++ [w] } })
      { touched s h x with hb := { h with chunkBy := putBit h.chunkBy 1 true } }) live opened (by simp [setNv]; omega)
    refine ⟨h', x', ?_, on.trans (congrArg Login.on aged :)⟩
    rw [chunkWrites, appended]
    refine written.trans ?_
    simp [setNv]

end Sys2Proof.Machine
end

section
/-! PROOFS. What the vendor requests of USB do: reads, logins, staging, commit, unlock and reset (R710 to R722). -/

namespace Sys2Proof.Machine

open Sys2Proof

/-! ### Reads -/

/-- A read of SY_MODE from USB gives its live word. -/
theorem usbReads_mode {s : State} (runs : s.sys.mode ≠ .reset) :
    usbReads 1 0x006 s = (bytesLE 2 (modeWordReg s.sys).toNat, portData .usb (modeWordReg s.sys) s) := by
  have read : usbRead 0x006 s = portData .usb (modeWordReg s.sys) s :=
    (if_neg runs).trans ((if_neg (by simp [openWord])).trans (congrArg (fun w => portData .usb w s) (if_neg runs)))
  have data : (portData .usb (modeWordReg s.sys) s).hb.port[1].data = modeWordReg s.sys := portData_data .usb _ s
  rw [usbReads]
  simp only [read, usbReads, List.append_nil, data]

theorem length_infoBytes (s : State) : (infoBytes s).length = 32 := by
  simp [infoBytes, bytesLE]

/-! ### Logins -/

section Logins

variable {s : State}

theorem lockTick_um (s : State) : (lockTick s).um = s.um := by
  unfold lockTick
  split
  · rfl
  · split <;> rfl

theorem access_um (p : Fin 2) (kind mins : Nat) (s : State) : (access p kind mins s).um = s.um :=
  congrArg (·.um) (RecordOnly.record _ _ _ _ : RecordOnly s (access p kind mins s))

theorem wrongPw_um (p : Fin 2) (s : State) : (wrongPw p s).um = s.um := by
  unfold wrongPw
  dsimp only
  split
  · exact access_um _ _ _ _
  · exact (access_um _ _ _ _).trans (access_um _ _ _ _)

theorem loginDo_um (p : Fin 2) (s : State) : (loginDo p s).um = s.um := by
  unfold loginDo
  dsimp only
  split
  · exact lockTick_um s
  · split
    · exact (access_um _ _ _ _).trans (lockTick_um s)
    · exact (wrongPw_um _ _).trans (lockTick_um s)

variable (still : lockTick s = s)

include still

theorem loginRes_locked (locked : s.nv.vault.lockMin ≠ 0) : loginRes s = 3 := by
  unfold loginRes
  rw [still]
  exact if_pos locked

theorem loginRes_open (unlocked : s.nv.vault.lockMin = 0) : loginRes s = if pwRight s.nv.login[1].pw.chars s then 0 else 2 := by
  unfold loginRes
  rw [still]
  exact if_neg (not_not_intro unlocked)

end Logins

/-! ### Staging and commit -/

/-- The select word of a DRCF chunk names it. -/
theorem chunkSelect (k : Fin 1024) : (BitVec.ofNat 16 k.1 ||| 0) &&& 0x83FF = BitVec.ofNat 16 k.1 := by
  refine BitVec.eq_of_toNat_eq ?_
  have small : k.1 % 65536 = k.1 := Nat.mod_eq_of_lt (by omega)
  have low : k.1 &&& 1023 = k.1 := (Nat.and_two_pow_sub_one_eq_mod k.1 10).trans (Nat.mod_eq_of_lt k.2)
  have top : k.1 &&& 32768 = 0 := by
    rw [show 32768 = 2 ^ 15 from rfl, Nat.and_two_pow, Nat.testBit_lt_two_pow (by omega)]
    rfl
  have mask : k.1 &&& 33791 = k.1 := by
    rw [show 33791 = 1023 ||| 32768 from rfl, Nat.and_or_distrib_left, low, top, Nat.or_zero]
  rw [BitVec.toNat_and, show (0 : W16) = 0#16 from rfl, BitVec.or_zero, BitVec.toNat_ofNat]
  exact (congrArg (· &&& 33791) small).trans (mask.trans small.symm)

/-- The select, the words and the low half of the CRC of a chunk. -/
theorem stageWrites_frame {s : State} (v lo : W16) {ws : List W16} (live : portLive s = true) (fits : ws.length ≤ 128) : ∃ h x,
    usbWrite 0x1A7 lo {} (chunkWrites ws (usbWrite 0x1A5 v {} s)) = { s with hb := h, nv := { s.nv with
      login := x, ssel := v &&& 0x83FF, chunk := { opened := true, words := ws }, scrc0 := lo } } ∧
    x[1].on = s.nv.login[1].on := by
  obtain ⟨h, x, selected, ages⟩ := usbWrite_touched (s := s) (a := 0x1A5) v {} live rfl rfl
  obtain ⟨last, aged⟩ := ages 1
  obtain ⟨h', x', written, on⟩ := chunkWrites_frame ws (chunkOpen v (touched s h x)) live rfl (by simpa [chunkOpen, setNv] using fits)
  obtain ⟨h'', x'', low, ages'⟩ := usbWrite_touched (s := { chunkOpen v (touched s h x) with hb := h', nv := {
    (chunkOpen v (touched s h x)).nv with login := x', chunk := { opened := true, words := ws } } }) (a := 0x1A7) lo {} live rfl rfl
  obtain ⟨last', aged'⟩ := ages' 1
  refine ⟨h'', x'', ?_, (congrArg Login.on aged').trans (on.trans (congrArg Login.on aged :))⟩
  rw [selected]
  exact (congrArg (usbWrite 0x1A7 lo {}) written).trans low

theorem chunkEnd_um (p : Fin 2) (hi : W16) (ok : Bool) (s : State) : (chunkEnd p hi ok s).um = s.um := by
  obtain ⟨h, ended⟩ := chunkEnd_frame (k := chunkLast p (join32 s.nv.scrc0 hi) ok s) hi ok rfl
  rw [ended]
  dsimp only [setLast, setNv]
  split
  · unfold chunkStore
    dsimp only
    split <;> rfl
  · rfl

/-! ### The commit code -/

theorem word0_append (hi lo : W16) : word0 (hi ++ lo) = lo := by
  refine BitVec.eq_of_getLsbD_eq fun i inside => ?_
  rw [word0, BitVec.getLsbD_setWidth, BitVec.getLsbD_append]
  simp [inside]

theorem putHalf_both (w : W32) (lo hi : W16) : putHalf true (putHalf false w lo) hi = join32 lo hi := by
  rw [putHalf_true, putHalf_false, word0_append, join32_eq_append]

theorem codeWrites_frame {s : State} (lo hi : W16) (live : portLive s = true) : ∃ h x, usbWrite 0x1AD hi {} (usbWrite 0x1AC lo {} s) =
    { s with hb := h, nv := { s.nv with login := x, code := join32 lo hi } } ∧ x[1].on = s.nv.login[1].on := by
  obtain ⟨h, x, low, ages⟩ := usbWrite_touched (s := s) (a := 0x1AC) lo {} live rfl rfl
  obtain ⟨last, aged⟩ := ages 1
  obtain ⟨h', x', high, ages'⟩ := usbWrite_touched (s := setNv (fun n => { n with code := putHalf false n.code lo }) (touched s h x))
    (a := 0x1AD) hi {} live rfl rfl
  obtain ⟨last', aged'⟩ := ages' 1
  refine ⟨h', x', ?_, (congrArg Login.on aged').trans (congrArg Login.on aged :)⟩
  rw [low, ← putHalf_both s.nv.code]
  exact high

/-! ### Passwords in a data stage -/

/-- An OUT request that carries a password, in an even number of characters none of which is 0. -/
structure PwRequest (r : UsbReq) : Prop where
  type : r.rtype = 0x40
  form : pwForm r = true
  given : r.data.length = r.length.toNat
  even : r.data.length % 2 = 0
  nonzero : ∀ c ∈ r.data, c ≠ 0

namespace PwRequest

variable {r : UsbReq} {s : State} (req : PwRequest r)

include req

theorem length_le : r.data.length ≤ 32 := by
  have form := req.form
  have given := req.given
  simp only [pwForm, Bool.and_eq_true, decide_eq_true_eq] at form
  omega

theorem pwWords_eq : pwWords r = wordsOf r.data := by
  unfold pwWords
  rw [List.take_of_length_le req.given.le]
  exact congrArg wordsOf (if_pos req.even)

/-- Its bytes reach the empty buffer. -/
theorem buffers (live : portLive s = true) (fresh : s.nv.login[1].pw = {}) : ∃ h x, pwWrites (pwWords r) s = touched s h x ∧
    x[1].on = s.nv.login[1].on ∧ x[1].pw.chars = r.data := by
  have room := req.length_le
  rw [req.pwWords_eq]
  obtain ⟨h, x, wrote, on, chars⟩ := pwWrites_frame r.data req.even s live req.nonzero (congrArg PwBuf.ended fresh)
    (by rw [fresh]; simpa using room)
  exact ⟨h, x, wrote, on, chars.trans (congrArg (fun p : PwBuf => p.chars ++ r.data) fresh)⟩

/-- LOGIN decides on the password that was sent. -/
theorem logsIn (live : portLive s = true) (fresh : s.nv.login[1].pw = {}) : ∃ h x h' x',
    (loginRes (pwWrites (pwWords r) s), usbWrite 0x1A4 0xC701 {} (pwWrites (pwWords r) s)) =
      (loginRes (touched s h x), loginDo 1 (touched s h' x')) ∧
    x[1].pw.chars = r.data ∧ x'[1].pw.chars = r.data ∧ x'[1].on = s.nv.login[1].on := by
  obtain ⟨h, x, buffered, on, chars⟩ := req.buffers live fresh
  obtain ⟨h', x', wrote, ages⟩ := usbWrite_touched (s := touched s h x) (a := 0x1A4) 0xC701 {} live rfl rfl
  obtain ⟨last, aged⟩ := ages 1
  refine ⟨h, x, h', x', ?_, chars, (congrArg (·.pw.chars) aged).trans chars, (congrArg Login.on aged).trans on⟩
  rw [buffered, wrote]
  rfl

end PwRequest

theorem pwRight_touched {s : State} {h : Hb} {x : Vector Login 2} {chars : List Byte} (set : s.nv.vault.hash ≠ List.replicate 32 0)
    (is : x[1].pw.chars = chars) : pwRight (touched s h x).nv.login[1].pw.chars (touched s h x) =
      decide (sha256 (s.nv.vault.salt ++ chars) = s.nv.vault.hash) :=
  (pwRight_of_hash (s := touched s h x) set).trans (by rw [← is])

section Passwords

variable {s : State} {r : UsbReq} (live : usbLive s = true) (free : s.um.held = false) (notProve : s.sys.mode ≠ .prove)
variable (req : PwRequest r) (fresh : s.nv.login[1].pw = {})

include live free notProve req fresh

/-- A LOGIN that completes with the outcome `loginRes` finds; what it leaves is what LOGIN does. -/
theorem usbLogin_done {res : BitVec 4} {P : State → Prop} (holds : ∀ h x h' x', x[1].pw.chars = r.data → x'[1].pw.chars = r.data →
    x'[1].on = s.nv.login[1].on → BitVec.ofNat 4 (loginRes (touched s h x)) = res ∧
      P (vendorDone 0x10 (loginRes (touched s h x)) (usbAnswer .status (loginDo 1 (touched s h' x'))))) :
    Completes s (.usbLogin r) 0x10 res P := by
  obtain ⟨h, x, h', x', act, chars, chars', on⟩ := req.logsIn (portLive_of_usbLive live) fresh
  obtain ⟨outcome, left⟩ := holds h x h' x' chars chars' on
  exact vendorOut_done live free (exec_usbLogin _ _) req.type req.form req.given.ge notProve (absurd · Bool.false_ne_true) act outcome
    (congrArg (·.reqCnt) (loginDo_um _ _)) left

theorem usbLogin_right (none : s.nv.lockNext = none) (unlocked : s.nv.vault.lockMin = 0) (set : s.nv.vault.hash ≠ List.replicate 32 0)
    (right : sha256 (s.nv.vault.salt ++ r.data) = s.nv.vault.hash) :
    Completes s (.usbLogin r) 0x10 0 fun t => t.nv.login[1].on = true := by
  refine usbLogin_done live free notProve req fresh fun h x h' x' chars chars' on => ?_
  have outcome : loginRes (touched s h x) = 0 := (loginRes_open (s := touched s h x) (lockTick_of_unlocked none) unlocked).trans
    (if_pos ((pwRight_touched set chars).trans (decide_eq_true right)))
  obtain ⟨login, -⟩ := loginDo_right (s := touched s h' x') (p := 1) (lockTick_of_unlocked none) unlocked
    ((pwRight_touched (h := h') set chars').trans (decide_eq_true right))
  exact ⟨by rw [outcome]; rfl, congrArg Login.on login⟩

theorem usbLogin_wrong (none : s.nv.lockNext = none) (unlocked : s.nv.vault.lockMin = 0) (set : s.nv.vault.hash ≠ List.replicate 32 0)
    (no : sha256 (s.nv.vault.salt ++ r.data) ≠ s.nv.vault.hash) (few : s.nv.vault.wrong.toNat < 4) :
    Completes s (.usbLogin r) 0x10 2 fun t =>
      t.nv.login[1].on = s.nv.login[1].on ∧ t.nv.vault.wrong = s.nv.vault.wrong + 1 := by
  refine usbLogin_done live free notProve req fresh fun h x h' x' chars chars' on => ?_
  have outcome : loginRes (touched s h x) = 2 := (loginRes_open (s := touched s h x) (lockTick_of_unlocked none) unlocked).trans
    (if_neg (ne_true_of_eq_false ((pwRight_touched set chars).trans (decide_eq_false no))))
  obtain ⟨login, vault⟩ := loginDo_counts (s := touched s h' x') (p := 1) (lockTick_of_unlocked none) unlocked
    ((pwRight_touched (h := h') set chars').trans (decide_eq_false no)) few
  exact ⟨by rw [outcome]; rfl, login.trans on, congrArg Vault.wrong vault⟩

theorem usbLogin_locked {t1 : Nat} (next : s.nv.lockNext = some t1) (early : s.now < t1) (locked : s.nv.vault.lockMin ≠ 0) :
    Completes s (.usbLogin r) 0x10 3 fun t => t.nv.login[1].on = s.nv.login[1].on ∧ t.nv.vault = s.nv.vault := by
  refine usbLogin_done live free notProve req fresh fun h x h' x' chars chars' on => ?_
  have outcome : loginRes (touched s h x) = 3 := loginRes_locked (s := touched s h x) (lockTick_of_early next early) locked
  have left : loginDo 1 (touched s h' x') = pwClear 1 (touched s h' x') := loginDo_locked (s := touched s h' x') (lockTick_of_early next early) locked
  rw [left, outcome]
  exact ⟨rfl, (congrArg Login.on (get_upd_same _ _ _)).trans on, rfl⟩

theorem usbSetpwd_stores (on : s.nv.login[1].on = true) (valid : pwValid r.data = true) (kept : s.nv.clog.lost = none)
    (whole : s.nv.clog.retiring = none) (room : s.nv.clog.recs.length + s.nv.clog.fill < 255 * (s.nv.clog.full + 1)) :
    Completes s (.usbSetpwd r true true) 0x12 0 fun t =>
      t.nv.vault.hash = sha256 (t.nv.vault.salt ++ r.data) ∧ t.nv.clog.recs.length = s.nv.clog.recs.length + 1 := by
  obtain ⟨h, x, buffered, same, chars⟩ := req.buffers (portLive_of_usbLive live) fresh
  obtain ⟨h', x', wrote, ages⟩ := usbWrite_touched (s := touched s h x) (a := 0x1A4) 0xC703 { entryOk := true, vaultOk := true }
    (portLive_of_usbLive live) rfl rfl
  obtain ⟨last, aged⟩ := ages 1
  have chars' : x'[1].pw.chars = r.data := (congrArg (·.pw.chars) aged).trans chars
  obtain ⟨u, written, -⟩ := clogWrite_room (s := touched s h x) (pwEntry 1 (touched s h x)) kept whole room
  have ok : setpwdOk 1 true (touched s h x) = true := by
    simp [setpwdOk, same, on, chars, valid, written]
  obtain ⟨salt, vault, -, recs, -, -, -, um⟩ := setpwdDo_stores (s := touched s h' x') (p := 1)
    ((congrArg Login.on aged).trans (same.trans on)) ((congrArg pwValid chars').trans valid) kept whole room
  refine vendorOut_done (t := setpwdDo 1 true true (touched s h' x')) (n := 0) live free (exec_usbSetpwd _ _ _ _) req.type req.form
    req.given.ge notProve (fun _ => on) ?_ rfl (congrArg (·.reqCnt) um) ⟨?_, recs⟩
  · rw [buffered, ok, wrote]
    rfl
  · refine (congrArg Vault.hash vault).trans (congrArg sha256 (congrArg₂ (· ++ ·) (congrArg Vault.salt vault).symm chars'))

end Passwords

/-! ### Reset (R719) -/

section Reset

variable {s : State}

/-- The reset falls due a millisecond after its request. -/
def resetDue (s : State) : State := setUm (fun u => { u with resetAt := some (s.now + 1000) }) s

theorem usbResetAsk_due (mode : s.sys.mode = .configure ∨ s.sys.mode = .safe) : usbResetAsk s = (0, resetDue s) := if_pos mode

theorem usbResetAsk_stops (service : inService s = true) (on : s.nv.login[1].on = true) (idle : s.sys.stop = none) :
    usbResetAsk s = (0, setSys (fun y => { y with stop := some .resetUsb }) (resetDue s)) := by
  obtain mode | mode := mode_of_inService service <;> simp [usbResetAsk, resetDue, mode, service, idle, on]

theorem usbResetAsk_out (service : inService s = true) (out : s.nv.login[1].on = false) : usbResetAsk s = (1, reqReject s) := by
  obtain mode | mode := mode_of_inService service <;> simp [usbResetAsk, mode, out]

end Reset

section ResetDevice

variable {s : State} (live : usbLive s = true) (free : s.um.held = false) (notProve : s.sys.mode ≠ .prove)

include live free notProve

theorem resetDevice_due (mode : s.sys.mode = .configure ∨ s.sys.mode = .safe) :
    Completes s (.resetDevice { rtype := 0x40, value := 0x52A7, index := 0x0C9E }) 0x41 0 fun t =>
      t.um.resetAt = some (s.now + 1000) ∧ t = { s with um := t.um } :=
  vendorOut_done live free (exec_resetDevice _ _) rfl rfl (Nat.zero_le _) notProve (absurd · Bool.false_ne_true)
    (usbResetAsk_due mode) rfl rfl ⟨rfl, rfl⟩

theorem resetDevice_stops (service : inService s = true) (on : s.nv.login[1].on = true) (idle : s.sys.stop = none) :
    Completes s (.resetDevice { rtype := 0x40, value := 0x52A7, index := 0x0C9E }) 0x41 0 fun t =>
      t.um.resetAt = some (s.now + 1000) ∧ t = { s with um := t.um, sys := { s.sys with stop := some .resetUsb } } :=
  vendorOut_done live free (exec_resetDevice _ _) rfl rfl (Nat.zero_le _) notProve (absurd · Bool.false_ne_true)
    (usbResetAsk_stops service on idle) rfl rfl ⟨rfl, rfl⟩

theorem resetDevice_out (service : inService s = true) (out : s.nv.login[1].on = false) :
    Completes s (.resetDevice { rtype := 0x40, value := 0x52A7, index := 0x0C9E }) 0x41 1 fun t =>
      t.um.resetAt = s.um.resetAt ∧ t.sys.reqRej = true ∧ t.sys.stop = s.sys.stop :=
  vendorOut_done live free (exec_resetDevice _ _) rfl rfl (Nat.zero_le _) notProve (absurd · Bool.false_ne_true)
    (usbResetAsk_out service out) rfl rfl ⟨rfl, rfl, rfl⟩

end ResetDevice

/-! ### Unlock (R290) -/

theorem exec_usbUnlock_channel (k : Fin 16) (s : State) : exec (.usbUnlock { rtype := 0x40, value := BitVec.ofNat 16 k.1 }) s =
    vendorOut 0x40 true false true { rtype := 0x40, value := BitVec.ofNat 16 k.1 }
      (fun s => (if !unlockWaits k s && unlockOk k s then 0 else 5, unlockRequest k true s)) s := by
  have number : (BitVec.ofNat 16 k.1).toNat = k.1 := Nat.mod_eq_of_lt (by omega)
  have channel : (⟨(BitVec.ofNat 16 k.1).toNat % 16, by omega⟩ : Fin 16) = k := Fin.ext (by dsimp only; omega)
  rw [exec_usbUnlock]
  simp only [channel]
  simp [number]

section Unlock

variable {s : State} {k : Fin 16} (live : usbLive s = true) (free : s.um.held = false) (notProve : s.sys.mode ≠ .prove)
variable (on : s.nv.login[1].on = true)

include live free notProve on

theorem usbUnlock_taken (may : MayUnlock k s) (noSto : s.dc.chan[k.1].lockSto = false) :
    Completes s (.usbUnlock { rtype := 0x40, value := BitVec.ofNat 16 k.1 }) 0x40 0 fun t =>
      t.dc.chan[k.1].unlocking = some true ∧ t.dc.unlock = s.dc.unlock :=
  vendorOut_done (n := 0) live free (exec_usbUnlock_channel k s) rfl rfl (Nat.zero_le _) notProve (fun _ => on)
    (congrArg₂ Prod.mk (if_pos (by simp [may.free, may.ok])) (unlockRequest_taken may noSto true)) rfl rfl
    ⟨congrArg Chan.unlocking (get_upd_same s.dc.chan k _), rfl⟩

theorem usbUnlock_staged (may : MayUnlock k s) (sto : s.dc.chan[k.1].lockSto = true) :
    Completes s (.usbUnlock { rtype := 0x40, value := BitVec.ofNat 16 k.1 }) 0x40 0 fun t =>
      t.dc = { s.dc with unlock := s.dc.unlock ++ [⟨k, true, s.now⟩] } :=
  vendorOut_done (n := 0) live free (exec_usbUnlock_channel k s) rfl rfl (Nat.zero_le _) notProve (fun _ => on)
    (congrArg₂ Prod.mk (if_pos (by simp [may.free, may.ok])) (unlockRequest_staged may sto true)) rfl rfl rfl

theorem usbUnlock_refused (refused : unlockWaits k s = true ∨ unlockOk k s = false) :
    Completes s (.usbUnlock { rtype := 0x40, value := BitVec.ofNat 16 k.1 }) 0x40 5 fun t =>
      t.dc = { s.dc with unlockRej := true } := by
  obtain ⟨e, n, frame⟩ := unlockRefuse_frame k true s
  have no : ¬ (!unlockWaits k s && unlockOk k s) = true := by
    obtain waits | notOk := refused
    · simp [waits]
    · simp [notOk]
  exact vendorOut_done (n := 5) live free (exec_usbUnlock_channel k s) rfl rfl (Nat.zero_le _) notProve (fun _ => on)
    (congrArg₂ Prod.mk (if_neg no) ((unlockRequest_refused refused true).trans frame)) rfl rfl rfl

end Unlock

/-! ### Staging and commit from USB -/

/-- A state in which a check code has been written. -/
def coded (s : State) (h : Hb) (x : Vector Login 2) (code : W32) : State :=
  { s with hb := h, nv := { s.nv with login := x, code := code } }

/-- A whole chunk in the buffer, with its select and the low half of its CRC. -/
def chunkReady (s : State) (h : Hb) (x : Vector Login 2) (k : Fin 1024) (ws : List Byte) (lo : W16) : State :=
  { s with hb := h, nv := { s.nv with
    login := x, ssel := BitVec.ofNat 16 k.1, chunk := { opened := true, words := wordsOf ws }, scrc0 := lo } }

section Ready

variable {s : State} {h : Hb} {x : Vector Login 2} {k : Fin 1024} {ws : List Byte} {lo : W16}

theorem chunkBytes_ready (even : ws.length % 2 = 0) : chunkBytes (chunkReady s h x k ws lo) = ws := flatMap_wordsOf ws even

theorem length_ready (whole : ws.length = 256) : (chunkReady s h x k ws lo).nv.chunk.words.length = 128 := by
  have twice := length_wordsOf ws (by rw [whole])
  rw [whole] at twice
  exact Nat.eq_of_mul_eq_mul_left (by decide : 0 < 2) twice

theorem chunkIx_ready : chunkIx (chunkReady s h x k ws lo) = k.1 := by
  have number : (BitVec.ofNat 16 k.1).toNat = k.1 := Nat.mod_eq_of_lt (by omega)
  have inside := k.2
  simp only [chunkIx, chunkReady, fld, number]
  omega

theorem chunkProg_ready : chunkProg (chunkReady s h x k ws lo) = false := by
  have number : (BitVec.ofNat 16 k.1).toNat = k.1 := Nat.mod_eq_of_lt (by omega)
  refine chunkProg_eq_false ?_
  simp only [chunkReady, fld, number]
  omega

/-- The writes of a STAGE request complete the chunk that was sent. -/
theorem stageWrites_chunk (live : portLive s = true) (k : Fin 1024) (crc : W32) (whole : ws.length = 256) : ∃ h x lo hi,
    stageWrites { rtype := 0x40, value := BitVec.ofNat 16 k.1, length := 260, data := ws ++ bytesLE 4 crc.toNat } true s =
      chunkEnd 1 hi true (chunkReady s h x k ws lo) ∧ join32 lo hi = crc ∧ x[1].on = s.nv.login[1].on := by
  have low : leAt (ws ++ bytesLE 4 crc.toNat) 256 2 = crc.toNat % 65536 :=
    (whole ▸ leAt_append ws (bytesLE 4 crc.toNat) 0 2 :).trans (leAt_bytesLE_low _)
  have high : leAt (ws ++ bytesLE 4 crc.toNat) 258 2 = crc.toNat / 65536 % 65536 :=
    (whole ▸ leAt_append ws (bytesLE 4 crc.toNat) 2 2 :).trans (leAt_bytesLE_high _)
  have words : (ws ++ bytesLE 4 crc.toNat).take 256 = ws := List.take_left' whole
  have fits : (wordsOf ws).length = 128 := length_ready (s := s) (h := s.hb) (x := s.nv.login) (k := k) (lo := 0) whole
  obtain ⟨h, x, written, on⟩ := stageWrites_frame (s := s) (BitVec.ofNat 16 k.1 ||| 0) (BitVec.ofNat 16 (crc.toNat % 65536))
    (ws := wordsOf ws) live fits.le
  rw [chunkSelect] at written
  obtain ⟨h', x', ended, ages⟩ := usbWrite_touched (s := chunkReady s h x k ws (BitVec.ofNat 16 (crc.toNat % 65536))) (a := 0x1A8)
    (BitVec.ofNat 16 (crc.toNat / 65536 % 65536)) { nvmOk := true } live rfl rfl
  obtain ⟨last, aged⟩ := ages 1
  refine ⟨h', x', _, _, ?_, join32_halves crc, (congrArg Login.on aged).trans on⟩
  unfold stageWrites
  dsimp only
  rw [low, high, words, if_neg (by decide), written]
  exact ended

end Ready

section Staging

variable {s : State} (live : usbLive s = true) (free : s.um.held = false) (mode : s.sys.mode = .configure)
variable (on : s.nv.login[1].on = true)

include live free mode on

theorem usbClearstage_starts (idle : s.nv.erasing = false) (noCommit : s.nv.commit = none) :
    Completes s (.usbClearstage { rtype := 0x40 }) 0x20 0 fun t => t.nv.erasing = true ∧ t.nv.dirD = [] := by
  have stages : stageMode s = true := by simp [stageMode, mode]
  have outcome : clearRes s = 0 := (if_neg (by simp [idle, noCommit])).trans (if_pos stages)
  obtain ⟨h, x, wrote, ages⟩ := usbWrite_touched (s := s) (a := 0x1A4) 0xC704 {} (portLive_of_usbLive live) rfl rfl
  obtain ⟨last, aged⟩ := ages 1
  have only := clearstageDo_starts (s := touched s h x) (p := 1) ((congrArg Login.on aged).trans on) stages idle noCommit
  exact vendorOut_done (n := 0) live free (exec_usbClearstage _ _) rfl rfl (Nat.zero_le _) (by simp [mode]) (fun _ => on)
    (congrArg₂ Prod.mk outcome wrote) rfl (congrArg (·.um.reqCnt) only) ⟨congrArg (·.nv.erasing) only, congrArg (·.nv.dirD) only⟩

/-- A COMMIT that nothing refuses starts with the code that was sent. -/
theorem usbCommit_starts (code : W32) (f : CommitFindings) (noCommit : s.nv.commit = none) (starts : commitRefused 1 s = none) :
    Completes s (.usbCommit { rtype := 0x40, length := 4, data := bytesLE 4 code.toNat } f) 0x22 0 fun t =>
      t.nv.result = 1 ∧ t.nv.code = code ∧ (t.nv.commit.map fun x => (x.port, x.code, x.start)) = some (1, code, s.now) := by
  have served := portLive_of_usbLive live
  obtain ⟨h, x, wrote, same⟩ := codeWrites_frame (s := s) (BitVec.ofNat 16 (leAt (bytesLE 4 code.toNat) 0 2))
    (BitVec.ofNat 16 (leAt (bytesLE 4 code.toNat) 2 2)) served
  have joined : join32 (BitVec.ofNat 16 (leAt (bytesLE 4 code.toNat) 0 2)) (BitVec.ofNat 16 (leAt (bytesLE 4 code.toNat) 2 2)) = code := by
    rw [leAt_bytesLE_low, leAt_bytesLE_high, join32_halves]
  rw [joined] at wrote
  have written : codeWrites { rtype := 0x40, length := 4, data := bytesLE 4 code.toNat } s = coded s h x code := wrote
  obtain ⟨h', x', sent, ages⟩ := usbWrite_touched (s := coded s h x code) (a := 0x1A4) 0xC705
    { entryOk := f.entryOk, vaultOk := f.vaultOk, ends := f.ends } served rfl rfl
  obtain ⟨last, aged⟩ := ages 1
  have outcome : commitRes (coded s h x code) = 0 := by
    unfold commitRes
    rw [if_neg (by simp [coded, noCommit]), show commitRefused 1 (coded s h x code) = none from
      (commitRefused_congr code same).trans starts]
  have started := commitDo_starts (s := touched (coded s h x code) h' x') (f := f) noCommit
    ((commitRefused_congr code ((congrArg Login.on aged).trans same)).trans starts)
  have act := (congrArg (fun u => (commitRes u, usbWrite 0x1A4 0xC705 { entryOk := f.entryOk, vaultOk := f.vaultOk, ends := f.ends } u))
    written).trans (congrArg₂ Prod.mk outcome (sent.trans started))
  exact vendorOut_done live free (exec_usbCommit { rtype := 0x40, length := 4, data := bytesLE 4 code.toNat } s f) rfl rfl
    (length_bytesLE 4 _).ge (by simp [mode]) (fun _ => on) act rfl rfl
    ⟨rfl, rfl, rfl⟩

/-- A chunk that is sent completes with the outcome of its completion. -/
theorem usbStage_done {k : Fin 1024} {ws : List Byte} {crc : W32} (whole : ws.length = 256) {res : BitVec 4} {P : State → Prop}
    (holds : ∀ h x lo hi, join32 lo hi = crc → x[1].on = true →
      BitVec.ofNat 4 (stageRes (chunkEnd 1 hi true (chunkReady s h x k ws lo))) = res ∧
        P (vendorDone 0x21 (stageRes (chunkEnd 1 hi true (chunkReady s h x k ws lo)))
          (usbAnswer .status (chunkEnd 1 hi true (chunkReady s h x k ws lo))))) :
    Completes s (.stage { rtype := 0x40, value := BitVec.ofNat 16 k.1, length := 260, data := ws ++ bytesLE 4 crc.toNat } true) 0x21 res P := by
  obtain ⟨h, x, lo, hi, written, joined, same⟩ := stageWrites_chunk (portLive_of_usbLive live) k crc whole
  obtain ⟨outcome, left⟩ := holds h x lo hi joined (same.trans on)
  have number : (BitVec.ofNat 16 k.1).toNat = k.1 := Nat.mod_eq_of_lt (by omega)
  exact vendorOut_done live free (exec_stage _ _ _) rfl (by simp [number]) (by simp [whole]) (by simp [mode]) (fun _ => on)
    (congrArg (fun u => (stageRes u, u)) written) outcome (congrArg (·.reqCnt) (chunkEnd_um _ _ _ _)) left

section Chunk

variable {k : Fin 1024} {ws : List Byte} {crc : W32} (whole : ws.length = 256)

include whole

theorem usbStage_stores (prep : s.nv.prep = true) (new : s.nv.dirD.contains k.1 = false) (noCommit : s.nv.commit = none)
    (right : crc32c ws = crc) :
    Completes s (.stage { rtype := 0x40, value := BitVec.ofNat 16 k.1, length := 260, data := ws ++ bytesLE 4 crc.toNat } true) 0x21 0
      fun t => t.nv.dirD = s.nv.dirD ++ [k.1] ∧ t.nv.sLast = 1 := by
  refine usbStage_done live free mode on whole fun h x lo hi joined login => ?_
  have even : ws.length % 2 = 0 := by rw [whole]
  have inOrder := chunkLast_stored (s := chunkReady s h x k ws lo) (p := 1) rfl (length_ready whole)
    (show crc32c (chunkBytes (chunkReady s h x k ws lo)) = join32 lo hi by rw [chunkBytes_ready even, joined]; exact right)
    chunkProg_ready (by rw [chunkIx_ready]; exact new) prep noCommit login (by simp [stageMode, chunkReady, mode])
  obtain ⟨h', ended⟩ := chunkEnd_stored inOrder chunkProg_ready
  rw [chunkIx_ready] at ended
  rw [ended]
  exact ⟨rfl, rfl, rfl⟩

theorem usbStage_rejects (wrong : crc32c ws ≠ crc) :
    Completes s (.stage { rtype := 0x40, value := BitVec.ofNat 16 k.1, length := 260, data := ws ++ bytesLE 4 crc.toNat } true) 0x21 5
      fun t => t.nv.dirD = s.nv.dirD ∧ t.nv.mem = s.nv.mem ∧ t.nv.sLast = 2 := by
  refine usbStage_done live free mode on whole fun h x lo hi joined login => ?_
  have even : ws.length % 2 = 0 := by rw [whole]
  have rejected := chunkLast_wrong (s := chunkReady s h x k ws lo) (p := 1) rfl (length_ready whole)
    (show crc32c (chunkBytes (chunkReady s h x k ws lo)) ≠ join32 lo hi by rw [chunkBytes_ready even, joined]; exact wrong) true
  obtain ⟨last, mem, dir, -⟩ := chunkEnd_rejects rejected (by decide)
  have outcome : stageRes (chunkEnd 1 hi true (chunkReady s h x k ws lo)) = 5 := by
    unfold stageRes
    rw [last]
    rfl
  rw [outcome]
  exact ⟨rfl, dir, mem, last⟩

end Chunk

end Staging

/-! ### Settling -/

/-- Settles O59: an OUT request that is allowed completes with the outcome of what it runs (`vendorOut_done`), one without its login as
not logged in; what it runs is the same command that the register writes of the port carry out. -/
theorem usbVendorRequestsCompleteWithAnOutcome : Obligations.UsbVendorRequestsCompleteWithAnOutcome := by
  intro s f w data len live free notProve l done info plain pw
  have served := portLive_of_usbLive live
  have runs : s.sys.mode ≠ .reset := by
    rintro reset
    simp [usbLive, reset] at live
  refine ⟨vendorIn_answers live free rfl rfl _, vendorIn_answers live free rfl rfl _,
    ⟨_, length_infoBytes s, ?modeByte, vendorIn_answers live free rfl rfl _⟩, ?readRegs, fun lo hi => ?scratch, fun lo hi => ?barred,
    fun on => ?logout, fun out least most given => ?setpwdOut, fun least most given even nonzero fresh => ?passwords,
    fun out => ?out, fun on mode idle noCommit => ?staging, ?logStart, ?logStop, fun k on => ?unlock, ?resetConfigure, ?resetIn, ?resetOut⟩
  case modeByte => rfl
  case readRegs =>
    have run := vendorIn_answers (code := 0x02) (r := { rtype := 0xC0, value := 0x006, length := 2 }) (ok := true) live free rfl rfl
      (usbReads 1 0x006)
    rw [usbReads_mode runs] at run
    exact ⟨_, run, rfl, rfl, rfl, rfl, rfl⟩
  case scratch =>
    obtain ⟨h, run⟩ := portWrite_counted (p := .usb) (a := 0x032) (f := wordWrite .usb 0x032 (hi ++ lo) w) served rfl
    have skips : usbSkips 1 (0x032 : W16).toNat = false := by decide
    refine vendorOut_done (n := 0) live free (exec_writeRegs_word _ _ _ _ _) rfl (regsForm_word (by decide)) ?_ notProve
      (absurd · Bool.false_ne_true) (congrArg₂ Prod.mk (if_neg (ne_true_of_eq_false skips)) run) rfl rfl
      ⟨rfl, congrArg PortRegs.scratch (setPort_port_same .usb { s with hb := h } _), rfl⟩
    exact Nat.le_refl 2
  case barred =>
    have skips : usbSkips 1 (0x007 : W16).toNat = true := by decide
    have skipped : usbWrite (0x007 : W16).toNat (hi ++ lo) w s = s := usbWrite_barred _ w (by decide)
    refine vendorOut_done (n := 5) live free (exec_writeRegs_word _ _ _ _ _) rfl (regsForm_word (by decide)) ?_ notProve
      (absurd · Bool.false_ne_true) (congrArg₂ Prod.mk (if_pos skips) skipped) rfl rfl rfl
    exact Nat.le_refl 2
  case logout =>
    obtain ⟨h, x, wrote, -⟩ := usbWrite_touched (s := s) (a := 0x1A4) 0xC702 {} served rfl rfl
    obtain ⟨y, only, off, -⟩ := endLogin_clears 1 1 (touched s h x)
    exact vendorOut_done live free (exec_usbLogout _ _) rfl rfl (Nat.zero_le _) notProve (absurd · Bool.false_ne_true)
      (congrArg (Prod.mk 0) wrote) rfl
      (congrArg (·.um.reqCnt) only) ((congrArg (·.nv.login[1].on) only).trans off)
  case logStart =>
    refine vendorOut_done live free (exec_logStart _ _) rfl rfl ?_ notProve (absurd · Bool.false_ne_true) rfl rfl rfl rfl
    exact Nat.le_refl 8
  case logStop => exact vendorOut_done live free (exec_logStop _ _) rfl rfl (Nat.zero_le _) notProve (absurd · Bool.false_ne_true) rfl rfl rfl rfl
  case setpwdOut =>
    exact vendorOut_notLoggedIn live free (exec_usbSetpwd _ _ _ _) rfl (by simp [pwForm, Machine.plain, pw, least, most]) given notProve
      rfl out rfl
  case passwords =>
    have req : PwRequest pw :=
      { type := rfl
        form := by simp [pwForm, Machine.plain, pw, least, most]
        given := given
        even := (congrArg (· % 2) given).trans even
        nonzero := nonzero }
    refine ⟨fun none unlocked set => ⟨fun right => ?right, fun no few => ?wrong⟩, fun t1 next early locked => ?locked,
      fun on valid kept whole room => ?setpwd⟩
    case right => exact usbLogin_right live free notProve req fresh none unlocked set right
    case wrong => exact usbLogin_wrong live free notProve req fresh none unlocked set no few
    case locked => exact usbLogin_locked live free notProve req fresh next early locked
    case setpwd => exact usbSetpwd_stores live free notProve req fresh on valid kept whole room
  case out =>
    refine ⟨?_, fun k => ?_⟩
    · exact vendorOut_notLoggedIn live free (exec_usbClearstage _ _) rfl rfl (Nat.zero_le _) notProve rfl out rfl
    · exact vendorOut_notLoggedIn live free (exec_usbUnlock _ _) rfl (by simp; omega) (Nat.zero_le _) notProve rfl out rfl
  case resetConfigure => exact resetDevice_due live free notProve
  case resetIn => exact resetDevice_stops live free notProve
  case resetOut => exact resetDevice_out live free notProve
  case unlock =>
    exact ⟨fun waits ok => usbUnlock_taken live free notProve on ⟨waits, ok⟩,
      fun waits ok => usbUnlock_staged live free notProve on ⟨waits, ok⟩,
      usbUnlock_refused live free notProve on⟩
  case staging =>
    exact ⟨usbClearstage_starts live free mode on idle noCommit,
      fun k ws crc whole prep new => ⟨usbStage_stores live free mode on whole prep new noCommit, usbStage_rejects live free mode on whole⟩,
      fun code => usbCommit_starts live free mode on code f noCommit⟩

end Sys2Proof.Machine
end
